-- ==== Sys2Proof/Word.lean ====
section
/-! DEFINITION. The word types of the Lemtin 1536 and their plainest readings (00_scope R4, R8; 03_numbers R63). -/

namespace Sys2Proof

/-- A 32-bit register or memory word (R10). -/
abbrev Word := BitVec 32

/-- One byte of memory. -/
abbrev Byte := BitVec 8

/-- An address held in a 64-bit pair; the architecture uses 57 virtual and 52 physical bits (R313). -/
abbrev Addr := BitVec 64

/-- `{hi, lo}`: the 64-bit value of a register pair (R63, R83). -/
def pairOf (lo hi : Word) : BitVec 64 := hi ++ lo

/-- Low word of a 64-bit value. -/
def lo32 (x : BitVec 64) : Word := x.setWidth 32

/-- High word of a 64-bit value. -/
def hi32 (x : BitVec 64) : Word := (x >>> 32).setWidth 32

end Sys2Proof
end

