-- ==== Sys2Proof/Syntax.lean ====
section
/-! DEFINITION. The instructions and events of the opcode table, one constructor each, and the operand types
they carry (02_encoding R41 to R55; 95_what_each_step_holds.md). -/

namespace Sys2Proof

/-- A group's role (R3, R130). -/
inductive Role where
  | copy | matrix | vector
  deriving DecidableEq, Repr

/-- The scope field of the cluster memory words and of copies (R54, R232). -/
inductive Scope where
  | team | cluster | device | system
  deriving DecidableEq, Repr

/-- Names one thread: its team's identifier, its team-local group number and its seat (R14, R319). -/
structure ThreadKey where
  team : Nat
  group : Nat
  seat : Nat
  deriving DecidableEq, Repr

/-- Where an error lies (R143, R154, R231, R354, R355). -/
inductive CacheError where
  /-- Data of a line in the shared cache. -/
  | data (pa : Nat)
  /-- Data of a memory stack or of the second tier. -/
  | memory (pa : Nat)
  /-- Data of a line in a cluster cache. -/
  | cluster (cluster pa : Nat)
  /-- Data of a coded tile's stored form in a cluster cache. -/
  | tile (cluster ctx tensor num : Nat)
  /-- Parity of a line of an L1, by its place in the list. -/
  | l1 (core i : Nat)
  /-- The tag of a dirty block of a stack's cache layer. -/
  | tagBlock (pa : Nat)
  | escrow (cluster line elem : Nat)
  | registry (word : Nat)
  | monitor (idx : Nat)
  | allowance (line : Nat)
  | register (k : ThreadKey) (r : Nat)
  | scratch (team w : Nat)
  /-- An error that has been corrected. -/
  | corrected
  deriving DecidableEq, Repr

/-- A machine that runs as three voted copies (R326, R384). -/
inductive VotedUnit where
  | walker (die : Nat)
  | dispatcher (die : Nat)
  | commandProcessor (cp : Nat)
  deriving DecidableEq, Repr

/-- A snapshot trigger source, in the order of the bits of %snapen (R387). -/
inductive SnapSource where
  | hostWrite | mctp | brk | fault
  deriving DecidableEq, Repr

/-- What a requester offers in NEGOTIATE_ALGORITHMS (R388). -/
structure SpdmOffer where
  ed25519 : Bool
  sha384 : Bool
  deriving DecidableEq, Repr

/-- One firmware image as the boot ROM sees it (R389): its header without the security version, that version, the image
and its two signatures. -/
structure FirmwareImage where
  header : List Byte
  image : List Byte
  edSig : Nat
  mlSig : Nat
  version : Nat
  deriving DecidableEq, Repr

/-- The two image slots of a firmware unit (R389). -/
structure FirmwareSlots where
  first : FirmwareImage
  second : FirmwareImage
  deriving DecidableEq, Repr

/-- The fields management writes to the inject register (R419). -/
structure InjectArg where
  arm : Bool
  afterCrc : Bool
  ctx : Nat
  nth : Nat
  byte : Nat
  bit : Nat
  deriving DecidableEq, Repr

/-- State of the PCI Express host link (R407): lanes and rate in MT/s while up. -/
inductive HostLink where
  | down
  | up (lanes rate : Nat)
  deriving DecidableEq, Repr

/-- What a remote operation asks of its target (R411, R413, R414). `chain` is the issuer's `v[d+1]` for the
checked copies and `record` its `S` for `rcpy.ckv`. -/
inductive RemoteBody where
  | copy (dst : Addr) (bytes : List Byte) (arrival : Addr) (chain record : Option Word)
  | signal (addr : Addr)
  | add (addr : Addr) (operand : Word)
  deriving DecidableEq, Repr

/-- What an incoming RoCE request asks to be written (R420). -/
inductive RdmaKind where
  | write | writeImm | send
  deriving DecidableEq, Repr

/-- An incoming RoCE request, and the address at which its bytes are written (R420). -/
structure RdmaRequest where
  kind : RdmaKind
  va : Addr
  deriving DecidableEq, Repr

/-- A remote operation as it reaches the target module (R409, R413): the issuing module, the issuer's name for
the operation, the context, the issuer's domain key and enable bit, and the request. -/
structure RemoteReq where
  source : Nat
  tag : Nat
  ctx : Nat
  key : BitVec 16
  enabled : Bool
  body : RemoteBody
  deriving DecidableEq, Repr

/-- How a remote operation ended, as its issuer learns it (R413, R418). -/
inductive RemoteReply where
  | done (value : Word)
  | linkFailed (detail : Nat) (vaddr : Addr)
  | remoteFault (detail code : Nat) (vaddr : Addr)
  deriving DecidableEq, Repr

/-- One instruction word or one event of the opcode table (spec/opcode_table.json; R41 to R55, R426, and
95_what_each_step_holds.md for the events). Register, predicate, flag, slot and handle numbers are naturals whose
range WellFormed checks; `e` is the E bit of R40. -/
inductive Instr where
  /-- `add` (R85). Writes a + b modulo 2^32 to v[d]. -/
  | add (d : Nat) (a : Nat) (b : Nat)
  /-- `sub` (R85). Writes a - b modulo 2^32 to v[d]. -/
  | sub (d : Nat) (a : Nat) (b : Nat)
  /-- `mul` (R85). Writes the low 32 bits of a × b to v[d]. -/
  | mul (d : Nat) (a : Nat) (b : Nat)
  /-- `mulh.i32` (R85). Writes the high word of the signed 64-bit product to v[d]. -/
  | mulhI32 (d : Nat) (a : Nat) (b : Nat)
  /-- `mulh.n32` (R85). Writes the high word of the unsigned 64-bit product to v[d]. -/
  | mulhN32 (d : Nat) (a : Nat) (b : Nat)
  /-- `mad` (R85). Writes a × b + d, or + c under the operand prefix, modulo 2^32. -/
  | mad (d : Nat) (a : Nat) (b : Nat)
  /-- `div.i32` (R86). Signed division truncating toward zero, with the defined results for division by zero and overflow. -/
  | divI32 (d : Nat) (a : Nat) (b : Nat)
  /-- `div.n32` (R86). Unsigned division, 0xFFFF_FFFF for division by zero. -/
  | divN32 (d : Nat) (a : Nat) (b : Nat)
  /-- `rem.i32` (R86). Signed remainder with the sign of the dividend. -/
  | remI32 (d : Nat) (a : Nat) (b : Nat)
  /-- `rem.n32` (R86). Unsigned remainder; a for division by zero. -/
  | remN32 (d : Nat) (a : Nat) (b : Nat)
  /-- `min.i32` (R85). Writes the signed minimum of a and b. -/
  | minI32 (d : Nat) (a : Nat) (b : Nat)
  /-- `min.n32` (R85). Writes the unsigned minimum of a and b. -/
  | minN32 (d : Nat) (a : Nat) (b : Nat)
  /-- `max.i32` (R85). Writes the signed maximum of a and b. -/
  | maxI32 (d : Nat) (a : Nat) (b : Nat)
  /-- `max.n32` (R85). Writes the unsigned maximum of a and b. -/
  | maxN32 (d : Nat) (a : Nat) (b : Nat)
  /-- `and` (R87). Writes a AND b. -/
  | and (d : Nat) (a : Nat) (b : Nat)
  /-- `or` (R87). Writes a OR b. -/
  | or (d : Nat) (a : Nat) (b : Nat)
  /-- `xor` (R87). Writes a XOR b. -/
  | xor (d : Nat) (a : Nat) (b : Nat)
  /-- `andn` (R87). Writes a AND NOT b. -/
  | andn (d : Nat) (a : Nat) (b : Nat)
  /-- `shl` (R87). Shifts a left by uint(b), giving 0 for counts of 32 or more. -/
  | shl (d : Nat) (a : Nat) (b : Nat)
  /-- `shr` (R87). Shifts a right with zero fill. -/
  | shr (d : Nat) (a : Nat) (b : Nat)
  /-- `sar` (R87). Shifts a right filling with its sign bit. -/
  | sar (d : Nat) (a : Nat) (b : Nat)
  /-- `rotl` (R87). Rotates a left by uint(b) mod 32. -/
  | rotl (d : Nat) (a : Nat) (b : Nat)
  /-- `fsh` (R87). Funnel-shifts {a, b} right by the old v[d] mod 64. -/
  | fsh (d : Nat) (a : Nat) (b : Nat)
  /-- `bfx.i32` (R88). Extracts a sign-extended bit field described by v[b]. -/
  | bfxI32 (d : Nat) (a : Nat) (b : Nat)
  /-- `bfx.n32` (R88). Extracts a zero-extended bit field described by v[b]. -/
  | bfxN32 (d : Nat) (a : Nat) (b : Nat)
  /-- `bfi` (R88). Inserts the low bits of a into a field of v[d]. -/
  | bfi (d : Nat) (a : Nat) (b : Nat)
  /-- `sel` (R90). Selects a or b by the operand prefix's predicate. -/
  | sel (d : Nat) (a : Nat) (b : Nat)
  /-- `lea1` (R92). Forms a 64-bit address pair(a) + b. -/
  | lea1 (d : Nat) (a : Nat) (b : Nat)
  /-- `lea2` (R92). Forms a 64-bit address pair(a) + 2·b. -/
  | lea2 (d : Nat) (a : Nat) (b : Nat)
  /-- `lea4` (R92). Forms a 64-bit address pair(a) + 4·b. -/
  | lea4 (d : Nat) (a : Nat) (b : Nat)
  /-- `lea8` (R92). Forms a 64-bit address pair(a) + 8·b. -/
  | lea8 (d : Nat) (a : Nat) (b : Nat)
  /-- `lea16` (R92). Forms a 64-bit address pair(a) + 16·b. -/
  | lea16 (d : Nat) (a : Nat) (b : Nat)
  /-- `addi` (R85). Adds a sign-extended 8-bit immediate to a. -/
  | addi (d : Nat) (a : Nat) (i : BitVec 8)
  /-- `shli` (R87). Shifts left by an immediate count. -/
  | shli (d : Nat) (a : Nat) (n : Nat)
  /-- `shri` (R87). Shifts right with zero fill by an immediate count. -/
  | shri (d : Nat) (a : Nat) (n : Nat)
  /-- `sari` (R87). Shifts right arithmetically by an immediate count. -/
  | sari (d : Nat) (a : Nat) (n : Nat)
  /-- `movi` (R91). Writes a zero-extended 16-bit immediate to v[d]. -/
  | movi (d : Nat) (i : BitVec 16)
  /-- `movhi` (R91). Replaces the high half of v[d] with a 16-bit immediate. -/
  | movhi (d : Nat) (i : BitVec 16)
  /-- `add64` (R93). Adds two register pairs modulo 2^64. -/
  | add64 (d : Nat) (a : Nat) (b : Nat)
  /-- `sub64` (R93). Subtracts two register pairs modulo 2^64. -/
  | sub64 (d : Nat) (a : Nat) (b : Nat)
  /-- `mul64` (R93). Multiplies two register pairs, keeping 64 bits. -/
  | mul64 (d : Nat) (a : Nat) (b : Nat)
  /-- `shl64` (R93). Shifts a pair left. -/
  | shl64 (d : Nat) (a : Nat) (b : Nat)
  /-- `shr64` (R93). Shifts a pair right with zero fill. -/
  | shr64 (d : Nat) (a : Nat) (b : Nat)
  /-- `sar64` (R93). Shifts a pair right arithmetically. -/
  | sar64 (d : Nat) (a : Nat) (b : Nat)
  /-- `cmp.eq` (R94). Sets a predicate to a = b. -/
  | cmpEq (p : Nat) (a : Nat) (b : Nat)
  /-- `cmp.ne` (R94). Sets a predicate to a ≠ b. -/
  | cmpNe (p : Nat) (a : Nat) (b : Nat)
  /-- `cmp.lt.i32` (R94). Sets a predicate to a signed less-than compare. -/
  | cmpLtI32 (p : Nat) (a : Nat) (b : Nat)
  /-- `cmp.lt.n32` (R94). Sets a predicate to an unsigned less-than compare. -/
  | cmpLtN32 (p : Nat) (a : Nat) (b : Nat)
  /-- `cmp.le.i32` (R94). Sets a predicate to a signed less-or-equal compare. -/
  | cmpLeI32 (p : Nat) (a : Nat) (b : Nat)
  /-- `cmp.le.n32` (R94). Sets a predicate to an unsigned less-or-equal compare. -/
  | cmpLeN32 (p : Nat) (a : Nat) (b : Nat)
  /-- `cmp64.eq` (R94). Sets a predicate to equality of two pairs. -/
  | cmp64Eq (p : Nat) (a : Nat) (b : Nat)
  /-- `cmp64.lt.i64` (R94). Sets a predicate to a signed 64-bit less-than compare. -/
  | cmp64LtI64 (p : Nat) (a : Nat) (b : Nat)
  /-- `cmp64.lt.n64` (R94). Sets a predicate to an unsigned 64-bit less-than compare. -/
  | cmp64LtN64 (p : Nat) (a : Nat) (b : Nat)
  /-- `cmpi.eq` (R94). Sets a predicate to a equal to a sign-extended immediate. -/
  | cmpiEq (p : Nat) (a : Nat) (i : BitVec 8)
  /-- `cmpi.lt.i32` (R94). Sets a predicate to a signed less than an immediate. -/
  | cmpiLtI32 (p : Nat) (a : Nat) (i : BitVec 8)
  /-- `pand` (R94). Sets a predicate to the AND of two predicates. -/
  | pand (p : Nat) (a : Nat) (b : Nat)
  /-- `por` (R94). Sets a predicate to the OR of two predicates. -/
  | por (p : Nat) (a : Nat) (b : Nat)
  /-- `pxor` (R94). Sets a predicate to the XOR of two predicates. -/
  | pxor (p : Nat) (a : Nat) (b : Nat)
  /-- `pandn` (R94). Sets a predicate to pa AND NOT pb. -/
  | pandn (p : Nat) (a : Nat) (b : Nat)
  /-- `pnot` (R94). Sets a predicate to NOT pa. -/
  | pnot (p : Nat) (a : Nat)
  /-- `pmov` (R94). Copies a predicate. -/
  | pmov (p : Nat) (a : Nat)
  /-- `mov` (R89). Copies v[a] to v[d]. -/
  | mov (d : Nat) (a : Nat)
  /-- `not` (R89). Writes the bitwise complement of a. -/
  | not (d : Nat) (a : Nat)
  /-- `abs` (R89). Writes the absolute value of signed a modulo 2^32. -/
  | abs (d : Nat) (a : Nat)
  /-- `neg` (R89). Writes 0 - a. -/
  | neg (d : Nat) (a : Nat)
  /-- `clz` (R89). Counts leading zero bits. -/
  | clz (d : Nat) (a : Nat)
  /-- `ctz` (R89). Counts trailing zero bits. -/
  | ctz (d : Nat) (a : Nat)
  /-- `popc` (R89). Counts one bits. -/
  | popc (d : Nat) (a : Nat)
  /-- `brev` (R89). Reverses the bit order of a. -/
  | brev (d : Nat) (a : Nat)
  /-- `pget` (R89). Writes the eight predicates as a zero-extended byte. -/
  | pget (d : Nat)
  /-- `rdk` (R89). Reads team constant kN into v[d]. -/
  | rdk (d : Nat) (k : Nat)
  /-- `setx` (R95). Writes a signed 16-bit immediate to an index register. -/
  | setx (x : Nat) (i : BitVec 16)
  /-- `incx` (R95). Adds a signed immediate to an index register modulo 2^16. -/
  | incx (x : Nat) (i : BitVec 16)
  /-- `rdx` (R96). Reads register v[xN + imm] into v[d], checking the index bound. -/
  | rdx (d : Nat) (x : Nat) (i : BitVec 8)
  /-- `wrx` (R96). Writes v[s] to register v[xN + imm], checking the index bound. -/
  | wrx (s : Nat) (x : Nat) (i : BitVec 8)
  /-- `bp` (R98). Branches per thread when the predicate is true. -/
  | bp (p : Nat) (o : BitVec 21)
  /-- `bnp` (R98). Branches per thread when the predicate is false. -/
  | bnp (p : Nat) (o : BitVec 21)
  /-- `br` (R98). Branches unconditionally; bp with p7. -/
  | br (o : BitVec 21)
  /-- `call` (R99). Writes the return address to a link pair and branches. -/
  | call (j : Nat) (o : BitVec 21)
  /-- `nop` (R104). Has no effect. -/
  | nop
  /-- `exit` (R34). Waits for every flag to clear, then removes the thread and frees the group and slot when due. -/
  | exit
  /-- `yield` (R102). Progress point that clears the watchdog and stops the thread for a pending pre-emption. -/
  | yield
  /-- `trap` (R105). Raises TRAP_INSTR with the immediate in detail. -/
  | trap (n : Nat)
  /-- `brk` (R105). Raises BREAKPOINT and may trigger a snapshot. -/
  | brk (n : Nat)
  /-- `ret` (R100). Jumps to the address in a pair, marked as a return. -/
  | ret (a : Nat)
  /-- `jr` (R100). Jumps to the address in a pair. -/
  | jr (a : Nat)
  /-- `tret` (R106). Ends the trap handler and resumes at %fpc, replaying a deferred load where due. -/
  | tret
  /-- `rdsr` (R107). Reads a system register into v[d]. -/
  | rdsr (d : Nat) (n : Nat)
  /-- `wrsr` (R107). Writes a system register that has no behaviour of its own from v[s]. -/
  | wrsr (s : Nat) (n : Nat)
  /-- `rdcyc` (R108). Writes the core's 64-bit cycle counter to a pair. -/
  | rdcyc (d : Nat)
  /-- `prng` (R109). Computes Philox-4x32-10 and writes output word i. -/
  | prng (d : Nat) (a : Nat) (i : Nat)
  /-- `spawn` (R101). Places a new thread in the till for its entry and role, or parks the spawner. -/
  | spawn (r : Role) (s : Nat) (o : BitVec 15)
  /-- `spawnf` (R101). Spawns a thread and then makes its till due. -/
  | spawnf (r : Role) (s : Nat) (o : BitVec 15)
  /-- `fadd` (R113). FP32 add rounded to nearest even. -/
  | fadd (d : Nat) (a : Nat) (b : Nat)
  /-- `fadd.rz` (R113). FP32 add rounded toward zero. -/
  | faddRz (d : Nat) (a : Nat) (b : Nat)
  /-- `fsub` (R113). FP32 subtract rounded to nearest even. -/
  | fsub (d : Nat) (a : Nat) (b : Nat)
  /-- `fsub.rz` (R113). FP32 subtract rounded toward zero. -/
  | fsubRz (d : Nat) (a : Nat) (b : Nat)
  /-- `fmul` (R113). FP32 multiply rounded to nearest even. -/
  | fmul (d : Nat) (a : Nat) (b : Nat)
  /-- `fmul.rz` (R113). FP32 multiply rounded toward zero. -/
  | fmulRz (d : Nat) (a : Nat) (b : Nat)
  /-- `ffma` (R113). FP32 fused multiply-add rounded once to nearest even. -/
  | ffma (d : Nat) (a : Nat) (b : Nat)
  /-- `ffma.rz` (R113). FP32 fused multiply-add rounded once toward zero. -/
  | ffmaRz (d : Nat) (a : Nat) (b : Nat)
  /-- `fmin` (R114). minimumNumber of two FP32 values. -/
  | fmin (d : Nat) (a : Nat) (b : Nat)
  /-- `fmin.nan` (R114). minimum of two FP32 values, NaN-propagating. -/
  | fminNan (d : Nat) (a : Nat) (b : Nat)
  /-- `fmax` (R114). maximumNumber of two FP32 values. -/
  | fmax (d : Nat) (a : Nat) (b : Nat)
  /-- `fmax.nan` (R114). maximum of two FP32 values, NaN-propagating. -/
  | fmaxNan (d : Nat) (a : Nat) (b : Nat)
  /-- `hadd2.bf16` (R115). Adds two packed BF16 pairs, each rounded once. -/
  | hadd2Bf16 (d : Nat) (a : Nat) (b : Nat)
  /-- `hmul2.bf16` (R115). Multiplies two packed BF16 pairs. -/
  | hmul2Bf16 (d : Nat) (a : Nat) (b : Nat)
  /-- `hfma2.bf16` (R115). Packed BF16 fused multiply-add. -/
  | hfma2Bf16 (d : Nat) (a : Nat) (b : Nat)
  /-- `hmax2.bf16` (R115). Packed BF16 maximumNumber. -/
  | hmax2Bf16 (d : Nat) (a : Nat) (b : Nat)
  /-- `fcmp.eq` (R116). Sets a predicate to FP32 equality. -/
  | fcmpEq (p : Nat) (a : Nat) (b : Nat)
  /-- `fcmp.lt` (R116). Sets a predicate to FP32 less-than. -/
  | fcmpLt (p : Nat) (a : Nat) (b : Nat)
  /-- `fcmp.le` (R116). Sets a predicate to FP32 less-or-equal. -/
  | fcmpLe (p : Nat) (a : Nat) (b : Nat)
  /-- `fcmp.un` (R116). Sets a predicate when either operand is NaN. -/
  | fcmpUn (p : Nat) (a : Nat) (b : Nat)
  /-- `fabs` (R117). Clears the FP32 sign bit; NaN gives the canonical NaN. -/
  | fabs (d : Nat) (a : Nat)
  /-- `fneg` (R117). Inverts the FP32 sign bit; NaN gives the canonical NaN. -/
  | fneg (d : Nat) (a : Nat)
  /-- `fclass` (R117). Writes a one-hot class mask of an FP32 value. -/
  | fclass (d : Nat) (a : Nat)
  /-- `cvt.f32.i32` (R118). Converts int32 to FP32. -/
  | cvtF32I32 (d : Nat) (a : Nat)
  /-- `cvt.f32.n32` (R118). Converts n32 to FP32. -/
  | cvtF32N32 (d : Nat) (a : Nat)
  /-- `cvt.i32.f32.rz` (R118). Converts FP32 to int32 toward zero with saturation. -/
  | cvtI32F32Rz (d : Nat) (a : Nat)
  /-- `cvt.i32.f32.rne` (R118). Converts FP32 to int32 to nearest even with saturation. -/
  | cvtI32F32Rne (d : Nat) (a : Nat)
  /-- `cvt.n32.f32.rz` (R118). Converts FP32 to n32 toward zero with saturation. -/
  | cvtN32F32Rz (d : Nat) (a : Nat)
  /-- `cvt.bf16x2.f32` (R119). Narrows two FP32 values to packed BF16. -/
  | cvtBf16x2F32 (d : Nat) (a : Nat)
  /-- `cvt.f32.bf16.lo` (R119). Widens the low BF16 element to FP32. -/
  | cvtF32Bf16Lo (d : Nat) (a : Nat)
  /-- `cvt.f32.bf16.hi` (R119). Widens the high BF16 element to FP32. -/
  | cvtF32Bf16Hi (d : Nat) (a : Nat)
  /-- `cvt.e4m3x4.f32.sat` (R120). Narrows four FP32 values to E4M3 with saturation. -/
  | cvtE4m3x4F32Sat (d : Nat) (a : Nat)
  /-- `cvt.e4m3x4.f32.nan` (R120). Narrows four FP32 values to E4M3, overflow giving NaN. -/
  | cvtE4m3x4F32Nan (d : Nat) (a : Nat)
  /-- `cvt.e5m2x4.f32.sat` (R120). Narrows four FP32 values to E5M2 with saturation. -/
  | cvtE5m2x4F32Sat (d : Nat) (a : Nat)
  /-- `cvt.e5m2x4.f32.inf` (R120). Narrows four FP32 values to E5M2, overflow giving infinity. -/
  | cvtE5m2x4F32Inf (d : Nat) (a : Nat)
  /-- `cvt.f32.e4m3` (R121). Widens E4M3 byte i to FP32. -/
  | cvtF32E4m3 (d : Nat) (a : Nat) (i : Nat)
  /-- `cvt.f32.e5m2` (R121). Widens E5M2 byte i to FP32. -/
  | cvtF32E5m2 (d : Nat) (a : Nat) (i : Nat)
  /-- `cvt.f32.e2m1` (R121). Widens E2M1 nibble i to FP32. -/
  | cvtF32E2m1 (d : Nat) (a : Nat) (i : Nat)
  /-- `rcp` (R124). Tracked correctly rounded reciprocal. -/
  | rcp (e : Bool) (d : Nat) (a : Nat)
  /-- `rsqrt` (R124). Tracked faithful reciprocal square root. -/
  | rsqrt (e : Bool) (d : Nat) (a : Nat)
  /-- `sqrt` (R124). Tracked correctly rounded square root. -/
  | sqrt (e : Bool) (d : Nat) (a : Nat)
  /-- `exp2` (R124). Tracked faithful 2^x. -/
  | exp2 (e : Bool) (d : Nat) (a : Nat)
  /-- `log2` (R124). Tracked faithful log2 x. -/
  | log2 (e : Bool) (d : Nat) (a : Nat)
  /-- `sinpi` (R124). Tracked faithful sin(πx). -/
  | sinpi (e : Bool) (d : Nat) (a : Nat)
  /-- `cospi` (R124). Tracked faithful cos(πx). -/
  | cospi (e : Bool) (d : Nat) (a : Nat)
  /-- `tanh` (R124). Tracked faithful tanh x. -/
  | tanh (e : Bool) (d : Nat) (a : Nat)
  /-- `cvt.e2m1x8.f32` (R122). Packs eight FP32 values into E2M1 under an E8M0 scale. -/
  | cvtE2m1x8F32 (d : Nat) (a : Nat) (b : Nat)
  /-- `lds.b32` (R165). Loads 4 scratchpad bytes, parking on an absent line. -/
  | ldsB32 (d : Nat) (b : Nat) (i : BitVec 8)
  /-- `sts.b32` (R165). Stores 4 bytes to scratchpad. -/
  | stsB32 (d : Nat) (b : Nat) (i : BitVec 8)
  /-- `ld.b32` (R172). Tracked global load of 4 bytes. -/
  | ldB32 (e : Bool) (d : Nat) (b : Nat) (i : BitVec 8)
  /-- `st.b32` (R172). Tracked global store of 4 bytes. -/
  | stB32 (e : Bool) (d : Nat) (b : Nat) (i : BitVec 8)
  /-- `lds.b128` (R165). Loads 16 scratchpad bytes into a block of 4 registers. -/
  | ldsB128 (d : Nat) (b : Nat) (i : BitVec 8)
  /-- `sts.b128` (R165). Stores a block of 4 registers to scratchpad. -/
  | stsB128 (d : Nat) (b : Nat) (i : BitVec 8)
  /-- `lds.n8` (R165). Loads a scratchpad byte zero-extended. -/
  | ldsN8 (d : Nat) (b : Nat)
  /-- `lds.i8` (R165). Loads a scratchpad byte sign-extended. -/
  | ldsI8 (d : Nat) (b : Nat)
  /-- `lds.n16` (R165). Loads a scratchpad halfword zero-extended. -/
  | ldsN16 (d : Nat) (b : Nat)
  /-- `lds.i16` (R165). Loads a scratchpad halfword sign-extended. -/
  | ldsI16 (d : Nat) (b : Nat)
  /-- `lds.b64` (R165). Loads 8 scratchpad bytes into a pair. -/
  | ldsB64 (d : Nat) (b : Nat)
  /-- `sts.b8` (R165). Stores a byte to scratchpad. -/
  | stsB8 (d : Nat) (b : Nat)
  /-- `sts.b16` (R165). Stores a halfword to scratchpad. -/
  | stsB16 (d : Nat) (b : Nat)
  /-- `sts.b64` (R165). Stores a pair to scratchpad. -/
  | stsB64 (d : Nat) (b : Nat)
  /-- `prs.test` (R167). Sets a predicate to a scratchpad line's presence bit without parking. -/
  | prsTest (p : Nat) (b : Nat)
  /-- `stash.map` (R168). Maps a stash window from scratchpad to a virtual range. -/
  | stashMap (e : Bool) (d : Nat) (b : Nat)
  /-- `stash.unmap` (R169). Writes back a stash window's dirty bytes and invalidates it. -/
  | stashUnmap (e : Bool) (d : Nat)
  /-- `stash.wb` (R169). Writes back a stash window's dirty bytes, leaving lines unfilled. -/
  | stashWb (e : Bool) (d : Nat)
  /-- `ld.n8` (R172). Global byte load, zero-extended. -/
  | ldN8 (e : Bool) (d : Nat) (b : Nat)
  /-- `ld.i8` (R172). Global byte load, sign-extended. -/
  | ldI8 (e : Bool) (d : Nat) (b : Nat)
  /-- `ld.n16` (R172). Global halfword load, zero-extended. -/
  | ldN16 (e : Bool) (d : Nat) (b : Nat)
  /-- `ld.i16` (R172). Global halfword load, sign-extended. -/
  | ldI16 (e : Bool) (d : Nat) (b : Nat)
  /-- `ld.b64` (R172). Global 8-byte load into a pair. -/
  | ldB64 (e : Bool) (d : Nat) (b : Nat)
  /-- `ld.b128` (R172). Global 16-byte load into a block. -/
  | ldB128 (e : Bool) (d : Nat) (b : Nat)
  /-- `st.b8` (R172). Global byte store. -/
  | stB8 (e : Bool) (d : Nat) (b : Nat)
  /-- `st.b16` (R172). Global halfword store. -/
  | stB16 (e : Bool) (d : Nat) (b : Nat)
  /-- `st.b64` (R172). Global 8-byte store from a pair. -/
  | stB64 (e : Bool) (d : Nat) (b : Nat)
  /-- `st.b128` (R172). Global 16-byte store from a block. -/
  | stB128 (e : Bool) (d : Nat) (b : Nat)
  /-- `sget.at` (R160). Each seat of the participation set receives v[a] of the selected seat. -/
  | sgetAt (d : Nat) (a : Nat) (m : Nat)
  /-- `sget.xor` (R160). Exchanges v[a] with the seat at own seat XOR the selector. -/
  | sgetXor (d : Nat) (a : Nat) (m : Nat)
  /-- `sget.below` (R160). Takes v[a] from the seat a distance below. -/
  | sgetBelow (d : Nat) (a : Nat) (m : Nat)
  /-- `sget.above` (R160). Takes v[a] from the seat a distance above. -/
  | sgetAbove (d : Nat) (a : Nat) (m : Nat)
  /-- `redux.add.i32` (R162). Integer sum of v[a] over the participation set. -/
  | reduxAddI32 (d : Nat) (a : Nat) (m : Nat)
  /-- `redux.add.f32` (R162). FP32 sum of v[a] in ascending seat order. -/
  | reduxAddF32 (d : Nat) (a : Nat) (m : Nat)
  /-- `redux.min.i32` (R162). Signed minimum over the participation set. -/
  | reduxMinI32 (d : Nat) (a : Nat) (m : Nat)
  /-- `redux.max.i32` (R162). Signed maximum over the participation set. -/
  | reduxMaxI32 (d : Nat) (a : Nat) (m : Nat)
  /-- `scan.add.i32` (R162). Inclusive integer prefix sum by seat. -/
  | scanAddI32 (d : Nat) (a : Nat) (m : Nat)
  /-- `sample` (R163). Draws one seat with probability proportional to its weight. -/
  | sample (d : Nat) (a : Nat) (m : Nat)
  /-- `match` (R161). Writes the mask of seats whose v[a] equals the thread's own. -/
  | matchSeats (d : Nat) (a : Nat) (m : Nat)
  /-- `ballot` (R161). Writes the mask of seats whose predicate is set. -/
  | ballot (d : Nat) (p : Nat) (m : Nat)
  /-- `seat` (R159). Writes the mask of the participation set to every participant. -/
  | seat (d : Nat) (m : Nat)
  /-- `vote.any` (R161). Sets a predicate if any participant's predicate is set. -/
  | voteAny (p : Nat) (q : Nat) (m : Nat)
  /-- `vote.all` (R161). Sets a predicate if every participant's predicate is set. -/
  | voteAll (p : Nat) (q : Nat) (m : Nat)
  /-- `vote.eq` (R161). Sets a predicate if all participants' predicates are equal. -/
  | voteEq (p : Nat) (q : Nat) (m : Nat)
  /-- `bar.init` (R182). Initialises a barrier register's expected count, keeping its phase. -/
  | barInit (a : Nat) (n : Nat)
  /-- `bar.arr` (R179). Adds arrivals to a barrier register and tests for phase completion. -/
  | barArr (a : Nat) (n : Nat)
  /-- `bar.exp` (R179). Adds expected bytes to a barrier register. -/
  | barExp (a : Nat) (n : Nat)
  /-- `bar.arx` (R179). Adds arrivals and expected bytes as one update. -/
  | barArx (d : Nat) (a : Nat) (n : Nat)
  /-- `bar.wait` (R181). Parks until the named phase has completed. -/
  | barWait (a : Nat) (n : Nat)
  /-- `bar.try` (R181). Sets a predicate to whether the named phase has completed. -/
  | barTry (p : Nat) (a : Nat) (n : Nat)
  /-- `bar.par` (R183). Sets a predicate by comparing phase parity. -/
  | barPar (p : Nat) (a : Nat) (n : Nat)
  /-- `bar.inv` (R182). Invalidates a barrier register that is not busy. -/
  | barInv (n : Nat)
  /-- `ring.acq` (R187). Parks until use n's slot is freed, then returns the slot number. -/
  | ringAcq (d : Nat) (a : Nat) (s : Nat)
  /-- `ring.com` (R187). Arrives at the ring's full register. -/
  | ringCom (a : Nat) (s : Nat)
  /-- `ring.get` (R187). Parks until use n's slot is filled, then returns the slot number. -/
  | ringGet (d : Nat) (a : Nat) (s : Nat)
  /-- `ring.rel` (R187). Arrives at the ring's empty register. -/
  | ringRel (a : Nat) (s : Nat)
  /-- `cpy` (R189). Copies bytes between memory and scratchpad on the copy unit. -/
  | cpy (e : Bool) (d : Nat) (a : Nat) (b : Nat)
  /-- `cpy.peer` (R190). Copies local scratchpad bytes to a peer team's scratchpad. -/
  | cpyPeer (e : Bool) (d : Nat) (a : Nat) (b : Nat)
  /-- `cpw` (R191). Gathers a convolution window into scratchpad from a layout record. -/
  | cpw (e : Bool) (d : Nat) (a : Nat) (b : Nat)
  /-- `cpl` (R192). Performs a list of copy commands. -/
  | cpl (e : Bool) (a : Nat) (b : Nat)
  /-- `mmq.i4.e4m3` (R196). Validates coded int4 weights at issue and queues an E4M3 matrix accumulation. -/
  | mmqI4E4m3 (e : Bool) (a : Nat) (p : Nat) (s : Nat)
  /-- `mmq.i4.e5m2` (R196). Quantised matrix operation, int4 weights, E5M2 activations. -/
  | mmqI4E5m2 (e : Bool) (a : Nat) (p : Nat) (s : Nat)
  /-- `mmq.i4.bf16` (R196). Quantised matrix operation, int4 weights, BF16 activations. -/
  | mmqI4Bf16 (e : Bool) (a : Nat) (p : Nat) (s : Nat)
  /-- `mmq.i3.e4m3` (R196). Quantised matrix operation, int3 weights, E4M3 activations. -/
  | mmqI3E4m3 (e : Bool) (a : Nat) (p : Nat) (s : Nat)
  /-- `mmq.i3.bf16` (R196). Quantised matrix operation, int3 weights, BF16 activations. -/
  | mmqI3Bf16 (e : Bool) (a : Nat) (p : Nat) (s : Nat)
  /-- `mmq.f4.e4m3` (R196). Quantised matrix operation, E2M1 weights with E8M0 scales, E4M3 activations. -/
  | mmqF4E4m3 (e : Bool) (a : Nat) (p : Nat) (s : Nat)
  /-- `mmq.f4.bf16` (R196). Quantised matrix operation, E2M1 weights, BF16 activations. -/
  | mmqF4Bf16 (e : Bool) (a : Nat) (p : Nat) (s : Nat)
  /-- `mmf.e4m3` (R196). Matrix operation with E4M3 weights from registers. -/
  | mmfE4m3 (e : Bool) (a : Nat) (p : Nat)
  /-- `mmf.e5m2` (R196). Matrix operation with E5M2 weights from registers. -/
  | mmfE5m2 (e : Bool) (a : Nat) (p : Nat)
  /-- `mmf.bf16` (R196). Matrix operation with BF16 weights from registers. -/
  | mmfBf16 (e : Bool) (a : Nat) (p : Nat)
  /-- `acc.clr` (R198). Queues the zeroing of a 2 KiB accumulator. -/
  | accClr (e : Bool) (p : Nat)
  /-- `ctld` (R199). Loads and validates a code-table record into a slot. -/
  | ctld (e : Bool) (a : Nat) (s : Nat)
  /-- `ctst` (R199). Stores a code-table slot as a 288-byte record. -/
  | ctst (e : Bool) (a : Nat) (s : Nat)
  /-- `ctinv` (R199). Empties a code-table slot at issue. -/
  | ctinv (s : Nat)
  /-- `atom.add.b32` (R271). Atomic 32-bit add returning the old value. -/
  | atomAddB32 (e : Bool) (d : Nat) (a : Nat) (c : Scope)
  /-- `atom.add.b64` (R271). Atomic 64-bit add returning the old value. -/
  | atomAddB64 (e : Bool) (d : Nat) (a : Nat) (c : Scope)
  /-- `atom.add.f32` (R271). Atomic FP32 add rounded once. -/
  | atomAddF32 (e : Bool) (d : Nat) (a : Nat) (c : Scope)
  /-- `atom.add.bf16x2` (R271). Atomic packed BF16 add. -/
  | atomAddBf16x2 (e : Bool) (d : Nat) (a : Nat) (c : Scope)
  /-- `atom.min.i32` (R271). Atomic signed minimum. -/
  | atomMinI32 (e : Bool) (d : Nat) (a : Nat) (c : Scope)
  /-- `atom.min.n32` (R271). Atomic unsigned minimum. -/
  | atomMinN32 (e : Bool) (d : Nat) (a : Nat) (c : Scope)
  /-- `atom.max.i32` (R271). Atomic signed maximum. -/
  | atomMaxI32 (e : Bool) (d : Nat) (a : Nat) (c : Scope)
  /-- `atom.max.n32` (R271). Atomic unsigned maximum. -/
  | atomMaxN32 (e : Bool) (d : Nat) (a : Nat) (c : Scope)
  /-- `atom.and` (R271). Atomic AND. -/
  | atomAnd (e : Bool) (d : Nat) (a : Nat) (c : Scope)
  /-- `atom.or` (R271). Atomic OR. -/
  | atomOr (e : Bool) (d : Nat) (a : Nat) (c : Scope)
  /-- `atom.xor` (R271). Atomic XOR. -/
  | atomXor (e : Bool) (d : Nat) (a : Nat) (c : Scope)
  /-- `atom.xchg` (R271). Atomic exchange. -/
  | atomXchg (e : Bool) (d : Nat) (a : Nat) (c : Scope)
  /-- `atom.cas` (R271). Atomic 32-bit compare-and-swap. -/
  | atomCas (e : Bool) (d : Nat) (a : Nat) (c : Scope)
  /-- `atom.cas.b64` (R271). Atomic 64-bit compare-and-swap. -/
  | atomCasB64 (e : Bool) (d : Nat) (a : Nat) (c : Scope)
  /-- `red.add.b32` (R272). Atomic 32-bit add returning nothing. -/
  | redAddB32 (e : Bool) (d : Nat) (a : Nat) (c : Scope)
  /-- `red.add.f32` (R272). Atomic FP32 add returning nothing. -/
  | redAddF32 (e : Bool) (d : Nat) (a : Nat) (c : Scope)
  /-- `red.min.i32` (R272). Atomic signed minimum returning nothing. -/
  | redMinI32 (e : Bool) (d : Nat) (a : Nat) (c : Scope)
  /-- `red.max.i32` (R272). Atomic signed maximum returning nothing. -/
  | redMaxI32 (e : Bool) (d : Nat) (a : Nat) (c : Scope)
  /-- `red.or` (R272). Atomic OR returning nothing. -/
  | redOr (e : Bool) (d : Nat) (a : Nat) (c : Scope)
  /-- `badd.f32` (R274). Adds an FP32 value into an escrow element, withholding it when allowance permits. -/
  | baddF32 (e : Bool) (d : Nat) (a : Nat)
  /-- `badd.bf16x2` (R274). Adds two BF16 values into escrow elements. -/
  | baddBf16x2 (e : Bool) (d : Nat) (a : Nat)
  /-- `ldb.f32` (R275). Reads an escrow element within a tolerance, settling other clusters as needed. -/
  | ldbF32 (e : Bool) (d : Nat) (a : Nat)
  /-- `bsettle` (R276). Settles the issuing cluster's escrow on a line. -/
  | bsettle (e : Bool) (a : Nat)
  /-- `mwait.eq` (R277). Parks until a word equals v[d], then acquires at device scope. -/
  | mwaitEq (d : Nat) (a : Nat)
  /-- `mwait.ne` (R277). Parks until a word differs from v[d]. -/
  | mwaitNe (d : Nat) (a : Nat)
  /-- `mwait.ge.i32` (R277). Parks until a word is signed greater or equal to v[d]. -/
  | mwaitGeI32 (d : Nat) (a : Nat)
  /-- `mwait.lt.i32` (R277). Parks until a word is signed less than v[d]. -/
  | mwaitLtI32 (d : Nat) (a : Nat)
  /-- `mwait.ge.n32` (R277). Parks until a word is unsigned greater or equal to v[d]. -/
  | mwaitGeN32 (d : Nat) (a : Nat)
  /-- `mwait.lt.n32` (R277). Parks until a word is unsigned less than v[d]. -/
  | mwaitLtN32 (d : Nat) (a : Nat)
  /-- `ld.acq.b32` (R278). Loads 4 bytes and acquires at the named scope. -/
  | ldAcqB32 (e : Bool) (d : Nat) (a : Nat) (c : Scope)
  /-- `ld.acq.b64` (R278). Loads 8 bytes and acquires at the named scope. -/
  | ldAcqB64 (e : Bool) (d : Nat) (a : Nat) (c : Scope)
  /-- `st.rel.b32` (R279). Stores 4 bytes as a release at the named scope. -/
  | stRelB32 (e : Bool) (d : Nat) (a : Nat) (c : Scope)
  /-- `st.rel.b64` (R279). Stores 8 bytes as a release at the named scope. -/
  | stRelB64 (e : Bool) (d : Nat) (a : Nat) (c : Scope)
  /-- `fence.acq` (R280). Acquire fence: waits for earlier reads, then invalidates for its scope. -/
  | fenceAcq (c : Scope)
  /-- `fence.rel` (R280). Release fence: waits for earlier accesses to be performed at its scope. -/
  | fenceRel (c : Scope)
  /-- `fence.ar` (R280). Release-acquire fence taking a place in the scope's total fence order. -/
  | fenceAr (c : Scope)
  /-- `cclean` (R281). Writes back dirty bytes of a range at the named scope. -/
  | cclean (e : Bool) (d : Nat) (a : Nat) (c : Scope)
  /-- `cinval` (R281). Drops clean copies of a range at the named scope. -/
  | cinval (e : Bool) (d : Nat) (a : Nat) (c : Scope)
  /-- `cflush` (R281). Cleans then drops every copy of a range at the named scope. -/
  | cflush (e : Bool) (d : Nat) (a : Nat) (c : Scope)
  /-- `tld.b8` (R333). Reads an 8-bit unit of a tensor tile by coordinate. -/
  | tldB8 (e : Bool) (d : Nat) (a : Nat) (h : Nat)
  /-- `tld.b16` (R333). Reads a 16-bit unit of a tensor tile by coordinate. -/
  | tldB16 (e : Bool) (d : Nat) (a : Nat) (h : Nat)
  /-- `tld.b32` (R333). Reads a 32-bit unit of a tensor tile by coordinate. -/
  | tldB32 (e : Bool) (d : Nat) (a : Nat) (h : Nat)
  /-- `tst` (R335). Replaces a tile with 256 expanded bytes from scratchpad through an update. -/
  | tst (e : Bool) (d : Nat) (a : Nat) (h : Nat)
  /-- `tenc` (R336). Appends one quantised key-value entry for the whole group. -/
  | tenc (e : Bool) (d : Nat) (a : Nat) (h : Nat)
  /-- `tq` (R334). Reads a tile's block-index entry fields. -/
  | tq (e : Bool) (d : Nat) (a : Nat) (h : Nat)
  /-- `tclean` (R339). Writes a range of tiles' dirty entry and slot bytes to memory. -/
  | tclean (e : Bool) (d : Nat) (a : Nat) (h : Nat)
  /-- `tinval` (R339). Drops every cached copy held under a range of tile tags. -/
  | tinval (e : Bool) (d : Nat) (a : Nat) (h : Nat)
  /-- `cpt` (R337). Copies a run of tiles, expanded or stored, into scratchpad. -/
  | cpt (e : Bool) (d : Nat) (a : Nat) (h : Nat)
  /-- `tdesc` (R332). Binds a tensor handle, reading and checking the descriptor. -/
  | tdesc (a : Nat) (h : Nat)
  /-- `spool` (R340). Pushes a slot onto a class list of the tensor's pool. -/
  | spool (e : Bool) (d : Nat) (a : Nat) (h : Nat)
  /-- `tlbinv.va` (R341). Drops a context's TLB entries for one page everywhere and waits for users. -/
  | tlbinvVa (e : Bool) (d : Nat) (a : Nat)
  /-- `tlbinv.ctx` (R341). Drops all of a context's TLB and walk-cache entries. -/
  | tlbinvCtx (e : Bool) (d : Nat)
  /-- `gq` (R393). Reads a graph-query packet and sends it to its home teller. -/
  | gq (e : Bool) (a : Nat)
  /-- `att` (R393). Reads an attention packet and sends it to a teller. -/
  | att (e : Bool) (a : Nat)
  /-- `tstat` (R398). Returns a teller's load for the issuing context. -/
  | tstat (e : Bool) (d : Nat) (a : Nat)
  /-- `rcpy` (R413). Copies local bytes to a remote module. -/
  | rcpy (e : Bool) (a : Nat)
  /-- `rcpy.ck` (R413). Remote copy carrying running Adler-32 values. -/
  | rcpyCk (e : Bool) (d : Nat) (a : Nat)
  /-- `rcpy.ckv` (R413). Remote copy with checks that writes a check record at the receiver. -/
  | rcpyCkv (e : Bool) (d : Nat) (a : Nat)
  /-- `rsig` (R414). System-scope release that adds 1 to a remote word. -/
  | rsig (e : Bool) (a : Nat)
  /-- `ratom.add` (R414). Remote atomic add returning the old value. -/
  | ratomAdd (e : Bool) (d : Nat) (a : Nat)
  /-- `?pN` (R45). Predicates the next word and supplies a fourth register. -/
  | operandPrefix (p : Nat) (z : Bool) (c : Nat)
  /-- `rc=` (R46). Supplies read count, L1 policy and extended offset to the next memory word. -/
  | hintPrefix (n : Nat) (l : Nat) (x : BitVec 16)
  /-- Event CLAUSE_ISSUE (R38). Fetches a clause, checks its header and waits on its wait mask before the first word issues. -/
  | clauseIssue (k : ThreadKey)
  /-- Event TILL_TIMER_EXPIRY (R18). A till's timer expires and the till becomes due. -/
  | tillTimerExpiry (team : Nat) (till : Nat)
  /-- Event TILL_RELEASE (R19). A due till releases its threads as one group once limits and registers allow. -/
  | tillRelease (team : Nat) (till : Nat)
  /-- Event WATCHDOG (R24). A thread's watchdog count reaches the budget and it takes WATCHDOG. -/
  | watchdog (k : ThreadKey)
  /-- Event PREEMPTION_REQUEST (R25). A command processor asks that a team stop its threads at save points. -/
  | preemptionRequest (team : Nat)
  /-- Event GRACE_BUDGET_EXPIRY (R26). The grace budget runs out and unstopped threads stop to be saved whole. -/
  | graceBudgetExpiry (team : Nat)
  /-- Event LOAD_RETURN (R173). A tracked load's data arrive, registers are written and pending bits clear. -/
  | loadReturn (op : Nat)
  /-- Event STORE_WRITTEN (R173). A store's bytes reach the cluster cache and it leaves its flag. -/
  | storeWritten (op : Nat)
  /-- Event ATOMIC_RETURN (R270). An atomic or escrow form completes at its performing point and leaves its flag. -/
  | atomicReturn (op : Nat)
  /-- Event SPECIAL_FUNCTION_RESULT (R125). A special-function result is written after its latency and the flag falls. -/
  | specialFunctionResult (op : Nat)
  /-- Event COMPACTOR_MOVE (R133). The compactor moves a register or scratchpad run to free larger runs. -/
  | compactorMove (team : Nat) (group : Option Nat) (dest : Nat)
  /-- Event STASH_FILL (R140). A stash line's 256-byte fill lands and the parked accessor proceeds. -/
  | stashFill (team : Nat) (window : Nat) (line : Nat)
  /-- Event COPY_LANDING (R185). A piece of an engine's data lands, updating presence and the named barrier. -/
  | copyLanding (op : Nat)
  /-- Event MATRIX_EXECUTE (R196). The matrix engine takes its next queued operation and updates the accumulator by the group-sum rule. -/
  | matrixExecute (op : Nat)
  /-- Event ACC_CLR_EXECUTE (R198). The matrix engine writes zero to an accumulator in queue order. -/
  | accClrExecute (op : Nat)
  /-- Event HOME_REGISTRATION (R218). Home handles a cluster's ownership registration for a word. -/
  | homeRegistration (cluster : Nat)
  /-- Event HOME_READ_FORWARD (R219). A read at home of an owned word is forwarded to the owner. -/
  | homeReadForward (cluster : Nat) (word : Nat)
  /-- Event LINE_EVICTION (R219). A cluster evicts a line, writing back dirty bytes, releasing words and settling escrow. -/
  | lineEviction (cluster : Nat) (line : Nat)
  /-- Event MONITOR_WAKE (R224). A monitor wake reaches a core or the dispatcher and the threads re-read their word. -/
  | monitorWake (idx : Nat)
  /-- Event MWAIT_OVERFLOW_POLL (R225). An overflow-mode wait re-reads its condition at home when its interval expires. -/
  | mwaitOverflowPoll (k : ThreadKey)
  /-- Event ALLOWANCE_REQUEST (R228). Home grants escrow allowance, revoking other clusters if headroom is short. -/
  | allowanceRequest (op : Nat)
  /-- Event CACHE_UNCORRECTABLE_ERROR (R231). An uncorrectable error in a cluster or shared cache poisons data or rebuilds a structure. -/
  | cacheUncorrectableError (err : CacheError)
  /-- Event CLUSTER_UNRESPONSIVE (R231). A cluster stops answering home, raising CONTROL_LOST for affected contexts. -/
  | clusterUnresponsive (cluster : Nat)
  /-- Event PAGE_WALK (R315). A walker translates a TLB miss through up to four levels with tenant checks. -/
  | pageWalk (op : Nat)
  /-- Event TEAM_PLACEMENT (R319). The dispatcher places a waiting team on the chosen eligible core. -/
  | teamPlacement (team : Nat)
  /-- Event TEAM_SWAP_OUT (R321). A team drains, releases and has its image written to the save area. -/
  | teamSwapOut (team : Nat)
  /-- Event TEAM_RESUME (R323). A runnable team is placed, restored from its image and acquires before issue. -/
  | teamResume (team : Nat)
  /-- Event IMAGE_UPDATE (R324). A landing or barrier update aimed at a swapped-out team is applied to its image. -/
  | imageUpdate (idx : Nat)
  /-- Event VOTE_DISSENT (R326). A voted copy that dissents is fenced off and counted. -/
  | voteDissent (unit : VotedUnit)
  /-- Event VOTE_READMISSION (R326). A fenced copy is reloaded while idle and readmitted. -/
  | voteReadmission (unit : VotedUnit)
  /-- Event COMPARED_PAIR_DISAGREEMENT (R327). A compared pair disagrees, the machine stops and affected contexts lose control. -/
  | comparedPairDisagreement (unit : VotedUnit)
  /-- Event TILE_UPDATE (R303). The index unit locks a tile, forms and writes its new stored form and invalidates copies. -/
  | tileUpdate (op : Nat)
  /-- Event SLOT_PUSH (R303). After unlock the old slot is pushed onto its class list, failures going to the fault queue. -/
  | slotPush (idx : Nat)
  /-- Event DIE_LINK_FLIT_RETRY (R352). A die-link flit failing its CRC is retried. -/
  | dieLinkFlitRetry (a : Nat) (b : Nat)
  /-- Event DIE_LINK_FAILURE (R352). A die link cannot recover and every context on the package loses control. -/
  | dieLinkFailure (a : Nat) (b : Nat)
  /-- Event ALERT_BACK_OFF (R356). A bank's activation count passes its threshold and the bank is blocked for mitigation. -/
  | alertBackOff (stack : Nat) (bank : Nat)
  /-- Event REFRESH (R356). A bank's refresh falls due and is issued or postponed. -/
  | refresh (stack : Nat) (bank : Nat) (postpone : Bool)
  /-- Event CXL_LINK_FAILED (R358). A CXL link stops answering and is marked failed. -/
  | cxlLinkFailed (link : Nat)
  /-- Event TELLER_QUERY_START (R364). A home teller takes a queued query and begins its search or partial. -/
  | tellerQueryStart (op : Nat)
  /-- Event BATCH_RETURN (R365). All batches of an expansion return and the teller updates its candidate list. -/
  | batchReturn (op : Nat)
  /-- Event TELLER_COMPLETION (R367). A teller writes its result, adds to the completion word and clears the flag. -/
  | tellerCompletion (op : Nat)
  /-- Event TELLER_SRAM_ERROR (R372). An uncorrectable teller SRAM error ends the affected query. -/
  | tellerSramError (op : Nat)
  /-- Event STACK_UNRESPONSIVE (R372). A stack's base die stops answering, ending waiting queries and losing memory control. -/
  | stackUnresponsive (stack : Nat)
  /-- Event DOORBELL (R373). A host write of a new tail index to a tenant's doorbell is accepted or counted as a queue error. -/
  | doorbell (queue : Nat) (tail : Word)
  /-- Event RECORD_FETCH (R373). A command processor fetches a queue record and advances the head word. -/
  | recordFetch (queue : Nat)
  /-- Event LAUNCH (R374). A launch record (ver 0x01) is checked and accepted as a pending grid, or rejected. -/
  | launch (queue : Nat)
  /-- Event CREATE_CONTEXT (R383). Supervisor command 0x80 copies a context record to every die. -/
  | createContext
  /-- Event END_CONTEXT (R383). Supervisor command 0x81 stops and invalidates a context. -/
  | endContext
  /-- Event RESOLVE_REPLAY (R383). Resolve-fault action 0 retries the waiting accesses of a page-fault record. -/
  | resolveReplay
  /-- Event RESOLVE_DELIVER (R383). Resolve-fault action 1 delivers the fault to the handler or the stalled engine. -/
  | resolveDeliver
  /-- Event RESOLVE_END_THREAD (R383). Resolve-fault action 2 stops and removes the thread. -/
  | resolveEndThread
  /-- Event WAIT_CONDITION_MET (R377). A launch's wait condition holds; once all hold the grid becomes eligible. -/
  | waitConditionMet (grid : Nat) (w : Nat)
  /-- Event TEAM_HANDOUT (R378). When a die can take a team, the chosen grid's next team is handed to it. -/
  | teamHandout (die : Nat)
  /-- Event DEADLINE_EXPIRY (R379). A grid's remaining deadline reaches 0 and it becomes urgent, taking teams from lower classes. -/
  | deadlineExpiry (grid : Nat)
  /-- Event QUANTUM_EXPIRY (R379). A tenant's quantum runs out and its bmark-0 teams are pre-empted. -/
  | quantumExpiry (tenant : Nat)
  /-- Event GRID_COMPLETE (R380). A grid's last slot frees; the CP releases and writes status 1. -/
  | gridComplete (grid : Nat)
  /-- Event FQHEAD_WRITE (R382). Writing %fqhead consumes records and frees room for held records. -/
  | fqheadWrite (tenant : Nat) (v : Word)
  /-- Event SUPERVISOR_REGISTER_WRITE (R382). Writes a supervisor or management register that has no row of its own. -/
  | supervisorRegisterWrite (num : Nat) (v : BitVec 64)
  /-- Event CP_VOTE_DISAGREEMENT (R384). A command processor's compared pair disagrees; it stops and restarts from reset. -/
  | cpVoteDisagreement (cp : Nat)
  /-- Event SNAPSHOT_TRIGGER (R387). An enabled trigger broadcast latches every block's snapshot registers. -/
  | snapshotTrigger (src : SnapSource)
  /-- Event SNAPSHOT_REARM (R387). A management write re-arms the snapshot. -/
  | snapshotRearm
  /-- Event GET_VERSION (R388). SPDM GET_VERSION request. -/
  | getVersion
  /-- Event GET_CAPABILITIES (R388). SPDM GET_CAPABILITIES request. -/
  | getCapabilities
  /-- Event NEGOTIATE_ALGORITHMS (R388). SPDM NEGOTIATE_ALGORITHMS request. -/
  | negotiateAlgorithms (offer : SpdmOffer)
  /-- Event GET_DIGESTS (R388). SPDM GET_DIGESTS request. -/
  | getDigests
  /-- Event GET_CERTIFICATE (R388). SPDM GET_CERTIFICATE request. -/
  | getCertificate (slot : Nat) (offset : Nat) (length : Nat)
  /-- Event CHALLENGE (R388). SPDM CHALLENGE request signed with Ed25519. -/
  | challenge (slot : Nat) (nonce : BitVec 256)
  /-- Event GET_MEASUREMENTS (R388). SPDM GET_MEASUREMENTS request for the six measurement blocks. -/
  | getMeasurements (index : Nat)
  /-- Event FIRMWARE_LOAD (R389). The boot ROM verifies both signatures and the security version before running an image. -/
  | firmwareLoad (unit : Nat) (images : FirmwareSlots)
  /-- Event POWER_LIMIT_SET (R390). Management sets the module power limit. -/
  | powerLimitSet (watts : Nat)
  /-- Event THERMAL_THROTTLE (R390). Clocks are lowered in 1/64 steps to stay within power and temperature. -/
  | thermalThrottle (steps : Nat)
  /-- Event THERMAL_TRIP (R390). At 110 °C the module stops and the host link goes down. -/
  | thermalTrip
  /-- Event HOST_LINK_ERROR (R391). A host-link error is reported through Advanced Error Reporting. -/
  | hostLinkError
  /-- Event MODULE_RESET (R358). Management resets the module. -/
  | moduleReset
  /-- Event MODID_WRITE (R409). Management writes the module number and its valid bit. -/
  | modidWrite (v : Word)
  /-- Event FAB_CONTEXT_WRITE (R409). Management enables fabric access and sets the domain key for a context. -/
  | fabContextWrite (ctx : Nat) (v : BitVec 64)
  /-- Event INJECT_ARM (R419). Management arms a single bit-flip injection into a remote copy. -/
  | injectArm (arg : InjectArg)
  /-- Event WACON_FLIT_RETRY (R408). A Wacon flit failing its CRC is retried and duplicates discarded. -/
  | waconFlitRetry (port : Nat)
  /-- Event PORT_FAILURE (R417). A Wacon port fails and its flits are resent on other planes. -/
  | portFailure (port : Nat)
  /-- Event REMOTE_OP_ARRIVAL (R413). A remote operation arrives at the target, is accepted and performed there. -/
  | remoteOpArrival (req : RemoteReq)
  /-- Event REMOTE_ACK (R413). The target's acknowledgment writes the chain pair or result and clears the flag. -/
  | remoteAck (op : Nat) (reply : RemoteReply)
  /-- Event REMOTE_TIMEOUT (R418). A remote operation gets no answer within 2^24 fabric cycles and faults. -/
  | remoteTimeout (op : Nat)
  /-- Event ROCE_WORK_FETCH (R420). The network engine, woken by a producer word, fetches a work entry. -/
  | roceWorkFetch (qp : Nat)
  /-- Event ROCE_COMPLETION (R420). A RoCE request completes, writing a completion entry and adding to the count word. -/
  | roceCompletion (qp : Nat)
  /-- Event RDMA_INBOUND (R420). Incoming RDMA WRITE or SEND data are written at home. -/
  | rdmaInbound (qp : Nat) (request : RdmaRequest) (bytes : List Byte)
  /-- Event CORE_RESET (R21). A core leaves reset with its pipes' team pointers at slot 15. -/
  | coreReset (core : Nat)
  /-- Event CACHE_MAINTENANCE_COMPLETE (R281). A cclean, cinval or cflush finishes its effect at its scope and its flag clears. -/
  | cacheMaintenanceComplete (op : Nat)
  /-- Event TILE_MAINTENANCE_COMPLETE (R339). A tclean or tinval completes everywhere and its flag clears. -/
  | tileMaintenanceComplete (op : Nat)
  /-- Event TLBINV_COMPLETE (R341). A tlbinv.va or tlbinv.ctx ends after the dropped entries' accesses and earlier walks have finished, and its flag clears. -/
  | tlbinvComplete (op : Nat)
  /-- Event STASH_MAP_COMPLETE (R168). A stash.map finishes its presence wait, translation and zeroing, makes the window valid and clears its flag. -/
  | stashMapComplete (op : Nat)
  /-- Event STASH_WB_COMPLETE (R169). A stash.wb or stash.unmap has every written-back byte in the cluster cache and its flag clears. -/
  | stashWbComplete (op : Nat)
  /-- Event PORT_TRAINED (R409). A Wacon port finishes training and carries flits, setting its bit in the ports register. -/
  | portTrained (port : Nat)
  /-- Event HOST_LINK_TRAINING (R407). The PCI Express host link trains, possibly down to a narrower width or lower rate, or goes down and comes back. -/
  | hostLinkTraining (state : HostLink)
  /-- Event RDMA_READ_REQUEST (R420). An incoming RDMA READ request is answered with data read from home memory as plain loads read it. -/
  | rdmaReadRequest (qp : Nat) (va : Addr) (length : Nat)
  /-- Event CNP_RECEIVED (R420). A congestion notification packet arrives and the network engine adjusts its rate. -/
  | cnpReceived (qp : Nat)
  deriving DecidableEq, Repr

end Sys2Proof
end

