-- ==== Sys2Proof/Config.lean ====
section
/-! DEFINITION. What the spec leaves to the implementation (25_index R427) and the values it does not state: every
one is an opaque constant, so that no proof can learn a value the spec does not give. -/

namespace Sys2Proof.Config

/-- The choice taken where the spec leaves an order or a moment open (25_index R427): which enabled move comes next,
which piece of a copy lands, which line is evicted. Applied to `State.tick` (log entry 4). -/
opaque choice : Nat → Nat

/-- Which of the two FP32 neighbours a faithfully rounded special function gives (05_thread_float R125; R427): `true`
the one of greater magnitude. The first argument names the function, the second holds the operand's bits without
its sign for the functions the spec makes odd or even (log entry 7). -/
opaque faithfulUp : Nat → BitVec 32 → Bool

/-- The teller's exponential where R370 leaves it open: a non-decreasing curve of codes, held between the ends of the bound
(log entry 8). -/
opaque exp2aCurve : Nat →o Nat

/-- The home slice that hardware means for a tag (11_cluster R216): context, tensor and tile number. Where it would give
a slice more of a MiB of memory than R216 allows, the machine takes another function (`Machine.sliceOf`). -/
opaque homeSlice : Nat → Nat → Nat → Nat

/-- The set of a core's L1 that a tag uses (06_core R142): context, tensor and tile number. -/
opaque l1Set : Nat → Nat → Nat → Nat

/-- The set of a cluster cache that a tag uses (11_cluster R214). -/
opaque clusterSet : Nat → Nat → Nat → Nat

/-- The set of a slice's registry that a line uses (11_cluster R217). -/
opaque registrySet : Nat → Nat

/-- How long an operation may be outstanding before its next event (12_memory_model R242 bounds it by no number). -/
opaque writeDelay : Nat → Nat

/-- How long a registration may be on its way (12_memory_model R242 bounds it by no number). -/
opaque registrationDelay : Nat → Nat

/-- The home teller among the four of a stack for the query with this number (19_package_memory R363). -/
opaque homeTeller : Nat → Nat

/-- How many queries a teller holds at once above sixteen (19_package_memory R359). -/
opaque tellerExtra : Nat

/-- The bytes a teller leaves in a query's work area (19_package_memory R363), by query number and offset. -/
opaque workByte : Nat → Nat → BitVec 8

/-- Ed25519 verification of a firmware digest with a security version (20_package_control R389): the spec names the
algorithm's standard and gives no key. -/
opaque ed25519Verify : BitVec 384 → Nat → Nat → Bool

/-- ML-DSA-65 verification of a firmware digest with a security version (20_package_control R389). -/
opaque mldsaVerify : BitVec 384 → Nat → Nat → Bool

/-- The Ed25519 signature over an SPDM transcript, as 64 bytes read as a number (20_package_control R388). -/
opaque spdmSign : List (BitVec 8) → BitVec 512

/-- The certificate chain of a slot (20_package_control R388): the spec gives no contents. -/
opaque certificate : Nat → List (BitVec 8)

/-- SHA-384 of a byte string (20_package_control R388, R389 name the standard). -/
opaque sha384 : List (BitVec 8) → BitVec 384

/-- A work entry's decoded form (23_fabric R420): its format stands in the host driver's interface description, which
is not in the spec. The entry's bytes give whether data are written, the virtual address and how many bytes. -/
opaque roceEntry : List (BitVec 8) → Nat × BitVec 64 × Nat

/-- The completion entry the network engine writes for a work entry (23_fabric R420). -/
opaque roceCompletionEntry : List (BitVec 8) → List (BitVec 8)

/-- The data that a request brings with it, for the entries that have data written here (23_fabric R420): they come from
another machine. -/
opaque roceData : List (BitVec 8) → Nat → BitVec 8

/-- The rate the network engine keeps after a congestion notification (23_fabric R420). -/
opaque roceRate : Nat → Nat

end Sys2Proof.Config
end

