-- ==== Sys2Proof/Machine/Numbers.lean ====
section
/-! DEFINITION. Number formats, exact values, rounding, the group-sum rule and the special functions (03_numbers). -/

namespace Sys2Proof.Machine

/-! ### Exact values -/

/-- What an encoding stands for (R66): NaN, an infinity, or a sign and an exact magnitude. -/
inductive Val where
  | nan
  | inf (neg : Bool)
  | fin (neg : Bool) (mag : Rat)
  deriving DecidableEq, Repr

/-- The exact real of a finite value. -/
def signed (neg : Bool) (mag : Rat) : Rat := if neg then -mag else mag

/-- The value of an exact real; an exact zero is +0. -/
def Val.ofRat (q : Rat) : Val := if q < 0 then .fin true (-q) else .fin false q

def Val.isNan : Val → Bool
  | .nan => true
  | _ => false

def Val.isZero : Val → Bool
  | .fin _ m => m == 0
  | _ => false

def Val.neg : Val → Val
  | .nan => .nan
  | .inf n => .inf !n
  | .fin n m => .fin (!n) m

def Val.abs : Val → Val
  | .nan => .nan
  | .inf _ => .inf false
  | .fin _ m => .fin false m

/-- The exact real of a value; 0 for NaN and infinities. -/
def Val.real : Val → Rat
  | .fin n m => signed n m
  | _ => 0

/-- Exact product with the sign rule of R72; invalid products are NaN (R70). -/
def Val.mul : Val → Val → Val
  | .nan, _ => .nan
  | _, .nan => .nan
  | .inf a, .inf b => .inf (a != b)
  | .inf a, .fin b m => if m = 0 then .nan else .inf (a != b)
  | .fin a m, .inf b => if m = 0 then .nan else .inf (a != b)
  | .fin a m, .fin b n => .fin (a != b) (m * n)

/-- Exact sum with the zero rule of R72: −0 only where every term is −0. -/
def Val.add : Val → Val → Val
  | .nan, _ => .nan
  | _, .nan => .nan
  | .inf a, .inf b => if a = b then .inf a else .nan
  | .inf a, .fin _ _ => .inf a
  | .fin _ _, .inf b => .inf b
  | .fin a m, .fin b n =>
    if m = 0 ∧ n = 0 then .fin (a && b) 0 else Val.ofRat (signed a m + signed b n)

/-- `exact_sum` of R8: an exact zero is +0. -/
def exactSum (l : List Val) : Val :=
  match l.foldl Val.add (.fin false 0) with
  | .fin n m => if m = 0 then .fin false 0 else .fin n m
  | v => v

/-- An exact zero becomes +0 (R78). -/
def Val.plusZero : Val → Val
  | .fin n m => if m = 0 then .fin false 0 else .fin n m
  | v => v

/-! ### Formats and rounding -/

/-- What the all-ones exponent means (R66). -/
inductive TopExp where
  | ieee | e4m3 | finite
  deriving DecidableEq, Repr

/-- A floating-point format with a sign (R65). -/
structure Fmt where
  ebits : Nat
  mbits : Nat
  bias : Nat
  top : TopExp
  deriving DecidableEq, Repr

def fp32 : Fmt := ⟨8, 23, 127, .ieee⟩
def bf16 : Fmt := ⟨8, 7, 127, .ieee⟩
def e5m2 : Fmt := ⟨5, 2, 15, .ieee⟩
def e4m3 : Fmt := ⟨4, 3, 7, .e4m3⟩
def e2m1 : Fmt := ⟨2, 1, 1, .finite⟩

/-- Two to an integer power. -/
def pow2 (e : Int) : Rat := if e < 0 then 1 / ((2 ^ (-e).toNat : Nat) : Rat) else ((2 ^ e.toNat : Nat) : Rat)

/-- Bits below the sign. -/
def Fmt.width (f : Fmt) : Nat := f.ebits + f.mbits

/-- The sign bit's weight. -/
def Fmt.signBit (f : Fmt) : Nat := 2 ^ f.width

/-- The least code, without its sign, that is not a finite value (R66). -/
def Fmt.limit (f : Fmt) : Nat :=
  match f.top with
  | .ieee => (2 ^ f.ebits - 1) * 2 ^ f.mbits
  | .e4m3 => 2 ^ f.width - 1
  | .finite => 2 ^ f.width

/-- The magnitude of a finite code without its sign (R66). -/
def Fmt.mag (f : Fmt) (code : Nat) : Rat :=
  let e := code / 2 ^ f.mbits
  let m := code % 2 ^ f.mbits
  if e = 0 then (m : Rat) * pow2 (1 - f.bias - f.mbits)
  else ((m + 2 ^ f.mbits : Nat) : Rat) * pow2 ((e : Int) - f.bias - f.mbits)

/-- R66: the value of an encoding. -/
def Fmt.val (f : Fmt) (n : Nat) : Val :=
  let neg := n / f.signBit % 2 == 1
  let code := n % f.signBit
  if code < f.limit then .fin neg (f.mag code)
  else if f.top = .ieee ∧ code = f.limit then .inf neg
  else .nan

/-- The canonical NaN (R67); 0 for a format with none. -/
def Fmt.nan (f : Fmt) : Nat :=
  match f.top with
  | .ieee => f.limit + 2 ^ (f.mbits - 1)
  | .e4m3 => f.limit
  | .finite => 0

/-- The greatest integer e with 2^e ≤ n/d, for positive n and d. -/
def floorLog2 (n d : Nat) : Int :=
  let k : Int := (Nat.log2 n : Int) - (Nat.log2 d : Int)
  let ok := if k < 0 then decide (d ≤ n * 2 ^ (-k).toNat) else decide (d * 2 ^ k.toNat ≤ n)
  if ok then k else k - 1

/-- Rounding directions: to nearest even, toward zero, upward in magnitude (R8, R76, R228). -/
inductive Rm where
  | rne | rz | up
  deriving DecidableEq, Repr

/-- An integer next to a non-negative rational. -/
def roundNat (rm : Rm) (q : Rat) : Nat :=
  let n := q.num.toNat
  let f := n / q.den
  let r := n % q.den
  match rm with
  | .rz => f
  | .up => if r = 0 then f else f + 1
  | .rne => if 2 * r < q.den then f else if q.den < 2 * r then f + 1 else f + f % 2

/-- The code, without sign and with unbounded exponent range, of the value next to `mag` in direction `rm` (R69, R73):
codes of a format are consecutive, so the code is a count of quanta. -/
def Fmt.roundCode (f : Fmt) (rm : Rm) (mag : Rat) : Nat :=
  if mag ≤ 0 then 0 else
  let emin : Int := 1 - (f.bias : Int)
  let e := max (floorLog2 mag.num.toNat mag.den) emin
  (e - emin).toNat * 2 ^ f.mbits + roundNat rm (mag * pow2 (f.mbits - e))

/-- What an overflow gives (R73). -/
inductive Ovf where
  | inf | sat | nan
  deriving DecidableEq, Repr

/-- The largest finite code (R67). -/
def Fmt.maxCode (f : Fmt) : Nat := f.limit - 1

/-- R69 to R73: an exact value rounded once to a format. Overflow under `rz` gives the largest finite value. -/
def Fmt.enc (f : Fmt) (rm : Rm) (ov : Ovf) (v : Val) : Nat :=
  let beyond (neg : Bool) : Nat :=
    match ov with
    | .inf => (if neg then f.signBit else 0) + f.limit
    | .sat => (if neg then f.signBit else 0) + f.maxCode
    | .nan => f.nan
  match v with
  | .nan => f.nan
  | .inf neg => beyond neg
  | .fin neg mag =>
    let c := f.roundCode rm mag
    let s := if neg then f.signBit else 0
    if c ≤ f.maxCode then s + c
    else if rm = .rz then s + f.maxCode
    else beyond neg

/-- An FP32 register's value. -/
def f32 (w : Word) : Val := fp32.val w.toNat

/-- R69: rounded once to FP32. Under `rz` an infinite exact value stays infinite. -/
def toF32 (rm : Rm) (v : Val) : Word := BitVec.ofNat 32 (fp32.enc rm .inf v)

/-- The canonical FP32 NaN (R67). -/
def nan32 : Word := 0x7FC00000

/-- A BF16 half's value. -/
def b16 (h : BitVec 16) : Val := bf16.val h.toNat

/-- R69: rounded once to BF16. -/
def toB16 (v : Val) : BitVec 16 := BitVec.ofNat 16 (bf16.enc .rne .inf v)

def loHalf (w : Word) : BitVec 16 := w.setWidth 16
def hiHalf (w : Word) : BitVec 16 := (w >>> 16).setWidth 16

/-- R68: element 0 in the low half. -/
def packHalves (lo hi : BitVec 16) : Word := hi ++ lo

/-- E8M0 (R66): a power of two, or NaN. -/
def e8m0 (b : Nat) : Val := if b = 255 then .nan else .fin false (pow2 ((b : Int) - 127))

/-- int4 and int3 codes (R64). -/
def int4 (n : Nat) : Int := if n < 8 then n else (n : Int) - 16

/-- Order of FP32 values, for comparisons that are not with NaN: −0 equals +0. `none` when unordered. -/
def Val.lt? : Val → Val → Option Bool
  | .nan, _ => none
  | _, .nan => none
  | .inf a, .inf b => some (a && !b)
  | .inf a, .fin _ _ => some a
  | .fin _ _, .inf b => some !b
  | .fin a m, .fin b n => some (decide (signed a m < signed b n))

def Val.eq? : Val → Val → Option Bool
  | .nan, _ => none
  | _, .nan => none
  | .inf a, .inf b => some (a == b)
  | .fin a m, .fin b n => some (decide (signed a m = signed b n))
  | _, _ => some false

/-! ### The group-sum rule -/

/-- One product of R78. -/
def groupTerm (w a : Val) : Val := Val.mul w a

/-- One group step of R78: the scaled group sum added to the accumulator with one rounding. `scale` is none where the
form has no scale. -/
def groupStep (acc : Word) (scale : Option Val) (prods : List Val) : Word :=
  if (scale.map Val.isNan).getD false then nan32 else
  match exactSum prods with
  | .nan => nan32
  | s =>
    let t := match scale with
      | none => s
      | some k => Val.mul s k
    match t with
    | .nan => nan32
    | t =>
      let r := toF32 .rne ((f32 acc).add t.plusZero)
      if r = 0x80000000 then 0 else r

/-! ### Square roots and faithful functions -/

/-- Integer square root, found bit by bit from 2^(k-1) down. -/
def isqrtFrom (n : Nat) : Nat → Nat → Nat
  | 0, r => r
  | k + 1, r => isqrtFrom n k (if (r + 2 ^ k) * (r + 2 ^ k) ≤ n then r + 2 ^ k else r)

def isqrt (n : Nat) : Nat := isqrtFrom n (Nat.log2 n / 2 + 1) 0

/-- The greatest FP32 code whose square is at most `x`, and whether the root is exact. -/
def sqrtFloor (x : Rat) : Nat × Bool :=
  if x ≤ 0 then (0, true) else
  let e := max ((floorLog2 x.num.toNat x.den) / 2) (-126)
  let y := x * pow2 (2 * (23 - e))
  let n := isqrt (y.num.toNat / y.den)
  ((e + 126).toNat * 2 ^ 23 + n, decide (((n * n : Nat) : Rat) = y))

/-- Correctly rounded square root of a magnitude (R81). -/
def sqrtRne (x : Rat) : Nat :=
  let (c, exact) := sqrtFloor x
  if exact then c else
  let mid := (fp32.mag c + fp32.mag (c + 1)) / 2
  if x < mid * mid then c else if mid * mid < x then c + 1 else c + c % 2

/-- Bits of the fixed-point arithmetic behind the faithful functions (log entry 9). -/
def prec : Nat := 256

/-- ⌊π · 2^256⌋. -/
def piFix : Nat := 0x3243f6a8885a308d313198a2e03707344a4093822299f31d0082efa98ec4e6c89

/-- `2^f` for a fraction `f = n / 2^k` below 1, as a fixed-point lower bound: the product of the roots 2^(2^-i). -/
def exp2Frac : Nat → Nat → Nat → Nat → Nat
  | 0, _, _, acc => acc
  | k + 1, n, root, acc =>
    let root' := isqrt (root * 2 ^ prec)
    let bit := n / 2 ^ k % 2
    exp2Frac k n root' (if bit = 1 then acc * root' / 2 ^ prec else acc)

/-- A lower approximation of 2^x. -/
def exp2Low (x : Rat) : Rat :=
  let i := x.floor
  let f := x - i
  let k := Nat.log2 f.den
  ((exp2Frac k f.num.toNat (2 * 2 ^ prec) (2 ^ prec) : Nat) : Rat) * pow2 (i - prec)

/-- Bits of log₂ m for m in [1, 2) by repeated squaring. -/
def log2Bits : Nat → Nat → Nat → Nat
  | 0, _, acc => acc
  | k + 1, m, acc =>
    let sq := m * m / 2 ^ (2 * prec)
    if 2 * 2 ^ (2 * prec) ≤ sq then log2Bits k (sq / 2) (2 * acc + 1) else log2Bits k sq (2 * acc)

/-- A lower approximation of log₂ x for x > 0. -/
def log2Low (x : Rat) : Rat :=
  let e := floorLog2 x.num.toNat x.den
  let m := x * pow2 (2 * prec - e)
  (e : Rat) + ((log2Bits 192 (m.num.toNat / m.den) 0 : Nat) : Rat) * pow2 (-192)

/-- Alternating or plain power series over fixed-point terms: `t` is the current term, `y` the factor between terms
before division by `(i+1)(i+2)` or by `i+1`. -/
def sinSeries : Nat → Nat → Nat → Nat → Int
  | 0, _, _, _ => 0
  | k + 1, i, t, y => (t : Int) - sinSeries k (i + 2) (t * y / 2 ^ prec / ((i + 1) * (i + 2))) y

def expSeries : Nat → Nat → Nat → Nat → Nat
  | 0, _, _, _ => 0
  | k + 1, i, t, y => t + expSeries k (i + 1) (t * y / 2 ^ prec / (i + 1)) y

/-- sin(π r) for r in (0, 1/2], to within the precision. -/
def sinPi (r : Rat) : Rat :=
  let y := r * (piFix : Rat)
  let yn := y.num.toNat / y.den
  let sq := yn * yn / 2 ^ prec
  let s := (sinSeries 60 1 (2 ^ prec) sq).toNat
  r * ((piFix : Rat) * pow2 (-prec)) * ((s : Rat) * pow2 (-prec))

/-- e^y for y in [0, 32), by e^(y/256) squared eight times. -/
def expFix (y : Rat) : Nat :=
  let z := y * pow2 (prec - 8)
  let e := expSeries 60 0 (2 ^ prec) (z.num.toNat / z.den)
  (List.range 8).foldl (fun a _ => a * a / 2 ^ prec) e

/-- tanh x for x > 0, to within the precision. -/
def tanhLow (x : Rat) : Rat :=
  let e := expFix (2 * x)
  ((e - 2 ^ prec : Nat) : Rat) / ((e + 2 ^ prec : Nat) : Rat)

/-- R81: one of the two FP32 codes around a magnitude that no FP32 value equals; which is free (log entry 7). -/
def faithful (fn : Nat) (key : Word) (low : Rat) : Nat :=
  let c := fp32.roundCode .rz low
  min (if Config.faithfulUp fn key then c + 1 else c) fp32.limit

/-- A code with a sign. -/
def withSign (neg : Bool) (code : Nat) : Word := BitVec.ofNat 32 ((if neg then 2 ^ 31 else 0) + code)

/-- The eight special functions (R81, R82). -/
inductive Special where
  | rcp | rsqrt | sqrt | exp2 | log2 | sinpi | cospi | tanh
  deriving DecidableEq, Repr

/-- The FP32 value 1.0. -/
def one32 : Nat := 0x3F800000

def specialSqrt : Val → Word
  | .nan => nan32
  | .inf neg => if neg then nan32 else withSign false fp32.limit
  | .fin neg m => if m = 0 then withSign neg 0 else if neg then nan32 else withSign false (sqrtRne m)

def specialRcp : Val → Word
  | .nan => nan32
  | .inf neg => withSign neg 0
  | .fin neg m => if m = 0 then withSign neg fp32.limit else toF32 .rne (.fin neg (1 / m))

def specialRsqrt (key : Word) : Val → Word
  | .nan => nan32
  | .inf neg => if neg then nan32 else withSign false 0
  | .fin neg m =>
    if m = 0 then withSign neg fp32.limit
    else if neg then nan32
    else
      let (c, exact) := sqrtFloor (1 / m)
      if exact then withSign false c else withSign false (if Config.faithfulUp 1 key then c + 1 else c)

def specialExp2 (key : Word) : Val → Word
  | .nan => nan32
  | .inf neg => if neg then 0 else withSign false fp32.limit
  | .fin neg m =>
    let x := signed neg m
    if x < -150 then 0
    else if 128 ≤ x then withSign false fp32.limit
    else if x.den = 1 ∧ -149 ≤ x then toF32 .rne (.fin false (pow2 x.num))
    else withSign false (faithful 3 key (exp2Low x))

def specialLog2 (key : Word) : Val → Word
  | .nan => nan32
  | .inf neg => if neg then nan32 else withSign false fp32.limit
  | .fin neg m =>
    if m = 0 then withSign true fp32.limit
    else if neg then nan32
    else
      let e := floorLog2 m.num.toNat m.den
      if m = pow2 e then toF32 .rne (Val.ofRat e)
      else
        let l := log2Low m
        if l < 0 then withSign true (faithful 4 key (-l - pow2 (-192))) else withSign false (faithful 4 key l)

/-- sin(π x) for a magnitude: reduced to a sign and a quarter turn. Short of a quarter turn the sine lies below 1, and so
its lower neighbour is at most 1 − 2^−24, however near 1 it is. -/
def sinPiOf (fn : Nat) (key : Word) (neg : Bool) (m : Rat) : Word :=
  let k := m.floor
  let f := m - k
  if f = 0 then withSign neg 0
  else
    let flip := k % 2 == 1
    let r := if 1 / 2 < f then 1 - f else f
    if r = 1 / 2 then withSign (neg != flip) one32 else withSign (neg != flip) (faithful fn key (min (sinPi r) (1 - pow2 (-24))))

def specialSinpi (key : Word) : Val → Word
  | .nan => nan32
  | .inf _ => nan32
  | .fin neg m => sinPiOf 5 key neg m

/-- cos(π x) = sin(π (x + 1/2)), with the exact cases of R82. -/
def specialCospi (key : Word) : Val → Word
  | .nan => nan32
  | .inf _ => nan32
  | .fin _ m =>
    let h := m + 1 / 2
    if h.den = 1 then 0 else sinPiOf 6 key false h

def specialTanh (key : Word) (w : Word) : Val → Word
  | .nan => nan32
  | .inf neg => withSign neg one32
  | .fin neg m =>
    if m ≤ pow2 (-12) then w
    else if (19 : Rat) / 2 ≤ m then withSign neg one32
    else withSign neg (faithful 7 key (tanhLow m))

/-- R81, R82: the result of a special function. -/
def Special.eval (f : Special) (w : Word) : Word :=
  match f with
  | .rcp => specialRcp (f32 w)
  | .rsqrt => specialRsqrt w (f32 w)
  | .sqrt => specialSqrt (f32 w)
  | .exp2 => specialExp2 w (f32 w)
  | .log2 => specialLog2 w (f32 w)
  | .sinpi => specialSinpi (w &&& 0x7FFFFFFF) (f32 w)
  | .cospi => specialCospi (w &&& 0x7FFFFFFF) (f32 w)
  | .tanh => specialTanh (w &&& 0x7FFFFFFF) w (f32 w)

/-- The code of 2^n for an integer at most 0, 0 below the least FP32 value. -/
def exp2aAt (n : Int) : Nat := if n < -149 then 0 else fp32.roundCode .rz (pow2 n)

/-- exp2a of R370 for an operand at most 0: exact at integers from −149, +0 below −150, and otherwise a code within
2^−21 of 2^x where one exists, else a neighbour. Both ends of the bound rise with the operand, and so do the exact values at
the integers beside it, so the free curve held between them is non-decreasing (log entry 8). -/
def exp2a (w : Word) : Word :=
  match f32 w with
  | .fin neg m =>
    let x := signed neg m
    if x < -150 then 0
    else if x.den = 1 ∧ -149 ≤ x then toF32 .rne (.fin false (pow2 x.num))
    else
      let v := exp2Low x
      let lo := fp32.roundCode .up (v * (1 - pow2 (-21)))
      let hi := fp32.roundCode .rz (v * (1 + pow2 (-21)))
      let ends := if lo ≤ hi then (lo, hi) else (fp32.roundCode .rz v, fp32.roundCode .rz v + 1)
      let least := max ends.1 (exp2aAt x.floor)
      let most := min ends.2 (exp2aAt (x.floor + 1))
      withSign false (min most (max least (Config.exp2aCurve (2 ^ 31 - w.toNat % 2 ^ 31))))
  | .inf _ => 0
  | .nan => nan32

end Sys2Proof.Machine
end

