-- ==== Sys2Proof/Machine/State.lean ====
section
/-! DEFINITION. The state of one EFL1536-M module as plain data, what stops it, and its state after reset. Every
field cites the rule of spec/ that gives it; `Thread` follows 01_thread R10, `Team` 06_core R128, `Cluster` 11_cluster
R214 to R229. -/

namespace Sys2Proof.Machine

/-- Bytes by address, addresses strictly rising; what an unlisted address reads as is the reader's definition. -/
abbrev Cells := List Host.Cell

/-! ### Faults -/

/-- The fault record of R29, field by field. -/
structure FaultRec where
  cause : Nat
  deferred : Bool := false
  replayable : Bool := false
  engine : Bool := false
  nested : Bool := false
  seat : Nat := 0
  word : Nat := 0
  group : Nat := 0
  tslot : Nat := 0
  role : Nat := 0
  ctx : Nat := 0
  core : Nat := 0
  tenant : Nat := 0
  clause : Addr := 0
  vaddr : Addr := 0
  lanes : Word := 0
  tensor : Word := 0
  bitoff : Word := 0
  tile : BitVec 64 := 0
  detail : BitVec 64 := 0
  deriving DecidableEq, Repr

/-! ### Threads -/

/-- What a parked thread waits for (R23, R32). -/
inductive Park where
  /-- `bar.wait` on a barrier register, for a phase (R181). -/
  | bar (b q : Nat)
  /-- `ring.acq` on a ring, for a use (R187). -/
  | ringAcq (r n : Nat)
  /-- `ring.get` on a ring, for a use (R187). -/
  | ringGet (r n : Nat)
  /-- `mwait` on the word at an address, compare code and comparand (R277). -/
  | mwait (va : Addr) (cmp : Nat) (value : Word)
  /-- `mwait` in overflow mode (R225). -/
  | mwaitOverflow (va : Addr) (cmp : Nat) (value : Word)
  /-- An absent scratchpad line (R137). -/
  | line (l : Nat)
  /-- A stash line whose fill is in progress, by window and line (R140), with the scratchpad offset of the access and whether
  it is a load on a flag, whose faults are deferred (R176, R177). -/
  | stash (w l off : Nat) (flagged : Bool)
  /-- A spawn that waits for room: its till's pair, its argument, and whether it is a `spawnf` (R20, R101). -/
  | spawn (entry : Addr) (role : Role) (arg : Word) (flush : Bool)
  /-- A page that is not present, by the access number of its page-fault record (R32, R318). -/
  | page (access : Nat)
  deriving DecidableEq, Repr

/-- Whether a thread may issue (R21 to R26, R31). -/
inductive Status where
  | ready
  /-- A synchronous operation has not completed (R40). -/
  | sync (op : Nat)
  /-- After `tret`, while its replayed load has not completed (R30). -/
  | replay (op : Nat)
  /-- After `yield`, for this many more core-cycle ends (R102). -/
  | yielded (n : Nat)
  /-- At a cross-lane instruction or a `tenc`, with the mask read at arrival (R156, R336). -/
  | xlane (mask : Word)
  | parked (p : Park)
  /-- Stopped by a fault in its handler or one whose record cannot be written (R31). -/
  | stopped
  /-- Stopped because its context lost control or ended (R327, R383, R385). -/
  | halted
  /-- Stopped at its save point for a pre-emption; `whole` as R26 gives, with the park it stood in. -/
  | saved (whole : Bool) (was : Option Park)
  deriving DecidableEq, Repr

/-- A clause that has been fetched (R36, R37). `word` is the index of the next word; 0 until the header opens. -/
structure ClauseCtx where
  header : Addr
  count : Nat
  cls : Nat
  wait : BitVec 12
  setA : Nat
  setB : Nat
  words : List Word
  word : Nat
  deriving DecidableEq, Repr

/-- What `tret` needs of the trap being served: while %fpc stands as set, whether it goes on at a place of its own, and
that place as header and word index (R30, R186), else at %fpc; and the recorded clause with its count (R106). -/
structure Resume where
  own : Bool
  hdr : Addr
  word : Nat
  clause : Addr
  count : Nat
  deriving DecidableEq, Repr

/-- One live thread (R10). `regs` has the window's N entries; `preds` holds p0 to p6 and bit 7 is never set. -/
structure Thread where
  key : ThreadKey
  role : Role
  entry : Addr
  regs : List Word
  pend : BitVec 256
  preds : BitVec 8
  xs : List (BitVec 16)
  pc : Addr
  clause : Option ClauseCtx
  /-- While no clause is fetched: the header to fetch, and the index of the word to go on at (0 or 1 for the first). -/
  hdr : Addr
  startAt : Nat
  trapActive : Bool
  watchdog : BitVec 25
  cause : Word
  fpc : Addr
  /-- The value %fpc took at trap entry, which `tret` compares (R106). -/
  fpc0 : Addr
  /-- Where `tret` goes on, for the trap being served. -/
  resume : Resume
  /-- The faulted load that the next `tret` performs again, by its operation number (R30). -/
  replay : Option Nat
  age : Nat
  status : Status
  /-- In overflow mode: core cycles within which the thread reads its condition again (R225). -/
  poll : Nat
  /-- The scratchpad or stash line its access waited for is present: the access is performed before anything else (R166). -/
  redo : Bool
  /-- The operand block of a matrix word that waits for a line, read once (R193). -/
  block : Option (List Byte)
  /-- Operations whose engine fault this thread has already received (R186). -/
  seenFaults : List Nat
  /-- Register words that hold an uncorrectable error (R154). -/
  badRegs : List Nat
  /-- Operands of the wait the thread stood in when its team was swapped out, used when it evaluates that wait again
  (R322, R323). -/
  held : Option Park
  /-- The gang issue in which the thread last acted (R176). -/
  lastIssue : Nat
  deriving DecidableEq, Repr

/-! ### Operations -/

/-- A page-wise access kind of a walk (R315). -/
inductive Access where
  | read | write | execute | tellerRead | tellerWrite
  /-- A write by the index unit, which skips W on coded-slot pages (R305). -/
  | indexWrite
  deriving DecidableEq, Repr

/-- The read-modify-write forms of R271. -/
inductive AtomForm where
  | addB32 | addB64 | addF32 | addBf16x2 | minI32 | minN32 | maxI32 | maxN32 | and | or | xor | xchg | cas | casB64
  deriving DecidableEq, Repr

/-- One end of a copied piece. -/
inductive Loc where
  | mem (va : Addr)
  | scratch (team off : Nat)
  | bytes (b : List Byte)
  deriving DecidableEq, Repr

/-- Bytes a copy moves as one landing (R185). -/
structure Piece where
  src : Loc
  dst : Loc
  len : Nat
  deriving DecidableEq, Repr

/-- A tensor descriptor as R292 lays it out, with the tensor's number. -/
structure Desc where
  num : Nat
  rank : Nat
  fmt : Nat
  policy : Nat
  tslot : Nat
  dims : List Nat
  index : Addr
  pool : Addr
  scale : Nat
  deriving DecidableEq, Repr

/-- A tile named by an access: the handle (0xFF for none), the descriptor copy and the tile coordinates (R295). -/
structure TileRef where
  handle : Nat
  desc : Desc
  coords : List Nat
  deriving DecidableEq, Repr

/-- A matrix operation after its issue checks (R193, R196). `tiles` are the decoded weight tiles, `bitmap` the sparsity
words read at issue. -/
structure MatOp where
  aFmt : Nat
  wFmt : Nat
  isMmf : Bool
  areg : Nat
  breg : Nat
  sreg : Nat
  sel : Nat
  aofs : Nat
  sparsity : Nat
  tiles : List (List Byte)
  bitmap : List Word
  arrive : Option Nat
  deriving DecidableEq, Repr

/-- A candidate of a search: key and whether it is expanded (R364). -/
structure Cand where
  id : Nat
  dist : Word
  expanded : Bool
  deriving DecidableEq, Repr

/-- The batches of an expansion: tellers and nodes of those that have not returned, and the distances of the others (R365). -/
structure Batches where
  left : List (Nat × List Nat)
  back : List Cand
  deriving DecidableEq, Repr

/-- Where a teller query stands (R364 to R369): the packet and its address; the graph descriptor, the query vector and the
partition entries as they were read, once each (R248). -/
structure Query where
  teller : Nat
  /-- The home teller of a `gq` is known: its graph and its first partition entry have been read (R363). -/
  routed : Bool
  addr : Addr
  packet : List Byte
  running : Bool
  graph : List Byte
  vec : List Byte
  parts : List (Nat × List Byte)
  visited : List Nat
  cands : List Cand
  expansions : Nat
  /-- The batches awaited (R365). -/
  waiting : Option Batches
  /-- Set when the search or the partial has ended: the result record (R366, R369). -/
  out : Option (List Byte)
  deriving DecidableEq, Repr

/-- A remote operation at its issuer (R411 to R414, R418): the source bytes not yet read, when it was sent, the sum S of
the bytes sent, and the bit an armed injection flips in it (R419): whether after the CRC, byte and bit. -/
structure RemoteOp where
  target : Nat
  body : RemoteBody
  /-- The chain pair of a checked copy, or the operand register of `ratom.add`. -/
  d : Option Nat
  srcVa : Addr
  srcLeft : Nat
  sent : Bool
  sentAt : Nat
  sum : Word
  flip : Option (Bool × Nat × Nat)
  deriving DecidableEq, Repr

/-- What an outstanding operation does. Operands are held as read at issue. -/
inductive OpKind where
  /-- A special function: destination and result (R125). -/
  | sfu (d : Nat) (value : Word)
  /-- A global load: size, sign extension, destination, hint count and policy, acquire scope (R172, R278). -/
  | load (va : Addr) (size : Nat) (signed : Bool) (d count policy : Nat) (acq : Option Scope)
  /-- A global load, acquiring or not, whose registers are written and whose gang issue has lanes still to write (R173). -/
  | written (acq : Bool)
  /-- A global store, with the scope of a store-release (R172, R279). -/
  | store (va : Addr) (bytes : List Byte) (rel : Option Scope)
  /-- An atomic, or a `red` when `d` is none (R271, R272). -/
  | atom (form : AtomForm) (scope : Scope) (va : Addr) (x new : BitVec 64) (d : Option Nat)
  /-- `badd` (R274); `asked` once home has answered its allowance request (R228); `next` is the element to add next. -/
  | badd (bf16 : Bool) (va : Addr) (x : Word) (asked : Bool) (next : Nat)
  | ldb (va : Addr) (d : Nat) (tol : Word)
  | bsettle (va : Addr)
  /-- `cclean`, `cinval`, `cflush` (0, 1, 2; R281). -/
  | cmaint (form : Nat) (scope : Scope) (va : Addr) (len : Nat)
  | stashMap (off len : Nat) (va : Addr)
  | stashWb (win : Nat) (unmap : Bool)
  /-- `cpy`, `cpy.peer`, `cpt` and the source side of remote copies: pieces not yet landed (R189, R190, R338). -/
  | copy (pieces : List Piece) (bar : Option Nat)
  /-- `cpw` before its layout record is read (R191). -/
  | cpw (rec : Addr) (d : Nat) (dx dy : Int) (bar : Option Nat)
  /-- `cpl`: entries not yet read, and the pieces left of the entry last read (R192). -/
  | cpl (list : Addr) (next count : Nat) (pieces : List Piece) (bar : Option Nat)
  /-- `cpt` tiles not yet delivered: first tile, dimension, next, count, destination, metadata, form (R337). -/
  | cpt (t : TileRef) (dim next n dst md : Nat) (stored : Bool) (bar : Option Nat)
  | mat (m : MatOp)
  | accClr (aofs : Nat)
  | ctld (slot : Nat) (rec : List Byte)
  /-- `ctst`: its bytes by virtual and physical address (R199). -/
  | ctst (parts : List (Addr × Nat × List Byte))
  /-- `tld`: destination, width in bits, element within the tile (R333). -/
  | tld (t : TileRef) (d width elem : Nat)
  | tq (t : TileRef) (d : Nat)
  | tst (t : TileRef) (off : Nat)
  /-- `tenc`: the 32 BF16 elements, the entry's scale tensor and coordinates (R307, R308, R336); `second` once the code
  update is done. -/
  | tenc (t : TileRef) (row : Nat) (elems : List (BitVec 16)) (scale : TileRef) (scaleElem : Nat) (second : Bool)
  | tclean (t : TileRef) (first count : Nat)
  | tinval (t : TileRef) (first count : Nat)
  | spool (t : TileRef) (cls : Nat) (slot : Addr)
  /-- `tlbinv` after its entries are dropped: the operations whose accesses it waits for (R341). -/
  | tlbinv (waits : List Nat)
  | gq (q : Query)
  | att (q : Query)
  | tstat (d n : Nat)
  /-- A remote operation (R413, R414). -/
  | remote (r : RemoteOp)
  /-- Another seat's share of a group operation (R336): leaves its flag with the operation named. -/
  | follow (leader : Nat)
  deriving DecidableEq, Repr

/-- An outstanding operation (R12, R40). `id` is its place in issue order, `issue` the number of the gang issue that
made it, `sync` whether its thread waits for it, `base` the fault record naming its word. -/
structure Op where
  id : Nat
  issue : Nat
  key : ThreadKey
  flag : Option Nat
  core : Nat
  cluster : Nat
  ctx : Nat
  base : FaultRec
  fpc : Addr
  /-- Word count of the clause that issued it. -/
  count : Nat
  regs : List Nat
  pa : Option Nat
  kind : OpKind
  fault : Option FaultRec
  /-- Waiting on a page-fault record (R318). -/
  waitPage : Option Nat
  /-- The scope at which its fork releases and its join acquires (R246). -/
  scope : Scope := .device
  /-- Its fork's release has been made (R246). -/
  begun : Bool := false
  /-- A thread issued it in its trap handler. -/
  handler : Bool := false
  /-- The value of the model's counter from which on its next event is due (R242; log entry 81). -/
  due : Nat := 0
  /-- Its team is being swapped out, and it waits for no read that is saved as faulted or parked (R321; log entry 84). -/
  letGo : Bool := false
  /-- The walk it waits for, of those an engine's step needs, and the walks that have ended for it (R317). -/
  walk : Option (Nat × Nat × Nat) := none
  walked : List (Nat × Nat × Nat) := []
  deriving DecidableEq, Repr

/-! ### Teams -/

/-- A barrier register (R152); `pending` is the 40-bit field read as a signed integer (R179). -/
structure Bar where
  expected : Nat
  arrived : Nat
  phase : Nat
  pending : Int
  waiters : BitVec 32
  valid : Bool
  deriving DecidableEq, Repr

/-- A stage ring (R153). -/
structure Ring where
  slots : Nat
  full : Nat
  empty : Nat
  head : Nat
  tail : Nat
  valid : Bool
  deriving DecidableEq, Repr

/-- State of a stash line (R140). -/
inductive StashLine where
  | unfilled | filling
  | filled (dirty : BitVec 256)
  deriving DecidableEq, Repr

/-- A stash window (R128, R140); `retranslate` marks pages whose next fill translates again (R170), by line. -/
structure Stash where
  valid : Bool
  off : Nat
  len : Nat
  va : Addr
  lines : List StashLine
  pas : List Nat
  /-- The line's page is one of 512 MiB. -/
  big : List Bool
  coded : List Bool
  writable : List Bool
  retranslate : List Bool
  deriving DecidableEq, Repr

/-- A till (R17, R18). `due` holds its place in the order tills became due; `timer` counts core cycles left. -/
structure Till where
  entry : Addr
  role : Role
  args : List Word
  due : Option Nat
  timer : Nat
  deriving DecidableEq, Repr

/-- A group (R14, R15, R131): its entry, role, window size, seats still live, seats that ever held a thread, and the
first register block of its run. -/
structure Group where
  num : Nat
  entry : Addr
  role : Role
  window : Nat
  live : BitVec 32
  members : BitVec 32
  run : Nat
  /-- Registers of exited seats, which engines still read (R194), and those that hold an uncorrectable error (R154). -/
  dead : List (Nat × List Word × List Nat)
  deriving DecidableEq, Repr

/-- What a team that is swapped out waits for (R323): something its parked threads wait for, a core, or the command
processor that pre-empted it. -/
inductive Wanted where
  | wake | place | schedule
  deriving DecidableEq, Repr

/-- Where a team stands with its die's dispatcher (R319 to R325). -/
inductive Residency where
  /-- Handed to the die, not yet placed. -/
  | waiting
  | resident (core slot : Nat)
  /-- Swapped out: core and slot it left, image base and length in the save area, what it waits for, order of its
  swap-out (R320 to R324). -/
  | swapped (core slot base len : Nat) (wanted : Wanted) (order : Nat)
  /-- Its slot, on this core, has been freed for good (R325). -/
  | freed (core : Nat)
  deriving DecidableEq, Repr

/-- A pre-emption in progress (R25, R26): core cycles of grace left. -/
structure Preempt where
  grace : Nat
  deriving DecidableEq, Repr

/-- An entry record of the code object (R61), with its clause address. -/
structure EntryRec where
  addr : Addr
  lgregs : Nat
  role : Nat
  deriving DecidableEq, Repr

/-- A live-state record of the code object (R62), with its clause address. -/
structure LiveRec where
  addr : Addr
  flags : BitVec 16
  preds : BitVec 8
  xs : BitVec 4
  ranges : List (Nat × Nat)
  deriving DecidableEq, Repr

/-- An engine fault to be delivered at a barrier wait (R186). -/
structure BarFault where
  bar : Nat
  phase : Nat
  op : Nat
  record : FaultRec
  fpc : Addr
  /-- Word count of the operation's clause. -/
  count : Nat
  deriving DecidableEq, Repr

/-- One team (R127, R128). -/
structure Team where
  uid : Nat
  index : Nat
  grid : Nat
  die : Nat
  ctx : Nat
  farea : Addr
  fgroups : Nat
  sgran : Nat
  budgets : List Nat
  used : List Nat
  tillp : Nat
  consts : List Word
  text : Addr
  entries : List EntryRec
  live : List LiveRec
  handles : List (Option Nat)
  descs : List (Option Desc)
  ctabs : List (Option (List Byte))
  bars : List Bar
  rings : List Ring
  stash : List Stash
  scratch : Cells
  badWords : List Nat
  /-- Lines whose presence bit an image gives otherwise than the operations still to write them do (R322, R323): 0, or 1, so
  that only operations from a number on count against the line. -/
  lineBits : List (Nat × Option Nat) := []
  srun : Nat
  tills : List (Option Till)
  groups : List Group
  rolePtr : Role
  res : Residency
  preempt : Option Preempt
  /-- Chosen to give up its slot by running to exit (R379). -/
  toExit : Bool
  /-- Its context was lost or ended while it was swapped out or in a slot (R385). -/
  lost : Bool
  /-- Its place in the order in which teams took slots (R379). -/
  placed : Nat
  barFaults : List BarFault
  deriving DecidableEq, Repr

/-! ### Cores, clusters and home -/

/-- A tile or linear line as caches tag it (R142): linear line address, or context, tensor and tile number. -/
inductive Tag where
  | line (pa : Nat)
  | tile (ctx tensor num : Nat)
  deriving DecidableEq, Repr

/-- A tile's stored form (R296): its block-index entry and the bytes of its slot. -/
structure Stored where
  entry : BitVec 128
  bytes : List Byte
  /-- A cluster's copy holds an uncorrectable error (R231). -/
  bad : Bool := false
  deriving DecidableEq, Repr

/-- An L1 line (R142 to R144): the bytes of a linear line, or a tile's stored form. -/
structure L1Line where
  tag : Tag
  bytes : List Byte
  stored : Option Stored
  count : Nat
  policy : Nat
  /-- The gang issues whose reads have lowered the count (R144). -/
  seen : List Nat
  /-- The writes, newest first, as address and length, that the line has taken into units it holds otherwise as they were
  before (R143, R234). -/
  patches : List (Nat × Nat)
  deriving DecidableEq, Repr

/-- A TLB entry (R316): context, virtual page number in 64 KiB units, whether the leaf is 512 MiB, and the leaf. -/
structure TlbEntry where
  ctx : Nat
  page : Nat
  big : Bool
  leaf : BitVec 64
  deriving DecidableEq, Repr

/-- A pointer entry in a die's walk cache (R317): context, level, the index fields down to it, the table it names. -/
structure WalkEntry where
  die : Nat
  ctx : Nat
  level : Nat
  path : Nat
  table : Nat
  deriving DecidableEq, Repr

/-- Which half of a core cycle comes next (R21). -/
inductive Phase where
  | pipe0 | pipe1 | tick
  deriving DecidableEq, Repr

/-- A core (R126). -/
structure Core where
  num : Nat
  cycle : BitVec 64
  ptr0 : Nat
  ptr1 : Nat
  phase : Phase
  issued : List ThreadKey
  l1 : List L1Line
  tlb : List TlbEntry
  deriving DecidableEq, Repr

/-- Escrow a cluster holds on a line (R227): per element partial and magnitude, the tracker and the allowance. -/
structure Escrow where
  line : Nat
  bf16 : Bool
  parts : List (Nat × Word)
  mags : List (Nat × Word)
  trk : Word
  alw : Word
  /-- The elements whose partial or mag holds an uncorrectable error (R231). -/
  bad : List Nat
  deriving DecidableEq, Repr

/-- A cluster cache (R214, R227). A word is wvalid when its four bytes are listed in `bytes`; `poison` lists the 8-byte
units whose copy here is poisoned (R231), by address / 8. -/
structure Cluster where
  num : Nat
  bytes : Cells
  poison : List Nat
  dirty : List Nat
  owned : List Nat
  tiles : List (Tag × Stored)
  escrow : List Escrow
  tlb : List TlbEntry
  lost : Bool
  deriving DecidableEq, Repr

/-- A registration on its way from a cluster to home (R218): the words of one 8-byte unit that one store wrote and its
cluster did not own, which become visible together, and the bytes that the store wrote of the unit (R234). -/
structure Registration where
  cluster : Nat
  words : List Nat
  start : Nat
  len : Nat
  /-- The words lie in an escrow region, so home refuses the registration (R218 step 1). -/
  escrow : Bool
  /-- The value of the model's counter by which it is handled (R242; log entry 81). -/
  due : Nat
  deriving DecidableEq, Repr

/-- A view of stored bytes (R249): linear for none, else the tiles of a context. -/
abbrev View := Option Nat

/-- An 8-byte unit that one view has written and another may still see as it was (R249): the bytes before, whether the
writer has cleaned them, and the views that have invalidated their copies since. -/
structure ViewMark where
  unit : Nat
  old : List Byte
  writer : View
  clean : Bool
  seen : List View
  deriving DecidableEq, Repr

/-- A condition monitor (R223). `grid` names a launch's wait condition in place of a team, `qp` a queue pair whose producer
word the network engine watches (R420). -/
structure Monitor where
  idx : Nat
  word : Nat
  cmp : Nat
  value : Word
  ctx : Nat
  team : Option Nat
  groups : BitVec 32
  grid : Option (Nat × Nat)
  /-- Its condition has held at a write and its wake is on the way (R224). -/
  fired : Bool
  qp : Option Nat := none
  deriving DecidableEq, Repr

/-! ### Die and package -/

/-- An escrow region descriptor (R226). -/
structure Region where
  valid : Bool
  base : Addr
  bf16 : Bool
  length : Nat
  limit : Word
  deriving DecidableEq, Repr

/-- A context record (R312). Only valid contexts are listed. -/
structure Ctx where
  num : Nat
  root : Nat
  dtab : Addr
  tvec : Addr
  save : Nat
  savelen : Nat
  wdog : Nat
  grace : Nat
  tenant : Nat
  supervisor : Bool
  regions : List Region
  deriving DecidableEq, Repr

/-- A record in a fault queue (R381) with what waits on it (R318, R383). -/
inductive FaultWait where
  | none
  /-- Accesses that wait for the page, in attach order, by access number. -/
  | page (ctx page : Nat) (accesses : List Nat)
  /-- A thread stopped by R31. -/
  | stopped (k : ThreadKey)
  deriving DecidableEq, Repr

/-- An entry of a tenant's fault queue; `lane` is the gang issue and the thread of a fault whose lanes field names the other
seats that fault in the issue (R176). -/
structure FqEntry where
  index : Nat
  record : FaultRec
  wait : FaultWait
  lane : Option (Nat × ThreadKey)
  deriving DecidableEq, Repr

/-- A tenant (R381, R382). -/
structure Tenant where
  num : Nat
  windows : List (Nat × Nat)
  quantum : Nat
  lgfq : Nat
  fqhead : Nat
  fqtail : Nat
  fq : List FqEntry
  /-- Records held back because the queue is full (R381). -/
  held : List FqEntry
  /-- Raised and not yet seen MSI-X vectors (R381). -/
  irqs : List Nat
  /-- Command-processor cycles for which the tenant's grids have held slots (R379). -/
  slotTime : Nat
  deriving DecidableEq, Repr

/-- What waits on a page-fault record: a parked thread with its precise access, an outstanding operation, or the push of
an old slot (R318, R303). -/
structure PageAccess where
  num : Nat
  key : ThreadKey
  op : Option Nat
  push : Option Nat
  base : FaultRec
  fpc : Addr
  /-- The gang issue of the access, whose lanes its record names (R176). -/
  issue : Option Nat
  deriving DecidableEq, Repr

/-- How many of a voted machine's three copies agree (R326). -/
structure Vote where
  unit : VotedUnit
  agreeing : Nat
  deriving DecidableEq, Repr

/-- A launch or supervisor queue (R373). -/
structure Queue where
  num : Nat
  base : Nat
  host : Bool
  lg : Nat
  headWord : Nat
  headHost : Bool
  head : Nat
  tail : Nat
  errors : Nat
  /-- A record fetched and not yet performed. -/
  fetched : Option (List Byte)
  deriving DecidableEq, Repr

/-- A role's launch fields (R374). -/
structure LaunchRole where
  entry : Nat
  groups : Nat
  budget : Nat
  deriving DecidableEq, Repr

/-- A wait condition of a launch (R374, R377). -/
structure WaitCond where
  va : Addr
  cmp : Nat
  value : Word
  armed : Bool
  met : Bool
  /-- The command-processor cycle at which its word is read again, where no monitor entry watches it (R225, R377). -/
  poll : Nat
  deriving DecidableEq, Repr

/-- An accepted grid (R374 to R380). -/
structure Grid where
  id : Nat
  queue : Nat
  ctx : Nat
  cls : Nat
  irq : Bool
  teams : Nat
  next : Nat
  /-- The cycle of its command processor's clock at which its deadline runs out; 0 for none (R374, R378). -/
  deadline : Nat
  deadlineHit : Bool
  urgent : Bool
  bmark : Nat
  /-- The urgent grids for which it is held at the end of its wave (R379). -/
  heldFor : List Nat
  fgroups : Nat
  text : Addr
  entries : List EntryRec
  live : List LiveRec
  farea : Addr
  roles : List LaunchRole
  cword : BitVec 64
  waits : List WaitCond
  tcfg : List Byte
  regions : List Region
  consts : List Word
  done : Bool
  deriving DecidableEq, Repr

/-- Links and stacks that work (R352, R357, R358). -/
structure Links where
  cxlFailed : List Nat
  stacksLost : List Nat
  dieLinksLost : List (Nat × Nat)
  refreshDebt : List ((Nat × Nat) × Nat)
  deriving DecidableEq, Repr

/-- Management (R388 to R390): power limit in watts, clock step, firmware measurements, SPDM negotiation and the
responses produced. -/
structure Mgmt where
  powerLimit : Nat
  clockStep : Nat
  stopped : Bool
  measurements : List (Nat × BitVec 384)
  versions : List (Nat × Nat)
  fuse : List (Nat × Nat)
  failures : List Nat
  spdmVersion : Bool
  spdmCaps : Bool
  spdmAlg : Bool
  responses : List (List Byte)
  transcript : List Byte
  events : Nat
  deriving DecidableEq, Repr

/-- The injection register (R419), and how many copies of its context are still to come up to the one it names. -/
structure Inject where
  armed : Bool
  afterCrc : Bool
  ctx : Nat
  nth : Nat
  byte : Nat
  bit : Nat
  left : Nat
  deriving DecidableEq, Repr

/-- A reply owed to a remote operation performed here (R413): issuing module, its name for the operation, reply. -/
structure OutReply where
  source : Nat
  tag : Nat
  reply : RemoteReply
  deriving DecidableEq, Repr

/-- The fabric controller (R407 to R419). `outbox` holds requests on their way out, `replies` acknowledgements. -/
structure Fabric where
  modid : Word
  ports : BitVec 32
  fab : List (Nat × BitVec 64)
  inject : Inject
  retries : Nat
  host : HostLink
  hostErrors : Nat
  /-- An error on the host link ends the next fetch of a record over it (R373). -/
  hostBad : Bool
  outbox : List (Nat × RemoteReq)
  replies : List OutReply
  /-- The contexts that this module has lost (R385) and that have not been created again. -/
  lost : List Nat
  deriving DecidableEq, Repr

/-- A RoCE queue pair (R420): tenant's context, work queue, completion queue and producer and count words. -/
structure RoceQp where
  num : Nat
  ctx : Nat
  workBase : Addr
  slots : Nat
  producer : Addr
  fetched : Nat
  cqBase : Addr
  countWord : Addr
  entries : List (List Byte)
  rate : Nat
  /-- The Ethernet port its frames use, 0 to 5 (R1). -/
  port : Nat
  /-- Answers to RDMA READ requests: the bytes, or none where they could not be read. -/
  answers : List (Option (List Byte))
  deriving DecidableEq, Repr

/-- A slot to be pushed after a tile update has unlocked (R303 step 9), or for `spool` (R340). -/
structure Push where
  idx : Nat
  core : Nat
  cluster : Nat
  ctx : Nat
  pool : Addr
  cls : Nat
  slot : Addr
  base : FaultRec
  op : Option Nat
  /-- Waiting on a page-fault record. -/
  wait : Option Nat
  deriving DecidableEq, Repr

/-- An update aimed at a swapped-out team (R324): a scratchpad landing or a barrier update. -/
inductive ImageWrite where
  | scratch (off : Nat) (bytes : List Byte)
  | bar (b count : Nat) (bytes : Int)
  deriving DecidableEq, Repr

/-- One queued image update with the operation that made it (R324). -/
structure ImageUpd where
  idx : Nat
  team : Nat
  op : Nat
  what : ImageWrite
  deriving DecidableEq, Repr

/-! ### Snapshot registers -/

/-- The snapshot registers (R387): what the blocks copied after the trigger. Seat tables are in the threads and teams,
barriers in the teams, flags, engine queues and tellers in the operations, walkers in the walks, their cached entries and the
accesses that wait, the command processors in the queues, grids, tenants and clocks. -/
structure Snap where
  threads : List Thread
  teams : List Team
  ops : List Op
  cores : List Core
  monitors : List Monitor
  accesses : List PageAccess
  walks : List (Nat × Nat × Nat)
  queues : List Queue
  grids : List Grid
  clusters : List Cluster
  home : Cells
  registry : List (Nat × Nat)
  registrations : List Registration
  walkCache : List WalkEntry
  tellerTlb : List (Nat × TlbEntry)
  votes : List Vote
  pushes : List Push
  imageUpdates : List ImageUpd
  tenants : List Tenant
  clocks : List Nat
  fabric : Option Fabric
  roce : List RoceQp
  ctxs : List Ctx
  poison : List Nat
  homePoison : List Nat
  links : Option Links
  deriving DecidableEq, Repr

/-- The supervisor's registers that are not a tenant's (R382) and the snapshot registers' state (R387). -/
structure Sup where
  tsel : Nat
  wsel : Nat
  errcnt : BitVec 64
  dissents : BitVec 32
  readmissions : BitVec 32
  snapen : Word
  snapcause : Word
  latched : Bool
  triggers : Nat
  snap : Snap
  /-- Blocks that the broadcast has not reached yet, by the field of `Snap` they fill. -/
  snapDue : List Nat
  /-- Vectors of the physical function raised and not yet seen (R391, R407). -/
  irqs : List Nat
  deriving DecidableEq, Repr

/-! ### The gang being issued -/

/-- A gang issue in progress (R21, R134): its number, core, the threads still to act in (group, seat) order, and the
threads that have faulted on the word with the places of their records in the fault area, whose lanes fields are filled
when the issue ends (R176). A fault that goes to the fault queue alone has no place there. -/
structure Issue where
  num : Nat
  core : Nat
  lanes : List ThreadKey
  faulted : List (ThreadKey × Option Nat)
  deriving DecidableEq, Repr

/-- The prefix of the pair being issued (R45, R46). -/
inductive Pfx where
  | operand (pred : Nat) (zero : Bool) (c : Nat)
  | hint (count policy : Nat) (ext : BitVec 16)
  deriving DecidableEq, Repr

/-- The whole module. -/
structure State where
  /-- The thread that acts now; its one home while it does (log entry 6). -/
  th : Thread
  /-- Every other live thread. -/
  threads : List Thread
  /-- The team of the thread that acts now. -/
  tm : Team
  /-- Every other team. -/
  teams : List Team
  issue : Option Issue
  /-- The threads that have faulted in gang issues of which operations are outstanding (R29, R176). -/
  laneFaults : List (Nat × ThreadKey)
  pfx : Option Pfx
  /-- Outstanding operations, in issue order. -/
  ops : List Op
  nextOp : Nat
  nextIssue : Nat
  cores : List Core
  clusters : List Cluster
  /-- Memory below the shared cache (R353); an unlisted byte reads `Mem.blank`. -/
  mem : Cells
  /-- Bytes the shared cache holds that are newer than memory (R216, R248). -/
  home : Cells
  /-- 8-byte units of memory marked poisoned, by address / 8 (R231, R354). -/
  poison : List Nat
  /-- 8-byte units whose copy in the shared cache is marked poisoned (R231, R358). -/
  homePoison : List Nat
  /-- Units that hold the stored form of a tile, by the tile's tag: what the index unit has read or written (R249, R311). -/
  indexed : List (Tag × Nat)
  viewMarks : List ViewMark
  /-- Owned words and their owners (R217). -/
  registry : List (Nat × Nat)
  /-- The registry's pending bits: words whose revocation awaits its acknowledgment (R217, R219). -/
  revoking : List Nat
  registrations : List Registration
  monitors : List Monitor
  nextMonitor : Nat
  ctxs : List Ctx
  tenants : List Tenant
  accesses : List PageAccess
  nextAccess : Nat
  tellerTlb : List (Nat × TlbEntry)
  walkCache : List WalkEntry
  /-- Walks in flight, by die, context and virtual 64 KiB page (R317). -/
  walks : List (Nat × Nat × Nat)
  /-- In a step of an engine of a die, the walks that have ended for it (R317; the model's own, log entry 106). -/
  walkFor : Option (List (Nat × Nat × Nat))
  /-- The walk that such a step turns out to need (the model's own, log entry 106). -/
  missed : Option (Nat × Nat × Nat)
  votes : List Vote
  pushes : List Push
  imageUpdates : List ImageUpd
  nextIdx : Nat
  queues : List Queue
  grids : List Grid
  nextGrid : Nat
  nextTeam : Nat
  /-- Counts placements and swap-outs, whose order R319, R320 and R379 use. -/
  placeOrder : Nat
  dueOrder : Nat
  cpRobin : Nat
  /-- Clocks of the four command processors and of the fabric controller, in their own cycles (R5). -/
  clocks : List Nat
  sup : Sup
  links : Links
  mgmt : Mgmt
  fabric : Fabric
  roce : List RoceQp
  /-- Host memory that queues, head words and status words may lie in (R373). -/
  hostMem : Cells
  /-- Events from outside not yet taken (log entry 5). -/
  inputs : List Instr
  /-- The model's own counter for free choices (log entry 4). -/
  tick : Nat
  deriving DecidableEq, Repr

/-! ### What stops the machine -/

/-- Why a step stops: for no reason. Architectural faults are traps and so next states (R28), and an event whose condition
does not hold does not occur and leaves the machine as it is (log entry 5). -/
inductive Fault where
  deriving DecidableEq, Repr

/-- Why an instruction has no meaning. -/
inductive Refusal where
  /-- Not modelled yet, by mnemonic. Raised by the dispatcher alone. Safe: the run stops. -/
  | notModelled (mnemonic : String)
  deriving DecidableEq, Repr

/-- The answer of a meaning. -/
abbrev Out := Host.Outcome State Fault Refusal

/-- What an event does: the state it leads to, or none where its condition does not hold. -/
abbrev Ev := Option State

/-! ### After reset -/

/-- A team number no team has. A team's number is its die times 2^16 plus its 16-bit identifier, which is unique on the
die (R319). -/
def noTeam : Nat := 0x40000

/-- The thread in `th` while none acts (log entry 6). -/
def Thread.inert : Thread where
  key := { team := noTeam, group := 0, seat := 0 }
  role := .vector
  entry := 0
  regs := []
  pend := 0
  preds := 0
  xs := [0, 0, 0, 0]
  pc := 0
  clause := none
  hdr := 0
  startAt := 0
  trapActive := false
  watchdog := 0
  cause := 0
  fpc := 0
  fpc0 := 0
  resume := { own := false, hdr := 0, word := 0, clause := 0, count := 0 }
  replay := none
  age := 0
  status := .halted
  poll := 0
  redo := false
  block := none
  seenFaults := []
  badRegs := []
  held := none
  lastIssue := 0

/-- An unconfigured barrier register (R152). -/
def Bar.unset : Bar := { expected := 0, arrived := 0, phase := 0, pending := 0, waiters := 0, valid := false }

/-- An undeclared ring (R153). -/
def Ring.unset : Ring := { slots := 0, full := 0, empty := 0, head := 0, tail := 0, valid := false }

/-- An unmapped stash window (R128). -/
def Stash.unset : Stash :=
  { valid := false, off := 0, len := 0, va := 0, lines := [], pas := [], big := [], coded := [], writable := [], retranslate := [] }

/-- The team in `tm` while none acts (log entry 6). -/
def Team.inert : Team where
  uid := noTeam
  index := 0
  grid := 0
  die := 0
  ctx := 0
  farea := 0
  fgroups := 32
  sgran := 0
  budgets := [0, 0, 0]
  used := [0, 0, 0]
  tillp := 64
  consts := List.replicate 64 0
  text := 0
  entries := []
  live := []
  handles := List.replicate 16 none
  descs := List.replicate 16 none
  ctabs := List.replicate 8 none
  bars := List.replicate 16 Bar.unset
  rings := List.replicate 8 Ring.unset
  stash := List.replicate 4 Stash.unset
  scratch := []
  badWords := []
  srun := 0
  tills := List.replicate 8 none
  groups := []
  rolePtr := .vector
  res := .freed 0
  preempt := none
  toExit := false
  lost := false
  placed := 0
  barFaults := []

/-- A core after reset: both team pointers at slot 15 (R21), nothing cached. -/
def Core.reset (n : Nat) : Core :=
  { num := n, cycle := 0, ptr0 := 15, ptr1 := 15, phase := .pipe0, issued := [], l1 := [], tlb := [] }

/-- A cluster cache after reset (R214, R227). -/
def Cluster.reset (n : Nat) : Cluster :=
  { num := n, bytes := [], poison := [], dirty := [], owned := [], tiles := [], escrow := [], tlb := [], lost := false }

/-- A tenant after reset (log entry 2): windows disabled by a limit below the base (R382), no quantum, an empty fault
queue of 64 records. -/
def Tenant.reset (n : Nat) : Tenant :=
  { num := n, windows := List.replicate 8 (1, 0), quantum := 0, lgfq := 6, fqhead := 0, fqtail := 0, fq := [],
    held := [], irqs := [], slotTime := 0 }

/-- Snapshot registers that have copied nothing. -/
def Snap.empty : Snap :=
  { threads := [], teams := [], ops := [], cores := [], monitors := [], accesses := [], walks := [], queues := [],
    grids := [], clusters := [], home := [], registry := [], registrations := [], walkCache := [], tellerTlb := [], votes := [],
    pushes := [], imageUpdates := [], tenants := [], clocks := [], fabric := none, roce := [], ctxs := [], poison := [], homePoison := [], links := none }

/-- A queue after reset, not yet set up by the supervisor (log entry 3). -/
def Queue.reset (n : Nat) : Queue :=
  { num := n, base := 0, host := false, lg := 4, headWord := 0, headHost := false, head := 0, tail := 0, errors := 0,
    fetched := none }

/-- The module right after reset: no context, no team, caches and registries empty, memory with nothing listed. -/
def State.reset : State where
  th := Thread.inert
  threads := []
  tm := Team.inert
  teams := []
  issue := none
  laneFaults := []
  pfx := none
  ops := []
  nextOp := 0
  nextIssue := 0
  cores := []
  clusters := []
  mem := []
  home := []
  poison := []
  homePoison := []
  indexed := []
  viewMarks := []
  registry := []
  revoking := []
  registrations := []
  monitors := []
  nextMonitor := 0
  ctxs := []
  tenants := (List.range 16).map Tenant.reset
  accesses := []
  nextAccess := 0
  tellerTlb := []
  walkCache := []
  walks := []
  walkFor := none
  missed := none
  votes := []
  pushes := []
  imageUpdates := []
  nextIdx := 0
  queues := (List.range 17).map Queue.reset
  grids := []
  nextGrid := 0
  nextTeam := 0
  placeOrder := 0
  dueOrder := 0
  cpRobin := 0
  clocks := [0, 0, 0, 0, 0]
  sup := { tsel := 0, wsel := 0, errcnt := 0, dissents := 0, readmissions := 0, snapen := 0, snapcause := 0,
           latched := false, triggers := 0, snap := Snap.empty, snapDue := [], irqs := [] }
  links := { cxlFailed := [], stacksLost := [], dieLinksLost := [], refreshDebt := [] }
  mgmt := { powerLimit := 3400, clockStep := 0, stopped := false, measurements := [], versions := [], fuse := [],
            failures := [], spdmVersion := false, spdmCaps := false, spdmAlg := false, responses := [],
            transcript := [], events := 0 }
  fabric := { modid := 0, ports := 0, fab := [],
              inject := { armed := false, afterCrc := false, ctx := 0, nth := 0, byte := 0, bit := 0, left := 0 }, retries := 0,
              host := .down, hostErrors := 0, hostBad := false, outbox := [], replies := [], lost := [] }
  roce := []
  hostMem := []
  inputs := []
  tick := 0

end Sys2Proof.Machine
end

