-- ==== Sys2Proof/Machine/Mem.lean ====
section
/-! DEFINITION. Physical memory, home slices, cluster caches, ownership, escrow settlement and monitors, as named
operations (11_cluster; 12_memory_model R248; 19_package_memory R353, R354). Addresses are physical. -/

namespace Sys2Proof.Machine

/-! ### Cells -/

/-- The byte listed at an address. -/
def cellGet : Cells → Nat → Option Byte
  | [], _ => none
  | (b, v) :: t, a => if a = b then some v else if a < b then none else cellGet t a

/-- Lists a byte at an address, keeping the order. -/
def cellPut (a : Nat) (v : Byte) : Cells → Cells
  | [] => [(a, v)]
  | (b, w) :: t => if a < b then (a, v) :: (b, w) :: t else if a = b then (a, v) :: t else (b, w) :: cellPut a v t

/-- Removes what is listed at an address. -/
def cellDrop (a : Nat) : Cells → Cells
  | [] => []
  | (b, w) :: t => if a < b then (b, w) :: t else if a = b then t else (b, w) :: cellDrop a t

/-- Addresses strictly rising, each above `lo`. -/
def cellsAbove : Nat → Cells → Bool
  | _, [] => true
  | lo, (a, _) :: t => decide (lo ≤ a) && cellsAbove (a + 1) t

/-- The canonical form of an overlay: addresses strictly rising. -/
def Cells.wf (c : Cells) : Bool := cellsAbove 0 c

/-- What a byte of memory that nothing has written reads as (log entry 1). -/
def Memory.blank : Byte := 0

/-- The canonical form of memory: addresses strictly rising and no entry equal to the blank. -/
def Memory.wf (m : Cells) : Bool := cellsAbove 0 m && m.all (fun c => c.2 != Memory.blank)

/-- One byte of memory. -/
def Memory.read (m : Cells) (a : Nat) : Byte := (cellGet m a).getD Memory.blank

/-- Writes one byte of memory, keeping the canonical form. -/
def Memory.write (a : Nat) (v : Byte) (m : Cells) : Cells := if v = Memory.blank then cellDrop a m else cellPut a v m

/-! ### Bytes and words (R4: little-endian) -/

/-- Little-endian value of bytes. -/
def leNat : List Byte → Nat
  | [] => 0
  | b :: t => b.toNat + 256 * leNat t

/-- The low `n` bytes of a number, little-endian. -/
def leBytes : Nat → Nat → List Byte
  | 0, _ => []
  | n + 1, x => BitVec.ofNat 8 x :: leBytes n (x / 256)

def leWord (b : List Byte) : Word := BitVec.ofNat 32 (leNat b)

def leAddr (b : List Byte) : BitVec 64 := BitVec.ofNat 64 (leNat b)

/-- `n` bytes from offset `o` of a list, short lists read as zeros. -/
def slice (b : List Byte) (o n : Nat) : List Byte := (List.range n).map (fun i => b.getD (o + i) 0)

/-- A field of `n` bytes at offset `o`. -/
def fieldAt (b : List Byte) (o n : Nat) : Nat := leNat (slice b o n)

/-- The bytes of memory below the shared cache (R248). -/
def State.memBytes (s : State) (pa n : Nat) : List Byte := (List.range n).map (fun i => Memory.read s.mem (pa + i))

/-- The ranges of R353. -/
def inMap (pa : Nat) : Bool :=
  decide (pa < 0xC000000000) || (decide (0x10000000000 ≤ pa) && decide (pa < 0x28000000000))

/-- The stack that holds an address (R353). -/
def stackOf (pa : Nat) : Option Nat := if pa < 0xC000000000 then some (pa / 2 ^ 36) else none

/-- The CXL link that holds an address (R353). -/
def cxlOf (pa : Nat) : Option Nat :=
  if 0x10000000000 ≤ pa ∧ pa < 0x28000000000 then some ((pa - 0x10000000000) / 0x6000000000) else none

/-- R358: the address lies behind a failed link. -/
def State.linkDown (s : State) (pa : Nat) : Bool :=
  match cxlOf pa with
  | some j => s.links.cxlFailed.contains j
  | none => false

/-! ### Lists keyed by number -/

/-- Replaces the first entry that `p` accepts, else adds `x` at the end. -/
def upsert {α : Type} (p : α → Bool) (x : α) : List α → List α
  | [] => [x]
  | y :: t => if p y then x :: t else y :: upsert p x t

/-- The cluster's cache. -/
def State.cluster (s : State) (c : Nat) : Cluster := (s.clusters.find? (fun k => k.num == c)).getD (Cluster.reset c)

def State.setCluster (s : State) (k : Cluster) : State :=
  { s with clusters := upsert (fun j => j.num == k.num) k s.clusters }

/-- The core. -/
def State.coreAt (s : State) (c : Nat) : Core := (s.cores.find? (fun k => k.num == c)).getD (Core.reset c)

def State.setCore (s : State) (k : Core) : State := { s with cores := upsert (fun j => j.num == k.num) k s.cores }

/-! ### Tags, sets and slices (R142, R214, R216) -/

/-- What a tag is looked up by: context, tensor and tile number; linear memory is tensor 0 of no context (R142). -/
def Tag.key (t : Tag) : Nat × Nat × Nat :=
  match t with
  | .line pa => (0, 0, pa / 256)
  | .tile c k n => (c, k, n)

/-- The set of a cluster cache, one of 1024 (R214). -/
def Tag.clusterSet (t : Tag) : Nat := Config.clusterSet t.key.1 t.key.2.1 t.key.2.2 % 1024

/-- The set of an L1, one of 128 (R126, R142). -/
def Tag.l1Set (t : Tag) : Nat := Config.l1Set t.key.1 t.key.2.1 t.key.2.2 % 128

/-- The line address (multiple of 256) and word number of a byte. -/
def lineOf (pa : Nat) : Nat := pa / 256 * 256
def wordOf (pa : Nat) : Nat := pa / 4

/-- The slice hardware means for a line, one of 256 (R352). -/
def sliceMeant (line : Nat) : Nat := Config.homeSlice 0 0 line % 256

/-- R216: no slice gets more than 1/128 of the 4096 lines of a MiB. -/
def sliceBalanced (mib : Nat) : Bool :=
  (List.range 256).all (fun k => decide (((List.range 4096).filter (fun i => sliceMeant (4096 * mib + i) == k)).length ≤ 32))

/-- The home slice of a physical address (R216). -/
def sliceOf (pa : Nat) : Nat := if sliceBalanced (pa / 2 ^ 20) then sliceMeant (pa / 256) else pa / 256 % 256

/-- The home slice of a tag (R216, R296). -/
def Tag.slice (t : Tag) : Nat :=
  match t with
  | .line pa => sliceOf pa
  | .tile c k n => Config.homeSlice c k n % 256

/-! ### Free choices (log entry 4) -/

/-- A choice among `n` possibilities, and the counter advanced. -/
def State.pick (s : State) (n : Nat) : Nat × State :=
  (if n = 0 then 0 else Config.choice s.tick % n, { s with tick := s.tick + 1 })

/-! ### Home (R216, R217) -/

/-- The home slice's value of a byte: what the shared cache holds, else memory. -/
def State.homeByte (s : State) (pa : Nat) : Byte := (cellGet s.home pa).getD (Memory.read s.mem pa)

/-- The owner of a word (R217). -/
def State.ownerOf (s : State) (w : Nat) : Option Nat := (s.registry.find? (fun e => e.1 == w)).map Prod.snd

/-- A byte at its performing point (R221): the owner's cache where the word is owned, else home. -/
def State.performByte (s : State) (pa : Nat) : Byte :=
  match s.ownerOf (wordOf pa) with
  | some c => (cellGet (s.cluster c).bytes pa).getD (s.homeByte pa)
  | none => s.homeByte pa

def State.performBytes (s : State) (pa n : Nat) : List Byte := (List.range n).map (fun i => s.performByte (pa + i))

/-- R223: the comparison of a monitor or an `mwait`. -/
def cmpHolds (cmp : Nat) (w v : Word) : Bool :=
  match cmp with
  | 0 => w == v
  | 1 => w != v
  | 2 => decide (v.toInt ≤ w.toInt)
  | 3 => decide (w.toInt < v.toInt)
  | 4 => decide (v.toNat ≤ w.toNat)
  | _ => decide (w.toNat < v.toNat)

/-- The 32-bit word at its performing point. -/
def State.performWord (s : State) (pa : Nat) : Word := leWord (s.performBytes pa 4)

/-! ### Poison (R231, R354) -/

/-- The 8-byte units a range of bytes touches. -/
def unitsOf (pa n : Nat) : List Nat := if n = 0 then [] else (List.range ((pa + n - 1) / 8 - pa / 8 + 1)).map (· + pa / 8)

/-- A range covers all eight bytes of a unit. -/
def coversUnit (pa n u : Nat) : Bool := decide (pa ≤ 8 * u) && decide (8 * u + 8 ≤ pa + n)

/-- Some unit of the range is poisoned in memory; what a teller meets (R354). -/
def State.memPoisoned (s : State) (pa n : Nat) : Bool := (unitsOf pa n).any s.poison.contains

/-- The shared cache holds all eight bytes of a unit newer than memory. -/
def State.homeHolds (s : State) (u : Nat) : Bool := (List.range 8).all (fun i => (cellGet s.home (8 * u + i)).isSome)

/-- A unit as home has it is poisoned: its copy is, or memory is and home takes bytes of it from there. -/
def State.homePoisoned (s : State) (u : Nat) : Bool :=
  s.homePoison.contains u || (s.poison.contains u && !s.homeHolds u)

/-- A word at its performing point is poisoned (R231): the owner's copy of its unit, else home's. -/
def State.poisonedWord (s : State) (w : Nat) : Bool :=
  match s.ownerOf w with
  | some c => (s.cluster c).poison.contains (w / 2)
  | none => s.homePoisoned (w / 2)

/-- The words a range of bytes touches. -/
def wordsOf (pa n : Nat) : List Nat := if n = 0 then [] else (List.range ((pa + n - 1) / 4 - pa / 4 + 1)).map (· + pa / 4)

/-- Some byte of the range is poisoned at its performing point. -/
def State.poisoned (s : State) (pa n : Nat) : Bool := (wordsOf pa n).any s.poisonedWord

/-- Adds to a list of marks, once. -/
def mark (l : List Nat) (u : Nat) : List Nat := if l.contains u then l else u :: l

/-- Marks the unit of an address in the shared cache. -/
def State.addPoison (s : State) (pa : Nat) : State := { s with homePoison := mark s.homePoison (pa / 8) }

/-! ### Bytes reach home and memory -/

/-- R224: after a write at home, every entry on a word of the range is evaluated; one that holds has its wake sent. A
poisoned word satisfies no launch condition (R377). -/
def State.fireMonitors (s : State) (pa n : Nat) : State :=
  { s with monitors := s.monitors.map (fun m =>
      if decide (m.word + 4 ≤ pa) || decide (pa + n ≤ m.word) then m
      else if m.grid.isSome && s.poisoned m.word 4 then m
      else if cmpHolds m.cmp (s.performWord m.word) m.value then { m with fired := true } else m) }

/-- R248: bytes the shared cache holds of a range reach memory, and the range's marks of poison with them (R231). Behind a
failed link they are dropped and marked (R358). -/
def State.homeToMem (s : State) (pa n : Nat) : State :=
  let inside (a : Nat) : Bool := decide (pa ≤ a) && decide (a < pa + n)
  let here := s.home.filter (fun c => inside c.1)
  let rest := s.home.filter (fun c => !inside c.1)
  let units := (here.map (fun c => c.1 / 8)).eraseDups
  if s.linkDown pa then { s with home := rest, homePoison := units.foldl mark s.homePoison }
  else
    let old := s.homePoison.filter (fun u => !inside (8 * u))
    let bad := s.homePoison.filter (fun u => inside (8 * u))
    let fresh := units.filter (fun u => s.homeHolds u && !s.homePoison.contains u)
    { s with home := rest, homePoison := old, mem := here.foldl (fun m c => Memory.write c.1 c.2 m) s.mem,
             poison := bad ++ s.poison.filter (fun u => !(bad.contains u || fresh.contains u)) }

/-- Lines of which the shared cache holds bytes newer than memory. -/
def State.homeLines (s : State) : List Nat := (s.home.map (fun c => lineOf c.1)).eraseDups

/-- R1, R248: the shared cache holds 512 MiB in 256 slices, which is 8192 lines in each; a line more evicts another of its
slice, of free choice. -/
def State.homeRoom (s : State) (line : Nat) : State :=
  if s.home.length ≤ 8192 then s
  else
    let others := s.homeLines.filter (fun l => l != line && sliceOf l == sliceOf line)
    if others.length < 8192 then s
    else
      let (i, s) := s.pick others.length
      s.homeToMem (others.getD i line) 256

/-- Bytes put into the home slice, without touching ownership. -/
def State.homePut (s : State) (pa : Nat) : List Byte → State
  | [] => s
  | b :: t => State.homePut { s with home := cellPut pa b s.home } (pa + 1) t

/-- The lines a range of bytes touches. -/
def linesOf (pa n : Nat) : List Nat :=
  if n = 0 then [] else (List.range ((pa + n - 1) / 256 - pa / 256 + 1)).map (fun i => 256 * (pa / 256 + i))

/-- One write at home (R231): a unit it covers is clean, any other that was poisoned stays so. Each line it touches has its
place in its slice (R1). -/
def State.homeStore (s : State) (pa : Nat) (b : List Byte) : State :=
  let us := unitsOf pa b.length
  let bad := us.filter (fun u => s.homePoisoned u && !coversUnit pa b.length u)
  let s := s.homePut pa b
  (linesOf pa b.length).foldl State.homeRoom { s with homePoison := bad ++ s.homePoison.filter (fun u => !us.contains u) }

/-- The dirty addresses of a cluster inside a range. -/
def Cluster.dirtyIn (k : Cluster) (pa n : Nat) : List Nat :=
  k.dirty.filter (fun a => decide (pa ≤ a) && decide (a < pa + n))

/-- The eight bytes of a unit are dirty in a cluster. -/
def Cluster.dirtyUnit (k : Cluster) (u : Nat) : Bool := (List.range 8).all (fun i => k.dirty.contains (8 * u + i))

/-- What a write-back of a range carries: its dirty bytes, and the rest of a unit that is clean here and poisoned at home,
so that the write that made it clean arrives whole (R231). -/
def State.backBytes (s : State) (k : Cluster) (pa n : Nat) : List Nat :=
  let ds := k.dirtyIn pa n
  let us := (ds.map (· / 8)).eraseDups.filter (fun u => s.homePoisoned u && !k.poison.contains u && k.dirtyUnit u)
  ds ++ us.flatMap (fun u => ((List.range 8).map (8 * u + ·)).filter (fun a => !ds.contains a))

/-- The dirty bytes of one unit arrive at home with the unit's poison (R231), or are dropped at a failed link (R358). -/
def State.backUnit (s : State) (k : Cluster) (ds : List Nat) (u : Nat) : State :=
  let byte (a : Nat) : Byte := (cellGet k.bytes a).getD 0
  let all := (List.range 8).map (8 * u + ·)
  if s.linkDown (8 * u) then s.addPoison (8 * u)
  else
    let s := if all.all ds.contains then s.homeStore (8 * u) (all.map byte)
      else (ds.filter (fun a => a / 8 == u)).foldl (fun s a => s.homeStore a [byte a]) s
    if k.poison.contains u then s.addPoison (8 * u) else s

/-- R215: a cluster's dirty bytes of a range go home; the monitors see the write, of whole units (R224). -/
def State.writeBack (s : State) (c pa n : Nat) : State :=
  let k := s.cluster c
  let ds := s.backBytes k pa n
  if ds.isEmpty then s else
  let s := ((ds.map (· / 8)).eraseDups).foldl (fun s u => s.backUnit k ds u) s
  let s := s.setCluster { k with dirty := k.dirty.filter (fun a => !ds.contains a) }
  s.fireMonitors (pa / 8 * 8) ((pa + n + 7) / 8 * 8 - pa / 8 * 8)

/-- Keeps those of a cluster's bytes that pass a test; a unit of which none is left has no mark. -/
def Cluster.keepBytes (k : Cluster) (p : Host.Cell → Bool) : Cluster :=
  let b := k.bytes.filter p
  { k with bytes := b, poison := k.poison.filter (fun u => b.any (fun c => c.1 / 8 == u)) }

/-- Drops a cluster's copies of a range of bytes. -/
def Cluster.dropBytes (k : Cluster) (pa n : Nat) : Cluster :=
  k.keepBytes (fun c => decide (c.1 < pa) || decide (pa + n ≤ c.1))

/-- R218 step 2: the owner writes back its dirty bytes of the word, clears owned and wvalid, and acknowledges; home forgets
the owner and clears the word's pending bit (R217). -/
def State.ackRevoke (s : State) (c w : Nat) : State :=
  let s := s.writeBack c (4 * w) 4
  let k := (s.cluster c).dropBytes (4 * w) 4
  let s := s.setCluster { k with owned := k.owned.filter (· != w) }
  { s with registry := s.registry.filter (fun e => e.1 != w), revoking := s.revoking.filter (· != w) }

/-- R217, R218 step 2: home sets the word's pending bit and revokes its owner, which answers within the same step (log entry
85). -/
def State.revokeWord (s : State) (w : Nat) : State :=
  match s.ownerOf w with
  | none => s
  | some c => ({ s with revoking := mark s.revoking w } : State).ackRevoke c w

def State.revokeRange (s : State) (pa n : Nat) : State := (wordsOf pa n).foldl State.revokeWord s

/-- The word's line has an armed monitor (R214, R224). -/
def State.watched (s : State) (pa : Nat) : Bool := s.monitors.any (fun m => lineOf m.word == lineOf pa)

/-! ### Views (R249, R311) -/

/-- The marks under which a view may see a unit as it was. -/
def State.marksFor (s : State) (v : View) (u : Nat) : List ViewMark :=
  s.viewMarks.filter (fun m => m.unit == u && m.writer != v && !m.seen.contains v)

/-- A unit as a view reads it at home: as it is, or as a mark has it, by free choice. -/
def State.viewUnit (s : State) (v : View) (u : Nat) : List Byte × State :=
  let now := s.performBytes (8 * u) 8
  match s.marksFor v u with
  | [] => (now, s)
  | l =>
    let (i, s) := s.pick (l.length + 1)
    ((now :: l.map ViewMark.old).getD i now, s)

/-- Bytes as a view reads them at home, unit by unit. -/
def State.viewBytes (s : State) (v : View) (pa n : Nat) : List Byte × State :=
  if s.viewMarks.isEmpty then (s.performBytes pa n, s)
  else
    let (b, s) := (unitsOf pa n).foldl (fun x u =>
      let (b, s) := x.2.viewUnit v u
      (x.1 ++ b, s)) (([] : List Byte), s)
    (slice b (pa % 8) n, s)

/-- A view is about to write a range: other views may still see its units as they are, and it sees its own writes alone
(R236). -/
def State.markView (s : State) (v : View) (pa n : Nat) : State :=
  let us := unitsOf pa n
  let new (u : Nat) : ViewMark := { unit := u, old := s.performBytes (8 * u) 8, writer := v, clean := false, seen := [] }
  let seen := s.viewMarks.map (fun m => if us.contains m.unit && m.writer != v then { m with seen := v :: m.seen } else m)
  { s with viewMarks := seen ++ ((us.map new).filter (fun m => !seen.contains m)) }

/-- The writer's step of R249: a clean over a range. -/
def State.cleanView (s : State) (v : View) (pa n : Nat) : State :=
  { s with viewMarks := s.viewMarks.map (fun m =>
      if m.writer == v && (unitsOf pa n).contains m.unit then { m with clean := true } else m) }

/-- The reader's step of R249: a view's copies of some units go. -/
def State.seeView (s : State) (v : View) (hit : Nat → Bool) : State :=
  { s with viewMarks := s.viewMarks.map (fun m =>
      if hit m.unit && m.writer != v && m.clean then { m with seen := v :: m.seen } else m) }

/-! ### Escrow (R226 to R230) -/

/-- The region of a context that holds a virtual address (R226). -/
def State.regionOf (s : State) (ctx : Nat) (va : Addr) : Option Region :=
  match s.ctxs.find? (fun c => c.num == ctx) with
  | none => none
  | some c => c.regions.find? (fun r => r.valid && decide (r.base.toNat ≤ va.toNat) && decide (va.toNat < r.base.toNat + r.length))

/-- The escrow a cluster holds on a line. -/
def Cluster.escrowOn (k : Cluster) (line : Nat) : Option Escrow := k.escrow.find? (fun e => e.line == line)

def assocWord (l : List (Nat × Word)) (e : Nat) : Word := ((l.find? (fun p => p.1 == e)).map Prod.snd).getD 0

/-- R229: one partial added to its element at home with one rounding to the element format. -/
def State.settleElem (s : State) (line : Nat) (bf : Bool) (e : Nat) (part : Word) : State :=
  if bf then
    let a := line + 2 * e
    let old := BitVec.ofNat 16 (leNat (s.performBytes a 2))
    let s := (s.markView none a 2).revokeRange a 2
    (s.homeStore a (leBytes 2 (toB16 ((b16 old).add (f32 part))).toNat)).fireMonitors a 2
  else
    let a := line + 4 * e
    let old := s.performWord a
    let s := (s.markView none a 4).revokeRange a 4
    (s.homeStore a (leBytes 4 (toF32 .rne ((f32 old).add (f32 part))).toNat)).fireMonitors a 4

/-- The elements whose mag is nonzero, ascending (R229). -/
def Escrow.held (e : Escrow) : List (Nat × Word) :=
  (List.range 128).filterMap (fun i =>
    if (f32 (assocWord e.mags i)).isZero then none else some (i, assocWord e.parts i))

/-- Some cluster holds an allowance on the line (R230). -/
def State.hasEscrow (s : State) (line : Nat) : Bool := s.clusters.any (fun k => (k.escrowOn line).isSome)

/-! ### Registrations (R217, R218) -/

/-- R217: the registry entry of a line needs a place in its set of 16; a victim of free choice has its words revoked. -/
def State.registryRoom (s : State) (line : Nat) : State :=
  let lines := (s.registry.map (fun e => lineOf (4 * e.1))).eraseDups
  if lines.contains line || decide (lines.length < 16) then s
  else
    let same := lines.filter (fun l => sliceOf l == sliceOf line && Config.registrySet l % 512 == Config.registrySet line % 512)
    if same.length < 16 then s
    else
      let (i, s) := s.pick same.length
      s.revokeRange (same.getD i line) 256

/-- R218: bytes of a word that its new owner has not written take the value of the earlier writer, and its poison. -/
def State.refreshWord (s : State) (c w : Nat) : State :=
  let k := s.cluster c
  let b := (List.range 4).foldl (fun m i =>
    if k.dirty.contains (4 * w + i) then m else cellPut (4 * w + i) (s.homeByte (4 * w + i)) m) k.bytes
  s.setCluster { k with bytes := b, poison := if s.homePoisoned (w / 2) && !k.dirtyUnit (w / 2) then mark k.poison (w / 2) else k.poison }

/-- R218 step 3: home records an owner. -/
def State.grant (s : State) (c w : Nat) : State :=
  let s := (s.registryRoom (lineOf (4 * w))).refreshWord c w
  let k := s.cluster c
  { s.setCluster { k with owned := w :: k.owned } with registry := (w, c) :: s.registry }

/-- R218 steps 2 and 3 for one word. -/
def State.takeWord (s : State) (c w : Nat) : State := if s.ownerOf w = some c then s else (s.revokeWord w).grant c w

/-- R218 step 1 for one word: any other owner is revoked first, as for a write at home (R221), and the store's bytes are
written back. -/
def State.refuseWord (s : State) (c w : Nat) : State :=
  (if s.ownerOf w = some c then s else s.revokeWord w).writeBack c (4 * w) 4

/-- The four bytes of a word are valid in a cluster. -/
def Cluster.wvalid (k : Cluster) (w : Nat) : Bool := (List.range 4).all (fun i => (cellGet k.bytes (4 * w + i)).isSome)

/-- Both words of a unit are valid in a cluster. -/
def Cluster.uvalid (k : Cluster) (u : Nat) : Bool := k.wvalid (2 * u) && k.wvalid (2 * u + 1)

/-- A word that a fill leaves as it is: valid, and owned or dirty. -/
def Cluster.keeps (k : Cluster) (w : Nat) : Bool := k.wvalid w && (k.owned.contains w || k.dirty.any (fun a => a / 4 == w))

/-- A cluster takes a unit's bytes: both words at once, but for one it owns or has written (R219, R234). Poison comes with
them (R231). -/
def State.takeUnit (s : State) (c u : Nat) (b : List Byte) : State :=
  let k := s.cluster c
  let take := (List.range 8).filter (fun i => !k.keeps (2 * u + i / 4))
  s.setCluster { k with
    bytes := take.foldl (fun m i => cellPut (8 * u + i) (b.getD i 0) m) k.bytes,
    poison := if s.poisoned (8 * u) 8 then mark k.poison u
      else if take.length != 8 then k.poison else k.poison.filter (· != u) }

/-- A cluster holds something of a linear line. -/
def Cluster.holdsLine (k : Cluster) (line : Nat) : Bool := k.bytes.any (fun b => lineOf b.1 == line)

/-- R218: home handles a registration: of refused ones the bytes are written back, else each word changes hands. What the
cluster holds of the unit beside is as home has it then (R234). Where the line has left the cluster since, its bytes have
gone home with it and it takes no ownership (DEDUCED, log entry 108). -/
def State.homeRegister (s : State) (r : Registration) : State :=
  if !(s.cluster r.cluster).holdsLine (lineOf r.start) then s
  else
    let s := if r.escrow || s.watched r.start then r.words.foldl (fun s w => s.refuseWord r.cluster w) s
      else r.words.foldl (fun s w => s.takeWord r.cluster w) s
    s.takeUnit r.cluster (r.start / 8) (s.performBytes (r.start / 8 * 8) 8)

/-- R216: the registrations of a cluster that home handles before its message about a range: those sent to the slice of a
line of the range. -/
def Registration.before (c pa n : Nat) (r : Registration) : Bool :=
  r.cluster == c && ((linesOf pa n).contains (lineOf r.start) || (linesOf pa n).any (fun l => sliceOf l == sliceOf r.start))

/-- Home handles them. -/
def State.flushRegs (s : State) (c pa n : Nat) : State :=
  let mine := s.registrations.filter (Registration.before c pa n)
  let s := { s with registrations := s.registrations.filter (fun r => !r.before c pa n) }
  mine.foldl State.homeRegister s

/-- R216: what a cluster sent to the slice of a tag arrives before a read of the tag. -/
def State.flushSlice (s : State) (c : Nat) (t : Tag) : State :=
  let hit (r : Registration) : Bool := r.cluster == c && sliceOf r.start == t.slice
  let mine := s.registrations.filter hit
  let s := { s with registrations := s.registrations.filter (fun r => !hit r) }
  mine.foldl State.homeRegister s

/-! ### Settlement (R229, R230) -/

/-- R231: an element whose partial is in error is settled as poisoned: home's value of it stays, marked. -/
def State.poisonElement (s : State) (line : Nat) (bf : Bool) (i : Nat) : State :=
  let n := if bf then 2 else 4
  let a := line + n * i
  let s := s.revokeRange a n
  (s.homeStore a (s.performBytes a n)).addPoison a

/-- R229: a cluster settles its escrow on a line, after what it sent to the slice before (R216). -/
def State.settleFrom (s : State) (c line : Nat) : State :=
  let s := if ((s.cluster c).escrowOn line).isSome then s.flushRegs c line 256 else s
  let k := s.cluster c
  match k.escrowOn line with
  | none => s
  | some e =>
    let s := s.setCluster { k with escrow := k.escrow.filter (fun x => x.line != line) }
    let s := (e.held.filter (fun p => !e.bad.contains p.1)).foldl (fun s p => s.settleElem line e.bf16 p.1 p.2) s
    e.bad.foldl (fun s i => s.poisonElement line e.bf16 i) s

/-- R230: settlement of the whole line, from every cluster; their messages reach home in the order of the cluster list
(DESIGN CHOICE, log entry 99: R216 leaves that order open). -/
def State.settleLine (s : State) (line : Nat) : State :=
  (s.clusters.map Cluster.num).foldl (fun s c => s.settleFrom c line) s

/-! ### Room in a cluster cache (R214) -/

/-- R219: a line leaves a cluster cache: dirty bytes go home, its words are released, its escrow is settled (R229). -/
def State.evictLine (s : State) (c line : Nat) : State :=
  let s := s.writeBack c line 256
  let k := (s.cluster c).dropBytes line 256
  let s := s.setCluster { k with owned := k.owned.filter (fun w => lineOf (4 * w) != line) }
  let s := { s with registry := s.registry.filter (fun e => !(e.2 == c && lineOf (4 * e.1) == line)) }
  s.settleFrom c line

/-- The tags a cluster cache holds. -/
def Cluster.tags (k : Cluster) : List Tag :=
  (k.bytes.map (fun b => Tag.line (lineOf b.1)) ++ k.escrow.map (fun e => Tag.line e.line) ++ k.tiles.map Prod.fst).eraseDups

/-- The tags of a cluster from which a line for another tag needs a victim (R214): those of its set, when all 16 ways are
taken. -/
def Cluster.crowd (k : Cluster) (t : Tag) : List Tag :=
  let ts := k.tags
  if ts.contains t || decide (ts.length < 16) then []
  else
    let same := ts.filter (fun u => u.clusterSet == t.clusterSet)
    if same.length < 16 then [] else same

/-- A tag leaves a cluster cache, after what the cluster sent home for it. -/
def State.evictTag (s : State) (c : Nat) (t : Tag) : State :=
  match t with
  | .line a => (s.flushRegs c a 256).evictLine c a
  | .tile _ _ _ =>
    let k := s.cluster c
    s.setCluster { k with tiles := k.tiles.filter (fun x => x.1 != t) }

/-- Room for a tag in a cluster cache, by a victim of free choice (R214). -/
def State.makeRoom (s : State) (c : Nat) (t : Tag) : State :=
  match (s.cluster c).crowd t with
  | [] => s
  | l =>
    let (i, s) := s.pick l.length
    s.evictTag c (l.getD i t)

/-! ### Accesses -/

/-- A write of a view performed at home (R221, R224, R249): escrow is settled, owners are revoked, monitors see it. -/
def State.homeWriteAs (s : State) (v : View) (pa : Nat) (b : List Byte) : State :=
  let s := s.markView v pa b.length
  let s := if s.hasEscrow (lineOf pa) then s.settleLine (lineOf pa) else s
  let s := s.revokeRange pa b.length
  (s.homeStore pa b).fireMonitors pa b.length

/-- A write of linear memory performed at home. -/
def State.homeWrite (s : State) (pa : Nat) (b : List Byte) : State := s.homeWriteAs none pa b

/-! ### Single-copy atomicity in caches (R234) -/

def bytesMeet (a n b m : Nat) : Bool := decide (a < b + m) && decide (b < a + n)

/-- The parts of a range of bytes that are read as one: those of each unit it touches (R234). -/
def atoms (pa n : Nat) : List (Nat × Nat) :=
  (unitsOf pa n).map (fun u => (max pa (8 * u), min (pa + n) (8 * u + 8) - max pa (8 * u)))

/-- A part of a unit lies in the newest of the writes that it meets, or meets none: no write of another cluster can lie
between its bytes (R234). -/
def wholeIn (ps : List (Nat × Nat)) (x : Nat × Nat) : Bool :=
  match ps.find? (fun p => bytesMeet x.1 x.2 p.1 p.2) with
  | none => true
  | some p => decide (p.1 ≤ x.1) && decide (x.1 + x.2 ≤ p.1 + p.2)

/-- A write to a part of a unit goes before the others; those that it covers are no longer told apart. -/
def addPatch (ps : List (Nat × Nat)) (x : Nat × Nat) : List (Nat × Nat) :=
  let rest := ps.filter (fun p => !(decide (x.1 ≤ p.1) && decide (p.1 + p.2 ≤ x.1 + x.2)))
  if x.2 = 8 then rest else x :: rest

/-- The writes of a cluster to a range whose registrations are on their way, newest first: the rest of their units, as the
cluster holds it, may be older than their places in coherence order (R234, R236). -/
def State.patches (s : State) (c pa n : Nat) : List (Nat × Nat) :=
  ((s.registrations.filter (fun r =>
      r.cluster == c && bytesMeet pa n r.start r.len && !r.words.all (fun w => s.ownerOf w == some c))).map
    (fun r => (r.start, r.len))).reverse

/-- A cluster can serve a part of a unit as it is: it holds the words, and the part is whole. -/
def State.serves (s : State) (c : Nat) (x : Nat × Nat) : Bool :=
  (wordsOf x.1 x.2).all (s.cluster c).wvalid && wholeIn (s.patches c (x.1 / 8 * 8) 8) x

/-- A cluster comes to hold a unit whole: what it sent to the slice before arrives, and what it then lacks comes from home
(R216, R219). -/
def State.wholeUnit (s : State) (c u : Nat) : State :=
  let s := s.flushRegs c (8 * u) 8
  if (s.cluster c).uvalid u then s
  else
    let (b, s) := s.viewUnit none u
    s.takeUnit c u b

/-- A cluster has every word of a unit. -/
def State.fillUnit (s : State) (c u : Nat) : State := if (s.cluster c).uvalid u then s else s.wholeUnit c u

/-- R214, R215: a line of the cluster cache filled from home, words already valid kept. -/
def State.fillLine (s : State) (c line : Nat) : State :=
  (List.range 32).foldl (fun s i => s.fillUnit c (line / 8 + i)) (s.makeRoom c (.line line))

/-- A cluster comes to serve parts of units. -/
def State.fetch (s : State) (c : Nat) (xs : List (Nat × Nat)) : State :=
  xs.foldl (fun s x => if s.serves c x then s else s.wholeUnit c (x.1 / 8)) s

/-- Bytes as a cluster holds them, and as they are at home where it does not. -/
def State.clusterBytes (s : State) (c pa n : Nat) : List Byte :=
  (List.range n).map (fun i => (cellGet (s.cluster c).bytes (pa + i)).getD (s.performByte (pa + i)))

/-! ### L1 (R142 to R145) -/

/-- The cluster of a core (R214). -/
def clusterOf (core : Nat) : Nat := core / 16

/-- The die of a core (R352). -/
def dieOf (core : Nat) : Nat := core / 384

/-- R142, R143: what the core's L1 holds of a line. -/
def Core.l1Line (k : Core) (t : Tag) : Option L1Line := k.l1.find? (fun l => l.tag == t)

def Core.l1Without (k : Core) (t : Tag) : Core := { k with l1 := k.l1.filter (fun l => l.tag != t) }

/-- Updates the bytes of an L1 line that lie in a range. -/
def patchLine (base : Nat) (old : List Byte) (pa : Nat) (b : List Byte) : List Byte :=
  old.zipIdx.map (fun p => if pa ≤ base + p.2 ∧ base + p.2 < pa + b.length then b.getD (base + p.2 - pa) 0 else p.1)

/-- A linear L1 line holds bytes of a range. -/
def L1Line.meets (l : L1Line) (pa n : Nat) : Bool :=
  match l.tag with
  | .line p => bytesMeet p 256 pa n
  | .tile _ _ _ => false

/-- R143: a store updates a present L1 line and allocates none. -/
def Core.l1Store (k : Core) (pa : Nat) (b : List Byte) : Core :=
  { k with l1 := k.l1.map (fun l =>
      if l.meets pa b.length then
        { l with bytes := patchLine (256 * l.tag.key.2.2) l.bytes pa b, patches := (atoms pa b.length).foldl addPatch l.patches }
      else l) }

/-- R143, R236: a core's L1 line takes what the core has just written or seen of a range; a line of which a unit is poisoned
goes (R231). -/
def State.l1Take (s : State) (core pa : Nat) (b : List Byte) : State :=
  let k := s.coreAt core
  if !k.l1.any (fun l => l.meets pa b.length) then s
  else if (unitsOf pa b.length).any (fun u => (s.cluster (clusterOf core)).poison.contains u || s.poisoned (8 * u) 8) then
    s.setCore { k with l1 := k.l1.filter (fun l => !l.meets pa b.length) }
  else s.setCore (k.l1Store pa b)

/-- A core's L1 line takes a unit whole from its cluster, which no write then divides (R234); a poisoned one is not held
(R231). -/
def State.l1Mend (s : State) (core u : Nat) : State :=
  let t := Tag.line (lineOf (8 * u))
  let c := clusterOf core
  let s := (s.makeRoom c t).wholeUnit c u
  let k := s.coreAt core
  if (s.cluster c).poison.contains u then s.setCore (k.l1Without t)
  else s.setCore (k.l1Store (8 * u) (s.clusterBytes c (8 * u) 8))

/-- R144: a gang issue that reads a counted line lowers its count once; the line goes when it reaches 0. -/
def Core.l1Read (k : Core) (t : Tag) (bypass : Bool) (issue : Nat) : Core :=
  { k with l1 := k.l1.filterMap (fun l =>
      if l.tag == t && l.count != 0 && !l.seen.contains issue && !bypass then
        (if l.count = 1 then none else some { l with count := l.count - 1, seen := issue :: l.seen })
      else some l) }

/-- When a line is taken as a victim (R143): stream lines first, keep lines last. -/
def L1Line.rank (l : L1Line) : Nat := if l.policy = 1 then 0 else if l.policy = 2 then 2 else 1

/-- The lines of an L1 from which a line for another tag takes its victim (R142, R143): those of its set that go first, when
all 8 ways are taken. -/
def Core.l1Crowd (k : Core) (t : Tag) : List Tag :=
  if k.l1.length < 8 then []
  else
    let same := k.l1.filter (fun l => l.tag.l1Set == t.l1Set)
    if same.length < 8 then []
    else
      let least := same.foldl (fun n l => min n l.rank) 2
      (same.filter (fun l => l.rank == least)).map L1Line.tag

/-- A line comes into a core's L1, by a victim of free choice where its set is full. -/
def State.l1Put (s : State) (core : Nat) (l : L1Line) : State :=
  match (s.coreAt core).l1Crowd l.tag with
  | [] =>
    let k := s.coreAt core
    s.setCore { k with l1 := k.l1 ++ [l] }
  | ts =>
    let (i, s) := s.pick ts.length
    let k := (s.coreAt core).l1Without (ts.getD i l.tag)
    s.setCore { k with l1 := k.l1 ++ [l] }

/-! ### Stores -/

/-- Bytes put into a cluster cache and marked dirty. -/
def Cluster.storeBytes (k : Cluster) (pa : Nat) : List Byte → Cluster
  | [] => k
  | b :: t =>
    Cluster.storeBytes { k with bytes := cellPut pa b k.bytes, dirty := if k.dirty.contains pa then k.dirty else pa :: k.dirty }
      (pa + 1) t

/-- One store into a cluster cache: a unit it covers is clean (R231). -/
def Cluster.store (k : Cluster) (pa : Nat) (b : List Byte) : Cluster :=
  let k := k.storeBytes pa b
  { k with poison := k.poison.filter (fun u => !coversUnit pa b.length u) }

/-- R218, R234: the words of a unit that a store has just written and its cluster does not own are registered together;
where it owns the unit's other word the registration takes place with the store, so that the unit changes as one. -/
def State.register (s : State) (c : Nat) (escrow : Bool) (x : Nat × Nat) : State :=
  let ws := wordsOf x.1 x.2
  let need := ws.filter (fun w => s.ownerOf w != some c)
  let r : Registration :=
    { cluster := c, words := need, start := x.1, len := x.2, escrow := escrow, due := s.tick + Config.registrationDelay s.tick }
  if need.isEmpty then s
  else if need.length = ws.length then { s with registrations := s.registrations ++ [r] }
  else (s.flushRegs c x.1 x.2).homeRegister r

/-- R230: a cluster's own copies of an escrow line give way before an access at home: what it sent for the line arrives, its
dirty bytes go home, and it and the issuing core drop the line. -/
def State.leaveLine (s : State) (core line : Nat) : State :=
  let s := (s.flushRegs (clusterOf core) line 256).writeBack (clusterOf core) line 256
  let k := (s.cluster (clusterOf core)).dropBytes line 256
  let s := s.setCluster { k with owned := k.owned.filter (fun w => lineOf (4 * w) != line) }
  let s := { s with registry := s.registry.filter (fun e => !(e.2 == clusterOf core && lineOf (4 * e.1) == line)) }
  s.setCore ((s.coreAt core).l1Without (.line line))

/-- A store covers some word in part, so that the cluster must have the rest of it first. -/
def partWord (pa n : Nat) : Bool := pa % 4 != 0 || (pa + n) % 4 != 0

/-- R215, R218, R230: a store performed in the issuing cluster's cache, or at home where the line holds escrow. A
registration goes out for what the cluster does not own. -/
def State.clusterStore (s : State) (core pa : Nat) (b : List Byte) (escrow : Bool) : State :=
  let c := clusterOf core
  if s.hasEscrow (lineOf pa) then (s.leaveLine core (lineOf pa)).homeWrite pa b
  else
    let s := (s.markView none pa b.length).makeRoom c (.line (lineOf pa))
    let s := if partWord pa b.length then (unitsOf pa b.length).foldl (fun s u => s.fillUnit c u) s else s
    let s := s.setCluster ((s.cluster c).store pa b)
    ((atoms pa b.length).foldl (fun s x => s.register c escrow x) s).l1Take core pa b

/-! ### Loads -/

/-- The cluster-cache view of a line of 256 bytes, filled (R215), each of its units whole (R234). -/
def State.clusterLine (s : State) (c line : Nat) : List Byte × State :=
  let s := (s.flushRegs c line 256).fillLine c line
  (s.clusterBytes c line 256, s)

/-- Where a core's read of parts of a linear line is served: at home, from its L1, from what its cluster holds of the parts,
or from its cluster's line, filled. -/
inductive Served
  | home
  | l1
  | parts
  | line
  deriving DecidableEq, Repr

/-- R143, R230: a line with escrow is settled and read at home. A present L1 line serves the parts, those a write has divided
after its units are whole again. Else the cluster does, which fills its line where it lacks some part. Where it lacks
none but the line is not all there, whether an L1 line is filled now is a free choice (DESIGN CHOICE, log entry 107). -/
def State.lookUp (s : State) (core line : Nat) (xs : List (Nat × Nat)) (fill : Bool) : Served × State :=
  let c := clusterOf core
  if s.hasEscrow line then (.home, (s.leaveLine core line).settleLine line)
  else
    match (s.coreAt core).l1Line (.line line) with
    | some l =>
      let s := (xs.filter (fun x => !wholeIn l.patches x)).foldl (fun s x => s.l1Mend core (x.1 / 8)) s
      if ((s.coreAt core).l1Line (.line line)).isSome then (.l1, s) else (.parts, s.fetch c xs)
    | none =>
      if xs.all (s.serves c) then
        if !fill then (.parts, s)
        else if (List.range 32).all (fun i => (s.cluster c).uvalid (line / 8 + i)) then (.line, s)
        else
          let (i, s) := s.pick 2
          if i = 0 then (.line, s.fillLine c line) else (.parts, s)
      else (if fill then .line else .parts, (s.fillLine c line).fetch c xs)

/-- R142 to R145, R173: a load of parts of a line through L1, which gives the line's bytes as far as the parts go. No line is
allocated under policy 3, and none is left where its one read has been made (R143, R144). -/
def State.coreRead (s : State) (core line : Nat) (xs : List (Nat × Nat)) (count policy issue : Nat) : List Byte × State :=
  let c := clusterOf core
  match s.lookUp core line xs (policy != 3 && count != 1) with
  | (.home, s) => (s.performBytes line 256, s)
  | (.l1, s) =>
    (((s.coreAt core).l1Line (.line line)).elim [] L1Line.bytes, s.setCore ((s.coreAt core).l1Read (.line line) (policy == 3) issue))
  | (.parts, s) => (s.clusterBytes c line 256, s)
  | (.line, s) =>
    let b := s.clusterBytes c line 256
    (b, s.l1Put core { tag := .line line, bytes := b, stored := none, count := count - 1, policy := policy, seen := [issue],
                       patches := s.patches c line 256 })

/-- Whether a read of parts of a line through a core's caches meets poison (R231). A line in L1 holds none; a fill reads the
whole line. -/
def State.corePoisoned (s : State) (core line : Nat) (xs : List (Nat × Nat)) (fill : Bool) : Bool :=
  match s.lookUp core line xs fill with
  | (.home, s) => xs.any (fun x => s.poisoned x.1 x.2)
  | (.l1, _) => false
  | (.parts, s) => xs.any (fun x => (s.cluster (clusterOf core)).poison.contains (x.1 / 8))
  | (.line, s) => (unitsOf line 256).any (s.cluster (clusterOf core)).poison.contains

/-- R220: drops every tensor-0 line of a core's L1. -/
def Core.dropLinear (k : Core) : Core :=
  { k with l1 := k.l1.filter (fun l => match l.tag with | .line _ => false | .tile _ _ _ => true) }

/-- R220: a device-scope acquire clears the words of the cluster that are neither owned nor dirty. -/
def Cluster.selfInvalidate (k : Cluster) : Cluster :=
  k.keepBytes (fun b => k.owned.contains (wordOf b.1) || k.dirty.any (fun a => wordOf a == wordOf b.1))

/-- The invalidation of an acquire at a scope (R220, R278); the stash step is the caller's. -/
def State.acquireAt (s : State) (core : Nat) (sc : Scope) : State :=
  match sc with
  | .team => s
  | .cluster => s.setCore (s.coreAt core).dropLinear
  | _ =>
    let s := s.setCore (s.coreAt core).dropLinear
    s.setCluster (s.cluster (clusterOf core)).selfInvalidate

/-- Bytes put into memory below the caches. -/
def State.memPut (s : State) (pa : Nat) : List Byte → State
  | [] => s
  | b :: t => State.memPut { s with mem := Memory.write pa b s.mem } (pa + 1) t

/-- One write to memory (R354): a unit it covers is clean. Behind a failed link it is dropped and its units marked (R358). -/
def State.memStore (s : State) (pa : Nat) (b : List Byte) : State :=
  if s.linkDown pa then { s with homePoison := (unitsOf pa b.length).foldl mark s.homePoison }
  else { s.memPut pa b with poison := s.poison.filter (fun u => !coversUnit pa b.length u) }

/-- R248: a teller's write. Owners write back and lose the words, home's copy is dropped, memory takes the bytes. -/
def State.tellerWrite (s : State) (pa : Nat) (b : List Byte) : State :=
  let s := (s.markView none pa b.length).revokeRange pa b.length
  let s := s.homeToMem (pa / 8 * 8) ((pa + b.length + 7) / 8 * 8 - pa / 8 * 8)
  (s.memStore pa b).fireMonitors pa b.length

end Sys2Proof.Machine
end

