-- ==== Sys2Proof/Machine/Walk.lean ====
section
/-! DEFINITION. Address translation: page-table entries, the walk of R315, TLBs, tenant windows, and coherent accesses
by virtual address (16_die_control R312 to R317). -/

namespace Sys2Proof.Machine

/-- Why a translation fails: cause code, detail, and the virtual address to report. -/
structure XFault where
  cause : Nat
  detail : BitVec 64
  vaddr : Addr
  deriving DecidableEq, Repr

/-- A context's record, if it is valid (R312). -/
def State.ctxOf (s : State) (n : Nat) : Option Ctx := s.ctxs.find? (fun c => c.num == n)

def State.tenantOf (s : State) (n : Nat) : Tenant := (s.tenants.find? (fun t => t.num == n)).getD (Tenant.reset n)

def State.setTenant (s : State) (t : Tenant) : State := { s with tenants := upsert (fun u => u.num == t.num) t s.tenants }

/-- R315: a range of bytes lies wholly in one window of the tenant. Windows are in 64 KiB units. -/
def Tenant.holds (t : Tenant) (pa n : Nat) : Bool :=
  t.windows.any (fun w => decide (w.1 ≤ w.2) && decide (w.1 * 65536 ≤ pa) && decide (pa + n ≤ (w.2 + 1) * 65536))

/-- The first address from `pa` on that lies outside the tenant's windows, after at most `fuel` of them. -/
def Tenant.reach (t : Tenant) : Nat → Nat → Nat
  | 0, pa => pa
  | fuel + 1, pa =>
    match t.windows.find? (fun w => decide (w.1 * 65536 ≤ pa) && decide (pa < (w.2 + 1) * 65536)) with
    | none => pa
    | some w => t.reach fuel ((w.2 + 1) * 65536)

/-- R312: a range lies inside the tenant's windows, several of which may adjoin. -/
def Tenant.covers (t : Tenant) (pa n : Nat) : Bool := decide (pa + n ≤ t.reach 8 pa)

/-! ### Page-table entries (R314) -/

def pteBit (e : BitVec 64) (i : Nat) : Bool := e.getLsbD i
def pteAddr (e : BitVec 64) : Nat := e.toNat / 2 ^ 16 % 2 ^ 36 * 2 ^ 16
def pteKey (e : BitVec 64) : Nat := e.toNat / 2 ^ 9 % 16
def ptePol (e : BitVec 64) : Nat := e.toNat / 2 ^ 6 % 4

/-- R314: reserved fields and leaf placement at a level. -/
def pteWellFormed (lv : Nat) (e : BitVec 64) : Bool :=
  e.toNat / 2 ^ 52 == 0 && e.toNat / 2 ^ 13 % 8 == 0 &&
  (if pteBit e 1 then (lv == 2 || lv == 3) && (lv != 2 || e.toNat / 2 ^ 16 % 2 ^ 13 == 0)
   else lv != 3 && e.toNat / 4 % 2 ^ 11 == 0)

/-- The index of a virtual address at a level (R313). -/
def walkIndex (va : Addr) (lv : Nat) : Nat :=
  match lv with
  | 0 => va.toNat / 2 ^ 55 % 4
  | 1 => va.toNat / 2 ^ 42 % 2 ^ 13
  | 2 => va.toNat / 2 ^ 29 % 2 ^ 13
  | _ => va.toNat / 2 ^ 16 % 2 ^ 13

/-- Bytes of a table at a level (R313). -/
def tableSize (lv : Nat) : Nat := if lv = 0 then 32 else 65536

/-- A leaf with the level it was found at. -/
structure Leaf where
  entry : BitVec 64
  big : Bool
  deriving DecidableEq, Repr

def Leaf.size (l : Leaf) : Nat := if l.big then 2 ^ 29 else 2 ^ 16

/-- The physical address a leaf gives. -/
def Leaf.pa (l : Leaf) (va : Addr) : Nat := pteAddr l.entry + va.toNat % l.size

/-- R315: the walk, from table `t` at level `lv`, with `fuel` levels left. -/
def State.walkFrom (s : State) (c : Ctx) (va : Addr) : Nat → Nat → Nat → Except XFault Leaf
  | 0, _, _ => .error ⟨0x11, 1, va⟩
  | fuel + 1, lv, t =>
    if !(inMap t && inMap (t + tableSize lv - 1)) then .error ⟨0x11, 3, va⟩
    else if !c.supervisor && !(s.tenantOf c.tenant).holds t (tableSize lv) then .error ⟨0x12, 0, va⟩
    else
      let at_ := t + 8 * walkIndex va lv
      if s.linkDown at_ then .error ⟨0x31, 0, va⟩
      else if s.poisoned at_ 8 then .error ⟨0x30, BitVec.ofNat 64 at_, va⟩
      else
        let e := leAddr (s.performBytes at_ 8)
        if !pteBit e 0 then .error ⟨0x10, 0, va⟩
        else if !pteWellFormed lv e then .error ⟨0x11, 1, va⟩
        else if pteBit e 1 then
          let l : Leaf := ⟨e, lv == 2⟩
          if !(inMap (pteAddr e) && inMap (pteAddr e + l.size - 1)) then .error ⟨0x11, 3, va⟩
          else if !c.supervisor && (pteKey e != c.tenant || !(s.tenantOf c.tenant).holds (pteAddr e) l.size) then
            .error ⟨0x12, 0, va⟩
          else .ok l
        else s.walkFrom c va fuel (lv + 1) (pteAddr e)

/-- R315: what the access kind asks of the leaf, in the order coded-execute, coded-write, permission bit. -/
def Leaf.permits (l : Leaf) (k : Access) (va : Addr) : Except XFault Unit :=
  let e := l.entry
  let coded := pteBit e 5
  let need (b : Bool) : Except XFault Unit := if b then .ok () else .error ⟨0x11, 0, va⟩
  match k with
  | .read => need (pteBit e 2)
  | .execute => if coded then .error ⟨0x11, 2, va⟩ else need (pteBit e 4)
  | .write => if coded then .error ⟨0x13, 0, va⟩ else need (pteBit e 3)
  | .indexWrite => if coded then .ok () else need (pteBit e 3)
  | .tellerRead => need (pteBit e 2 && pteBit e 8)
  | .tellerWrite => if coded then .error ⟨0x13, 0, va⟩ else need (pteBit e 3 && pteBit e 8)

/-- R316: a leaf that a TLB may hold has passed every check but the permission test: for the access kind, those of the coded
mark. -/
def Leaf.mayHold (l : Leaf) (k : Access) : Bool :=
  match k with
  | .execute | .write | .tellerWrite => !pteBit l.entry 5
  | _ => true

/-! ### TLBs (R316) -/

def TlbEntry.covers (t : TlbEntry) (ctx : Nat) (va : Addr) : Bool :=
  t.ctx == ctx && (if t.big then va.toNat / 2 ^ 29 * 2 ^ 13 == t.page else va.toNat / 2 ^ 16 == t.page)

def TlbEntry.of (ctx : Nat) (va : Addr) (l : Leaf) : TlbEntry :=
  { ctx := ctx, page := if l.big then va.toNat / 2 ^ 29 * 2 ^ 13 else va.toNat / 2 ^ 16, big := l.big, leaf := l.entry }

def TlbEntry.toLeaf (t : TlbEntry) : Leaf := ⟨t.leaf, t.big⟩

/-- The leaf a core's TLB or its cluster's holds (R316). -/
def State.tlbHit (s : State) (core ctx : Nat) (va : Addr) : Option Leaf :=
  match (s.coreAt core).tlb.find? (·.covers ctx va) with
  | some t => some t.toLeaf
  | none => ((s.cluster (clusterOf core)).tlb.find? (·.covers ctx va)).map TlbEntry.toLeaf

/-- An entry comes into a TLB of a size; one of free choice leaves a full one. -/
def State.tlbPut (s : State) (size : Nat) (e : TlbEntry) (l : List TlbEntry) : List TlbEntry × State :=
  if l.length < size then (e :: l, s)
  else
    let (i, s) := s.pick l.length
    (e :: l.eraseIdx i, s)

/-- Holds a leaf in the core's TLB of 256 entries and the cluster's of 4096. -/
def State.tlbFill (s : State) (core ctx : Nat) (va : Addr) (l : Leaf) : State :=
  let s :=
    if (s.coreAt core).tlb.any (·.covers ctx va) then s
    else
      let (t, s) := s.tlbPut 256 (TlbEntry.of ctx va l) (s.coreAt core).tlb
      s.setCore { s.coreAt core with tlb := t }
  if (s.cluster (clusterOf core)).tlb.any (·.covers ctx va) then s
  else
    let (t, s) := s.tlbPut 4096 (TlbEntry.of ctx va l) (s.cluster (clusterOf core)).tlb
    s.setCluster { s.cluster (clusterOf core) with tlb := t }

/-- R315: the walk of a context from its root; addresses of 57 bits. -/
def State.walk (s : State) (ctx : Nat) (va : Addr) : Except XFault Leaf :=
  match s.ctxOf ctx with
  | none => .error ⟨0x11, 3, va⟩
  | some c => s.walkFrom c va 4 0 c.root

/-! ### Walk caches (R317) -/

/-- The bits of an address that lead to the entry of a level. -/
def pathTo (va : Addr) (lv : Nat) : Nat :=
  match lv with
  | 0 => va.toNat / 2 ^ 55
  | 1 => va.toNat / 2 ^ 42
  | _ => va.toNat / 2 ^ 29

/-- The level and table a walk begins at: below the deepest pointer entry its die's cache holds, else the root. -/
def State.walkStart (s : State) (die ctx : Nat) (va : Addr) (root : Nat) : Nat × Nat :=
  let hit (lv : Nat) : Option (Nat × Nat) :=
    (s.walkCache.find? (fun w => w.die == die && w.ctx == ctx && w.level == lv && w.path == pathTo va lv)).map
      (fun w => (lv + 1, w.table))
  ((hit 2).orElse (fun _ => (hit 1).orElse (fun _ => hit 0))).getD (0, root)

/-- The pointer entries a walk passes from a table on, by level. -/
def State.pointers (s : State) (va : Addr) : Nat → Nat → Nat → List (Nat × Nat)
  | 0, _, _ => []
  | fuel + 1, lv, t =>
    let e := leAddr (s.performBytes (t + 8 * walkIndex va lv) 8)
    if pteBit e 1 then [] else (lv, pteAddr e) :: s.pointers va fuel (lv + 1) (pteAddr e)

/-- Holds the pointer entries of a walk that has succeeded. -/
def State.holdPointers (s : State) (die ctx : Nat) (va : Addr) (lv t : Nat) : State :=
  { s with walkCache := (s.pointers va 4 lv t).map (fun p => (⟨die, ctx, p.1, pathTo va p.1, p.2⟩ : WalkEntry)) ++ s.walkCache }

/-- A walk on a die, through its walk cache. -/
def State.dieWalk (s : State) (die ctx : Nat) (va : Addr) : Except XFault Leaf × State :=
  match s.ctxOf ctx with
  | none => (.error ⟨0x11, 3, va⟩, s)
  | some c =>
    let (lv, t) := s.walkStart die ctx va c.root
    match s.walkFrom c va 4 lv t with
    | .error e => (.error e, s)
    | .ok l => (.ok l, s.holdPointers die ctx va lv t)

/-- A walk for a core. -/
def State.coreWalk (s : State) (core ctx : Nat) (va : Addr) : Except XFault Leaf × State := s.dieWalk (dieOf core) ctx va

/-- The virtual 64 KiB page of an address. -/
def pageOf (va : Addr) : Nat := va.toNat / 65536

/-- R317: a miss in a step of an engine, for which no walk of the page has ended. -/
def State.needsWalk (s : State) (k : Nat × Nat × Nat) : Bool :=
  match s.walkFor with
  | none => false
  | some l => !l.contains k

/-- The step needs a walk; the first that it needs counts. Its answer is that of a page not present, and is not used. -/
def State.miss {α : Type} (s : State) (k : Nat × Nat × Nat) (va : Addr) : Except XFault α × State :=
  (.error ⟨0x10, 0, va⟩, { s with missed := s.missed.orElse (fun _ => some k) })

/-- R315 to R317: a translation made now, filling the TLBs. Answers the leaf and its physical address. -/
def State.translate (s : State) (core ctx : Nat) (va : Addr) (k : Access) : Except XFault (Leaf × Nat) × State :=
  let done (s : State) (l : Leaf) : Except XFault (Leaf × Nat) × State :=
    match l.permits k va with
    | .error e => (.error e, s)
    | .ok () => (.ok (l, l.pa va), s)
  match s.tlbHit core ctx va with
  | some l => done (s.tlbFill core ctx va l) l
  | none =>
    if s.needsWalk (dieOf core, ctx, pageOf va) then s.miss (dieOf core, ctx, pageOf va) va
    else
      match s.coreWalk core ctx va with
      | (.error e, s) => (.error e, s)
      | (.ok l, s) => done (if l.mayHold k then s.tlbFill core ctx va l else s) l

/-- The leaf of an address, for a form that needs no permission (R282, R339). -/
def State.leafAt (s : State) (core ctx : Nat) (va : Addr) : Except XFault Leaf × State :=
  match s.tlbHit core ctx va with
  | some l => (.ok l, s)
  | none =>
    if s.needsWalk (dieOf core, ctx, pageOf va) then s.miss (dieOf core, ctx, pageOf va) va
    else
      match s.coreWalk core ctx va with
      | (.error e, s) => (.error e, s)
      | (.ok l, s) => (.ok l, s.tlbFill core ctx va l)

/-- A translation without a core: the command processors, the index unit and the walkers of a die (R359, R374). -/
def State.xlate (s : State) (ctx : Nat) (va : Addr) (k : Access) : Except XFault Nat :=
  match s.walk ctx va with
  | .error e => .error e
  | .ok l =>
    match l.permits k va with
    | .error e => .error e
    | .ok () => .ok (l.pa va)

/-- Bytes at a virtual address, translated per byte range inside one page, at their performing points. Poison and
failed links fault the reader (R231, R358). -/
def State.readVa (s : State) (ctx : Nat) (va : Addr) (n : Nat) (k : Access) : Except XFault (List Byte) :=
  match s.xlate ctx va k with
  | .error e => .error e
  | .ok pa =>
    if s.linkDown pa then .error ⟨0x31, 0, va⟩
    else if s.poisoned pa n then .error ⟨0x30, 0, va⟩
    else .ok (s.performBytes pa n)

/-- Bytes that may run over pages, read 16 at a time. -/
def State.readRange (s : State) (ctx : Nat) (k : Access) : Nat → Addr → Except XFault (List Byte)
  | 0, _ => .ok []
  | n + 1, va =>
    match s.readVa ctx va 16 k with
    | .error e => .error e
    | .ok b =>
      match State.readRange s ctx k n (va + 16) with
      | .error e => .error e
      | .ok t => .ok (b ++ t)

end Sys2Proof.Machine
end

