-- ==== Sys2Proof/Machine/Ops.lean ====
section
/-! DEFINITION. The named operations over threads, teams, registers, flags and operations; taking a trap and returning
from one; the checks every word makes at issue (01_thread; 02_encoding R45 to R49; 06_core R136, R137, R152). -/

namespace Sys2Proof.Machine

/-! ### Threads and teams -/

def Thread.live (t : Thread) : Bool := t.key.team != noTeam

/-- A live thread by its key. -/
def State.thread? (s : State) (k : ThreadKey) : Option Thread :=
  if s.th.key = k then some s.th else s.threads.find? (fun t => t.key == k)

def State.setThread (s : State) (t : Thread) : State :=
  if s.th.key = t.key then { s with th := t }
  else { s with threads := s.threads.map (fun u => if u.key = t.key then t else u) }

def State.allThreads (s : State) : List Thread := if s.th.live then s.th :: s.threads else s.threads

def State.mapThreads (s : State) (f : Thread → Thread) : State := { s with th := f s.th, threads := s.threads.map f }

def State.team? (s : State) (u : Nat) : Option Team :=
  if s.tm.uid = u then some s.tm else s.teams.find? (fun t => t.uid == u)

def State.setTeam (s : State) (t : Team) : State :=
  if s.tm.uid = t.uid then { s with tm := t }
  else { s with teams := s.teams.map (fun u => if u.uid = t.uid then t else u) }

def State.allTeams (s : State) : List Team := if s.tm.uid = noTeam then s.teams else s.tm :: s.teams

/-- The team's core and slot while it is resident, or those it left (R320). -/
def Team.core (t : Team) : Nat :=
  match t.res with
  | .resident c _ => c
  | .swapped c _ _ _ _ _ => c
  | .freed c => c
  | _ => 0

def Team.slot (t : Team) : Nat :=
  match t.res with
  | .resident _ k => k
  | .swapped _ k _ _ _ _ => k
  | _ => 0

def Team.resident (t : Team) : Bool :=
  match t.res with
  | .resident _ _ => true
  | _ => false

/-- Threads of a team. -/
def State.threadsOf (s : State) (u : Nat) : List Thread := s.allThreads.filter (fun t => t.key.team == u)

/-- (group, seat) order (R134). -/
def keyBefore (a b : ThreadKey) : Bool := a.group < b.group || (a.group == b.group && decide (a.seat ≤ b.seat))

/-- Makes a thread and its team the ones that act. -/
def State.focus (s : State) (k : ThreadKey) : Option State :=
  match s.threads.find? (fun t => t.key == k), s.teams.find? (fun t => t.uid == k.team) with
  | some t, some m =>
    some { s with th := t, tm := m, threads := s.threads.filter (fun u => u.key != k),
                  teams := s.teams.filter (fun u => u.uid != k.team) }
  | _, _ => none

/-- Puts the acting thread and team back. -/
def State.unfocus (s : State) : State :=
  { s with threads := if s.th.live then s.th :: s.threads else s.threads, th := Thread.inert,
           teams := if s.tm.uid = noTeam then s.teams else s.tm :: s.teams, tm := Team.inert }

/-! ### Registers, predicates, index registers -/

def Thread.window (t : Thread) : Nat := t.regs.length
def Thread.reg (t : Thread) (i : Nat) : Word := t.regs.getD i 0
def Thread.setReg (t : Thread) (i : Nat) (v : Word) : Thread :=
  { t with regs := t.regs.set i v, badRegs := t.badRegs.filter (· != i) }
/-- A pair (R43): the low word in the lower register. -/
def Thread.pair (t : Thread) (i : Nat) : BitVec 64 := pairOf (t.reg i) (t.reg (i + 1))
def Thread.setPair (t : Thread) (i : Nat) (v : BitVec 64) : Thread := (t.setReg i (lo32 v)).setReg (i + 1) (hi32 v)

/-- Writes consecutive registers. -/
def Thread.setRegs (t : Thread) (i : Nat) : List Word → Thread
  | [] => t
  | w :: ws => Thread.setRegs (t.setReg i w) (i + 1) ws

/-- R10: p7 reads 1. -/
def Thread.pred (t : Thread) (i : Nat) : Bool := i == 7 || t.preds.getLsbD i

/-- R10: writes of p7 are discarded. -/
def Thread.setPred (t : Thread) (i : Nat) (b : Bool) : Thread :=
  if 7 ≤ i then t
  else { t with preds := if b then t.preds ||| (1#8 <<< i) else t.preds &&& ~~~(1#8 <<< i) }

def Thread.x (t : Thread) (i : Nat) : BitVec 16 := t.xs.getD i 0
def Thread.setX (t : Thread) (i : Nat) (v : BitVec 16) : Thread := { t with xs := t.xs.set i v }

def Thread.pending (t : Thread) (i : Nat) : Bool := t.pend.getLsbD i
def Thread.setPending (t : Thread) (i : Nat) : Thread := { t with pend := t.pend ||| (1#256 <<< i) }
def Thread.clearPending (t : Thread) (i : Nat) : Thread := { t with pend := t.pend &&& ~~~(1#256 <<< i) }

/-- R23: a progress point clears the watchdog (R24). -/
def Thread.progress (t : Thread) : Thread := { t with watchdog := 0 }

/-- R7, R10: a program counter has 57 bits. -/
def addr57 (a : Addr) : Addr := a &&& 0x1FFFFFFFFFFFFFF

/-- The code address at an offset into a code image: a program counter has 57 bits (R10). -/
def codeAt (text : Addr) (off : Nat) : Addr := addr57 (text + BitVec.ofNat 64 off)

/-- Goes to a clause header (R44). -/
def Thread.goto (t : Thread) (a : Addr) : Thread :=
  { t with pc := a, hdr := a, startAt := 0, clause := none, held := none, redo := false, block := none }

/-- Role numbers of R16 and R29. -/
def roleNum : Role → Nat
  | .copy => 0
  | .matrix => 1
  | .vector => 2

def roleOf (n : Nat) : Role := if n = 0 then .copy else if n = 1 then .matrix else .vector

/-! ### Fault records -/

/-- The word index that a fault of the acting thread names (R29; R48 for a pair). -/
def State.wordIdx (s : State) : Nat :=
  match s.th.clause with
  | none => s.th.startAt
  | some c => if s.pfx.isSome then c.word - 1 else c.word

/-- The header of the acting thread's clause. -/
def State.header (s : State) : Addr :=
  match s.th.clause with
  | none => s.th.hdr
  | some c => c.header

/-- The count of the acting thread's clause. -/
def State.clauseCount (s : State) : Nat := (s.th.clause.map ClauseCtx.count).getD 0

/-- The address of the word, or of the prefix of the pair (R48). -/
def State.wordPc (s : State) : Addr := addr57 (s.header + BitVec.ofNat 64 (4 * s.wordIdx))

/-- The tenant of a context. -/
def State.tenantNum (s : State) (ctx : Nat) : Nat := ((s.ctxOf ctx).map Ctx.tenant).getD 0

/-- R29: a record with the fields that name a thread and a place, cause 0. -/
def State.recFor (s : State) (t : Thread) (m : Team) (clause : Addr) (word : Nat) : FaultRec :=
  { cause := 0, seat := t.key.seat, word := word, group := t.key.group, tslot := m.slot, role := roleNum t.role,
    ctx := m.ctx, core := m.core, tenant := s.tenantNum m.ctx, clause := clause,
    lanes := 1#32 <<< t.key.seat }

/-- The record of the acting thread at its word. -/
def State.here (s : State) : FaultRec := s.recFor s.th s.tm s.header s.wordIdx

/-- R29: the 64 bytes of a record. -/
def FaultRec.toBytes (r : FaultRec) : List Byte :=
  let bit (b : Bool) (n : Nat) : Nat := if b then n else 0
  leBytes 1 r.cause ++ leBytes 1 (bit r.deferred 1 + bit r.replayable 2 + bit r.engine 4 + bit r.nested 8)
    ++ leBytes 1 r.seat ++ leBytes 1 r.word ++ leBytes 1 r.group ++ leBytes 1 r.tslot ++ leBytes 1 r.role
    ++ leBytes 1 r.ctx ++ leBytes 2 r.core ++ leBytes 1 r.tenant ++ leBytes 5 0 ++ leBytes 8 r.clause.toNat
    ++ leBytes 8 r.vaddr.toNat ++ leBytes 4 r.lanes.toNat ++ leBytes 4 r.tensor.toNat ++ leBytes 4 r.bitoff.toNat
    ++ leBytes 4 0 ++ leBytes 8 r.tile.toNat ++ leBytes 8 r.detail.toNat

/-- R28: the offset of a thread's record in its team's fault area. -/
def recOffset (k : ThreadKey) : Nat := 64 * (32 * k.group + k.seat)

/-- %frec (R16, R28). -/
def frecOf (m : Team) (k : ThreadKey) : Addr := m.farea + BitVec.ofNat 64 (recOffset k)

/-! ### Fault queues (R381) -/

/-- Appends an entry to a tenant's fault queue, or holds it back while the queue is full. -/
def State.pushEntry (s : State) (tenant : Nat) (e : FqEntry) : State :=
  let t := s.tenantOf tenant
  if (t.fqtail + 1) % 2 ^ t.lgfq = t.fqhead % 2 ^ t.lgfq then s.setTenant { t with held := t.held ++ [e] }
  else
    s.setTenant { t with fq := t.fq ++ [{ e with index := t.fqtail }], fqtail := (t.fqtail + 1) % 2 ^ t.lgfq,
                         irqs := t.irqs ++ [1] }

/-- A record of no gang issue. -/
def State.pushFault (s : State) (tenant : Nat) (r : FaultRec) (w : FaultWait) : State :=
  s.pushEntry tenant { index := 0, record := r, wait := w, lane := none }

/-- Two threads of one group (R14). -/
def sameGroup (a b : ThreadKey) : Bool := a.team == b.team && a.group == b.group

/-- R29: the seats of a thread's group among threads. -/
def seatMaskOf (k : ThreadKey) (l : List ThreadKey) : Word := (l.filter (sameGroup k)).foldl (fun m x => m ||| (1#32 <<< x.seat)) 0

/-- R29, R176: the seats of a thread's group that are known to have faulted in a gang issue. -/
def State.laneSeats (s : State) (n : Nat) (k : ThreadKey) : Word :=
  seatMaskOf k (k :: (s.laneFaults.filter (fun f => f.1 == n)).map Prod.snd)

/-- A record names one more seat. -/
def FaultRec.addLane (r : FaultRec) (seat : Nat) : FaultRec := { r with lanes := r.lanes ||| (1#32 <<< seat) }

/-- A fault-queue record of a gang issue names one more seat of its thread's group. -/
def FqEntry.addLane (n : Nat) (k : ThreadKey) (e : FqEntry) : FqEntry :=
  match e.lane with
  | some (i, x) => if i = n ∧ sameGroup k x = true then { e with record := e.record.addLane k.seat } else e
  | none => e

/-- Whether `tret` performs the operation again after its deferred fault (R30): loads, atomics that return, tile reads. -/
def OpKind.replays : OpKind → Bool
  | .load .. => true
  | .ldb .. => true
  | .atom _ _ _ _ _ d => d.isSome
  | .tld .. => true
  | .tq .. => true
  | _ => false

/-- A fault of an operation belongs to the lanes of its gang issue: an engine's does where the operation is a thread's own
read (R29, R177, R330). -/
def Op.laned (o : Op) (engine : Bool) : Bool := !engine || o.kind.replays

/-- R29, R176: a lane of a gang issue faults: every record of the issue in its group that has not been delivered names its
seat, those of an engine apart (DESIGN CHOICE, log entry 88: lanes found to fault after a record's delivery are not in it). -/
def State.noteLane (s : State) (n : Nat) (k : ThreadKey) : State :=
  let op (o : Op) : Op :=
    if o.issue = n ∧ sameGroup k o.key = true then
      { o with fault := o.fault.map (fun r => if o.laned r.engine then r.addLane k.seat else r) }
    else o
  let access (a : PageAccess) : PageAccess :=
    if a.issue = some n ∧ sameGroup k a.key = true then { a with base := a.base.addLane k.seat } else a
  let close (t : Tenant) : Tenant := { t with fq := t.fq.map (FqEntry.addLane n k), held := t.held.map (FqEntry.addLane n k) }
  { s with laneFaults := s.laneFaults ++ [(n, k)], ops := s.ops.map op, accesses := s.accesses.map access,
           tenants := s.tenants.map close }

/-- R176: a thread has faulted on the word of the gang issue, with its record's place in the fault area if it has one. -/
def State.markLane (s : State) (k : ThreadKey) (pa : Option Nat) : State :=
  match s.issue with
  | none => s
  | some i => { s.noteLane i.num k with issue := some { i with faulted := i.faulted ++ [(k, pa)] } }

/-- The gang issue and thread that a precise fault's record names (R176). -/
def State.laneOf (s : State) (k : ThreadKey) : Option (Nat × ThreadKey) := s.issue.map (fun i => (i.num, k))

/-- The number of kinds of block that copy their state. -/
def snapBlocks : Nat := 15

/-- R387: the snapshot registers of one block copy its state. -/
def State.snapBlock (s : State) (n : Nat) : State :=
  let p := s.sup.snap
  let p := match n with
    | 0 => { p with threads := s.th :: s.threads }
    | 1 => { p with teams := s.tm :: s.teams }
    | 2 => { p with ops := s.ops }
    | 3 => { p with cores := s.cores }
    | 4 => { p with monitors := s.monitors }
    | 5 => { p with accesses := s.accesses, walks := s.walks, walkCache := s.walkCache, ctxs := s.ctxs }
    | 6 => { p with queues := s.queues }
    | 7 => { p with grids := s.grids }
    | 8 => { p with clusters := s.clusters }
    | 9 => { p with home := s.home, homePoison := s.homePoison, poison := s.poison, links := some s.links,
                    registry := s.registry, registrations := s.registrations }
    | 10 => { p with tellerTlb := s.tellerTlb, votes := s.votes, pushes := s.pushes, imageUpdates := s.imageUpdates }
    | 11 => { p with tenants := s.tenants }
    | 12 => { p with clocks := s.clocks }
    | 13 => { p with fabric := some s.fabric }
    | _ => { p with roce := s.roce }
  { s with sup := { s.sup with snap := p, snapDue := s.sup.snapDue.filter (fun k => k != n) } }

/-- R387: an enabled trigger latches the snapshot, or is counted while one is held. The blocks copy one after another,
each when the broadcast reaches it, which is a free choice of a later step (log entry 53). -/
def State.snapshot (s : State) (bit : Nat) : State :=
  if s.sup.snapen.getLsbD bit then
    { s with sup := if s.sup.latched then { s.sup with triggers := s.sup.triggers + 1 }
                    else { s.sup with latched := true, snapDue := List.range snapBlocks } }
  else s

/-- R387: the trigger of a fault whose cause is %snapcause. -/
def State.snapOnCause (s : State) (cause : Nat) : State :=
  if s.sup.snapcause.toNat % 256 = cause ∧ cause ≠ 0 then s.snapshot 3 else s

/-! ### Device-scope writes by the hardware itself -/

/-- A write of a view made at home from a core: what its cluster sent to the slice first, and the core's own copies
follow. -/
def State.deviceWriteAs (s : State) (v : View) (core pa : Nat) (b : List Byte) : State :=
  let s := s.flushRegs (clusterOf core) pa b.length
  let s := s.homeWriteAs v pa b
  let s := s.setCluster ((s.cluster (clusterOf core)).dropBytes pa b.length)
  s.l1Take core pa b

/-- The same for linear memory. -/
def State.deviceWrite (s : State) (core pa : Nat) (b : List Byte) : State := s.deviceWriteAs none core pa b

/-! ### Traps (R28, R31) -/

/-- A fault of the word itself: neither deferred nor an engine's (R35). -/
def FaultRec.precise (r : FaultRec) : Bool := !r.deferred && !r.engine

/-- A record of a gang issue names the seats that have faulted there so far (R176). -/
def State.withLanes (s : State) (lane : Option (Nat × ThreadKey)) (r : FaultRec) : FaultRec :=
  match lane with
  | some (n, k) => { r with lanes := r.lanes ||| s.laneSeats n k }
  | none => r

/-- R31: the thread stops and the record goes to the fault queue alone. -/
def State.stopThread (s : State) (t : Thread) (r : FaultRec) : State :=
  let r := { r with nested := t.trapActive }
  let lane := if r.precise then s.laneOf t.key else none
  let e : FqEntry := { index := 0, record := s.withLanes lane r, wait := .stopped t.key, lane := lane }
  let s := (s.setThread { t with status := .stopped }).pushEntry r.tenant e
  if r.precise then s.markLane t.key none else s

/-- The physical place of a thread's fault record, where it can be written (R28, R31). -/
def State.recPlace (s : State) (m : Team) (k : ThreadKey) : Except XFault (Leaf × Nat) × State :=
  s.translate m.core m.ctx (frecOf m k) .write

/-- R28, R31: a thread takes a trap. `fpc` is the word that resumes it; `resume` is where `tret` goes on after a deferred
fault or an engine's, and the word of %fpc after any other (R106). -/
def State.trapThread (s : State) (t : Thread) (m : Team) (r : FaultRec) (fpc : Addr) (resume : Addr × Nat)
    (count : Nat) (replay : Option Nat) : State :=
  let s := s.snapOnCause r.cause
  if t.trapActive || decide (m.fgroups ≤ t.key.group) then s.stopThread t r
  else
    match s.recPlace m t.key with
    | (.error _, s) => s.stopThread t r
    | (.ok (_, pa), s) =>
      let s := s.deviceWrite m.core pa r.toBytes
      let s := if r.precise then s.markLane t.key (some pa) else s
      let tvec := ((s.ctxOf m.ctx).map Ctx.tvec).getD 0
      s.setThread { (t.progress.goto tvec) with
        cause := BitVec.ofNat 32 r.cause, fpc := fpc, fpc0 := fpc, trapActive := true, replay := replay, status := .ready,
        resume := { own := !r.precise, hdr := resume.1, word := resume.2, clause := r.clause, count := count } }

/-- A precise fault of the acting thread at its word. -/
def State.trap (s : State) (r : FaultRec) : State :=
  { s.trapThread s.th s.tm r s.wordPc (s.header, s.wordIdx) s.clauseCount none with pfx := none }

/-- The answer of an event: one whose condition does not hold does not occur, and leaves the machine as it is (log
entry 5). -/
def State.orStay (s : State) (e : Ev) : Out := .next (e.getD s)

/-- A precise fault with a cause and nothing else known. -/
def State.fault (s : State) (cause : Nat) : Out := .next (s.trap { s.here with cause := cause })

/-- ILLEGAL_FIELD with a detail number (R178, R268). -/
def State.faultDetail (s : State) (cause detail : Nat) : Out :=
  .next (s.trap { s.here with cause := cause, detail := BitVec.ofNat 64 detail })

/-- A fault with a faulting address. -/
def State.faultAt (s : State) (cause : Nat) (va : Addr) (detail : BitVec 64) : Out :=
  .next (s.trap { s.here with cause := cause, vaddr := va, detail := detail })

/-! ### Moving on -/

/-- The acting thread leaves its word: the next word of the clause, or the header that follows it (R37). -/
def Thread.advance (t : Thread) : Thread :=
  match t.clause with
  | none => t
  | some c =>
    if c.word < c.count then
      { t with pc := addr57 (t.pc + 4), clause := some { c with word := c.word + 1 }, held := none, block := none }
    else t.goto (addr57 (c.header + BitVec.ofNat 64 (4 * (c.count + 1))))

def State.advance (s : State) : State := { s with th := s.th.advance, pfx := none }

/-- The acting thread stays at its word (or at the prefix of its pair) and issues it again later: a stall, which is not
a progress point (R12, R135). -/
def Thread.back (t : Thread) : Thread :=
  match t.clause with
  | none => t
  | some c => { t with pc := addr57 (t.pc - 4), clause := some { c with word := c.word - 1 } }

def State.stall (s : State) : State :=
  if s.pfx.isSome then { s with th := s.th.back, pfx := none } else s

/-- A park that is a progress point (R23). -/
def Park.progress : Park → Bool
  | .page _ => false
  | _ => true

/-- The header of the clause a thread stands in. -/
def Thread.clauseHdr (t : Thread) : Addr :=
  match t.clause with
  | some c => c.header
  | none => t.hdr

/-- The live-state record of a clause (R62). -/
def Team.liveRec (m : Team) (hdr : Addr) : Option LiveRec := m.live.find? (fun l => l.addr == hdr)

/-- A thread stands at a clause header: no word of the clause has issued. -/
def Thread.atHeader (t : Thread) : Bool := t.startAt == 0 && (t.clause.map ClauseCtx.word).getD 1 == 1

/-- R25, R318: what a pre-emption in progress does to one thread at once. -/
def Team.stopNow (m : Team) (t : Thread) : Thread :=
  if t.key.team != m.uid then t
  else
    match t.status with
    | .parked p =>
      if !p.progress then { t with status := .saved true (some p) }
      else if (m.liveRec t.clauseHdr).isSome then { t with status := .saved false (some p) }
      else t
    | .ready | .yielded _ =>
      if t.atHeader && (m.liveRec t.clauseHdr).isSome then { t.goto t.clauseHdr with status := .saved false none } else t
    | _ => t

/-- A thread of a team parks; while the team is being pre-empted it may stop where it parks (R25, R318). -/
def Team.parks (m : Team) (t : Thread) (p : Park) : Thread :=
  let t := { t with status := .parked p }
  if m.preempt.isSome then m.stopNow t else t

/-- R8, R23: the acting thread parks at its word, a progress point, and does the word again when it wakes. -/
def State.park (s : State) (p : Park) : State :=
  let s := s.stall
  { s with th := s.tm.parks s.th.progress p }

/-! ### Operations and flags (R12, R13, R40) -/

def State.op? (s : State) (id : Nat) : Option Op := s.ops.find? (fun o => o.id == id)

def State.setOp (s : State) (o : Op) : State := { s with ops := s.ops.map (fun p => if p.id = o.id then o else p) }

def State.dropOp (s : State) (id : Nat) : State := { s with ops := s.ops.filter (fun p => p.id != id) }

/-- R12: operations assigned to a flag. -/
def State.flagCount (s : State) (k : ThreadKey) (f : Nat) : Nat :=
  (s.ops.filter (fun o => o.key == k && o.flag == some f)).length

/-- The flag field that E chooses (R40). -/
def State.chosen (s : State) (e : Bool) : Nat :=
  match s.th.clause with
  | none => 15
  | some c => if e then c.setB else c.setA

/-- R12: the chosen flag has room for another operation. -/
def State.flagRoom (s : State) (e : Bool) : Bool :=
  s.chosen e == 15 || decide (s.flagCount s.th.key (s.chosen e) < 15)

/-- R13: the pending bits of registers. -/
def Thread.setPendings (t : Thread) (rs : List Nat) : Thread := rs.foldl Thread.setPending t
def Thread.clearPendings (t : Thread) (rs : List Nat) : Thread := rs.foldl Thread.clearPending t

/-- Issues an operation of the acting thread and moves on; with the chosen field at 15 the thread waits for it (R40). -/
def State.addOp (s : State) (e : Bool) (regs : List Nat) (pa : Option Nat) (kind : OpKind) (scope : Scope := .device) : State :=
  let f := s.chosen e
  let o : Op :=
    { id := s.nextOp, issue := (s.issue.map Issue.num).getD s.nextIssue, key := s.th.key,
      flag := if f = 15 then none else some f, core := s.tm.core, cluster := clusterOf s.tm.core, ctx := s.tm.ctx,
      base := s.here, fpc := s.wordPc, count := s.clauseCount, regs := regs, pa := pa, kind := kind, fault := none, waitPage := none,
      scope := scope, handler := s.th.trapActive, due := s.tick + Config.writeDelay s.nextOp }
  let t := (s.th.setPendings regs).advance
  { s with ops := s.ops ++ [o], nextOp := s.nextOp + 1, pfx := none,
           th := if f = 15 then { t with status := .sync s.nextOp } else t }

/-- Wakes a thread that waits for an operation to complete (R40). -/
def Thread.syncDone (t : Thread) (id : Nat) : Thread :=
  if t.status = .sync id ∨ t.status = .replay id then { t with status := .ready } else t

/-- An operation leaves its flag and its registers' pending bits clear (R12, R13); its followers leave with it. -/
def State.finishOp (s : State) (o : Op) : State :=
  let s := match s.thread? o.key with
    | none => s
    | some t => s.setThread ((t.clearPendings o.regs).syncDone o.id)
  let s := s.dropOp o.id
  let fs := s.ops.filter (fun p => p.kind = .follow o.id)
  fs.foldl (fun s p =>
    let s := match s.thread? p.key with
      | none => s
      | some t => s.setThread ((t.clearPendings p.regs).syncDone p.id)
    s.dropOp p.id) s

/-- Writes registers of an operation's thread, if it lives. -/
def State.writeRegs (s : State) (k : ThreadKey) (d : Nat) (ws : List Word) : State :=
  match s.thread? k with
  | none => s
  | some t => s.setThread (t.setRegs d ws)

/-! ### Faults of operations (R33, R35, R186) -/

/-- A read of memory by a thread: it returns a value (R280). -/
def OpKind.isRead (k : OpKind) : Bool :=
  match k with
  | .load _ _ _ _ _ _ _ | .ldb _ _ _ => true
  | .atom _ _ _ _ _ d => d.isSome
  | _ => false

/-- A write of memory by a thread (R280). -/
def OpKind.isWrite (k : OpKind) : Bool :=
  match k with
  | .store _ _ _ | .atom _ _ _ _ _ _ | .badd _ _ _ _ _ | .ctst _ => true
  | _ => false

/-- Bytes of an atomic's word. -/
def AtomForm.size (f : AtomForm) : Nat :=
  match f with
  | .addB64 | .casB64 => 8
  | _ => 4

/-- The virtual bytes a thread's access names, as address and length. -/
def OpKind.span (k : OpKind) : Option (Nat × Nat) :=
  match k with
  | .load va n _ _ _ _ _ => some (va.toNat, n)
  | .ldb va _ _ => some (va.toNat, 4)
  | .store va b _ => some (va.toNat, b.length)
  | .atom f _ va _ _ _ => some (va.toNat, f.size)
  | .badd _ va _ _ _ => some (va.toNat, 4)
  | _ => none

/-- Two accesses of a thread name a common byte. -/
def OpKind.meets (k l : OpKind) : Bool :=
  match k.span, l.span with
  | some x, some y => decide (x.1 < y.1 + y.2) && decide (y.1 < x.1 + x.2)
  | _, _ => false

/-- What waits for every earlier load of its thread: its writes (R235), and what forks from it (R246). -/
def OpKind.ordered (k : OpKind) : Bool :=
  match k with
  | .load .. | .written .. | .ldb .. | .sfu .. | .stashMap .. | .stashWb .. | .ctld .. | .tlbinv .. | .tstat .. | .follow .. => false
  | _ => true

/-- R235, R250: a faulted load that `tret` is to perform again has not returned its value, and a later operation of its
thread waits for it; one of the handler does not wait for the load that the handler serves, nor one whose team is being
swapped out (DEDUCED, log entry 84). -/
def Op.owedTo (p o : Op) : Bool :=
  p.key == o.key && decide (p.id < o.id) && p.fault.isSome && p.kind.replays && (p.handler || !o.handler) && !o.letGo

/-- The operations of a thread that wait for such a load, directly or for another that does. -/
def State.heldBack (s : State) (k : ThreadKey) : List Op :=
  (s.ops.filter (fun o => o.key == k && o.fault.isNone)).foldl (fun l o =>
    let owed := s.ops.filter (fun p => p.owedTo o)
    if (o.kind.ordered && !owed.isEmpty) || (owed ++ l).any (fun p => p.kind.meets o.kind) then l ++ [o] else l) []

/-- The barrier register an engine operation counts against (R185). -/
def OpKind.bar? : OpKind → Option Nat
  | .copy _ b => b
  | .cpw _ _ _ _ b => b
  | .cpl _ _ _ _ b => b
  | .cpt _ _ _ _ _ _ _ b => b
  | .mat m => m.arrive
  | _ => none

/-- R186: where an engine fault also waits for the threads of the team. -/
def Team.addBarFault (m : Team) (o : Op) (r : FaultRec) : Team :=
  match o.kind.bar? with
  | none => m
  | some b => { m with barFaults := m.barFaults ++ [⟨b, (m.bars.getD b Bar.unset).phase, o.id, r, o.fpc, o.count⟩] }

/-- R29, R176: the other seats of an operation's group that issued with it have completed, faulted or wait for a page, so
that a record names every lane that faulted. An engine's record names its own seat, but for a thread's own read. -/
def State.lanesSettled (s : State) (o : Op) (r : FaultRec) : Bool :=
  !o.laned r.engine || s.ops.all (fun p => !(p.issue == o.issue && p.key.team == o.key.team && p.key.group == o.key.group &&
    p.key != o.key && p.fault.isNone && p.waitPage.isNone))

/-- An operation's fault is found. A thread that waits for the operation takes it at the word (R40, R177), once the
lanes of its issue have settled (R176); otherwise it stays attached to the flag (R33). An engine operation is not issued again by `tret` (R186), so its thread goes on at the
word after it; the registers of a read keep their pending bits until then (R176). A replay that faults again keeps its
fault until the next `tret` (R30). -/
def State.failOp1 (s : State) (o : Op) (r : FaultRec) : State :=
  match s.thread? o.key with
  | none => s.dropOp o.id
  | some t =>
    if t.status = .sync o.id ∧ s.lanesSettled o r = true then
      let seen := if r.engine && o.kind.bar?.isSome then o.id :: t.seenFaults else t.seenFaults
      let r := { r with deferred := false }
      let t := if o.kind.replays then t else t.clearPendings o.regs
      let t := { t with seenFaults := seen }
      let s := if o.kind.replays then s.setOp { o with fault := some r, waitPage := none } else s.dropOp o.id
      match s.team? o.key.team with
      | none => s
      | some m =>
        let place := match t.clause with
          | some c => (c.header, c.word)
          | none => (t.hdr, t.startAt)
        let goOn := if r.engine && !o.kind.replays then place else (r.clause, r.word)
        s.trapThread t m r o.fpc goOn o.count (if o.kind.replays then some o.id else none)
    else if t.status = .replay o.id then
      let r := { r with deferred := true, detail := t.resume.hdr }
      let s := s.setOp { o with fault := some r, waitPage := none }
      match s.team? o.key.team with
      | none => s
      | some m => s.trapThread t m r o.fpc (t.resume.hdr, 0) o.count (some o.id)
    else s.setOp { o with fault := some r, waitPage := none }

def State.failOp (s : State) (o : Op) (r : FaultRec) : State :=
  let s := match s.team? o.key.team with
    | some m => if r.engine then s.setTeam (m.addBarFault o r) else s
    | none => s
  let fs := s.ops.filter (fun p => p.kind = .follow o.id)
  let s := s.failOp1 o r
  fs.foldl (fun s p => s.failOp1 { p with kind := o.kind } { r with seat := p.base.seat, lanes := r.lanes }) s

/-- A thread is given a fault of one of its operations (R33, R186): a load stays for `tret` to replay with its flag
released, any other operation is gone. `at_` is the header where the fault is reported and the word the thread stands
at. After a deferred fault it goes on at that header (R30, R106), after an engine's at the word. The record of an
engine's fault keeps its cause's own detail, with attr bit 0 clear, for LINK_FAILED, REMOTE_FAULT and TELLER_FAULT too
(DESIGN CHOICE, log entry 71). -/
def State.deliver (s : State) (t : Thread) (m : Team) (o : Op) (r : FaultRec) (at_ : Addr × Nat) : State :=
  let own := r.engine && !o.kind.replays
  let r := if own then r else { r with deferred := true, detail := at_.1 }
  let at_ := if own then at_ else (at_.1, 0)
  let s := if o.kind.replays then s.setOp { o with flag := none, fault := some r } else s.dropOp o.id
  let t := if o.kind.replays then t else t.clearPendings o.regs
  let t := { t with seenFaults := if r.engine && o.kind.bar?.isSome then o.id :: t.seenFaults else t.seenFaults }
  s.trapThread t m r o.fpc at_ o.count (if o.kind.replays then some o.id else none)

/-- A fault that a waiting thread can take now that the lanes of its issue have settled (R40, R176). -/
def State.heldFault (s : State) : Option (Op × FaultRec) :=
  s.ops.findSome? (fun o =>
    match o.fault, s.thread? o.key with
    | some r, some t => if t.status = .sync o.id ∧ s.lanesSettled o r = true then some (o, r) else none
    | _, _ => none)

/-- An operation is on a flag of a mask. -/
def Op.onFlags (o : Op) (mask : BitVec 12) : Bool :=
  match o.flag with
  | some f => mask.getLsbD f
  | none => false

/-- The flag of a faulted load whose fault a wait for a later operation `o` of its thread delivers, as the wait could not end
otherwise: not, in the handler, one that the handler found (DEDUCED, log entry 84). -/
def Thread.owing (t : Thread) (p o : Op) : Option Nat := if p.owedTo o && (p.handler || !t.trapActive) then p.flag else none

/-- The flags whose faults a wait on a mask delivers: the `named` ones, and those of the faulted loads that operations on the
mask wait for. -/
def State.faultFlags (s : State) (t : Thread) (named mask : BitVec 12) : BitVec 12 :=
  ((s.heldBack t.key).filter (fun o => o.onFlags mask)).foldl (fun m o =>
    s.ops.foldl (fun m p => match t.owing p o with | some f => m ||| (1#12 <<< f) | none => m) m) named

/-- The faulted operation of a thread to be delivered first at a wait on a mask, of which a header names some flags: lowest
flag, earliest issue (R33). -/
def State.firstFault (s : State) (t : Thread) (named mask : BitVec 12) : Option Op :=
  (List.range 12).findSome? (fun f =>
    if (s.faultFlags t named mask).getLsbD f then s.ops.find? (fun o => o.key == t.key && o.flag == some f && o.fault.isSome)
    else none)

/-- Whether a fault an operation carries can be delivered now (R176). -/
def State.faultReady (s : State) (o : Op) : Bool :=
  match o.fault with
  | some r => s.lanesSettled o r
  | none => false

/-- Some operation without a fault that can be delivered is outstanding on a flag of the mask (R36), other than one that waits
for a faulted load whose fault is delivered there. -/
def State.flagsBusy (s : State) (t : Thread) (mask : BitVec 12) : Bool :=
  s.ops.any (fun o => o.key == t.key && !s.faultReady o && o.onFlags mask &&
    !((s.heldBack t.key).contains o && s.ops.any (fun p => (t.owing p o).isSome)))

/-- The operations of a kind that a word of the acting thread waits for: those outstanding, and the loads that `tret` is to
perform again, which have not returned (R33, R280). A word of the handler waits neither for the loads that the handler found
faulted nor for what waits for those (DEDUCED, log entry 84). -/
def State.awaited (s : State) (kind : Op → Bool) : List Op :=
  let held := s.heldBack s.th.key
  s.ops.filter (fun o => o.key == s.th.key && kind o && (o.fault.isNone || o.kind.replays) &&
    (o.handler || !s.th.trapActive || (o.fault.isNone && !held.contains o)))

/-- The acting thread's word waits for its operations of a kind (R237, R280). Where nothing is left but faulted loads and what
waits for them, the wait could not end: the first of those faults is delivered here (DEDUCED, log entry 84). -/
def State.waitFor (s : State) (kind : Op → Bool) (body : State → Out) : Out :=
  let mine := s.awaited kind
  if mine.isEmpty then body s
  else
    let left := mine.filter (fun o => o.fault.isNone)
    match s.ops.find? (fun p => p.fault.isSome && (mine.contains p || left.any p.owedTo)) with
    | some p =>
      if left.all (fun o => (s.heldBack s.th.key).contains o) && s.faultReady p then
        .next { s.deliver s.th s.tm p (p.fault.getD s.here) (s.header, s.wordIdx) with pfx := none }
      else .next s.stall
    | none => .next s.stall

/-- An operation of a thread that it waits for without a flag (R40), other than the one its `tret` replays. -/
def State.unflagged (s : State) (t : Thread) : Option Op :=
  s.ops.find? (fun o => o.key == t.key && o.flag == none && t.replay != some o.id)

/-! ### The checks at issue (R49, R11, R13) -/

/-- The class of the acting thread's clause. -/
def State.clsNow (s : State) : Nat := ((s.th.clause.map ClauseCtx.cls).getD 0)

/-- Which prefix a word allows (R45, R46). -/
inductive Allows where
  | none | operand | hint
  deriving DecidableEq, Repr

def prefixOk (a : Allows) (p : Option Pfx) : Bool :=
  match a, p with
  | _, Option.none => true
  | .operand, some (.operand _ _ _) => true
  | .hint, some (.hint _ _ _) => true
  | _, _ => false

/-- What the checks of a word need: its class, the prefix it allows, its role, and the registers it names. -/
structure WordInfo where
  cls : Nat
  allows : Allows := .none
  role : Option Role := Option.none
  reads : List Nat
  writes : List Nat
  deriving DecidableEq, Repr

/-- The first check of R49 that fails on state, as a cause: class, prefix, role, bounds. -/
def State.checkWord (s : State) (i : WordInfo) : Option Nat :=
  if !(i.cls == 0 || i.cls == s.clsNow) then some 0x05
  else if !prefixOk i.allows s.pfx then some 0x03
  else if !(match i.role with | Option.none => true | some r => r = s.th.role) then some 0x06
  else if !((i.reads ++ i.writes).all (fun r => decide (r < s.th.window))) then some 0x08
  else Option.none

/-- R13: the first register of a list whose pending bit is set. -/
def Thread.hazard (t : Thread) (rs : List Nat) : Option Nat := rs.find? t.pending

/-- R13: a register is pending: the fault of the operation that set the bit if it has one, else REG_HAZARD. -/
def State.hazardTrap (s : State) (r : Nat) : State :=
  match s.ops.find? (fun o => o.key == s.th.key && o.regs.contains r && o.fault.isSome) with
  | some o =>
    if s.faultReady o then { s.deliver s.th s.tm o (o.fault.getD s.here) (s.header, s.wordIdx) with pfx := none }
    else s.stall
  | none => s.trap { s.here with cause := 0x07 }

/-- R45: whether the operand prefix masks the acting thread off. `sel` is not masked. -/
def State.maskedOff (s : State) : Option Bool :=
  match s.pfx with
  | some (.operand p z _) => if s.th.pred p then none else some z
  | _ => none

/-- R83: the first register, sources before destinations, that is pending (R13) or, where it is read, holds an
uncorrectable error (R154), which takes its place in operand order; on one register the pending bit comes first (DESIGN
CHOICE, log entry 92: R83 orders the checks of R11 and R13 only). -/
def Thread.badOperand (t : Thread) (reads writes : List Nat) : Option Nat :=
  (reads.find? (fun r => t.pending r || t.badRegs.contains r)).orElse (fun _ => t.hazard writes)

/-- R13, R83, R154: execution checks on registers, then the body. -/
def State.withRegs (s : State) (reads writes : List Nat) (body : State → Out) : Out :=
  match s.th.badOperand reads writes with
  | some r => if s.th.pending r then .next (s.hazardTrap r) else s.faultAt 0x30 (BitVec.ofNat 64 r) 0
  | none => body s

/-- A word that has passed decode: the state checks of R49, then what is left. -/
def State.checked (s : State) (i : WordInfo) (body : State → Out) : Out :=
  match s.checkWord i with
  | some c => s.fault c
  | none => body s

/-- A word that has passed decode: the state checks of R49, those on its registers (R83), then its execution. -/
def State.word (s : State) (i : WordInfo) (body : State → Out) : Out :=
  s.checked i (fun s => s.withRegs i.reads i.writes body)

/-- A word the operand prefix may mask (R45): a masked-off thread reads nothing and writes 0 to its destination
where the prefix says so, both registers of a pair (R84). -/
def State.maskable (s : State) (i : WordInfo) (ds : List Nat) (body : State → Out) : Out :=
  s.checked i (fun s =>
    match s.maskedOff with
    | some false => .next s.advance
    | some true => s.withRegs [] ds (fun s => .next { s with th := (ds.foldl (fun t d => t.setReg d 0) s.th).advance, pfx := none })
    | none => s.withRegs i.reads i.writes body)

/-- Completes a word that only changes its thread. -/
def State.complete (s : State) (f : Thread → Thread) : Out := .next { s with th := (f s.th).advance, pfx := none }

/-- Stores the acting thread without moving it. -/
def State.withTh (s : State) (f : Thread → Thread) : State := { s with th := f s.th }

end Sys2Proof.Machine
end

