-- ==== Sys2Proof/Machine/Operands.lean ====
section
/-! DEFINITION. The operand forms of the words: three registers, immediates, pairs, predicates, the fourth operand of a
prefix, memory offsets and addresses (02_encoding R41 to R47; 04_thread_integer R83, R84). -/

namespace Sys2Proof.Machine

/-- The pair's two registers. -/
def pairRegs (i : Nat) : List Nat := [i, i + 1]

/-- The registers of a block of `n`. -/
def blockRegs (i n : Nat) : List Nat := (List.range n).map (· + i)

/-- The fourth operand's register under an operand prefix (R45), else `d`. -/
def State.addend (s : State) (d : Nat) : Nat :=
  match s.pfx with
  | some (.operand _ _ c) => c
  | _ => d

/-- Three registers, one result (R83): class 0 for the integer forms, class 1 for VECTOR's (R110). -/
def State.alu3 (s : State) (cls : Nat) (role : Option Role) (d a b : Nat) (f : Word → Word → Word) : Out :=
  s.maskable { cls := cls, allows := .operand, role := role, reads := [a, b], writes := [d] } [d]
    (fun s => s.complete (fun t => t.setReg d (f (t.reg a) (t.reg b))))

/-- Three registers where the old `d` is an operand too. -/
def State.alu3d (s : State) (cls : Nat) (role : Option Role) (d a b : Nat) (f : Word → Word → Word → Word) : Out :=
  s.maskable { cls := cls, allows := .operand, role := role, reads := [a, b, d], writes := [d] } [d]
    (fun s => s.complete (fun t => t.setReg d (f (t.reg a) (t.reg b) (t.reg d))))

/-- The forms with a fourth operand (R45): the addend is `c` under the prefix and the old `d` without. -/
def State.alu4 (s : State) (cls : Nat) (role : Option Role) (d a b : Nat) (f : Word → Word → Word → Word) : Out :=
  let c := s.addend d
  s.maskable { cls := cls, allows := .operand, role := role, reads := [a, b, c], writes := [d] } [d]
    (fun s => s.complete (fun t => t.setReg d (f (t.reg a) (t.reg b) (t.reg c))))

/-- One source register, or an immediate folded into `f`. -/
def State.alu2 (s : State) (cls : Nat) (role : Option Role) (d a : Nat) (f : Word → Word) : Out :=
  s.maskable { cls := cls, allows := .operand, role := role, reads := [a], writes := [d] } [d]
    (fun s => s.complete (fun t => t.setReg d (f (t.reg a))))

/-- A block of `n` source registers (R43), and further sources. -/
def State.aluBlock (s : State) (d a n : Nat) (more : List Nat) (f : Thread → Word) : Out :=
  s.maskable { cls := 1, allows := .operand, role := some .vector, reads := blockRegs a n ++ more, writes := [d] } [d]
    (fun s => s.complete (fun t => t.setReg d (f t)))

/-- A word without prefix that writes one register from its thread (R83). -/
def State.plain (s : State) (reads writes : List Nat) (f : Thread → Thread) : Out :=
  s.word { cls := 0, reads := reads, writes := writes } (fun s => s.complete f)

/-- Pairs in, a pair out (R93): each field holds half the pair's register number (R41, format F64). -/
def State.alu64 (s : State) (d a b : Nat) (f : BitVec 64 → BitVec 64 → BitVec 64) : Out :=
  s.plain (pairRegs (2 * a) ++ pairRegs (2 * b)) (pairRegs (2 * d))
    (fun t => t.setPair (2 * d) (f (t.pair (2 * a)) (t.pair (2 * b))))

/-- A compare of two registers into a predicate (R94, R116). -/
def State.compare (s : State) (cls : Nat) (role : Option Role) (p a b : Nat) (f : Word → Word → Bool) : Out :=
  s.word { cls := cls, role := role, reads := [a, b], writes := [] }
    (fun s => s.complete (fun t => t.setPred p (f (t.reg a) (t.reg b))))

/-- A compare of two pairs into a predicate (R94). -/
def State.compare64 (s : State) (p a b : Nat) (f : BitVec 64 → BitVec 64 → Bool) : Out :=
  s.plain (pairRegs a ++ pairRegs b) [] (fun t => t.setPred p (f (t.pair a) (t.pair b)))

/-- A compare with a sign-extended immediate (R94). -/
def State.compareImm (s : State) (p a : Nat) (i : BitVec 8) (f : Word → Word → Bool) : Out :=
  s.plain [a] [] (fun t => t.setPred p (f (t.reg a) (i.signExtend 32)))

/-- A predicate from two predicates (R94). -/
def State.predOp (s : State) (p a b : Nat) (f : Bool → Bool → Bool) : Out :=
  s.plain [] [] (fun t => t.setPred p (f (t.pred a) (t.pred b)))

/-- `lea` with scale S (R92). -/
def State.lea (s : State) (scale : Nat) (d a b : Nat) : Out :=
  s.maskable { cls := 0, allows := .operand, reads := pairRegs a ++ [b], writes := pairRegs d } (pairRegs d)
    (fun s => s.complete (fun t => t.setPair d (t.pair a + (t.reg b).setWidth 64 * BitVec.ofNat 64 scale)))

/-- A branch target: header + 4·sext(offset) (R44, R98), kept to 57 bits. -/
def branchTarget {n : Nat} (hdr : Addr) (o : BitVec n) : Addr :=
  addr57 (hdr + 4 * o.signExtend 64)

/-- The header of the clause that follows in memory (R37). -/
def State.nextHeader (s : State) : Addr :=
  addr57 (s.header + BitVec.ofNat 64 (4 * (s.clauseCount + 1)))

/-- Goes to an address as a clause header (R44). -/
def State.jump (s : State) (a : Addr) : Out := .next { s with th := s.th.goto a, pfx := none }

/-! ### Memory operands (R46, R47) -/

/-- The hint prefix's count and policy. -/
def State.hint (s : State) : Nat × Nat :=
  match s.pfx with
  | some (.hint n l _) => (n, l)
  | _ => (0, 0)

/-- R47: k for an FM word. -/
def State.kFm (s : State) (i : BitVec 8) : Int :=
  match s.pfx with
  | some (.hint _ _ x) => (x ++ i).toInt
  | _ => i.toInt

/-- R47: k for an FMG word. -/
def State.kFmg (s : State) : Int :=
  match s.pfx with
  | some (.hint _ _ x) => x.toInt
  | _ => 0

/-- R164: the scratchpad offset, exact. -/
def Thread.scratchAddr (t : Thread) (b : Nat) (size : Nat) (k : Int) : Int := (t.reg b).toInt + size * k

/-- R171: the global address modulo 2^64. -/
def Thread.globalAddr (t : Thread) (b : Nat) (size : Nat) (k : Int) : Addr := t.pair b + BitVec.ofInt 64 (size * k)

/-- R171, R267: bits [63:57] zero and a multiple of the size. -/
def addrOk (a : Addr) (size : Nat) : Bool := decide (a.toNat < 2 ^ 57) && decide (a.toNat % size = 0)

end Sys2Proof.Machine
end

