-- ==== Sys2Proof/Machine/Flags.lean ====
section
/-! DEFINITION. The results that go to predicates: integer and floating-point comparisons, classification, and the
conditions of votes (04_thread_integer R94; 05_thread_float R114 to R117). The machine has no arithmetic flags. -/

namespace Sys2Proof.Machine

def ltI32 (a b : Word) : Bool := decide (a.toInt < b.toInt)
def leI32 (a b : Word) : Bool := decide (a.toInt ≤ b.toInt)
def ltN32 (a b : Word) : Bool := decide (a.toNat < b.toNat)
def leN32 (a b : Word) : Bool := decide (a.toNat ≤ b.toNat)
def ltI64 (a b : BitVec 64) : Bool := decide (a.toInt < b.toInt)
def ltN64 (a b : BitVec 64) : Bool := decide (a.toNat < b.toNat)

/-- R116: +0 equals −0; false with a NaN. -/
def feq (a b : Word) : Bool := ((f32 a).eq? (f32 b)).getD false

def flt (a b : Word) : Bool := ((f32 a).lt? (f32 b)).getD false

def fle (a b : Word) : Bool := flt a b || feq a b

/-- R116: unordered. -/
def fun_ (a b : Word) : Bool := (f32 a).isNan || (f32 b).isNan

/-- R114: the order of minimum and maximum, in which −0 is less than +0. -/
def Val.below (x y : Val) : Bool :=
  match x, y with
  | .fin a m, .fin b n => if m = 0 ∧ n = 0 then a && !b else decide (signed a m < signed b n)
  | x, y => (x.lt? y).getD false

/-- R114: minimumNumber, maximumNumber and their NaN-returning forms. -/
def minMax (greater nanWins : Bool) (a b : Word) : Word :=
  let x := f32 a
  let y := f32 b
  if x.isNan && y.isNan then nan32
  else if x.isNan then (if nanWins then nan32 else b)
  else if y.isNan then (if nanWins then nan32 else a)
  else if greater then (if x.below y then b else a) else (if y.below x then b else a)

/-- R115: maximumNumber on BF16. -/
def maxB16 (a b : BitVec 16) : BitVec 16 :=
  let x := b16 a
  let y := b16 b
  if x.isNan && y.isNan then 0x7FC0
  else if x.isNan then b
  else if y.isNan then a
  else if x.below y then b else a

/-- R117: the class mask of an FP32 encoding. -/
def fclassOf (w : Word) : Word :=
  let neg := w.getLsbD 31
  let e := w.toNat / 2 ^ 23 % 256
  let m := w.toNat % 2 ^ 23
  let bit : Nat :=
    if e = 255 then
      if m = 0 then (if neg then 0 else 7) else if m / 2 ^ 22 = 1 then 8 else 9
    else if e = 0 then
      if m = 0 then (if neg then 3 else 4) else if neg then 2 else 5
    else if neg then 1 else 6
  BitVec.ofNat 32 (2 ^ bit)

end Sys2Proof.Machine
end

