-- ==== Sys2Proof/Machine/Float.lean ====
section
/-! DEFINITION. The class-1 instructions, majors 0x30 to 0x3D: arithmetic, minimum and maximum, packed BF16, compares,
conversions and special functions (05_thread_float R110 to R125). -/

namespace Sys2Proof.Machine

/-- R115: both halves of packed BF16 operands. -/
def halves2 (f : BitVec 16 → BitVec 16 → BitVec 16) (a b : Word) : Word :=
  packHalves (f (loHalf a) (loHalf b)) (f (hiHalf a) (hiHalf b))

def halves3 (f : BitVec 16 → BitVec 16 → BitVec 16 → BitVec 16) (a b c : Word) : Word :=
  packHalves (f (loHalf a) (loHalf b) (loHalf c)) (f (hiHalf a) (hiHalf b) (hiHalf c))

/-- R113: the forms of FP32 arithmetic, rounded once. -/
def faddOf (rm : Rm) (a b : Word) : Word := toF32 rm ((f32 a).add (f32 b))
def fsubOf (rm : Rm) (a b : Word) : Word := toF32 rm ((f32 a).add (f32 b).neg)
def fmulOf (rm : Rm) (a b : Word) : Word := toF32 rm ((f32 a).mul (f32 b))
def ffmaOf (rm : Rm) (a b c : Word) : Word := toF32 rm (((f32 a).mul (f32 b)).add (f32 c))

/-- R115, R271: packed BF16 addition. -/
def hadd2Of : Word → Word → Word := halves2 (fun a b => toB16 ((b16 a).add (b16 b)))

/-- R75: FP32 to an integer between bounds. -/
def toIntSat (rm : Rm) (lo hi : Int) (w : Word) : Word :=
  match f32 w with
  | .nan => 0
  | .inf neg => BitVec.ofInt 32 (if neg then lo else hi)
  | .fin neg m =>
    let n : Int := (roundNat rm m : Int)
    let v := if neg then -n else n
    BitVec.ofInt 32 (if v < lo then lo else if hi < v then hi else v)

/-- R119: a BF16 half widened. -/
def widen16 (h : BitVec 16) : Word := if (b16 h).isNan then nan32 else h ++ 0#16

/-- R120: four FP32 registers narrowed to bytes. -/
def narrow4 (f : Fmt) (ov : Ovf) (a : Nat) (t : Thread) : Word :=
  leWord ((List.range 4).map (fun i => BitVec.ofNat 8 (f.enc .rne ov (f32 (t.reg (a + i))))))

/-- R121: an element of `w` bits widened to FP32. -/
def widenElem (f : Fmt) (w i : Nat) (a : Word) : Word := toF32 .rne (f.val (a.toNat / 2 ^ (w * i) % 2 ^ w))

/-- R122: one E2M1 nibble under a scale code. -/
def e2m1Of (sc : Nat) (x : Word) : Nat :=
  if sc = 255 then 0
  else match f32 x with
    | .nan => 0
    | .inf neg => if neg then 0xF else 0x7
    | .fin neg m => e2m1.enc .rne .sat (.fin neg (m / pow2 ((sc : Int) - 127)))

/-- A special function (R123, R124): tracked, its result computed from v[a] at issue. A masked-off thread issues
nothing (R111). -/
def State.special (s : State) (f : Special) (e : Bool) (d a : Nat) : Out :=
  s.maskable { cls := 1, allows := .operand, role := some .vector, reads := [a], writes := [d] } [d]
    (fun s => if s.flagRoom e then .next (s.addOp e [d] none (.sfu d (f.eval (s.th.reg a)))) else .next s.stall)

/-- `fadd` (R113). -/
def execFadd (d a b : Nat) (s : State) : Out :=
  s.alu3 1 (some .vector) d a b (faddOf .rne)

/-- `fadd.rz` (R113). -/
def execFaddRz (d a b : Nat) (s : State) : Out :=
  s.alu3 1 (some .vector) d a b (faddOf .rz)

/-- `fsub` (R113). -/
def execFsub (d a b : Nat) (s : State) : Out :=
  s.alu3 1 (some .vector) d a b (fsubOf .rne)

/-- `fsub.rz` (R113). -/
def execFsubRz (d a b : Nat) (s : State) : Out :=
  s.alu3 1 (some .vector) d a b (fsubOf .rz)

/-- `fmul` (R113). -/
def execFmul (d a b : Nat) (s : State) : Out :=
  s.alu3 1 (some .vector) d a b (fmulOf .rne)

/-- `fmul.rz` (R113). -/
def execFmulRz (d a b : Nat) (s : State) : Out :=
  s.alu3 1 (some .vector) d a b (fmulOf .rz)

/-- `ffma` (R113). -/
def execFfma (d a b : Nat) (s : State) : Out :=
  s.alu4 1 (some .vector) d a b (ffmaOf .rne)

/-- `ffma.rz` (R113). -/
def execFfmaRz (d a b : Nat) (s : State) : Out :=
  s.alu4 1 (some .vector) d a b (ffmaOf .rz)

/-- `fmin` (R114). -/
def execFmin (d a b : Nat) (s : State) : Out :=
  s.alu3 1 (some .vector) d a b (minMax false false)

/-- `fmin.nan` (R114). -/
def execFminNan (d a b : Nat) (s : State) : Out :=
  s.alu3 1 (some .vector) d a b (minMax false true)

/-- `fmax` (R114). -/
def execFmax (d a b : Nat) (s : State) : Out :=
  s.alu3 1 (some .vector) d a b (minMax true false)

/-- `fmax.nan` (R114). -/
def execFmaxNan (d a b : Nat) (s : State) : Out :=
  s.alu3 1 (some .vector) d a b (minMax true true)

/-- `hadd2.bf16` (R115). -/
def execHadd2Bf16 (d a b : Nat) (s : State) : Out :=
  s.alu3 1 (some .vector) d a b hadd2Of

/-- `hmul2.bf16` (R115). -/
def execHmul2Bf16 (d a b : Nat) (s : State) : Out :=
  s.alu3 1 (some .vector) d a b (halves2 (fun a b => toB16 ((b16 a).mul (b16 b))))

/-- `hfma2.bf16` (R115). -/
def execHfma2Bf16 (d a b : Nat) (s : State) : Out :=
  s.alu4 1 (some .vector) d a b (halves3 (fun a b c => toB16 (((b16 a).mul (b16 b)).add (b16 c))))

/-- `hmax2.bf16` (R115). -/
def execHmax2Bf16 (d a b : Nat) (s : State) : Out :=
  s.alu3 1 (some .vector) d a b (halves2 maxB16)

/-- `fcmp.eq` (R116). -/
def execFcmpEq (p a b : Nat) (s : State) : Out :=
  s.compare 1 (some .vector) p a b feq

/-- `fcmp.lt` (R116). -/
def execFcmpLt (p a b : Nat) (s : State) : Out :=
  s.compare 1 (some .vector) p a b flt

/-- `fcmp.le` (R116). -/
def execFcmpLe (p a b : Nat) (s : State) : Out :=
  s.compare 1 (some .vector) p a b fle

/-- `fcmp.un` (R116). -/
def execFcmpUn (p a b : Nat) (s : State) : Out :=
  s.compare 1 (some .vector) p a b fun_

/-- `fabs` (R117). -/
def execFabs (d a : Nat) (s : State) : Out :=
  s.alu2 1 (some .vector) d a (fun a => if (f32 a).isNan then nan32 else a &&& 0x7FFFFFFF)

/-- `fneg` (R117). -/
def execFneg (d a : Nat) (s : State) : Out :=
  s.alu2 1 (some .vector) d a (fun a => if (f32 a).isNan then nan32 else a ^^^ 0x80000000)

/-- `fclass` (R117). -/
def execFclass (d a : Nat) (s : State) : Out :=
  s.alu2 1 (some .vector) d a fclassOf

/-- `cvt.f32.i32` (R118). -/
def execCvtF32I32 (d a : Nat) (s : State) : Out :=
  s.alu2 1 (some .vector) d a (fun a => toF32 .rne (Val.ofRat a.toInt))

/-- `cvt.f32.n32` (R118). -/
def execCvtF32N32 (d a : Nat) (s : State) : Out :=
  s.alu2 1 (some .vector) d a (fun a => toF32 .rne (.fin false a.toNat))

/-- `cvt.i32.f32.rz` (R118). -/
def execCvtI32F32Rz (d a : Nat) (s : State) : Out :=
  s.alu2 1 (some .vector) d a (toIntSat .rz (-2147483648) 2147483647)

/-- `cvt.i32.f32.rne` (R118). -/
def execCvtI32F32Rne (d a : Nat) (s : State) : Out :=
  s.alu2 1 (some .vector) d a (toIntSat .rne (-2147483648) 2147483647)

/-- `cvt.n32.f32.rz` (R118). -/
def execCvtN32F32Rz (d a : Nat) (s : State) : Out :=
  s.alu2 1 (some .vector) d a (toIntSat .rz 0 4294967295)

/-- `cvt.bf16x2.f32` (R119). -/
def execCvtBf16x2F32 (d a : Nat) (s : State) : Out :=
  s.aluBlock d a 2 [] (fun t => packHalves (toB16 (f32 (t.reg a))) (toB16 (f32 (t.reg (a + 1)))))

/-- `cvt.f32.bf16.lo` (R119). -/
def execCvtF32Bf16Lo (d a : Nat) (s : State) : Out :=
  s.alu2 1 (some .vector) d a (fun a => widen16 (loHalf a))

/-- `cvt.f32.bf16.hi` (R119). -/
def execCvtF32Bf16Hi (d a : Nat) (s : State) : Out :=
  s.alu2 1 (some .vector) d a (fun a => widen16 (hiHalf a))

/-- `cvt.e4m3x4.f32.sat` (R120). -/
def execCvtE4m3x4F32Sat (d a : Nat) (s : State) : Out :=
  s.aluBlock d a 4 [] (narrow4 e4m3 .sat a)

/-- `cvt.e4m3x4.f32.nan` (R120). -/
def execCvtE4m3x4F32Nan (d a : Nat) (s : State) : Out :=
  s.aluBlock d a 4 [] (narrow4 e4m3 .nan a)

/-- `cvt.e5m2x4.f32.sat` (R120). -/
def execCvtE5m2x4F32Sat (d a : Nat) (s : State) : Out :=
  s.aluBlock d a 4 [] (narrow4 e5m2 .sat a)

/-- `cvt.e5m2x4.f32.inf` (R120). -/
def execCvtE5m2x4F32Inf (d a : Nat) (s : State) : Out :=
  s.aluBlock d a 4 [] (narrow4 e5m2 .inf a)

/-- `cvt.f32.e4m3` of element i (R121). -/
def execCvtF32E4m3 (d a i : Nat) (s : State) : Out :=
  s.alu2 1 (some .vector) d a (widenElem e4m3 8 i)

/-- `cvt.f32.e5m2` of element i (R121). -/
def execCvtF32E5m2 (d a i : Nat) (s : State) : Out :=
  s.alu2 1 (some .vector) d a (widenElem e5m2 8 i)

/-- `cvt.f32.e2m1` of element i (R121). -/
def execCvtF32E2m1 (d a i : Nat) (s : State) : Out :=
  s.alu2 1 (some .vector) d a (widenElem e2m1 4 i)

/-- `rcp` (R123). -/
def execRcp (e : Bool) (d a : Nat) (s : State) : Out :=
  s.special .rcp e d a

/-- `rsqrt` (R123). -/
def execRsqrt (e : Bool) (d a : Nat) (s : State) : Out :=
  s.special .rsqrt e d a

/-- `sqrt` (R123). -/
def execSqrt (e : Bool) (d a : Nat) (s : State) : Out :=
  s.special .sqrt e d a

/-- `exp2` (R123). -/
def execExp2 (e : Bool) (d a : Nat) (s : State) : Out :=
  s.special .exp2 e d a

/-- `log2` (R123). -/
def execLog2 (e : Bool) (d a : Nat) (s : State) : Out :=
  s.special .log2 e d a

/-- `sinpi` (R123). -/
def execSinpi (e : Bool) (d a : Nat) (s : State) : Out :=
  s.special .sinpi e d a

/-- `cospi` (R123). -/
def execCospi (e : Bool) (d a : Nat) (s : State) : Out :=
  s.special .cospi e d a

/-- `tanh` (R123). -/
def execTanh (e : Bool) (d a : Nat) (s : State) : Out :=
  s.special .tanh e d a

/-- `cvt.e2m1x8.f32` (R122). -/
def execCvtE2m1x8F32 (d a b : Nat) (s : State) : Out :=
  s.aluBlock d a 8 [b] (fun t =>
    BitVec.ofNat 32 ((List.range 8).foldl (fun n i => n + e2m1Of ((t.reg b).toNat % 256) (t.reg (a + i)) * 16 ^ i) 0))

end Sys2Proof.Machine
end

