-- ==== Sys2Proof/WellFormed.lean ====
section
/-! DEFINITION. Which terms of `Instr` are instructions: every numbered field inside the range its format and map
entry give (R41 to R46, R50 to R55). -/

namespace Sys2Proof

/-- Every field is inside the range the encoding gives it. `rdk` takes k0 to k63 (R50), `bp` with predicate 7 is
written `br` (R44), an FQ `sel` is 0 or 1 (R53), and a hint count is 0 to 14 (R46). Events carry no encoding. -/
def Instr.wf (i : Instr) : Bool :=
  match i with
  | .add d a b => decide (d < 256) && decide (a < 256) && decide (b < 256)
  | .sub d a b => decide (d < 256) && decide (a < 256) && decide (b < 256)
  | .mul d a b => decide (d < 256) && decide (a < 256) && decide (b < 256)
  | .mulhI32 d a b => decide (d < 256) && decide (a < 256) && decide (b < 256)
  | .mulhN32 d a b => decide (d < 256) && decide (a < 256) && decide (b < 256)
  | .mad d a b => decide (d < 256) && decide (a < 256) && decide (b < 256)
  | .divI32 d a b => decide (d < 256) && decide (a < 256) && decide (b < 256)
  | .divN32 d a b => decide (d < 256) && decide (a < 256) && decide (b < 256)
  | .remI32 d a b => decide (d < 256) && decide (a < 256) && decide (b < 256)
  | .remN32 d a b => decide (d < 256) && decide (a < 256) && decide (b < 256)
  | .minI32 d a b => decide (d < 256) && decide (a < 256) && decide (b < 256)
  | .minN32 d a b => decide (d < 256) && decide (a < 256) && decide (b < 256)
  | .maxI32 d a b => decide (d < 256) && decide (a < 256) && decide (b < 256)
  | .maxN32 d a b => decide (d < 256) && decide (a < 256) && decide (b < 256)
  | .and d a b => decide (d < 256) && decide (a < 256) && decide (b < 256)
  | .or d a b => decide (d < 256) && decide (a < 256) && decide (b < 256)
  | .xor d a b => decide (d < 256) && decide (a < 256) && decide (b < 256)
  | .andn d a b => decide (d < 256) && decide (a < 256) && decide (b < 256)
  | .shl d a b => decide (d < 256) && decide (a < 256) && decide (b < 256)
  | .shr d a b => decide (d < 256) && decide (a < 256) && decide (b < 256)
  | .sar d a b => decide (d < 256) && decide (a < 256) && decide (b < 256)
  | .rotl d a b => decide (d < 256) && decide (a < 256) && decide (b < 256)
  | .fsh d a b => decide (d < 256) && decide (a < 256) && decide (b < 256)
  | .bfxI32 d a b => decide (d < 256) && decide (a < 256) && decide (b < 256)
  | .bfxN32 d a b => decide (d < 256) && decide (a < 256) && decide (b < 256)
  | .bfi d a b => decide (d < 256) && decide (a < 256) && decide (b < 256)
  | .sel d a b => decide (d < 256) && decide (a < 256) && decide (b < 256)
  | .lea1 d a b => decide (d < 256) && decide (a < 256) && decide (b < 256)
  | .lea2 d a b => decide (d < 256) && decide (a < 256) && decide (b < 256)
  | .lea4 d a b => decide (d < 256) && decide (a < 256) && decide (b < 256)
  | .lea8 d a b => decide (d < 256) && decide (a < 256) && decide (b < 256)
  | .lea16 d a b => decide (d < 256) && decide (a < 256) && decide (b < 256)
  | .addi d a _ => decide (d < 256) && decide (a < 256)
  | .shli d a n => decide (d < 256) && decide (a < 256) && decide (n < 32)
  | .shri d a n => decide (d < 256) && decide (a < 256) && decide (n < 32)
  | .sari d a n => decide (d < 256) && decide (a < 256) && decide (n < 32)
  | .movi d _ => decide (d < 256)
  | .movhi d _ => decide (d < 256)
  | .add64 d a b => decide (d < 128) && decide (a < 128) && decide (b < 128)
  | .sub64 d a b => decide (d < 128) && decide (a < 128) && decide (b < 128)
  | .mul64 d a b => decide (d < 128) && decide (a < 128) && decide (b < 128)
  | .shl64 d a b => decide (d < 128) && decide (a < 128) && decide (b < 128)
  | .shr64 d a b => decide (d < 128) && decide (a < 128) && decide (b < 128)
  | .sar64 d a b => decide (d < 128) && decide (a < 128) && decide (b < 128)
  | .cmpEq p a b => decide (p < 8) && decide (a < 256) && decide (b < 256)
  | .cmpNe p a b => decide (p < 8) && decide (a < 256) && decide (b < 256)
  | .cmpLtI32 p a b => decide (p < 8) && decide (a < 256) && decide (b < 256)
  | .cmpLtN32 p a b => decide (p < 8) && decide (a < 256) && decide (b < 256)
  | .cmpLeI32 p a b => decide (p < 8) && decide (a < 256) && decide (b < 256)
  | .cmpLeN32 p a b => decide (p < 8) && decide (a < 256) && decide (b < 256)
  | .cmp64Eq p a b => decide (p < 8) && decide (a < 256) && decide (b < 256)
  | .cmp64LtI64 p a b => decide (p < 8) && decide (a < 256) && decide (b < 256)
  | .cmp64LtN64 p a b => decide (p < 8) && decide (a < 256) && decide (b < 256)
  | .cmpiEq p a _ => decide (p < 8) && decide (a < 256)
  | .cmpiLtI32 p a _ => decide (p < 8) && decide (a < 256)
  | .pand p a b => decide (p < 8) && decide (a < 8) && decide (b < 8)
  | .por p a b => decide (p < 8) && decide (a < 8) && decide (b < 8)
  | .pxor p a b => decide (p < 8) && decide (a < 8) && decide (b < 8)
  | .pandn p a b => decide (p < 8) && decide (a < 8) && decide (b < 8)
  | .pnot p a => decide (p < 8) && decide (a < 8)
  | .pmov p a => decide (p < 8) && decide (a < 8)
  | .mov d a => decide (d < 256) && decide (a < 256)
  | .not d a => decide (d < 256) && decide (a < 256)
  | .abs d a => decide (d < 256) && decide (a < 256)
  | .neg d a => decide (d < 256) && decide (a < 256)
  | .clz d a => decide (d < 256) && decide (a < 256)
  | .ctz d a => decide (d < 256) && decide (a < 256)
  | .popc d a => decide (d < 256) && decide (a < 256)
  | .brev d a => decide (d < 256) && decide (a < 256)
  | .pget d => decide (d < 256)
  | .rdk d k => decide (d < 256) && decide (k < 64)
  | .setx x _ => decide (x < 4)
  | .incx x _ => decide (x < 4)
  | .rdx d x _ => decide (d < 256) && decide (x < 4)
  | .wrx s x _ => decide (s < 256) && decide (x < 4)
  | .bp p _ => decide (p < 7)
  | .bnp p _ => decide (p < 8)
  | .br _ => true
  | .call j _ => decide (j < 16)
  | .nop => true
  | .exit => true
  | .yield => true
  | .trap n => decide (n < 256)
  | .brk n => decide (n < 256)
  | .ret a => decide (a < 256)
  | .jr a => decide (a < 256)
  | .tret => true
  | .rdsr d n => decide (d < 256) && decide (n < 256)
  | .wrsr s n => decide (s < 256) && decide (n < 256)
  | .rdcyc d => decide (d < 256)
  | .prng d a i => decide (d < 256) && decide (a < 256) && decide (i < 4)
  | .spawn _ s _ => decide (s < 256)
  | .spawnf _ s _ => decide (s < 256)
  | .fadd d a b => decide (d < 256) && decide (a < 256) && decide (b < 256)
  | .faddRz d a b => decide (d < 256) && decide (a < 256) && decide (b < 256)
  | .fsub d a b => decide (d < 256) && decide (a < 256) && decide (b < 256)
  | .fsubRz d a b => decide (d < 256) && decide (a < 256) && decide (b < 256)
  | .fmul d a b => decide (d < 256) && decide (a < 256) && decide (b < 256)
  | .fmulRz d a b => decide (d < 256) && decide (a < 256) && decide (b < 256)
  | .ffma d a b => decide (d < 256) && decide (a < 256) && decide (b < 256)
  | .ffmaRz d a b => decide (d < 256) && decide (a < 256) && decide (b < 256)
  | .fmin d a b => decide (d < 256) && decide (a < 256) && decide (b < 256)
  | .fminNan d a b => decide (d < 256) && decide (a < 256) && decide (b < 256)
  | .fmax d a b => decide (d < 256) && decide (a < 256) && decide (b < 256)
  | .fmaxNan d a b => decide (d < 256) && decide (a < 256) && decide (b < 256)
  | .hadd2Bf16 d a b => decide (d < 256) && decide (a < 256) && decide (b < 256)
  | .hmul2Bf16 d a b => decide (d < 256) && decide (a < 256) && decide (b < 256)
  | .hfma2Bf16 d a b => decide (d < 256) && decide (a < 256) && decide (b < 256)
  | .hmax2Bf16 d a b => decide (d < 256) && decide (a < 256) && decide (b < 256)
  | .fcmpEq p a b => decide (p < 8) && decide (a < 256) && decide (b < 256)
  | .fcmpLt p a b => decide (p < 8) && decide (a < 256) && decide (b < 256)
  | .fcmpLe p a b => decide (p < 8) && decide (a < 256) && decide (b < 256)
  | .fcmpUn p a b => decide (p < 8) && decide (a < 256) && decide (b < 256)
  | .fabs d a => decide (d < 256) && decide (a < 256)
  | .fneg d a => decide (d < 256) && decide (a < 256)
  | .fclass d a => decide (d < 256) && decide (a < 256)
  | .cvtF32I32 d a => decide (d < 256) && decide (a < 256)
  | .cvtF32N32 d a => decide (d < 256) && decide (a < 256)
  | .cvtI32F32Rz d a => decide (d < 256) && decide (a < 256)
  | .cvtI32F32Rne d a => decide (d < 256) && decide (a < 256)
  | .cvtN32F32Rz d a => decide (d < 256) && decide (a < 256)
  | .cvtBf16x2F32 d a => decide (d < 256) && decide (a < 256)
  | .cvtF32Bf16Lo d a => decide (d < 256) && decide (a < 256)
  | .cvtF32Bf16Hi d a => decide (d < 256) && decide (a < 256)
  | .cvtE4m3x4F32Sat d a => decide (d < 256) && decide (a < 256)
  | .cvtE4m3x4F32Nan d a => decide (d < 256) && decide (a < 256)
  | .cvtE5m2x4F32Sat d a => decide (d < 256) && decide (a < 256)
  | .cvtE5m2x4F32Inf d a => decide (d < 256) && decide (a < 256)
  | .cvtF32E4m3 d a i => decide (d < 256) && decide (a < 256) && decide (i < 4)
  | .cvtF32E5m2 d a i => decide (d < 256) && decide (a < 256) && decide (i < 4)
  | .cvtF32E2m1 d a i => decide (d < 256) && decide (a < 256) && decide (i < 8)
  | .rcp _ d a => decide (d < 256) && decide (a < 256)
  | .rsqrt _ d a => decide (d < 256) && decide (a < 256)
  | .sqrt _ d a => decide (d < 256) && decide (a < 256)
  | .exp2 _ d a => decide (d < 256) && decide (a < 256)
  | .log2 _ d a => decide (d < 256) && decide (a < 256)
  | .sinpi _ d a => decide (d < 256) && decide (a < 256)
  | .cospi _ d a => decide (d < 256) && decide (a < 256)
  | .tanh _ d a => decide (d < 256) && decide (a < 256)
  | .cvtE2m1x8F32 d a b => decide (d < 256) && decide (a < 256) && decide (b < 256)
  | .ldsB32 d b _ => decide (d < 256) && decide (b < 256)
  | .stsB32 d b _ => decide (d < 256) && decide (b < 256)
  | .ldB32 _ d b _ => decide (d < 256) && decide (b < 256)
  | .stB32 _ d b _ => decide (d < 256) && decide (b < 256)
  | .ldsB128 d b _ => decide (d < 256) && decide (b < 256)
  | .stsB128 d b _ => decide (d < 256) && decide (b < 256)
  | .ldsN8 d b => decide (d < 256) && decide (b < 256)
  | .ldsI8 d b => decide (d < 256) && decide (b < 256)
  | .ldsN16 d b => decide (d < 256) && decide (b < 256)
  | .ldsI16 d b => decide (d < 256) && decide (b < 256)
  | .ldsB64 d b => decide (d < 256) && decide (b < 256)
  | .stsB8 d b => decide (d < 256) && decide (b < 256)
  | .stsB16 d b => decide (d < 256) && decide (b < 256)
  | .stsB64 d b => decide (d < 256) && decide (b < 256)
  | .prsTest p b => decide (p < 8) && decide (b < 256)
  | .stashMap _ d b => decide (d < 256) && decide (b < 256)
  | .stashUnmap _ d => decide (d < 256)
  | .stashWb _ d => decide (d < 256)
  | .ldN8 _ d b => decide (d < 256) && decide (b < 256)
  | .ldI8 _ d b => decide (d < 256) && decide (b < 256)
  | .ldN16 _ d b => decide (d < 256) && decide (b < 256)
  | .ldI16 _ d b => decide (d < 256) && decide (b < 256)
  | .ldB64 _ d b => decide (d < 256) && decide (b < 256)
  | .ldB128 _ d b => decide (d < 256) && decide (b < 256)
  | .stB8 _ d b => decide (d < 256) && decide (b < 256)
  | .stB16 _ d b => decide (d < 256) && decide (b < 256)
  | .stB64 _ d b => decide (d < 256) && decide (b < 256)
  | .stB128 _ d b => decide (d < 256) && decide (b < 256)
  | .sgetAt d a m => decide (d < 256) && decide (a < 256) && decide (m < 256)
  | .sgetXor d a m => decide (d < 256) && decide (a < 256) && decide (m < 256)
  | .sgetBelow d a m => decide (d < 256) && decide (a < 256) && decide (m < 256)
  | .sgetAbove d a m => decide (d < 256) && decide (a < 256) && decide (m < 256)
  | .reduxAddI32 d a m => decide (d < 256) && decide (a < 256) && decide (m < 256)
  | .reduxAddF32 d a m => decide (d < 256) && decide (a < 256) && decide (m < 256)
  | .reduxMinI32 d a m => decide (d < 256) && decide (a < 256) && decide (m < 256)
  | .reduxMaxI32 d a m => decide (d < 256) && decide (a < 256) && decide (m < 256)
  | .scanAddI32 d a m => decide (d < 256) && decide (a < 256) && decide (m < 256)
  | .sample d a m => decide (d < 256) && decide (a < 256) && decide (m < 256)
  | .matchSeats d a m => decide (d < 256) && decide (a < 256) && decide (m < 256)
  | .ballot d p m => decide (d < 256) && decide (p < 8) && decide (m < 256)
  | .seat d m => decide (d < 256) && decide (m < 256)
  | .voteAny p q m => decide (p < 8) && decide (q < 8) && decide (m < 256)
  | .voteAll p q m => decide (p < 8) && decide (q < 8) && decide (m < 256)
  | .voteEq p q m => decide (p < 8) && decide (q < 8) && decide (m < 256)
  | .barInit a n => decide (a < 256) && decide (n < 16)
  | .barArr a n => decide (a < 256) && decide (n < 16)
  | .barExp a n => decide (a < 256) && decide (n < 16)
  | .barArx d a n => decide (d < 256) && decide (a < 256) && decide (n < 16)
  | .barWait a n => decide (a < 256) && decide (n < 16)
  | .barTry p a n => decide (p < 8) && decide (a < 256) && decide (n < 16)
  | .barPar p a n => decide (p < 8) && decide (a < 256) && decide (n < 16)
  | .barInv n => decide (n < 16)
  | .ringAcq d a s => decide (d < 256) && decide (a < 256) && decide (s < 8)
  | .ringCom a s => decide (a < 256) && decide (s < 8)
  | .ringGet d a s => decide (d < 256) && decide (a < 256) && decide (s < 8)
  | .ringRel a s => decide (a < 256) && decide (s < 8)
  | .cpy _ d a b => decide (d < 256) && decide (a < 256) && decide (b < 256)
  | .cpyPeer _ d a b => decide (d < 256) && decide (a < 256) && decide (b < 256)
  | .cpw _ d a b => decide (d < 256) && decide (a < 256) && decide (b < 256)
  | .cpl _ a b => decide (a < 256) && decide (b < 256)
  | .mmqI4E4m3 _ a p s => decide (a < 256) && decide (p < 256) && decide (s < 2)
  | .mmqI4E5m2 _ a p s => decide (a < 256) && decide (p < 256) && decide (s < 2)
  | .mmqI4Bf16 _ a p s => decide (a < 256) && decide (p < 256) && decide (s < 2)
  | .mmqI3E4m3 _ a p s => decide (a < 256) && decide (p < 256) && decide (s < 2)
  | .mmqI3Bf16 _ a p s => decide (a < 256) && decide (p < 256) && decide (s < 2)
  | .mmqF4E4m3 _ a p s => decide (a < 256) && decide (p < 256) && decide (s < 2)
  | .mmqF4Bf16 _ a p s => decide (a < 256) && decide (p < 256) && decide (s < 2)
  | .mmfE4m3 _ a p => decide (a < 256) && decide (p < 256)
  | .mmfE5m2 _ a p => decide (a < 256) && decide (p < 256)
  | .mmfBf16 _ a p => decide (a < 256) && decide (p < 256)
  | .accClr _ p => decide (p < 256)
  | .ctld _ a s => decide (a < 256) && decide (s < 8)
  | .ctst _ a s => decide (a < 256) && decide (s < 8)
  | .ctinv s => decide (s < 8)
  | .atomAddB32 _ d a _ => decide (d < 256) && decide (a < 256)
  | .atomAddB64 _ d a _ => decide (d < 256) && decide (a < 256)
  | .atomAddF32 _ d a _ => decide (d < 256) && decide (a < 256)
  | .atomAddBf16x2 _ d a _ => decide (d < 256) && decide (a < 256)
  | .atomMinI32 _ d a _ => decide (d < 256) && decide (a < 256)
  | .atomMinN32 _ d a _ => decide (d < 256) && decide (a < 256)
  | .atomMaxI32 _ d a _ => decide (d < 256) && decide (a < 256)
  | .atomMaxN32 _ d a _ => decide (d < 256) && decide (a < 256)
  | .atomAnd _ d a _ => decide (d < 256) && decide (a < 256)
  | .atomOr _ d a _ => decide (d < 256) && decide (a < 256)
  | .atomXor _ d a _ => decide (d < 256) && decide (a < 256)
  | .atomXchg _ d a _ => decide (d < 256) && decide (a < 256)
  | .atomCas _ d a _ => decide (d < 256) && decide (a < 256)
  | .atomCasB64 _ d a _ => decide (d < 256) && decide (a < 256)
  | .redAddB32 _ d a _ => decide (d < 256) && decide (a < 256)
  | .redAddF32 _ d a _ => decide (d < 256) && decide (a < 256)
  | .redMinI32 _ d a _ => decide (d < 256) && decide (a < 256)
  | .redMaxI32 _ d a _ => decide (d < 256) && decide (a < 256)
  | .redOr _ d a _ => decide (d < 256) && decide (a < 256)
  | .baddF32 _ d a => decide (d < 256) && decide (a < 256)
  | .baddBf16x2 _ d a => decide (d < 256) && decide (a < 256)
  | .ldbF32 _ d a => decide (d < 256) && decide (a < 256)
  | .bsettle _ a => decide (a < 256)
  | .mwaitEq d a => decide (d < 256) && decide (a < 256)
  | .mwaitNe d a => decide (d < 256) && decide (a < 256)
  | .mwaitGeI32 d a => decide (d < 256) && decide (a < 256)
  | .mwaitLtI32 d a => decide (d < 256) && decide (a < 256)
  | .mwaitGeN32 d a => decide (d < 256) && decide (a < 256)
  | .mwaitLtN32 d a => decide (d < 256) && decide (a < 256)
  | .ldAcqB32 _ d a _ => decide (d < 256) && decide (a < 256)
  | .ldAcqB64 _ d a _ => decide (d < 256) && decide (a < 256)
  | .stRelB32 _ d a _ => decide (d < 256) && decide (a < 256)
  | .stRelB64 _ d a _ => decide (d < 256) && decide (a < 256)
  | .fenceAcq _ => true
  | .fenceRel _ => true
  | .fenceAr _ => true
  | .cclean _ d a _ => decide (d < 256) && decide (a < 256)
  | .cinval _ d a _ => decide (d < 256) && decide (a < 256)
  | .cflush _ d a _ => decide (d < 256) && decide (a < 256)
  | .tldB8 _ d a h => decide (d < 256) && decide (a < 256) && decide (h < 16)
  | .tldB16 _ d a h => decide (d < 256) && decide (a < 256) && decide (h < 16)
  | .tldB32 _ d a h => decide (d < 256) && decide (a < 256) && decide (h < 16)
  | .tst _ d a h => decide (d < 256) && decide (a < 256) && decide (h < 16)
  | .tenc _ d a h => decide (d < 256) && decide (a < 256) && decide (h < 16)
  | .tq _ d a h => decide (d < 256) && decide (a < 256) && decide (h < 16)
  | .tclean _ d a h => decide (d < 256) && decide (a < 256) && decide (h < 16)
  | .tinval _ d a h => decide (d < 256) && decide (a < 256) && decide (h < 16)
  | .cpt _ d a h => decide (d < 256) && decide (a < 256) && decide (h < 16)
  | .tdesc a h => decide (a < 256) && decide (h < 16)
  | .spool _ d a h => decide (d < 256) && decide (a < 256) && decide (h < 16)
  | .tlbinvVa _ d a => decide (d < 256) && decide (a < 256)
  | .tlbinvCtx _ d => decide (d < 256)
  | .gq _ a => decide (a < 256)
  | .att _ a => decide (a < 256)
  | .tstat _ d a => decide (d < 256) && decide (a < 256)
  | .rcpy _ a => decide (a < 256)
  | .rcpyCk _ d a => decide (d < 256) && decide (a < 256)
  | .rcpyCkv _ d a => decide (d < 256) && decide (a < 256)
  | .rsig _ a => decide (a < 256)
  | .ratomAdd _ d a => decide (d < 256) && decide (a < 256)
  | .operandPrefix p _ c => decide (p < 8) && decide (c < 256)
  | .hintPrefix n l _ => decide (n < 15) && decide (l < 4)
  | .clauseIssue _ => true
  | .tillTimerExpiry _ _ => true
  | .tillRelease _ _ => true
  | .watchdog _ => true
  | .preemptionRequest _ => true
  | .graceBudgetExpiry _ => true
  | .loadReturn _ => true
  | .storeWritten _ => true
  | .atomicReturn _ => true
  | .specialFunctionResult _ => true
  | .compactorMove _ _ _ => true
  | .stashFill _ _ _ => true
  | .copyLanding _ => true
  | .matrixExecute _ => true
  | .accClrExecute _ => true
  | .homeRegistration _ => true
  | .homeReadForward _ _ => true
  | .lineEviction _ _ => true
  | .monitorWake _ => true
  | .mwaitOverflowPoll _ => true
  | .allowanceRequest _ => true
  | .cacheUncorrectableError _ => true
  | .clusterUnresponsive _ => true
  | .pageWalk _ => true
  | .teamPlacement _ => true
  | .teamSwapOut _ => true
  | .teamResume _ => true
  | .imageUpdate _ => true
  | .voteDissent _ => true
  | .voteReadmission _ => true
  | .comparedPairDisagreement _ => true
  | .tileUpdate _ => true
  | .slotPush _ => true
  | .dieLinkFlitRetry _ _ => true
  | .dieLinkFailure _ _ => true
  | .alertBackOff _ _ => true
  | .refresh _ _ _ => true
  | .cxlLinkFailed _ => true
  | .tellerQueryStart _ => true
  | .batchReturn _ => true
  | .tellerCompletion _ => true
  | .tellerSramError _ => true
  | .stackUnresponsive _ => true
  | .doorbell _ _ => true
  | .recordFetch _ => true
  | .launch _ => true
  | .createContext => true
  | .endContext => true
  | .resolveReplay => true
  | .resolveDeliver => true
  | .resolveEndThread => true
  | .waitConditionMet _ _ => true
  | .teamHandout _ => true
  | .deadlineExpiry _ => true
  | .quantumExpiry _ => true
  | .gridComplete _ => true
  | .fqheadWrite _ _ => true
  | .supervisorRegisterWrite _ _ => true
  | .cpVoteDisagreement _ => true
  | .snapshotTrigger _ => true
  | .snapshotRearm => true
  | .getVersion => true
  | .getCapabilities => true
  | .negotiateAlgorithms _ => true
  | .getDigests => true
  | .getCertificate _ _ _ => true
  | .challenge _ _ => true
  | .getMeasurements _ => true
  | .firmwareLoad _ _ => true
  | .powerLimitSet _ => true
  | .thermalThrottle _ => true
  | .thermalTrip => true
  | .hostLinkError => true
  | .moduleReset => true
  | .modidWrite _ => true
  | .fabContextWrite _ _ => true
  | .injectArm _ => true
  | .waconFlitRetry _ => true
  | .portFailure _ => true
  | .remoteOpArrival _ => true
  | .remoteAck _ _ => true
  | .remoteTimeout _ => true
  | .roceWorkFetch _ => true
  | .roceCompletion _ => true
  | .rdmaInbound _ _ _ => true
  | .coreReset _ => true
  | .cacheMaintenanceComplete _ => true
  | .tileMaintenanceComplete _ => true
  | .tlbinvComplete _ => true
  | .stashMapComplete _ => true
  | .stashWbComplete _ => true
  | .portTrained _ => true
  | .hostLinkTraining _ => true
  | .rdmaReadRequest _ _ _ => true
  | .cnpReceived _ => true

end Sys2Proof
end

