-- ==== Sys2Proof/Decode.lean ====
section
/-! DEFINITION. The decoder of instruction words and the encoder of well-formed instructions, both from the formats
and the opcode map (02_encoding R41 to R46, R50 to R55). The decoder is total and rejects by name. -/

namespace Sys2Proof

/-- Why a word is no instruction: the check of R49 it fails whatever the machine's state. -/
inductive DecodeError where
  /-- ILLEGAL_OPCODE: unassigned major, function code, form or V value (R49 step 1). -/
  | opcode
  /-- ILLEGAL_PREFIX: a reserved field of a prefix is nonzero (R45, R46; R49 step 3). -/
  | badPrefix
  /-- ILLEGAL_FIELD: a field that must be zero, or is outside the range the map gives (R42; R49 step 4). -/
  | field
  deriving DecidableEq, Repr

/-- What decoding a word gives. -/
abbrev Decoded := Except DecodeError Instr

/-- Bits `[hi:lo]` of a word given as a number, as `width` bits from `lo` up. -/
def bitsAt (w lo width : Nat) : Nat := w / 2 ^ lo % 2 ^ width

/-- The major opcode, bits [31:25] (R41). -/
def majorOf (w : Nat) : Nat := bitsAt w 25 7

/-- `k` when the condition on the fields holds, else ILLEGAL_FIELD (R42). -/
def fieldOk (ok : Bool) (i : Instr) : Decoded := if ok then .ok i else .error .field

/-- F3 with bit 24 zero. -/
def decF3 (w : Nat) (k : Nat → Nat → Nat → Instr) : Decoded :=
  fieldOk (bitsAt w 24 1 == 0) (k (bitsAt w 16 8) (bitsAt w 8 8) (bitsAt w 0 8))

/-- F3 or FL whose bit 24 is V, choosing between two instructions (R42). -/
def decV (w : Nat) (k0 k1 : Nat → Nat → Nat → Instr) : Decoded :=
  .ok ((if bitsAt w 24 1 == 0 then k0 else k1) (bitsAt w 16 8) (bitsAt w 8 8) (bitsAt w 0 8))

/-- F3 or FL whose V = 1 is unassigned (R51, R52). -/
def decV0 (w : Nat) (k : Nat → Nat → Nat → Instr) : Decoded :=
  if bitsAt w 24 1 == 0 then .ok (k (bitsAt w 16 8) (bitsAt w 8 8) (bitsAt w 0 8)) else .error .opcode

/-- F3 with bit 24 as E (R188). -/
def decF3E (w : Nat) (k : Bool → Nat → Nat → Nat → Instr) : Decoded :=
  .ok (k (bitsAt w 24 1 == 1) (bitsAt w 16 8) (bitsAt w 8 8) (bitsAt w 0 8))

/-- FI: d, a and an 8-bit immediate, bit 24 zero. -/
def decFI (w : Nat) (k : Nat → Nat → BitVec 8 → Instr) : Decoded :=
  fieldOk (bitsAt w 24 1 == 0) (k (bitsAt w 16 8) (bitsAt w 8 8) (BitVec.ofNat 8 w))

/-- FM untracked: bit 24 zero. -/
def decFM (w : Nat) (k : Nat → Nat → BitVec 8 → Instr) : Decoded := decFI w k

/-- FM tracked: bit 24 is E. -/
def decFME (w : Nat) (k : Bool → Nat → Nat → BitVec 8 → Instr) : Decoded :=
  .ok (k (bitsAt w 24 1 == 1) (bitsAt w 16 8) (bitsAt w 8 8) (BitVec.ofNat 8 w))

/-- A two-register group form (d, a) with bit 24 zero. -/
def decG2 (w : Nat) (k : Nat → Nat → Instr) : Decoded :=
  fieldOk (bitsAt w 24 1 == 0) (k (bitsAt w 16 8) (bitsAt w 8 8))

/-- A tracked two-register group form (E, d, a). -/
def decG2E (w : Nat) (k : Bool → Nat → Nat → Instr) : Decoded :=
  .ok (k (bitsAt w 24 1 == 1) (bitsAt w 16 8) (bitsAt w 8 8))

/-- A tracked group form with d only; a must be zero. -/
def decG1DE (w : Nat) (k : Bool → Nat → Instr) : Decoded :=
  fieldOk (bitsAt w 8 8 == 0) (k (bitsAt w 24 1 == 1) (bitsAt w 16 8))

/-- A tracked group form with a only; d must be zero. -/
def decG1AE (w : Nat) (k : Bool → Nat → Instr) : Decoded :=
  fieldOk (bitsAt w 16 8 == 0) (k (bitsAt w 24 1 == 1) (bitsAt w 8 8))

/-- A group form with d only; bit 24 and a zero. -/
def decG1D (w : Nat) (k : Nat → Instr) : Decoded :=
  fieldOk (bitsAt w 24 1 == 0 && bitsAt w 8 8 == 0) (k (bitsAt w 16 8))

/-- A group form with a only; bit 24 and d zero. -/
def decG1A (w : Nat) (k : Nat → Instr) : Decoded :=
  fieldOk (bitsAt w 24 1 == 0 && bitsAt w 16 8 == 0) (k (bitsAt w 8 8))

/-- A group form with no operand; bits [24:8] zero. -/
def decG0 (w : Nat) (i : Instr) : Decoded := fieldOk (bitsAt w 8 17 == 0) i

/-- FP with two registers: bit 24 zero. -/
def decFP (w : Nat) (k : Nat → Nat → Nat → Instr) : Decoded :=
  fieldOk (bitsAt w 24 1 == 0) (k (bitsAt w 16 3) (bitsAt w 8 8) (bitsAt w 0 8))

/-- FP with a register and an immediate. -/
def decFPI (w : Nat) (k : Nat → Nat → BitVec 8 → Instr) : Decoded :=
  fieldOk (bitsAt w 24 1 == 0) (k (bitsAt w 16 3) (bitsAt w 8 8) (BitVec.ofNat 8 w))

/-- FP over two predicates (R94): their bits [7:3] zero. -/
def decFPP (w : Nat) (k : Nat → Nat → Nat → Instr) : Decoded :=
  fieldOk (bitsAt w 24 1 == 0 && bitsAt w 11 5 == 0 && bitsAt w 3 5 == 0) (k (bitsAt w 16 3) (bitsAt w 8 3) (bitsAt w 0 3))

/-- FP over one predicate: b zero (R94). -/
def decFPP1 (w : Nat) (k : Nat → Nat → Instr) : Decoded :=
  fieldOk (bitsAt w 24 1 == 0 && bitsAt w 11 5 == 0 && bitsAt w 0 8 == 0) (k (bitsAt w 16 3) (bitsAt w 8 3))

/-- F64: register pairs by half their number, bit 24 zero (R41, R93). -/
def decF64 (w : Nat) (k : Nat → Nat → Nat → Instr) : Decoded :=
  fieldOk (bitsAt w 24 1 == 0) (k (bitsAt w 17 7) (bitsAt w 10 7) (bitsAt w 3 7))

/-- FLP (R161): bit 24 zero, a names a predicate. -/
def decFLP (w : Nat) (k : Nat → Nat → Nat → Instr) : Decoded :=
  fieldOk (bitsAt w 24 1 == 0 && bitsAt w 11 5 == 0) (k (bitsAt w 16 3) (bitsAt w 8 3) (bitsAt w 0 8))

/-- The scope field of FA (R54). -/
def decScope (w : Nat) : Scope :=
  match bitsAt w 6 2 with
  | 0 => .team
  | 1 => .cluster
  | 2 => .device
  | _ => .system

/-- FA tracked with a scope. -/
def decFA (w : Nat) (k : Bool → Nat → Nat → Scope → Instr) : Decoded :=
  .ok (k (bitsAt w 24 1 == 1) (bitsAt w 16 8) (bitsAt w 8 8) (decScope w))

/-- FA tracked with scope 0 (majors 0x62). -/
def decFA0 (w : Nat) (k : Bool → Nat → Nat → Instr) : Decoded :=
  fieldOk (bitsAt w 6 2 == 0) (k (bitsAt w 24 1 == 1) (bitsAt w 16 8) (bitsAt w 8 8))

/-- FA untracked with scope 0 (major 0x63). -/
def decFAU (w : Nat) (k : Nat → Nat → Instr) : Decoded :=
  fieldOk (bitsAt w 24 1 == 0 && bitsAt w 6 2 == 0) (k (bitsAt w 16 8) (bitsAt w 8 8))

/-- A fence: d, a and bit 24 zero (R280). -/
def decFence (w : Nat) (k : Scope → Instr) : Decoded := fieldOk (bitsAt w 8 17 == 0) (k (decScope w))

/-- FT tracked (R328). -/
def decFT (w : Nat) (k : Bool → Nat → Nat → Nat → Instr) : Decoded :=
  .ok (k (bitsAt w 24 1 == 1) (bitsAt w 16 8) (bitsAt w 8 8) (bitsAt w 4 4))

/-- FQ (R53, R193): bits [1:0] zero, sel 0 or 1. -/
def decFQ (w : Nat) (k : Bool → Nat → Nat → Nat → Instr) : Decoded :=
  fieldOk (bitsAt w 0 2 == 0 && bitsAt w 2 2 < 2) (k (bitsAt w 24 1 == 1) (bitsAt w 16 8) (bitsAt w 8 8) (bitsAt w 2 2))

/-- FQ of mmf: sel zero too (R193). -/
def decFQ0 (w : Nat) (k : Bool → Nat → Nat → Instr) : Decoded :=
  fieldOk (bitsAt w 0 4 == 0) (k (bitsAt w 24 1 == 1) (bitsAt w 16 8) (bitsAt w 8 8))

/-- The role field of FS; 3 is outside the map (R50). -/
def decSpawn (w : Nat) (k : Role → Nat → BitVec 15 → Instr) : Decoded :=
  match bitsAt w 23 2 with
  | 0 => .ok (k .copy (bitsAt w 15 8) (BitVec.ofNat 15 w))
  | 1 => .ok (k .matrix (bitsAt w 15 8) (BitVec.ofNat 15 w))
  | 2 => .ok (k .vector (bitsAt w 15 8) (BitVec.ofNat 15 w))
  | _ => .error .field

/-- Major 0x26 (R94). -/
def decCmp (w : Nat) : Decoded :=
  match bitsAt w 19 5 with
  | 0x00 => decFP w .cmpEq
  | 0x01 => decFP w .cmpNe
  | 0x02 => decFP w .cmpLtI32
  | 0x03 => decFP w .cmpLtN32
  | 0x04 => decFP w .cmpLeI32
  | 0x05 => decFP w .cmpLeN32
  | 0x08 => decFP w .cmp64Eq
  | 0x09 => decFP w .cmp64LtI64
  | 0x0A => decFP w .cmp64LtN64
  | 0x10 => decFPI w .cmpiEq
  | 0x12 => decFPI w .cmpiLtI32
  | 0x18 => decFPP w .pand
  | 0x19 => decFPP w .por
  | 0x1A => decFPP w .pxor
  | 0x1B => decFPP w .pandn
  | 0x1C => decFPP1 w .pnot
  | 0x1D => decFPP1 w .pmov
  | _ => .error .opcode

/-- Major 0x27 (R89). -/
def decSingle (w : Nat) : Decoded :=
  match bitsAt w 0 8 with
  | 0x00 => decG2 w .mov
  | 0x01 => decG2 w .not
  | 0x02 => decG2 w .abs
  | 0x03 => decG2 w .neg
  | 0x04 => decG2 w .clz
  | 0x05 => decG2 w .ctz
  | 0x06 => decG2 w .popc
  | 0x07 => decG2 w .brev
  | 0x08 => decG1D w .pget
  | 0x09 => fieldOk (bitsAt w 24 1 == 0 && bitsAt w 8 8 < 64) (.rdk (bitsAt w 16 8) (bitsAt w 8 8))
  | _ => .error .opcode

/-- Major 0x2D (R50, R102 to R109). -/
def decSys (w : Nat) : Decoded :=
  match bitsAt w 0 8 with
  | 0x00 => decG0 w .nop
  | 0x01 => decG0 w .exit
  | 0x02 => decG0 w .yield
  | 0x03 => decG1A w .trap
  | 0x04 => decG1A w .brk
  | 0x05 => decG1A w .ret
  | 0x06 => decG1A w .jr
  | 0x07 => decG0 w .tret
  | 0x08 => decG2 w .rdsr
  | 0x09 => decG2 w .wrsr
  | 0x0A => decG1D w .rdcyc
  | 0x0C => decG2 w (fun d a => .prng d a 0)
  | 0x0D => decG2 w (fun d a => .prng d a 1)
  | 0x0E => decG2 w (fun d a => .prng d a 2)
  | 0x0F => decG2 w (fun d a => .prng d a 3)
  | _ => .error .opcode

/-- Majors 0x2B to 0x2F, and the other class-0 group formats (R50). -/
def decClass0 (w : Nat) : Decoded :=
  match majorOf w with
  | 0x21 => decFI w .addi
  | 0x22 =>
    match bitsAt w 5 3 with
    | 0 => fieldOk (bitsAt w 24 1 == 0) (.shli (bitsAt w 16 8) (bitsAt w 8 8) (bitsAt w 0 5))
    | 1 => fieldOk (bitsAt w 24 1 == 0) (.shri (bitsAt w 16 8) (bitsAt w 8 8) (bitsAt w 0 5))
    | 2 => fieldOk (bitsAt w 24 1 == 0) (.sari (bitsAt w 16 8) (bitsAt w 8 8) (bitsAt w 0 5))
    | _ => .error .opcode
  | 0x23 => fieldOk (bitsAt w 24 1 == 0) (.movi (bitsAt w 16 8) (BitVec.ofNat 16 w))
  | 0x24 => fieldOk (bitsAt w 24 1 == 0) (.movhi (bitsAt w 16 8) (BitVec.ofNat 16 w))
  | 0x25 =>
    match bitsAt w 0 3 with
    | 0 => decF64 w .add64
    | 1 => decF64 w .sub64
    | 2 => decF64 w .mul64
    | 3 => decF64 w .shl64
    | 4 => decF64 w .shr64
    | 5 => decF64 w .sar64
    | _ => .error .opcode
  | 0x26 => decCmp w
  | 0x27 => decSingle w
  | 0x28 =>
    if bitsAt w 18 1 == 0 then fieldOk (bitsAt w 19 6 == 0) (.setx (bitsAt w 16 2) (BitVec.ofNat 16 w))
    else fieldOk (bitsAt w 19 6 == 0) (.incx (bitsAt w 16 2) (BitVec.ofNat 16 w))
  | 0x29 => fieldOk (bitsAt w 24 1 == 0 && bitsAt w 10 6 == 0) (.rdx (bitsAt w 16 8) (bitsAt w 8 2) (BitVec.ofNat 8 w))
  | 0x2A => fieldOk (bitsAt w 24 1 == 0 && bitsAt w 10 6 == 0) (.wrx (bitsAt w 16 8) (bitsAt w 8 2) (BitVec.ofNat 8 w))
  | 0x2B =>
    if bitsAt w 21 1 == 0 then
      (if bitsAt w 22 3 == 7 then .ok (.br (BitVec.ofNat 21 w)) else .ok (.bp (bitsAt w 22 3) (BitVec.ofNat 21 w)))
    else .ok (.bnp (bitsAt w 22 3) (BitVec.ofNat 21 w))
  | 0x2C => .ok (.call (bitsAt w 21 4) (BitVec.ofNat 21 w))
  | 0x2D => decSys w
  | 0x2E => decSpawn w .spawn
  | 0x2F => decSpawn w .spawnf
  | _ => .error .opcode

/-- Majors 0x01 to 0x20 (R50). -/
def decAlu (w : Nat) : Decoded :=
  match majorOf w with
  | 0x01 => decF3 w .add
  | 0x02 => decF3 w .sub
  | 0x03 => decF3 w .mul
  | 0x04 => decF3 w .mulhI32
  | 0x05 => decF3 w .mulhN32
  | 0x06 => decF3 w .mad
  | 0x07 => decF3 w .divI32
  | 0x08 => decF3 w .divN32
  | 0x09 => decF3 w .remI32
  | 0x0A => decF3 w .remN32
  | 0x0B => decF3 w .minI32
  | 0x0C => decF3 w .minN32
  | 0x0D => decF3 w .maxI32
  | 0x0E => decF3 w .maxN32
  | 0x0F => decF3 w .and
  | 0x10 => decF3 w .or
  | 0x11 => decF3 w .xor
  | 0x12 => decF3 w .andn
  | 0x13 => decF3 w .shl
  | 0x14 => decF3 w .shr
  | 0x15 => decF3 w .sar
  | 0x16 => decF3 w .rotl
  | 0x17 => decF3 w .fsh
  | 0x18 => decF3 w .bfxI32
  | 0x19 => decF3 w .bfxN32
  | 0x1A => decF3 w .bfi
  | 0x1B => decF3 w .sel
  | 0x1C => decF3 w .lea1
  | 0x1D => decF3 w .lea2
  | 0x1E => decF3 w .lea4
  | 0x1F => decF3 w .lea8
  | 0x20 => decF3 w .lea16
  | _ => .error .opcode

/-- Major 0x3B (R117 to R121). -/
def decCvt (w : Nat) : Decoded :=
  match bitsAt w 0 8 with
  | 0x00 => decG2 w .fabs
  | 0x01 => decG2 w .fneg
  | 0x02 => decG2 w .fclass
  | 0x10 => decG2 w .cvtF32I32
  | 0x11 => decG2 w .cvtF32N32
  | 0x12 => decG2 w .cvtI32F32Rz
  | 0x13 => decG2 w .cvtI32F32Rne
  | 0x14 => decG2 w .cvtN32F32Rz
  | 0x18 => decG2 w .cvtBf16x2F32
  | 0x19 => decG2 w .cvtF32Bf16Lo
  | 0x1A => decG2 w .cvtF32Bf16Hi
  | 0x20 => decG2 w .cvtE4m3x4F32Sat
  | 0x21 => decG2 w .cvtE4m3x4F32Nan
  | 0x22 => decG2 w .cvtE5m2x4F32Sat
  | 0x23 => decG2 w .cvtE5m2x4F32Inf
  | 0x30 => decG2 w (fun d a => .cvtF32E4m3 d a 0)
  | 0x31 => decG2 w (fun d a => .cvtF32E4m3 d a 1)
  | 0x32 => decG2 w (fun d a => .cvtF32E4m3 d a 2)
  | 0x33 => decG2 w (fun d a => .cvtF32E4m3 d a 3)
  | 0x34 => decG2 w (fun d a => .cvtF32E5m2 d a 0)
  | 0x35 => decG2 w (fun d a => .cvtF32E5m2 d a 1)
  | 0x36 => decG2 w (fun d a => .cvtF32E5m2 d a 2)
  | 0x37 => decG2 w (fun d a => .cvtF32E5m2 d a 3)
  | 0x38 => decG2 w (fun d a => .cvtF32E2m1 d a 0)
  | 0x39 => decG2 w (fun d a => .cvtF32E2m1 d a 1)
  | 0x3A => decG2 w (fun d a => .cvtF32E2m1 d a 2)
  | 0x3B => decG2 w (fun d a => .cvtF32E2m1 d a 3)
  | 0x3C => decG2 w (fun d a => .cvtF32E2m1 d a 4)
  | 0x3D => decG2 w (fun d a => .cvtF32E2m1 d a 5)
  | 0x3E => decG2 w (fun d a => .cvtF32E2m1 d a 6)
  | 0x3F => decG2 w (fun d a => .cvtF32E2m1 d a 7)
  | _ => .error .opcode

/-- Class 1, majors 0x30 to 0x3D (R51). -/
def decClass1 (w : Nat) : Decoded :=
  match majorOf w with
  | 0x30 => decV w .fadd .faddRz
  | 0x31 => decV w .fsub .fsubRz
  | 0x32 => decV w .fmul .fmulRz
  | 0x33 => decV w .ffma .ffmaRz
  | 0x34 => decV w .fmin .fminNan
  | 0x35 => decV w .fmax .fmaxNan
  | 0x36 => decV0 w .hadd2Bf16
  | 0x37 => decV0 w .hmul2Bf16
  | 0x38 => decV0 w .hfma2Bf16
  | 0x39 => decV0 w .hmax2Bf16
  | 0x3A =>
    match bitsAt w 19 5 with
    | 0 => decFP w .fcmpEq
    | 1 => decFP w .fcmpLt
    | 2 => decFP w .fcmpLe
    | 3 => decFP w .fcmpUn
    | _ => .error .opcode
  | 0x3B => decCvt w
  | 0x3C =>
    match bitsAt w 0 8 with
    | 0 => decG2E w .rcp
    | 1 => decG2E w .rsqrt
    | 2 => decG2E w .sqrt
    | 3 => decG2E w .exp2
    | 4 => decG2E w .log2
    | 5 => decG2E w .sinpi
    | 6 => decG2E w .cospi
    | 7 => decG2E w .tanh
    | _ => .error .opcode
  | 0x3D => decF3 w .cvtE2m1x8F32
  | _ => .error .opcode

/-- Majors 0x46 and 0x47 (R165, R167 to R169, R172). -/
def decMemGroup (w : Nat) : Decoded :=
  if majorOf w == 0x46 then
    match bitsAt w 0 8 with
    | 0x00 => decG2 w .ldsN8
    | 0x01 => decG2 w .ldsI8
    | 0x02 => decG2 w .ldsN16
    | 0x03 => decG2 w .ldsI16
    | 0x05 => decG2 w .ldsB64
    | 0x08 => decG2 w .stsB8
    | 0x09 => decG2 w .stsB16
    | 0x0B => decG2 w .stsB64
    | 0x10 => fieldOk (bitsAt w 24 1 == 0 && bitsAt w 19 5 == 0) (.prsTest (bitsAt w 16 3) (bitsAt w 8 8))
    | 0x11 => decG2E w .stashMap
    | 0x12 => decG1DE w .stashUnmap
    | 0x13 => decG1DE w .stashWb
    | _ => .error .opcode
  else
    match bitsAt w 0 8 with
    | 0x00 => decG2E w .ldN8
    | 0x01 => decG2E w .ldI8
    | 0x02 => decG2E w .ldN16
    | 0x03 => decG2E w .ldI16
    | 0x05 => decG2E w .ldB64
    | 0x06 => decG2E w .ldB128
    | 0x08 => decG2E w .stB8
    | 0x09 => decG2E w .stB16
    | 0x0B => decG2E w .stB64
    | 0x0C => decG2E w .stB128
    | _ => .error .opcode

/-- Class 2, majors 0x40 to 0x4F (R52). -/
def decClass2 (w : Nat) : Decoded :=
  match majorOf w with
  | 0x40 => decFM w .ldsB32
  | 0x41 => decFM w .stsB32
  | 0x42 => decFME w .ldB32
  | 0x43 => decFME w .stB32
  | 0x44 => decFM w .ldsB128
  | 0x45 => decFM w .stsB128
  | 0x46 => decMemGroup w
  | 0x47 => decMemGroup w
  | 0x48 => decV w .sgetAt .sgetXor
  | 0x49 => decV w .sgetBelow .sgetAbove
  | 0x4A => decV w .reduxAddI32 .reduxAddF32
  | 0x4B => decV w .reduxMinI32 .reduxMaxI32
  | 0x4C => decV w .scanAddI32 .sample
  | 0x4D =>
    if bitsAt w 24 1 == 0 then .ok (.matchSeats (bitsAt w 16 8) (bitsAt w 8 8) (bitsAt w 0 8))
    else fieldOk (bitsAt w 11 5 == 0) (.ballot (bitsAt w 16 8) (bitsAt w 8 3) (bitsAt w 0 8))
  | 0x4E =>
    if bitsAt w 24 1 == 0 then fieldOk (bitsAt w 8 8 == 0) (.seat (bitsAt w 16 8) (bitsAt w 0 8)) else .error .opcode
  | 0x4F =>
    match bitsAt w 19 5 with
    | 0 => decFLP w .voteAny
    | 1 => decFLP w .voteAll
    | 2 => decFLP w .voteEq
    | _ => .error .opcode
  | _ => .error .opcode

/-- Class 3, majors 0x50 to 0x58 (R53). -/
def decClass3 (w : Nat) : Decoded :=
  match majorOf w with
  | 0x50 =>
    match bitsAt w 4 4 with
    | 0 => fieldOk (bitsAt w 16 9 == 0) (.barInit (bitsAt w 8 8) (bitsAt w 0 4))
    | 1 => fieldOk (bitsAt w 16 9 == 0) (.barArr (bitsAt w 8 8) (bitsAt w 0 4))
    | 2 => fieldOk (bitsAt w 16 9 == 0) (.barExp (bitsAt w 8 8) (bitsAt w 0 4))
    | 3 => fieldOk (bitsAt w 24 1 == 0) (.barArx (bitsAt w 16 8) (bitsAt w 8 8) (bitsAt w 0 4))
    | 4 => fieldOk (bitsAt w 16 9 == 0) (.barWait (bitsAt w 8 8) (bitsAt w 0 4))
    | 5 => fieldOk (bitsAt w 19 6 == 0) (.barTry (bitsAt w 16 3) (bitsAt w 8 8) (bitsAt w 0 4))
    | 6 => fieldOk (bitsAt w 19 6 == 0) (.barPar (bitsAt w 16 3) (bitsAt w 8 8) (bitsAt w 0 4))
    | 7 => fieldOk (bitsAt w 8 17 == 0) (.barInv (bitsAt w 0 4))
    | _ => .error .opcode
  | 0x51 =>
    match bitsAt w 4 4 with
    | 0 => fieldOk (bitsAt w 24 1 == 0 && bitsAt w 3 1 == 0) (.ringAcq (bitsAt w 16 8) (bitsAt w 8 8) (bitsAt w 0 3))
    | 1 => fieldOk (bitsAt w 16 9 == 0 && bitsAt w 3 1 == 0) (.ringCom (bitsAt w 8 8) (bitsAt w 0 3))
    | 2 => fieldOk (bitsAt w 24 1 == 0 && bitsAt w 3 1 == 0) (.ringGet (bitsAt w 16 8) (bitsAt w 8 8) (bitsAt w 0 3))
    | 3 => fieldOk (bitsAt w 16 9 == 0 && bitsAt w 3 1 == 0) (.ringRel (bitsAt w 8 8) (bitsAt w 0 3))
    | _ => .error .opcode
  | 0x52 => decF3E w .cpy
  | 0x53 => decF3E w .cpyPeer
  | 0x54 => decF3E w .cpw
  | 0x55 => fieldOk (bitsAt w 16 8 == 0) (.cpl (bitsAt w 24 1 == 1) (bitsAt w 8 8) (bitsAt w 0 8))
  | 0x56 =>
    match bitsAt w 4 4 with
    | 0 => decFQ w .mmqI4E4m3
    | 1 => decFQ w .mmqI4E5m2
    | 2 => decFQ w .mmqI4Bf16
    | 3 => decFQ w .mmqI3E4m3
    | 4 => decFQ w .mmqI3Bf16
    | 5 => decFQ w .mmqF4E4m3
    | 6 => decFQ w .mmqF4Bf16
    | _ => .error .opcode
  | 0x57 =>
    match bitsAt w 4 4 with
    | 0 => decFQ0 w .mmfE4m3
    | 1 => decFQ0 w .mmfE5m2
    | 2 => decFQ0 w .mmfBf16
    | 8 => fieldOk (bitsAt w 16 8 == 0 && bitsAt w 0 4 == 0) (.accClr (bitsAt w 24 1 == 1) (bitsAt w 8 8))
    | _ => .error .opcode
  | 0x58 =>
    match bitsAt w 4 4 with
    | 0 => fieldOk (bitsAt w 16 8 == 0 && bitsAt w 3 1 == 0) (.ctld (bitsAt w 24 1 == 1) (bitsAt w 8 8) (bitsAt w 0 3))
    | 1 => fieldOk (bitsAt w 16 8 == 0 && bitsAt w 3 1 == 0) (.ctst (bitsAt w 24 1 == 1) (bitsAt w 8 8) (bitsAt w 0 3))
    | 2 => fieldOk (bitsAt w 8 17 == 0 && bitsAt w 3 1 == 0) (.ctinv (bitsAt w 0 3))
    | _ => .error .opcode
  | _ => .error .opcode

/-- Major 0x60 (R271). -/
def decAtom (w : Nat) : Decoded :=
  match bitsAt w 0 6 with
  | 0x00 => decFA w .atomAddB32
  | 0x01 => decFA w .atomAddB64
  | 0x02 => decFA w .atomAddF32
  | 0x03 => decFA w .atomAddBf16x2
  | 0x04 => decFA w .atomMinI32
  | 0x05 => decFA w .atomMinN32
  | 0x06 => decFA w .atomMaxI32
  | 0x07 => decFA w .atomMaxN32
  | 0x08 => decFA w .atomAnd
  | 0x09 => decFA w .atomOr
  | 0x0A => decFA w .atomXor
  | 0x0B => decFA w .atomXchg
  | 0x0C => decFA w .atomCas
  | 0x0D => decFA w .atomCasB64
  | _ => .error .opcode

/-- Class 4, majors 0x60 to 0x66 (R54). -/
noncomputable def decClass4 (w : Nat) : Decoded :=
  match majorOf w with
  | 0x60 => decAtom w
  | 0x61 =>
    match bitsAt w 0 6 with
    | 0x00 => decFA w .redAddB32
    | 0x02 => decFA w .redAddF32
    | 0x04 => decFA w .redMinI32
    | 0x06 => decFA w .redMaxI32
    | 0x09 => decFA w .redOr
    | _ => .error .opcode
  | 0x62 =>
    match bitsAt w 0 6 with
    | 0 => decFA0 w .baddF32
    | 1 => decFA0 w .baddBf16x2
    | 2 => decFA0 w .ldbF32
    | 3 => fieldOk (bitsAt w 6 2 == 0 && bitsAt w 16 8 == 0) (.bsettle (bitsAt w 24 1 == 1) (bitsAt w 8 8))
    | _ => .error .opcode
  | 0x63 =>
    match bitsAt w 0 6 with
    | 0 => decFAU w .mwaitEq
    | 1 => decFAU w .mwaitNe
    | 2 => decFAU w .mwaitGeI32
    | 3 => decFAU w .mwaitLtI32
    | 4 => decFAU w .mwaitGeN32
    | 5 => decFAU w .mwaitLtN32
    | _ => .error .opcode
  | 0x64 =>
    match bitsAt w 0 6 with
    | 0 => decFA w .ldAcqB32
    | 1 => decFA w .ldAcqB64
    | 2 => decFA w .stRelB32
    | 3 => decFA w .stRelB64
    | _ => .error .opcode
  | 0x65 =>
    match bitsAt w 0 6 with
    | 0 => decFence w .fenceAcq
    | 1 => decFence w .fenceRel
    | 2 => decFence w .fenceAr
    | _ => .error .opcode
  | 0x66 =>
    match bitsAt w 0 6 with
    | 0 => decFA w .cclean
    | 1 => decFA w .cinval
    | 2 => decFA w .cflush
    | _ => .error .opcode
  | _ => .error .opcode

/-- Classes 5 and 6, majors 0x6C to 0x76 (R55). -/
noncomputable def decClass56 (w : Nat) : Decoded :=
  match majorOf w with
  | 0x6C =>
    match bitsAt w 0 4 with
    | 0 => decFT w .tldB8
    | 1 => decFT w .tldB16
    | 2 => decFT w .tldB32
    | 3 => decFT w .tst
    | 4 => decFT w .tenc
    | 5 => decFT w .tq
    | 6 => decFT w .tclean
    | 7 => decFT w .tinval
    | 8 => decFT w .cpt
    | 9 => fieldOk (bitsAt w 16 9 == 0) (.tdesc (bitsAt w 8 8) (bitsAt w 4 4))
    | 10 => decFT w .spool
    | _ => .error .opcode
  | 0x6D =>
    match bitsAt w 0 8 with
    | 0 => decG2E w .tlbinvVa
    | 1 => decG1DE w .tlbinvCtx
    | _ => .error .opcode
  | 0x74 =>
    match bitsAt w 0 8 with
    | 0 => decG1AE w .gq
    | 1 => decG1AE w .att
    | 2 => decG2E w .tstat
    | _ => .error .opcode
  | 0x76 =>
    match bitsAt w 0 8 with
    | 0 => decG1AE w .rcpy
    | 1 => decG2E w .rcpyCk
    | 2 => decG2E w .rcpyCkv
    | 3 => decG1AE w .rsig
    | 4 => decG2E w .ratomAdd
    | _ => .error .opcode
  | _ => .error .opcode

/-- The prefixes, majors 0x7E and 0x7F (R45, R46). -/
noncomputable def decPrefix (w : Nat) : Decoded :=
  if majorOf w == 0x7F then
    if bitsAt w 8 13 == 0 then .ok (.operandPrefix (bitsAt w 22 3) (bitsAt w 21 1 == 1) (bitsAt w 0 8)) else .error .badPrefix
  else
    if bitsAt w 16 3 == 0 && bitsAt w 21 4 < 15 then .ok (.hintPrefix (bitsAt w 21 4) (bitsAt w 19 2) (BitVec.ofNat 16 w))
    else .error .badPrefix

/-- Decodes one word, given as a number below 2^32 (R49 steps 1, 3 and 4 as far as the word alone decides them). -/
noncomputable def decodeNat (w : Nat) : Decoded :=
  if majorOf w < 0x21 then decAlu w
  else if majorOf w < 0x30 then decClass0 w
  else if majorOf w < 0x40 then decClass1 w
  else if majorOf w < 0x50 then decClass2 w
  else if majorOf w < 0x60 then decClass3 w
  else if majorOf w < 0x6C then decClass4 w
  else if majorOf w < 0x7E then decClass56 w
  else decPrefix w

/-- Decodes one word. -/
noncomputable def decodeWord (w : Word) : Decoded := decodeNat w.toNat

/-- Little-endian word of the four bytes at the front of a list, and the rest (R4, R41). -/
def takeWord (bs : List Byte) : Option (Word × List Byte) :=
  match bs with
  | b0 :: b1 :: b2 :: b3 :: rest => some (b3 ++ b2 ++ b1 ++ b0, rest)
  | _ => none

/-- Decodes the instruction at the front of a byte list. -/
noncomputable def decodeBytes (bs : List Byte) : Option (Decoded × List Byte) :=
  match takeWord bs with
  | some (w, rest) => some (decodeWord w, rest)
  | none => none

/-- The four bytes of a word as memory holds them (R4). -/
def wordBytes (w : Word) : List Byte :=
  [w.setWidth 8, (w >>> 8).setWidth 8, (w >>> 16).setWidth 8, (w >>> 24).setWidth 8]

/-- The instruction the decoder reads from the word `w` of `nbits` bits (a word has 32 bits; bits above `nbits` are
0). -/
noncomputable def decodeTableWord (nbits w : Nat) : Option Instr :=
  match decodeBytes (wordBytes (BitVec.ofNat 32 (w % 2 ^ nbits))) with
  | some (.ok i, _) => some i
  | _ => none

/-- Which words belong to a class-1 to class-6 clause: the class of a word, by its major opcode (R39, R50 to R55).
Prefixes and unassigned majors count as class 0 here: a prefix belongs to no class (R48). -/
def classOfMajor (m : Nat) : Nat :=
  if m < 0x30 then 0 else if m < 0x40 then 1 else if m < 0x50 then 2 else if m < 0x60 then 3
  else if m < 0x6C then 4 else if m < 0x74 then 5 else if m < 0x78 then 6 else 0

/-- Majors the operand prefix may precede (R45). -/
def operandPrefixable (m : Nat) : Bool :=
  (0x01 ≤ m && m ≤ 0x22) || m == 0x27 || (0x30 ≤ m && m ≤ 0x39) || m == 0x3B || m == 0x3C || m == 0x3D

/-- Words the hint prefix may precede: majors 0x40 to 0x45, the load and store forms of 0x46 and 0x47, and
`prs.test` (R46). `fn` is bits [7:0]. -/
def hintPrefixable (m fn : Nat) : Bool :=
  (0x40 ≤ m && m ≤ 0x45) || (m == 0x46 && fn ≤ 0x10) || m == 0x47

/-- Control-transfer words, which must end their clause (R38, R97): by major and bits [7:0]. -/
def isControlTransfer (m fn : Nat) : Bool :=
  m == 0x2B || m == 0x2C || (m == 0x2D && (fn == 1 || fn == 5 || fn == 6 || fn == 7))

/-- R49 step 1: the word's major, function code, form and V value are assigned by the map (R50 to R55). -/
def assignedWord (w : Nat) : Bool :=
  let m := majorOf w
  let v := bitsAt w 24 1
  let fn8 := bitsAt w 0 8
  let fp := bitsAt w 19 5
  let fn4 := bitsAt w 4 4
  let fa := bitsAt w 0 6
  let upTo (x lo hi : Nat) : Bool := decide (lo ≤ x) && decide (x ≤ hi)
  if upTo m 0x01 0x21 then true
  else match m with
  | 0x22 => bitsAt w 5 3 ≤ 2
  | 0x23 | 0x24 => true
  | 0x25 => bitsAt w 0 3 ≤ 5
  | 0x26 => upTo fp 0x00 0x05 || upTo fp 0x08 0x0A || fp == 0x10 || fp == 0x12 || upTo fp 0x18 0x1D
  | 0x27 => fn8 ≤ 0x09
  | 0x28 | 0x29 | 0x2A | 0x2B | 0x2C | 0x2E | 0x2F => true
  | 0x2D => upTo fn8 0x00 0x0A || upTo fn8 0x0C 0x0F
  | 0x30 | 0x31 | 0x32 | 0x33 | 0x34 | 0x35 => true
  | 0x36 | 0x37 | 0x38 | 0x39 => v == 0
  | 0x3A => fp ≤ 3
  | 0x3B => upTo fn8 0x00 0x02 || upTo fn8 0x10 0x14 || upTo fn8 0x18 0x1A || upTo fn8 0x20 0x23 || upTo fn8 0x30 0x3F
  | 0x3C => fn8 ≤ 7
  | 0x3D => true
  | 0x40 | 0x41 | 0x42 | 0x43 | 0x44 | 0x45 => true
  | 0x46 => upTo fn8 0x00 0x03 || fn8 == 0x05 || fn8 == 0x08 || fn8 == 0x09 || fn8 == 0x0B || upTo fn8 0x10 0x13
  | 0x47 => upTo fn8 0x00 0x03 || fn8 == 0x05 || fn8 == 0x06 || fn8 == 0x08 || fn8 == 0x09 || fn8 == 0x0B || fn8 == 0x0C
  | 0x48 | 0x49 | 0x4A | 0x4B | 0x4C | 0x4D => true
  | 0x4E => v == 0
  | 0x4F => fp ≤ 2
  | 0x50 => fn4 ≤ 7
  | 0x51 => fn4 ≤ 3
  | 0x52 | 0x53 | 0x54 | 0x55 => true
  | 0x56 => fn4 ≤ 6
  | 0x57 => fn4 ≤ 2 || fn4 == 8
  | 0x58 => fn4 ≤ 2
  | 0x60 => fa ≤ 0x0D
  | 0x61 => fa == 0x00 || fa == 0x02 || fa == 0x04 || fa == 0x06 || fa == 0x09
  | 0x62 => fa ≤ 3
  | 0x63 => fa ≤ 5
  | 0x64 => fa ≤ 3
  | 0x65 | 0x66 => fa ≤ 2
  | 0x6C => bitsAt w 0 4 ≤ 10
  | 0x6D => fn8 ≤ 1
  | 0x74 => fn8 ≤ 2
  | 0x76 => fn8 ≤ 4
  | 0x7E | 0x7F => true
  | _ => false

/-- Words whose hint prefix may carry only an offset (R46). -/
def isScratchWord (m fn : Nat) : Bool :=
  m == 0x40 || m == 0x41 || m == 0x44 || m == 0x45 || (m == 0x46 && decide (fn ≤ 0x10))

/-- The forms that use the operand prefix's fourth operand (R45): mad, ffma, ffma.rz, hfma2.bf16. -/
def usesAddend (m : Nat) : Bool := m == 0x06 || m == 0x33 || m == 0x38

/-- Number of a scope in its field (R54). -/
def scopeCode (c : Scope) : Nat :=
  match c with
  | .team => 0
  | .cluster => 1
  | .device => 2
  | .system => 3

/-- Number of a role in its field (R50). -/
def roleCode (r : Role) : Nat :=
  match r with
  | .copy => 0
  | .matrix => 1
  | .vector => 2

/-- 1 for a set bit. -/
def bitNat (b : Bool) : Nat := if b then 1 else 0

/-- The word of a well-formed instruction, as a number: the fixed bits of its map entry plus each field at its
place (R41, R50 to R55). Events have no encoding. -/
def encodeNat (i : Instr) : Option Nat :=
  match i with
  | .add d a b => some (0x02000000 + d * 65536 + a * 256 + b)
  | .sub d a b => some (0x04000000 + d * 65536 + a * 256 + b)
  | .mul d a b => some (0x06000000 + d * 65536 + a * 256 + b)
  | .mulhI32 d a b => some (0x08000000 + d * 65536 + a * 256 + b)
  | .mulhN32 d a b => some (0x0A000000 + d * 65536 + a * 256 + b)
  | .mad d a b => some (0x0C000000 + d * 65536 + a * 256 + b)
  | .divI32 d a b => some (0x0E000000 + d * 65536 + a * 256 + b)
  | .divN32 d a b => some (0x10000000 + d * 65536 + a * 256 + b)
  | .remI32 d a b => some (0x12000000 + d * 65536 + a * 256 + b)
  | .remN32 d a b => some (0x14000000 + d * 65536 + a * 256 + b)
  | .minI32 d a b => some (0x16000000 + d * 65536 + a * 256 + b)
  | .minN32 d a b => some (0x18000000 + d * 65536 + a * 256 + b)
  | .maxI32 d a b => some (0x1A000000 + d * 65536 + a * 256 + b)
  | .maxN32 d a b => some (0x1C000000 + d * 65536 + a * 256 + b)
  | .and d a b => some (0x1E000000 + d * 65536 + a * 256 + b)
  | .or d a b => some (0x20000000 + d * 65536 + a * 256 + b)
  | .xor d a b => some (0x22000000 + d * 65536 + a * 256 + b)
  | .andn d a b => some (0x24000000 + d * 65536 + a * 256 + b)
  | .shl d a b => some (0x26000000 + d * 65536 + a * 256 + b)
  | .shr d a b => some (0x28000000 + d * 65536 + a * 256 + b)
  | .sar d a b => some (0x2A000000 + d * 65536 + a * 256 + b)
  | .rotl d a b => some (0x2C000000 + d * 65536 + a * 256 + b)
  | .fsh d a b => some (0x2E000000 + d * 65536 + a * 256 + b)
  | .bfxI32 d a b => some (0x30000000 + d * 65536 + a * 256 + b)
  | .bfxN32 d a b => some (0x32000000 + d * 65536 + a * 256 + b)
  | .bfi d a b => some (0x34000000 + d * 65536 + a * 256 + b)
  | .sel d a b => some (0x36000000 + d * 65536 + a * 256 + b)
  | .lea1 d a b => some (0x38000000 + d * 65536 + a * 256 + b)
  | .lea2 d a b => some (0x3A000000 + d * 65536 + a * 256 + b)
  | .lea4 d a b => some (0x3C000000 + d * 65536 + a * 256 + b)
  | .lea8 d a b => some (0x3E000000 + d * 65536 + a * 256 + b)
  | .lea16 d a b => some (0x40000000 + d * 65536 + a * 256 + b)
  | .addi d a i => some (0x42000000 + d * 65536 + a * 256 + i.toNat)
  | .shli d a n => some (0x44000000 + d * 65536 + a * 256 + n)
  | .shri d a n => some (0x44000020 + d * 65536 + a * 256 + n)
  | .sari d a n => some (0x44000040 + d * 65536 + a * 256 + n)
  | .movi d i => some (0x46000000 + d * 65536 + i.toNat)
  | .movhi d i => some (0x48000000 + d * 65536 + i.toNat)
  | .add64 d a b => some (0x4A000000 + d * 131072 + a * 1024 + b * 8)
  | .sub64 d a b => some (0x4A000001 + d * 131072 + a * 1024 + b * 8)
  | .mul64 d a b => some (0x4A000002 + d * 131072 + a * 1024 + b * 8)
  | .shl64 d a b => some (0x4A000003 + d * 131072 + a * 1024 + b * 8)
  | .shr64 d a b => some (0x4A000004 + d * 131072 + a * 1024 + b * 8)
  | .sar64 d a b => some (0x4A000005 + d * 131072 + a * 1024 + b * 8)
  | .cmpEq p a b => some (0x4C000000 + p * 65536 + a * 256 + b)
  | .cmpNe p a b => some (0x4C080000 + p * 65536 + a * 256 + b)
  | .cmpLtI32 p a b => some (0x4C100000 + p * 65536 + a * 256 + b)
  | .cmpLtN32 p a b => some (0x4C180000 + p * 65536 + a * 256 + b)
  | .cmpLeI32 p a b => some (0x4C200000 + p * 65536 + a * 256 + b)
  | .cmpLeN32 p a b => some (0x4C280000 + p * 65536 + a * 256 + b)
  | .cmp64Eq p a b => some (0x4C400000 + p * 65536 + a * 256 + b)
  | .cmp64LtI64 p a b => some (0x4C480000 + p * 65536 + a * 256 + b)
  | .cmp64LtN64 p a b => some (0x4C500000 + p * 65536 + a * 256 + b)
  | .cmpiEq p a i => some (0x4C800000 + p * 65536 + a * 256 + i.toNat)
  | .cmpiLtI32 p a i => some (0x4C900000 + p * 65536 + a * 256 + i.toNat)
  | .pand p a b => some (0x4CC00000 + p * 65536 + a * 256 + b)
  | .por p a b => some (0x4CC80000 + p * 65536 + a * 256 + b)
  | .pxor p a b => some (0x4CD00000 + p * 65536 + a * 256 + b)
  | .pandn p a b => some (0x4CD80000 + p * 65536 + a * 256 + b)
  | .pnot p a => some (0x4CE00000 + p * 65536 + a * 256)
  | .pmov p a => some (0x4CE80000 + p * 65536 + a * 256)
  | .mov d a => some (0x4E000000 + d * 65536 + a * 256)
  | .not d a => some (0x4E000001 + d * 65536 + a * 256)
  | .abs d a => some (0x4E000002 + d * 65536 + a * 256)
  | .neg d a => some (0x4E000003 + d * 65536 + a * 256)
  | .clz d a => some (0x4E000004 + d * 65536 + a * 256)
  | .ctz d a => some (0x4E000005 + d * 65536 + a * 256)
  | .popc d a => some (0x4E000006 + d * 65536 + a * 256)
  | .brev d a => some (0x4E000007 + d * 65536 + a * 256)
  | .pget d => some (0x4E000008 + d * 65536)
  | .rdk d k => some (0x4E000009 + d * 65536 + k * 256)
  | .setx x i => some (0x50000000 + x * 65536 + i.toNat)
  | .incx x i => some (0x50040000 + x * 65536 + i.toNat)
  | .rdx d x i => some (0x52000000 + d * 65536 + x * 256 + i.toNat)
  | .wrx s x i => some (0x54000000 + s * 65536 + x * 256 + i.toNat)
  | .bp p o => some (0x56000000 + p * 4194304 + o.toNat)
  | .bnp p o => some (0x56200000 + p * 4194304 + o.toNat)
  | .br o => some (0x57C00000 + o.toNat)
  | .call j o => some (0x58000000 + j * 2097152 + o.toNat)
  | .nop => some (0x5A000000)
  | .exit => some (0x5A000001)
  | .yield => some (0x5A000002)
  | .trap n => some (0x5A000003 + n * 256)
  | .brk n => some (0x5A000004 + n * 256)
  | .ret a => some (0x5A000005 + a * 256)
  | .jr a => some (0x5A000006 + a * 256)
  | .tret => some (0x5A000007)
  | .rdsr d n => some (0x5A000008 + d * 65536 + n * 256)
  | .wrsr s n => some (0x5A000009 + s * 65536 + n * 256)
  | .rdcyc d => some (0x5A00000A + d * 65536)
  | .prng d a i => some (0x5A00000C + d * 65536 + a * 256 + i)
  | .spawn r s o => some (0x5C000000 + roleCode r * 8388608 + s * 32768 + o.toNat)
  | .spawnf r s o => some (0x5E000000 + roleCode r * 8388608 + s * 32768 + o.toNat)
  | .fadd d a b => some (0x60000000 + d * 65536 + a * 256 + b)
  | .faddRz d a b => some (0x61000000 + d * 65536 + a * 256 + b)
  | .fsub d a b => some (0x62000000 + d * 65536 + a * 256 + b)
  | .fsubRz d a b => some (0x63000000 + d * 65536 + a * 256 + b)
  | .fmul d a b => some (0x64000000 + d * 65536 + a * 256 + b)
  | .fmulRz d a b => some (0x65000000 + d * 65536 + a * 256 + b)
  | .ffma d a b => some (0x66000000 + d * 65536 + a * 256 + b)
  | .ffmaRz d a b => some (0x67000000 + d * 65536 + a * 256 + b)
  | .fmin d a b => some (0x68000000 + d * 65536 + a * 256 + b)
  | .fminNan d a b => some (0x69000000 + d * 65536 + a * 256 + b)
  | .fmax d a b => some (0x6A000000 + d * 65536 + a * 256 + b)
  | .fmaxNan d a b => some (0x6B000000 + d * 65536 + a * 256 + b)
  | .hadd2Bf16 d a b => some (0x6C000000 + d * 65536 + a * 256 + b)
  | .hmul2Bf16 d a b => some (0x6E000000 + d * 65536 + a * 256 + b)
  | .hfma2Bf16 d a b => some (0x70000000 + d * 65536 + a * 256 + b)
  | .hmax2Bf16 d a b => some (0x72000000 + d * 65536 + a * 256 + b)
  | .fcmpEq p a b => some (0x74000000 + p * 65536 + a * 256 + b)
  | .fcmpLt p a b => some (0x74080000 + p * 65536 + a * 256 + b)
  | .fcmpLe p a b => some (0x74100000 + p * 65536 + a * 256 + b)
  | .fcmpUn p a b => some (0x74180000 + p * 65536 + a * 256 + b)
  | .fabs d a => some (0x76000000 + d * 65536 + a * 256)
  | .fneg d a => some (0x76000001 + d * 65536 + a * 256)
  | .fclass d a => some (0x76000002 + d * 65536 + a * 256)
  | .cvtF32I32 d a => some (0x76000010 + d * 65536 + a * 256)
  | .cvtF32N32 d a => some (0x76000011 + d * 65536 + a * 256)
  | .cvtI32F32Rz d a => some (0x76000012 + d * 65536 + a * 256)
  | .cvtI32F32Rne d a => some (0x76000013 + d * 65536 + a * 256)
  | .cvtN32F32Rz d a => some (0x76000014 + d * 65536 + a * 256)
  | .cvtBf16x2F32 d a => some (0x76000018 + d * 65536 + a * 256)
  | .cvtF32Bf16Lo d a => some (0x76000019 + d * 65536 + a * 256)
  | .cvtF32Bf16Hi d a => some (0x7600001A + d * 65536 + a * 256)
  | .cvtE4m3x4F32Sat d a => some (0x76000020 + d * 65536 + a * 256)
  | .cvtE4m3x4F32Nan d a => some (0x76000021 + d * 65536 + a * 256)
  | .cvtE5m2x4F32Sat d a => some (0x76000022 + d * 65536 + a * 256)
  | .cvtE5m2x4F32Inf d a => some (0x76000023 + d * 65536 + a * 256)
  | .cvtF32E4m3 d a i => some (0x76000030 + d * 65536 + a * 256 + i)
  | .cvtF32E5m2 d a i => some (0x76000034 + d * 65536 + a * 256 + i)
  | .cvtF32E2m1 d a i => some (0x76000038 + d * 65536 + a * 256 + i)
  | .rcp e d a => some (0x78000000 + bitNat e * 16777216 + d * 65536 + a * 256)
  | .rsqrt e d a => some (0x78000001 + bitNat e * 16777216 + d * 65536 + a * 256)
  | .sqrt e d a => some (0x78000002 + bitNat e * 16777216 + d * 65536 + a * 256)
  | .exp2 e d a => some (0x78000003 + bitNat e * 16777216 + d * 65536 + a * 256)
  | .log2 e d a => some (0x78000004 + bitNat e * 16777216 + d * 65536 + a * 256)
  | .sinpi e d a => some (0x78000005 + bitNat e * 16777216 + d * 65536 + a * 256)
  | .cospi e d a => some (0x78000006 + bitNat e * 16777216 + d * 65536 + a * 256)
  | .tanh e d a => some (0x78000007 + bitNat e * 16777216 + d * 65536 + a * 256)
  | .cvtE2m1x8F32 d a b => some (0x7A000000 + d * 65536 + a * 256 + b)
  | .ldsB32 d b i => some (0x80000000 + d * 65536 + b * 256 + i.toNat)
  | .stsB32 d b i => some (0x82000000 + d * 65536 + b * 256 + i.toNat)
  | .ldB32 e d b i => some (0x84000000 + bitNat e * 16777216 + d * 65536 + b * 256 + i.toNat)
  | .stB32 e d b i => some (0x86000000 + bitNat e * 16777216 + d * 65536 + b * 256 + i.toNat)
  | .ldsB128 d b i => some (0x88000000 + d * 65536 + b * 256 + i.toNat)
  | .stsB128 d b i => some (0x8A000000 + d * 65536 + b * 256 + i.toNat)
  | .ldsN8 d b => some (0x8C000000 + d * 65536 + b * 256)
  | .ldsI8 d b => some (0x8C000001 + d * 65536 + b * 256)
  | .ldsN16 d b => some (0x8C000002 + d * 65536 + b * 256)
  | .ldsI16 d b => some (0x8C000003 + d * 65536 + b * 256)
  | .ldsB64 d b => some (0x8C000005 + d * 65536 + b * 256)
  | .stsB8 d b => some (0x8C000008 + d * 65536 + b * 256)
  | .stsB16 d b => some (0x8C000009 + d * 65536 + b * 256)
  | .stsB64 d b => some (0x8C00000B + d * 65536 + b * 256)
  | .prsTest p b => some (0x8C000010 + p * 65536 + b * 256)
  | .stashMap e d b => some (0x8C000011 + bitNat e * 16777216 + d * 65536 + b * 256)
  | .stashUnmap e d => some (0x8C000012 + bitNat e * 16777216 + d * 65536)
  | .stashWb e d => some (0x8C000013 + bitNat e * 16777216 + d * 65536)
  | .ldN8 e d b => some (0x8E000000 + bitNat e * 16777216 + d * 65536 + b * 256)
  | .ldI8 e d b => some (0x8E000001 + bitNat e * 16777216 + d * 65536 + b * 256)
  | .ldN16 e d b => some (0x8E000002 + bitNat e * 16777216 + d * 65536 + b * 256)
  | .ldI16 e d b => some (0x8E000003 + bitNat e * 16777216 + d * 65536 + b * 256)
  | .ldB64 e d b => some (0x8E000005 + bitNat e * 16777216 + d * 65536 + b * 256)
  | .ldB128 e d b => some (0x8E000006 + bitNat e * 16777216 + d * 65536 + b * 256)
  | .stB8 e d b => some (0x8E000008 + bitNat e * 16777216 + d * 65536 + b * 256)
  | .stB16 e d b => some (0x8E000009 + bitNat e * 16777216 + d * 65536 + b * 256)
  | .stB64 e d b => some (0x8E00000B + bitNat e * 16777216 + d * 65536 + b * 256)
  | .stB128 e d b => some (0x8E00000C + bitNat e * 16777216 + d * 65536 + b * 256)
  | .sgetAt d a m => some (0x90000000 + d * 65536 + a * 256 + m)
  | .sgetXor d a m => some (0x91000000 + d * 65536 + a * 256 + m)
  | .sgetBelow d a m => some (0x92000000 + d * 65536 + a * 256 + m)
  | .sgetAbove d a m => some (0x93000000 + d * 65536 + a * 256 + m)
  | .reduxAddI32 d a m => some (0x94000000 + d * 65536 + a * 256 + m)
  | .reduxAddF32 d a m => some (0x95000000 + d * 65536 + a * 256 + m)
  | .reduxMinI32 d a m => some (0x96000000 + d * 65536 + a * 256 + m)
  | .reduxMaxI32 d a m => some (0x97000000 + d * 65536 + a * 256 + m)
  | .scanAddI32 d a m => some (0x98000000 + d * 65536 + a * 256 + m)
  | .sample d a m => some (0x99000000 + d * 65536 + a * 256 + m)
  | .matchSeats d a m => some (0x9A000000 + d * 65536 + a * 256 + m)
  | .ballot d p m => some (0x9B000000 + d * 65536 + p * 256 + m)
  | .seat d m => some (0x9C000000 + d * 65536 + m)
  | .voteAny p q m => some (0x9E000000 + p * 65536 + q * 256 + m)
  | .voteAll p q m => some (0x9E080000 + p * 65536 + q * 256 + m)
  | .voteEq p q m => some (0x9E100000 + p * 65536 + q * 256 + m)
  | .barInit a n => some (0xA0000000 + a * 256 + n)
  | .barArr a n => some (0xA0000010 + a * 256 + n)
  | .barExp a n => some (0xA0000020 + a * 256 + n)
  | .barArx d a n => some (0xA0000030 + d * 65536 + a * 256 + n)
  | .barWait a n => some (0xA0000040 + a * 256 + n)
  | .barTry p a n => some (0xA0000050 + p * 65536 + a * 256 + n)
  | .barPar p a n => some (0xA0000060 + p * 65536 + a * 256 + n)
  | .barInv n => some (0xA0000070 + n)
  | .ringAcq d a s => some (0xA2000000 + d * 65536 + a * 256 + s)
  | .ringCom a s => some (0xA2000010 + a * 256 + s)
  | .ringGet d a s => some (0xA2000020 + d * 65536 + a * 256 + s)
  | .ringRel a s => some (0xA2000030 + a * 256 + s)
  | .cpy e d a b => some (0xA4000000 + bitNat e * 16777216 + d * 65536 + a * 256 + b)
  | .cpyPeer e d a b => some (0xA6000000 + bitNat e * 16777216 + d * 65536 + a * 256 + b)
  | .cpw e d a b => some (0xA8000000 + bitNat e * 16777216 + d * 65536 + a * 256 + b)
  | .cpl e a b => some (0xAA000000 + bitNat e * 16777216 + a * 256 + b)
  | .mmqI4E4m3 e a p s => some (0xAC000000 + bitNat e * 16777216 + a * 65536 + p * 256 + s * 4)
  | .mmqI4E5m2 e a p s => some (0xAC000010 + bitNat e * 16777216 + a * 65536 + p * 256 + s * 4)
  | .mmqI4Bf16 e a p s => some (0xAC000020 + bitNat e * 16777216 + a * 65536 + p * 256 + s * 4)
  | .mmqI3E4m3 e a p s => some (0xAC000030 + bitNat e * 16777216 + a * 65536 + p * 256 + s * 4)
  | .mmqI3Bf16 e a p s => some (0xAC000040 + bitNat e * 16777216 + a * 65536 + p * 256 + s * 4)
  | .mmqF4E4m3 e a p s => some (0xAC000050 + bitNat e * 16777216 + a * 65536 + p * 256 + s * 4)
  | .mmqF4Bf16 e a p s => some (0xAC000060 + bitNat e * 16777216 + a * 65536 + p * 256 + s * 4)
  | .mmfE4m3 e a p => some (0xAE000000 + bitNat e * 16777216 + a * 65536 + p * 256)
  | .mmfE5m2 e a p => some (0xAE000010 + bitNat e * 16777216 + a * 65536 + p * 256)
  | .mmfBf16 e a p => some (0xAE000020 + bitNat e * 16777216 + a * 65536 + p * 256)
  | .accClr e p => some (0xAE000080 + bitNat e * 16777216 + p * 256)
  | .ctld e a s => some (0xB0000000 + bitNat e * 16777216 + a * 256 + s)
  | .ctst e a s => some (0xB0000010 + bitNat e * 16777216 + a * 256 + s)
  | .ctinv s => some (0xB0000020 + s)
  | .atomAddB32 e d a c => some (0xC0000000 + bitNat e * 16777216 + d * 65536 + a * 256 + scopeCode c * 64)
  | .atomAddB64 e d a c => some (0xC0000001 + bitNat e * 16777216 + d * 65536 + a * 256 + scopeCode c * 64)
  | .atomAddF32 e d a c => some (0xC0000002 + bitNat e * 16777216 + d * 65536 + a * 256 + scopeCode c * 64)
  | .atomAddBf16x2 e d a c => some (0xC0000003 + bitNat e * 16777216 + d * 65536 + a * 256 + scopeCode c * 64)
  | .atomMinI32 e d a c => some (0xC0000004 + bitNat e * 16777216 + d * 65536 + a * 256 + scopeCode c * 64)
  | .atomMinN32 e d a c => some (0xC0000005 + bitNat e * 16777216 + d * 65536 + a * 256 + scopeCode c * 64)
  | .atomMaxI32 e d a c => some (0xC0000006 + bitNat e * 16777216 + d * 65536 + a * 256 + scopeCode c * 64)
  | .atomMaxN32 e d a c => some (0xC0000007 + bitNat e * 16777216 + d * 65536 + a * 256 + scopeCode c * 64)
  | .atomAnd e d a c => some (0xC0000008 + bitNat e * 16777216 + d * 65536 + a * 256 + scopeCode c * 64)
  | .atomOr e d a c => some (0xC0000009 + bitNat e * 16777216 + d * 65536 + a * 256 + scopeCode c * 64)
  | .atomXor e d a c => some (0xC000000A + bitNat e * 16777216 + d * 65536 + a * 256 + scopeCode c * 64)
  | .atomXchg e d a c => some (0xC000000B + bitNat e * 16777216 + d * 65536 + a * 256 + scopeCode c * 64)
  | .atomCas e d a c => some (0xC000000C + bitNat e * 16777216 + d * 65536 + a * 256 + scopeCode c * 64)
  | .atomCasB64 e d a c => some (0xC000000D + bitNat e * 16777216 + d * 65536 + a * 256 + scopeCode c * 64)
  | .redAddB32 e d a c => some (0xC2000000 + bitNat e * 16777216 + d * 65536 + a * 256 + scopeCode c * 64)
  | .redAddF32 e d a c => some (0xC2000002 + bitNat e * 16777216 + d * 65536 + a * 256 + scopeCode c * 64)
  | .redMinI32 e d a c => some (0xC2000004 + bitNat e * 16777216 + d * 65536 + a * 256 + scopeCode c * 64)
  | .redMaxI32 e d a c => some (0xC2000006 + bitNat e * 16777216 + d * 65536 + a * 256 + scopeCode c * 64)
  | .redOr e d a c => some (0xC2000009 + bitNat e * 16777216 + d * 65536 + a * 256 + scopeCode c * 64)
  | .baddF32 e d a => some (0xC4000000 + bitNat e * 16777216 + d * 65536 + a * 256)
  | .baddBf16x2 e d a => some (0xC4000001 + bitNat e * 16777216 + d * 65536 + a * 256)
  | .ldbF32 e d a => some (0xC4000002 + bitNat e * 16777216 + d * 65536 + a * 256)
  | .bsettle e a => some (0xC4000003 + bitNat e * 16777216 + a * 256)
  | .mwaitEq d a => some (0xC6000000 + d * 65536 + a * 256)
  | .mwaitNe d a => some (0xC6000001 + d * 65536 + a * 256)
  | .mwaitGeI32 d a => some (0xC6000002 + d * 65536 + a * 256)
  | .mwaitLtI32 d a => some (0xC6000003 + d * 65536 + a * 256)
  | .mwaitGeN32 d a => some (0xC6000004 + d * 65536 + a * 256)
  | .mwaitLtN32 d a => some (0xC6000005 + d * 65536 + a * 256)
  | .ldAcqB32 e d a c => some (0xC8000000 + bitNat e * 16777216 + d * 65536 + a * 256 + scopeCode c * 64)
  | .ldAcqB64 e d a c => some (0xC8000001 + bitNat e * 16777216 + d * 65536 + a * 256 + scopeCode c * 64)
  | .stRelB32 e d a c => some (0xC8000002 + bitNat e * 16777216 + d * 65536 + a * 256 + scopeCode c * 64)
  | .stRelB64 e d a c => some (0xC8000003 + bitNat e * 16777216 + d * 65536 + a * 256 + scopeCode c * 64)
  | .fenceAcq c => some (0xCA000000 + scopeCode c * 64)
  | .fenceRel c => some (0xCA000001 + scopeCode c * 64)
  | .fenceAr c => some (0xCA000002 + scopeCode c * 64)
  | .cclean e d a c => some (0xCC000000 + bitNat e * 16777216 + d * 65536 + a * 256 + scopeCode c * 64)
  | .cinval e d a c => some (0xCC000001 + bitNat e * 16777216 + d * 65536 + a * 256 + scopeCode c * 64)
  | .cflush e d a c => some (0xCC000002 + bitNat e * 16777216 + d * 65536 + a * 256 + scopeCode c * 64)
  | .tldB8 e d a h => some (0xD8000000 + bitNat e * 16777216 + d * 65536 + a * 256 + h * 16)
  | .tldB16 e d a h => some (0xD8000001 + bitNat e * 16777216 + d * 65536 + a * 256 + h * 16)
  | .tldB32 e d a h => some (0xD8000002 + bitNat e * 16777216 + d * 65536 + a * 256 + h * 16)
  | .tst e d a h => some (0xD8000003 + bitNat e * 16777216 + d * 65536 + a * 256 + h * 16)
  | .tenc e d a h => some (0xD8000004 + bitNat e * 16777216 + d * 65536 + a * 256 + h * 16)
  | .tq e d a h => some (0xD8000005 + bitNat e * 16777216 + d * 65536 + a * 256 + h * 16)
  | .tclean e d a h => some (0xD8000006 + bitNat e * 16777216 + d * 65536 + a * 256 + h * 16)
  | .tinval e d a h => some (0xD8000007 + bitNat e * 16777216 + d * 65536 + a * 256 + h * 16)
  | .cpt e d a h => some (0xD8000008 + bitNat e * 16777216 + d * 65536 + a * 256 + h * 16)
  | .tdesc a h => some (0xD8000009 + a * 256 + h * 16)
  | .spool e d a h => some (0xD800000A + bitNat e * 16777216 + d * 65536 + a * 256 + h * 16)
  | .tlbinvVa e d a => some (0xDA000000 + bitNat e * 16777216 + d * 65536 + a * 256)
  | .tlbinvCtx e d => some (0xDA000001 + bitNat e * 16777216 + d * 65536)
  | .gq e a => some (0xE8000000 + bitNat e * 16777216 + a * 256)
  | .att e a => some (0xE8000001 + bitNat e * 16777216 + a * 256)
  | .tstat e d a => some (0xE8000002 + bitNat e * 16777216 + d * 65536 + a * 256)
  | .rcpy e a => some (0xEC000000 + bitNat e * 16777216 + a * 256)
  | .rcpyCk e d a => some (0xEC000001 + bitNat e * 16777216 + d * 65536 + a * 256)
  | .rcpyCkv e d a => some (0xEC000002 + bitNat e * 16777216 + d * 65536 + a * 256)
  | .rsig e a => some (0xEC000003 + bitNat e * 16777216 + a * 256)
  | .ratomAdd e d a => some (0xEC000004 + bitNat e * 16777216 + d * 65536 + a * 256)
  | .operandPrefix p z c => some (0xFE000000 + p * 4194304 + bitNat z * 2097152 + c)
  | .hintPrefix n l x => some (0xFC000000 + n * 2097152 + l * 524288 + x.toNat)
  | .clauseIssue _ => none
  | .tillTimerExpiry _ _ => none
  | .tillRelease _ _ => none
  | .watchdog _ => none
  | .preemptionRequest _ => none
  | .graceBudgetExpiry _ => none
  | .loadReturn _ => none
  | .storeWritten _ => none
  | .atomicReturn _ => none
  | .specialFunctionResult _ => none
  | .compactorMove _ _ _ => none
  | .stashFill _ _ _ => none
  | .copyLanding _ => none
  | .matrixExecute _ => none
  | .accClrExecute _ => none
  | .homeRegistration _ => none
  | .homeReadForward _ _ => none
  | .lineEviction _ _ => none
  | .monitorWake _ => none
  | .mwaitOverflowPoll _ => none
  | .allowanceRequest _ => none
  | .cacheUncorrectableError _ => none
  | .clusterUnresponsive _ => none
  | .pageWalk _ => none
  | .teamPlacement _ => none
  | .teamSwapOut _ => none
  | .teamResume _ => none
  | .imageUpdate _ => none
  | .voteDissent _ => none
  | .voteReadmission _ => none
  | .comparedPairDisagreement _ => none
  | .tileUpdate _ => none
  | .slotPush _ => none
  | .dieLinkFlitRetry _ _ => none
  | .dieLinkFailure _ _ => none
  | .alertBackOff _ _ => none
  | .refresh _ _ _ => none
  | .cxlLinkFailed _ => none
  | .tellerQueryStart _ => none
  | .batchReturn _ => none
  | .tellerCompletion _ => none
  | .tellerSramError _ => none
  | .stackUnresponsive _ => none
  | .doorbell _ _ => none
  | .recordFetch _ => none
  | .launch _ => none
  | .createContext => none
  | .endContext => none
  | .resolveReplay => none
  | .resolveDeliver => none
  | .resolveEndThread => none
  | .waitConditionMet _ _ => none
  | .teamHandout _ => none
  | .deadlineExpiry _ => none
  | .quantumExpiry _ => none
  | .gridComplete _ => none
  | .fqheadWrite _ _ => none
  | .supervisorRegisterWrite _ _ => none
  | .cpVoteDisagreement _ => none
  | .snapshotTrigger _ => none
  | .snapshotRearm => none
  | .getVersion => none
  | .getCapabilities => none
  | .negotiateAlgorithms _ => none
  | .getDigests => none
  | .getCertificate _ _ _ => none
  | .challenge _ _ => none
  | .getMeasurements _ => none
  | .firmwareLoad _ _ => none
  | .powerLimitSet _ => none
  | .thermalThrottle _ => none
  | .thermalTrip => none
  | .hostLinkError => none
  | .moduleReset => none
  | .modidWrite _ => none
  | .fabContextWrite _ _ => none
  | .injectArm _ => none
  | .waconFlitRetry _ => none
  | .portFailure _ => none
  | .remoteOpArrival _ => none
  | .remoteAck _ _ => none
  | .remoteTimeout _ => none
  | .roceWorkFetch _ => none
  | .roceCompletion _ => none
  | .rdmaInbound _ _ _ => none
  | .coreReset _ => none
  | .cacheMaintenanceComplete _ => none
  | .tileMaintenanceComplete _ => none
  | .tlbinvComplete _ => none
  | .stashMapComplete _ => none
  | .stashWbComplete _ => none
  | .portTrained _ => none
  | .hostLinkTraining _ => none
  | .rdmaReadRequest _ _ _ => none
  | .cnpReceived _ => none

/-- The word of a well-formed instruction. -/
def encode (i : Instr) : Option Word := (encodeNat i).map (BitVec.ofNat 32)

end Sys2Proof
end

