-- ==== Sys2Proof/Machine/Int.lean ====
section
/-! DEFINITION. The integer, bit-field, address, predicate and index instructions, majors 0x01 to 0x2A
(04_thread_integer R85 to R96). -/

namespace Sys2Proof.Machine

/-- The high word of a 64-bit product (R85). -/
def mulHigh (x : BitVec 64) : Word := hi32 x

/-- R86: signed division truncating toward zero. -/
def divI (a b : Word) : Word := if b = 0 then 0xFFFFFFFF else BitVec.ofInt 32 (Int.tdiv a.toInt b.toInt)

/-- R86: a remainder with the sign of the dividend. -/
def remI (a b : Word) : Word := if b = 0 then a else BitVec.ofInt 32 (Int.tmod a.toInt b.toInt)

def divN (a b : Word) : Word := if b = 0 then 0xFFFFFFFF else BitVec.ofNat 32 (a.toNat / b.toNat)

def remN (a b : Word) : Word := if b = 0 then a else BitVec.ofNat 32 (a.toNat % b.toNat)

/-- R87: `{a, b}` shifted right by the count mod 64. -/
def funnel (a b c : Word) : Word := ((a ++ b : BitVec 64) >>> (c.toNat % 64)).setWidth 32

/-- R88: the position and the end of a field, cut at bit 31; none for an empty field. -/
def fieldOf (b : Word) : Option (Nat × Nat) :=
  let pos := b.toNat % 256
  let len := b.toNat / 256 % 256
  if len = 0 ∨ 32 ≤ pos then none else some (pos, min (pos + len) 32 - pos)

/-- A mask of `w` low bits. -/
def lowMask (w : Nat) : Word := BitVec.ofNat 32 (2 ^ w - 1)

/-- R88: bit-field extraction. -/
def bfx (sgn : Bool) (a b : Word) : Word :=
  match fieldOf b with
  | none => 0
  | some (pos, w) =>
    let f := (a >>> pos) &&& lowMask w
    if sgn && f.getLsbD (w - 1) then f ||| ~~~(lowMask w) else f

/-- R88: bit-field insertion. -/
def bfiOf (a b d : Word) : Word :=
  match fieldOf b with
  | none => d
  | some (pos, w) => (d &&& ~~~(lowMask w <<< pos)) ||| ((a &&& lowMask w) <<< pos)

/-- Leading zeros among the `n` low bits, from bit `n - 1` down. -/
def clzFrom (a : Word) : Nat → Nat
  | 0 => 0
  | n + 1 => if a.getLsbD n then 0 else 1 + clzFrom a n

/-- Trailing zeros, from bit `i` up, with `n` bits left. -/
def ctzFrom (a : Word) : Nat → Nat → Nat
  | 0, _ => 0
  | n + 1, i => if a.getLsbD i then 0 else 1 + ctzFrom a n (i + 1)

def popcOf (a : Word) : Nat := ((List.range 32).filter (fun i => a.getLsbD i)).length

/-- R89: the bits in reverse order. -/
def brevOf (a : Word) : Word := BitVec.ofNat 32 ((List.range 32).foldl (fun n i => 2 * n + bitNat (a.getLsbD i)) 0)

/-- R96: the indirect register number i = sint(xN) + imm. -/
def Thread.indirect (t : Thread) (x : Nat) (i : BitVec 8) : Int := (t.x x).toInt + i.toNat

/-- R96: the bound check of an indirect access, then the access. -/
def State.indirect (s : State) (x : Nat) (i : BitVec 8) (go : Nat → State → Out) : Out :=
  let n := s.th.indirect x i
  if n < 0 ∨ (s.th.window : Int) ≤ n then
    .next (s.trap { s.here with cause := 0x08, detail := (BitVec.ofInt 32 n).setWidth 64 })
  else go n.toNat s

/-- `add` (R85). -/
def execAdd (d a b : Nat) (s : State) : Out :=
  s.alu3 0 none d a b (fun a b => a + b)

/-- `sub` (R85). -/
def execSub (d a b : Nat) (s : State) : Out :=
  s.alu3 0 none d a b (fun a b => a - b)

/-- `mul` (R85). -/
def execMul (d a b : Nat) (s : State) : Out :=
  s.alu3 0 none d a b (fun a b => a * b)

/-- `mulh.i32` (R85). -/
def execMulhI32 (d a b : Nat) (s : State) : Out :=
  s.alu3 0 none d a b (fun a b => mulHigh (a.signExtend 64 * b.signExtend 64))

/-- `mulh.n32` (R85). -/
def execMulhN32 (d a b : Nat) (s : State) : Out :=
  s.alu3 0 none d a b (fun a b => mulHigh (a.setWidth 64 * b.setWidth 64))

/-- `mad` (R85): the addend is v[d], or v[c] under the prefix. -/
def execMad (d a b : Nat) (s : State) : Out :=
  s.alu4 0 none d a b (fun a b c => a * b + c)

/-- `div.i32` (R86). -/
def execDivI32 (d a b : Nat) (s : State) : Out :=
  s.alu3 0 none d a b divI

/-- `div.n32` (R86). -/
def execDivN32 (d a b : Nat) (s : State) : Out :=
  s.alu3 0 none d a b divN

/-- `rem.i32` (R86). -/
def execRemI32 (d a b : Nat) (s : State) : Out :=
  s.alu3 0 none d a b remI

/-- `rem.n32` (R86). -/
def execRemN32 (d a b : Nat) (s : State) : Out :=
  s.alu3 0 none d a b remN

/-- `min.i32` (R85). -/
def execMinI32 (d a b : Nat) (s : State) : Out :=
  s.alu3 0 none d a b (fun a b => if leI32 a b then a else b)

/-- `min.n32` (R85). -/
def execMinN32 (d a b : Nat) (s : State) : Out :=
  s.alu3 0 none d a b (fun a b => if leN32 a b then a else b)

/-- `max.i32` (R85). -/
def execMaxI32 (d a b : Nat) (s : State) : Out :=
  s.alu3 0 none d a b (fun a b => if leI32 b a then a else b)

/-- `max.n32` (R85). -/
def execMaxN32 (d a b : Nat) (s : State) : Out :=
  s.alu3 0 none d a b (fun a b => if leN32 b a then a else b)

/-- `and` (R87). -/
def execAnd (d a b : Nat) (s : State) : Out :=
  s.alu3 0 none d a b (fun a b => a &&& b)

/-- `or` (R87). -/
def execOr (d a b : Nat) (s : State) : Out :=
  s.alu3 0 none d a b (fun a b => a ||| b)

/-- `xor` (R87). -/
def execXor (d a b : Nat) (s : State) : Out :=
  s.alu3 0 none d a b (fun a b => a ^^^ b)

/-- `andn` (R87). -/
def execAndn (d a b : Nat) (s : State) : Out :=
  s.alu3 0 none d a b (fun a b => a &&& ~~~b)

/-- `shl` (R87): 0 for counts of 32 or more. -/
def execShl (d a b : Nat) (s : State) : Out :=
  s.alu3 0 none d a b (fun a b => a <<< b.toNat)

/-- `shr` (R87). -/
def execShr (d a b : Nat) (s : State) : Out :=
  s.alu3 0 none d a b (fun a b => a >>> b.toNat)

/-- `sar` (R87): filled with the sign bit. -/
def execSar (d a b : Nat) (s : State) : Out :=
  s.alu3 0 none d a b (fun a b => a.sshiftRight b.toNat)

/-- `rotl` (R87): the count is reduced modulo 32. -/
def execRotl (d a b : Nat) (s : State) : Out :=
  s.alu3 0 none d a b (fun a b => a.rotateLeft (b.toNat % 32))

/-- `fsh` (R87): the old v[d] is the count. -/
def execFsh (d a b : Nat) (s : State) : Out :=
  s.alu3d 0 none d a b funnel

/-- `bfx.i32` (R88). -/
def execBfxI32 (d a b : Nat) (s : State) : Out :=
  s.alu3 0 none d a b (bfx true)

/-- `bfx.n32` (R88). -/
def execBfxN32 (d a b : Nat) (s : State) : Out :=
  s.alu3 0 none d a b (bfx false)

/-- `bfi` (R88). -/
def execBfi (d a b : Nat) (s : State) : Out :=
  s.alu3d 0 none d a b bfiOf

/-- `sel` (R90, R45): the prefix's predicate chooses and does not mask. -/
def execSel (d a b : Nat) (s : State) : Out :=
  let p := match s.pfx with
    | some (.operand p _ _) => p
    | _ => 7
  s.word { cls := 0, allows := .operand, reads := [a, b], writes := [d] }
    (fun s => s.complete (fun t => t.setReg d (if t.pred p then t.reg a else t.reg b)))

/-- `lea1` (R92). -/
def execLea1 (d a b : Nat) (s : State) : Out :=
  s.lea 1 d a b

/-- `lea2` (R92). -/
def execLea2 (d a b : Nat) (s : State) : Out :=
  s.lea 2 d a b

/-- `lea4` (R92). -/
def execLea4 (d a b : Nat) (s : State) : Out :=
  s.lea 4 d a b

/-- `lea8` (R92). -/
def execLea8 (d a b : Nat) (s : State) : Out :=
  s.lea 8 d a b

/-- `lea16` (R92). -/
def execLea16 (d a b : Nat) (s : State) : Out :=
  s.lea 16 d a b

/-- `addi` (R85). -/
def execAddi (d a : Nat) (i : BitVec 8) (s : State) : Out :=
  s.alu2 0 none d a (fun a => a + i.signExtend 32)

/-- `shli` (R87). -/
def execShli (d a n : Nat) (s : State) : Out :=
  s.alu2 0 none d a (fun a => a <<< n)

/-- `shri` (R87). -/
def execShri (d a n : Nat) (s : State) : Out :=
  s.alu2 0 none d a (fun a => a >>> n)

/-- `sari` (R87). -/
def execSari (d a n : Nat) (s : State) : Out :=
  s.alu2 0 none d a (fun a => a.sshiftRight n)

/-- `movi` (R91). -/
def execMovi (d : Nat) (i : BitVec 16) (s : State) : Out :=
  s.plain [] [d] (fun t => t.setReg d (i.setWidth 32))

/-- `movhi` (R91): keeps the low half. -/
def execMovhi (d : Nat) (i : BitVec 16) (s : State) : Out :=
  s.plain [d] [d] (fun t => t.setReg d (i ++ loHalf (t.reg d)))

/-- `add64` (R93). -/
def execAdd64 (d a b : Nat) (s : State) : Out :=
  s.alu64 d a b (fun a b => a + b)

/-- `sub64` (R93). -/
def execSub64 (d a b : Nat) (s : State) : Out :=
  s.alu64 d a b (fun a b => a - b)

/-- `mul64` (R93). -/
def execMul64 (d a b : Nat) (s : State) : Out :=
  s.alu64 d a b (fun a b => a * b)

/-- `shl64` (R93). -/
def execShl64 (d a b : Nat) (s : State) : Out :=
  s.alu64 d a b (fun a b => a <<< (lo32 b).toNat)

/-- `shr64` (R93). -/
def execShr64 (d a b : Nat) (s : State) : Out :=
  s.alu64 d a b (fun a b => a >>> (lo32 b).toNat)

/-- `sar64` (R93). -/
def execSar64 (d a b : Nat) (s : State) : Out :=
  s.alu64 d a b (fun a b => a.sshiftRight (lo32 b).toNat)

/-- `cmp.eq` (R94). -/
def execCmpEq (p a b : Nat) (s : State) : Out :=
  s.compare 0 none p a b (fun a b => a == b)

/-- `cmp.ne` (R94). -/
def execCmpNe (p a b : Nat) (s : State) : Out :=
  s.compare 0 none p a b (fun a b => a != b)

/-- `cmp.lt.i32` (R94). -/
def execCmpLtI32 (p a b : Nat) (s : State) : Out :=
  s.compare 0 none p a b ltI32

/-- `cmp.lt.n32` (R94). -/
def execCmpLtN32 (p a b : Nat) (s : State) : Out :=
  s.compare 0 none p a b ltN32

/-- `cmp.le.i32` (R94). -/
def execCmpLeI32 (p a b : Nat) (s : State) : Out :=
  s.compare 0 none p a b leI32

/-- `cmp.le.n32` (R94). -/
def execCmpLeN32 (p a b : Nat) (s : State) : Out :=
  s.compare 0 none p a b leN32

/-- `cmp64.eq` (R94). -/
def execCmp64Eq (p a b : Nat) (s : State) : Out :=
  s.compare64 p a b (fun a b => a == b)

/-- `cmp64.lt.i64` (R94). -/
def execCmp64LtI64 (p a b : Nat) (s : State) : Out :=
  s.compare64 p a b ltI64

/-- `cmp64.lt.n64` (R94). -/
def execCmp64LtN64 (p a b : Nat) (s : State) : Out :=
  s.compare64 p a b ltN64

/-- `cmpi.eq` (R94). -/
def execCmpiEq (p a : Nat) (i : BitVec 8) (s : State) : Out :=
  s.compareImm p a i (fun a b => a == b)

/-- `cmpi.lt.i32` (R94). -/
def execCmpiLtI32 (p a : Nat) (i : BitVec 8) (s : State) : Out :=
  s.compareImm p a i ltI32

/-- `pand` (R94). -/
def execPand (p a b : Nat) (s : State) : Out :=
  s.predOp p a b (fun a b => a && b)

/-- `por` (R94). -/
def execPor (p a b : Nat) (s : State) : Out :=
  s.predOp p a b (fun a b => a || b)

/-- `pxor` (R94). -/
def execPxor (p a b : Nat) (s : State) : Out :=
  s.predOp p a b (fun a b => a != b)

/-- `pandn` (R94). -/
def execPandn (p a b : Nat) (s : State) : Out :=
  s.predOp p a b (fun a b => a && !b)

/-- `pnot` (R94). -/
def execPnot (p a : Nat) (s : State) : Out :=
  s.predOp p a a (fun a _ => !a)

/-- `pmov` (R94). -/
def execPmov (p a : Nat) (s : State) : Out :=
  s.predOp p a a (fun a _ => a)

/-- `mov` (R89). -/
def execMov (d a : Nat) (s : State) : Out :=
  s.alu2 0 none d a (fun a => a)

/-- `not` (R89). -/
def execNot (d a : Nat) (s : State) : Out :=
  s.alu2 0 none d a (fun a => ~~~a)

/-- `abs` (R89). -/
def execAbs (d a : Nat) (s : State) : Out :=
  s.alu2 0 none d a (fun a => if a.msb then -a else a)

/-- `neg` (R89). -/
def execNeg (d a : Nat) (s : State) : Out :=
  s.alu2 0 none d a (fun a => 0 - a)

/-- `clz` (R89). -/
def execClz (d a : Nat) (s : State) : Out :=
  s.alu2 0 none d a (fun a => BitVec.ofNat 32 (clzFrom a 32))

/-- `ctz` (R89). -/
def execCtz (d a : Nat) (s : State) : Out :=
  s.alu2 0 none d a (fun a => BitVec.ofNat 32 (ctzFrom a 32 0))

/-- `popc` (R89). -/
def execPopc (d a : Nat) (s : State) : Out :=
  s.alu2 0 none d a (fun a => BitVec.ofNat 32 (popcOf a))

/-- `brev` (R89). -/
def execBrev (d a : Nat) (s : State) : Out :=
  s.alu2 0 none d a brevOf

/-- `pget` (R89): p7 to p0 as a byte; bit 7 reads 1. -/
def execPget (d : Nat) (s : State) : Out :=
  s.maskable { cls := 0, allows := .operand, reads := [], writes := [d] } [d]
    (fun s => s.complete (fun t => t.setReg d ((t.preds ||| 0x80).setWidth 32)))

/-- `rdk` (R89): a team constant. -/
def execRdk (d k : Nat) (s : State) : Out :=
  s.maskable { cls := 0, allows := .operand, reads := [], writes := [d] } [d]
    (fun s => s.complete (fun t => t.setReg d (s.tm.consts.getD k 0)))

/-- `setx` (R95). -/
def execSetx (x : Nat) (i : BitVec 16) (s : State) : Out :=
  s.plain [] [] (fun t => t.setX x i)

/-- `incx` (R95): modulo 2^16. -/
def execIncx (x : Nat) (i : BitVec 16) (s : State) : Out :=
  s.plain [] [] (fun t => t.setX x (t.x x + i))

/-- `rdx` (R96). -/
def execRdx (d x : Nat) (i : BitVec 8) (s : State) : Out :=
  s.checked { cls := 0, reads := [], writes := [d] } (fun s => s.indirect x i (fun n s =>
    s.withRegs [n] [d] (fun s => s.complete (fun t => t.setReg d (t.reg n)))))

/-- `wrx` (R96). -/
def execWrx (r x : Nat) (i : BitVec 8) (s : State) : Out :=
  s.checked { cls := 0, reads := [r], writes := [] } (fun s => s.indirect x i (fun n s =>
    s.withRegs [r] [n] (fun s => s.complete (fun t => t.setReg n (t.reg r)))))

end Sys2Proof.Machine
end

