-- ==== Sys2Proof/Machine/Tills.lean ====
section
/-! DEFINITION. Tills, groups and register runs: placing a spawned thread, due tills, release as a group, the leaving of
a thread, and the freeing of a slot (01_thread R14 to R20, R34; 06_core R129, R131; 16_die_control R325). -/

namespace Sys2Proof.Machine

/-! ### The register allocator (R131) -/

/-- Blocks of a group's run: N/8 (R129). -/
def Group.blocks (g : Group) : Nat := g.window / 8

/-- A range of blocks is free on a core: no group of a resident team holds any of it. -/
def State.blocksFree (s : State) (core a n : Nat) : Bool :=
  s.allTeams.all (fun t =>
    !(match t.res with | .resident c _ => c == core | _ => false) ||
      t.groups.all (fun g => decide (g.run + g.blocks ≤ a) || decide (a + n ≤ g.run)))

/-- The size of the largest aligned free range that holds the aligned range at `a` of size `n`, by doubling. -/
def State.freeAround (s : State) (core a : Nat) : Nat → Nat → Nat
  | 0, n => n
  | fuel + 1, n =>
    let m := 2 * n
    if m ≤ 256 && s.blocksFree core (a / m * m) m then s.freeAround core a fuel m else n

/-- Groups resident on a core; a core holds 64 (R126). -/
def State.groupsOn (s : State) (core : Nat) : Nat :=
  s.allTeams.foldl (fun n t => match t.res with | .resident c _ => if c = core then n + t.groups.length else n | _ => n) 0

/-- R131: the buddy allocator's choice: a run inside the smallest free range; of several equally small the lowest (DESIGN
CHOICE, log entry 93). -/
def State.allocRun (s : State) (core n : Nat) : Option Nat :=
  let cands := ((List.range (256 / n)).map (· * n)).filter (fun a => s.blocksFree core a n)
  let sized := cands.map (fun a => (s.freeAround core a 8 n, a))
  (sized.foldl (fun best x =>
    match best with
    | none => some x
    | some b => if x.1 < b.1 then some x else some b) none).map Prod.snd

/-! ### Groups -/

/-- The lowest team-local number free (R14). -/
def Team.freeGroup (m : Team) : Option Nat := (List.range 32).find? (fun n => m.groups.all (fun g => g.num != n))

def listAdd (l : List Nat) (i n : Nat) : List Nat := l.set i (l.getD i 0 + n)
def listSub (l : List Nat) (i n : Nat) : List Nat := l.set i (l.getD i 0 - n)

/-- A thread at birth (R10). -/
def Thread.born (k : ThreadKey) (r : Role) (entry : Addr) (window : Nat) (v0 : Word) : Thread :=
  { Thread.inert with key := k, role := r, entry := entry, regs := (List.replicate window 0).set 0 v0, pc := entry,
                      hdr := entry, status := .ready }

/-- The entry record of an address and role (R61). -/
def Team.entryRec (m : Team) (entry : Addr) (r : Role) : Option EntryRec :=
  m.entries.find? (fun e => e.addr == entry && e.role == roleNum r)

/-- Seats 0 to n−1 as a mask (R15). -/
def seatMask (n : Nat) : BitVec 32 := BitVec.ofNat 32 (2 ^ n - 1)

/-- R14, R15, R129: forms a group of the threads whose birth arguments are given, in a run already allotted. -/
def State.formGroup (s : State) (m : Team) (num run : Nat) (entry : Addr) (r : Role) (window : Nat) (args : List Word) :
    State :=
  let g : Group :=
    { num := num, entry := entry, role := r, window := window, live := seatMask args.length,
      members := seatMask args.length, run := run, dead := [] }
  let m := { m with groups := m.groups ++ [g], used := listAdd m.used (roleNum r) (window / 8) }
  let ts := args.zipIdx.map (fun p => Thread.born ⟨m.uid, num, p.2⟩ r entry window p.1)
  let s := s.setTeam m
  { s with threads := s.threads ++ ts }

/-! ### Tills -/

def Team.till (m : Team) (i : Nat) : Option Till := (m.tills.getD i none)
def Team.setTill (m : Team) (i : Nat) (t : Option Till) : Team := { m with tills := m.tills.set i t }

/-- The till of a pair. -/
def Team.tillOf (m : Team) (entry : Addr) (r : Role) : Option Nat :=
  (List.range 8).find? (fun i => match m.till i with | some t => t.entry == entry && t.role = r | none => false)

def Team.freeTill (m : Team) : Option Nat := (List.range 8).find? (fun i => decide (m.tills[i]? = some none))

/-- R18: a till becomes due, keeping its place if it already is. -/
def State.makeDue (s : State) (u i : Nat) : State :=
  match s.team? u with
  | none => s
  | some m =>
    match m.till i with
    | none => s
    | some t =>
      if t.due.isSome then s
      else { s.setTeam (m.setTill i (some { t with due := some s.dueOrder })) with dueOrder := s.dueOrder + 1 }

/-- R17, R20: places a thread in the till of its pair. `none` where the spawner must park: the pair's till is full, or
the pair has none and all eight are taken. -/
def State.placeSpawn (s : State) (u : Nat) (entry : Addr) (r : Role) (arg : Word) (flush : Bool) : Option State :=
  match s.team? u with
  | none => none
  | some m =>
    let put (i : Nat) (t : Till) : State :=
      let t := { t with args := t.args ++ [arg] }
      let s := s.setTeam (m.setTill i (some t))
      if t.args.length = 32 ∨ flush then s.makeDue u i else s
    match m.tillOf entry r with
    | some i =>
      match m.till i with
      | some t => if 32 ≤ t.args.length then none else some (put i t)
      | none => none
    | none =>
      match m.freeTill with
      | some i => some (put i { entry := entry, role := r, args := [], due := none, timer := m.tillp })
      | none => none

/-- Why a due till may not release yet (R19): the team's own limits, or the core's allocator. -/
def Team.tillHeld (m : Team) (t : Till) : Bool :=
  match m.entryRec t.entry t.role with
  | none => true
  | some e =>
    m.freeGroup.isNone || decide (m.budgets.getD (roleNum t.role) 0 < m.used.getD (roleNum t.role) 0 + 2 ^ e.lgregs / 8)

/-- The due till that goes next: releases wait in the order in which tills became due (R19). -/
def Team.nextDue (m : Team) : Option (Nat × Till) :=
  (List.range 8).foldl (fun best i =>
    match m.till i with
    | some t =>
      match t.due, best with
      | none, b => b
      | some _, none => some (i, t)
      | some d, some (j, u) => if d < u.due.getD 0 then some (i, t) else some (j, u)
    | none => best) none

/-- R19: the next due till of a team can release now: the team is resident and not being pre-empted (R25), and the core
has a group free (R126) and a run. -/
def State.canRelease (s : State) (m : Team) : Option (Nat × Till × Nat × Nat × Nat) :=
  if !m.resident || m.preempt.isSome then none else
  match m.nextDue with
  | none => none
  | some (i, t) =>
    if m.tillHeld t || decide (64 ≤ s.groupsOn m.core) then none else
    match m.entryRec t.entry t.role, m.freeGroup with
    | some e, some g =>
      let w := 2 ^ e.lgregs
      match s.allocRun m.core (w / 8) with
      | some run => some (i, t, g, run, w)
      | none => none
    | _, _ => none

/-! ### Precise traps of threads that are not acting -/

/-- A precise fault of any thread of a team at its current word (R28). -/
def State.trapAtWord (s : State) (t : Thread) (m : Team) (f : FaultRec → FaultRec) : State :=
  let h := match t.clause with
    | some c => c.header
    | none => t.hdr
  let w := match t.clause with
    | some c => c.word
    | none => t.startAt
  let n := (t.clause.map ClauseCtx.count).getD 0
  s.trapThread t m (f (s.recFor t m h w)) (addr57 (h + BitVec.ofNat 64 (4 * w))) (h, w) n none

/-- R20: every live thread of the team is parked on a spawn and every due till is held back by the team's own limits. Some till
is due, and one that only waits behind another is not held back so (DEDUCED, log entry 21). -/
def State.spawnDeadlocked (s : State) (m : Team) : Bool :=
  let ts := s.threadsOf m.uid
  let due := (List.range 8).filterMap (fun i => (m.till i).bind (fun t => if t.due.isSome then some t else none))
  !ts.isEmpty && ts.all (fun t => match t.status with | .parked (.spawn _ _ _ _) => true | _ => false) &&
    !due.isEmpty && due.all m.tillHeld

/-- R20: SPAWN_DEADLOCK on every thread of the team parked on a spawn; detail is the entry address (R101). -/
def State.spawnDeadlock (s : State) (u : Nat) : State :=
  match s.team? u with
  | none => s
  | some m =>
    if !s.spawnDeadlocked m then s else
    (s.threadsOf u).foldl (fun s t =>
      match t.status, s.team? u with
      | .parked (.spawn e _ _ _), some m => s.trapAtWord t m (fun r => { r with cause := 0x0E, detail := e })
      | _, _ => s) s

/-- R20, R101: room has appeared: the spawns that waited complete, and their threads go on at the next word. Where
several wait, they take the room in the order of the thread list (DESIGN CHOICE, log entry 73). -/
def State.wakeSpawners (s : State) (u : Nat) : State :=
  (s.threadsOf u).foldl (fun s t =>
    match t.status with
    | .parked (.spawn e r arg fl) =>
      match s.placeSpawn u e r arg fl with
      | some s => s.setThread { t.advance with status := .ready }
      | none => s
    | _ => s) s

/-- R19: the next due till of a team becomes a group; its till is free, which may let parked spawns complete (R20). -/
def State.releaseNext (s : State) (u : Nat) : Option State :=
  (s.team? u).bind (fun m =>
    (s.canRelease m).map (fun x =>
      (s.formGroup (m.setTill x.1 none) x.2.2.1 x.2.2.2.1 x.2.1.entry x.2.1.role x.2.2.2.2 x.2.1.args).wakeSpawners u))

/-- Every till of a team that can release now does, up to `n` of them (R19). -/
def State.releaseUpTo (s : State) (u : Nat) : Nat → State
  | 0 => s
  | n + 1 =>
    match s.releaseNext u with
    | none => s
    | some t => t.releaseUpTo u n

/-- R19: a team's due tills release as soon as they can. A spawn that goes on may fill another till, so as many turns are
taken as the team may have groups. The order in which tills became due binds the tills of one team: a till that waits holds
back no till of another team, and the tills of a team whose thread leaves are looked at first (DESIGN CHOICE, log entry
90). -/
def State.releaseTills (s : State) (u : Nat) : State := (s.releaseUpTo u 32).spawnDeadlock u

/-! ### The leaving of a thread -/

/-- Operations in flight that land in a team's scratchpad from another team's `cpy.peer` (R34, R190). -/
def State.peerInFlight (s : State) (u : Nat) : Bool :=
  s.ops.any (fun o => o.key.team != u && o.fault.isNone &&
    (match o.kind with
     | .copy ps _ => ps.any (fun p => match p.dst with | .scratch t _ => t == u | _ => false)
     | _ => false))

/-- R325: the slot of a team may be freed. -/
def State.slotDone (s : State) (m : Team) : Bool :=
  m.resident && (s.threadsOf m.uid).isEmpty && (List.range 8).all (fun i => (m.till i).isNone) && !s.peerInFlight m.uid

/-- R34, R325: frees a team's slot when due; its monitor entries go with it (R225). Stash lines still dirty are written
back when its grid completes (R380). -/
def State.freeSlot (s : State) (u : Nat) : State :=
  match s.team? u with
  | none => s
  | some m =>
    if !s.slotDone m then s else
    { s.setTeam { m with res := .freed m.core, groups := [] } with
        monitors := s.monitors.filter (fun x => x.team != some u) }

/-- R34: a live seat becomes exited; its group goes with its last thread and its blocks return to the role (R129). -/
def Team.seatGone (m : Team) (t : Thread) : Team :=
  match m.groups.find? (fun g => g.num == t.key.group) with
  | none => m
  | some g =>
    let live := g.live &&& ~~~(1#32 <<< t.key.seat)
    if live = 0 then
      { m with groups := m.groups.filter (fun x => x.num != g.num), used := listSub m.used (roleNum g.role) g.blocks }
    else
      let g' : Group := { g with live := live, dead := (t.key.seat, t.regs, t.badRegs) :: g.dead }
      { m with groups := m.groups.map (fun x => if x.num = g.num then g' else x) }

/-- R22, R156: the threads of a group that wait at a cross-lane instruction evaluate their wait again, as a seat has left. -/
def wakeLanes (u g : Nat) (t : Thread) : Thread :=
  if t.key.team = u ∧ t.key.group = g then
    (match t.status with
     | .xlane _ => { t with redo := true }
     | _ => t)
  else t

/-- R34: the acting thread is removed. -/
def State.leave (s : State) : State :=
  let k := s.th.key
  let m := s.tm.seatGone s.th
  let s := { s with ops := s.ops.filter (fun o => some o.id != s.th.replay) }
  let s := ({ s with th := Thread.inert, tm := m, pfx := none }).mapThreads (wakeLanes k.team k.group)
  (s.releaseTills k.team).freeSlot k.team

end Sys2Proof.Machine
end

