-- ==== Sys2Proof/Machine/Control.lean ====
section
/-! DEFINITION. Branches, calls, traps and return from trap, system registers, the cycle counter, random numbers,
spawn and the prefixes (04_thread_integer R97 to R109; 02_encoding R45, R46; 20_package_control R382). -/

namespace Sys2Proof.Machine

/-! ### Control transfer -/

/-- R98: taken or not, per thread. -/
def State.branch (s : State) (taken : Bool) (o : BitVec 21) : Out :=
  s.word { cls := 0, reads := [], writes := [] }
    (fun s => s.jump (if taken then branchTarget s.header o else s.nextHeader))

/-- `bp` (R98). -/
def execBp (p : Nat) (o : BitVec 21) (s : State) : Out := s.branch (s.th.pred p) o

/-- `bnp` (R98). -/
def execBnp (p : Nat) (o : BitVec 21) (s : State) : Out := s.branch (!s.th.pred p) o

/-- `br` is `bp` with p7 (R44). -/
def execBr (o : BitVec 21) (s : State) : Out := s.branch true o

/-- `call` (R99): the return address to the link pair v(2j) and v(2j+1), then the branch. -/
def execCall (j : Nat) (o : BitVec 21) (s : State) : Out :=
  s.word { cls := 0, reads := [], writes := pairRegs (2 * j) } (fun s =>
    .next { s with th := (s.th.setPair (2 * j) s.nextHeader).goto (branchTarget s.header o), pfx := none })

/-- R100: a target whose bits [1:0] and [63:57] are zero. -/
def targetOk (a : Addr) : Bool := decide (a.toNat % 4 = 0) && decide (a.toNat < 2 ^ 57)

/-- R100: to the address in a pair. -/
def State.jumpPair (s : State) (a : Nat) : Out :=
  s.word { cls := 0, reads := pairRegs a, writes := [] } (fun s =>
    if targetOk (s.th.pair a) then s.jump (s.th.pair a) else s.faultAt 0x09 (s.th.pair a) 0)

/-- `ret` (R100). -/
def execRet (a : Nat) (s : State) : Out := s.jumpPair a

/-- `jr` (R100): the same effect as `ret`. -/
def execJr (a : Nat) (s : State) : Out := s.jumpPair a

/-- `nop` (R104). -/
def execNop (s : State) : Out := s.plain [] [] (fun t => t)

/-- Drops the replay of a load whose handler chose another address: its registers keep their values (R30). -/
def State.dropReplay (s : State) : State :=
  match s.th.replay.bind s.op? with
  | none => { s with th := { s.th with replay := none } }
  | some o => { s.dropOp o.id with th := { s.th.clearPendings o.regs with replay := none } }

/-- `exit` (R34, R103): waits for every flag and every operation without one (R125), takes a fault found there, then
leaves. In the handler the load that `tret` was to perform again is dropped first, so that nothing waits for it. -/
def execExit (s : State) : Out :=
  s.word { cls := 0, reads := [], writes := [] } (fun s =>
    let s := if s.th.trapActive then s.dropReplay else s
    if s.flagsBusy s.th 0xFFF || (s.unflagged s.th).isSome then .next s.stall
    else match s.firstFault s.th 0xFFF 0xFFF with
      | some o =>
        if s.th.seenFaults.contains o.id then .next (s.dropOp o.id)
        else
          let f := o.fault.getD s.here
          .next (s.deliver s.th s.tm o f (s.header, s.wordIdx))
      | none => .next s.leave)

/-- `yield` (R102): a progress point; under a pre-emption the thread stops at its clause. -/
def execYield (s : State) : Out :=
  s.word { cls := 0, reads := [], writes := [] } (fun s =>
    if s.tm.preempt.isSome then
      .next { s with th := { (s.th.progress.goto s.header) with status := .saved false none }, pfx := none }
    else .next { s with th := { s.th.progress.advance with status := .yielded 2 }, pfx := none })

/-- `trap` (R105). -/
def execTrap (n : Nat) (s : State) : Out :=
  s.word { cls := 0, reads := [], writes := [] } (fun s => s.faultDetail 0x0B n)

/-- `brk` (R105, R387). -/
def execBrk (n : Nat) (s : State) : Out :=
  s.word { cls := 0, reads := [], writes := [] } (fun s => (s.snapshot 2).faultDetail 0x0C n)

/-! ### Return from trap (R30, R106) -/

/-- R106: where `tret` goes when the handler has written %fpc: a word of the recorded clause, or a clause header. -/
def Thread.resumeAt (t : Thread) (a : Addr) : Thread :=
  let h := t.resume.clause
  if h.toNat + 4 ≤ a.toNat ∧ a.toNat ≤ h.toNat + 4 * t.resume.count ∧ a.toNat % 4 = 0 then
    { t.goto h with pc := a, startAt := (a.toNat - h.toNat) / 4 }
  else t.goto a

/-- Goes on where the trap being served left off (R30). -/
def Thread.resumeSet (t : Thread) : Thread :=
  { t.goto t.resume.hdr with pc := addr57 (t.resume.hdr + BitVec.ofNat 64 (4 * t.resume.word)), startAt := t.resume.word }

/-- The load that `tret` performs again: the one whose deferred fault the handler serves (R30). -/
def State.toReplay (s : State) : Option Op :=
  (s.th.replay.bind s.op?).bind (fun o => if (o.fault.map FaultRec.deferred).getD false then some o else none)

/-- `tret` (R106). Where %fpc stands as set, a deferred load is performed again, and a thread that took an engine's fault goes
on at its place (R186); otherwise the thread goes on at %fpc, the replay dropped first, also where %fpc is misaligned and
faults (DEDUCED, log entry 72). -/
def execTret (s : State) : Out :=
  s.word { cls := 0, reads := [], writes := [] } (fun s =>
    if !s.th.trapActive then s.fault 0x01
    else
      let s := s.withTh (fun t => { t with trapActive := false })
      match s.th.fpc == s.th.fpc0, s.toReplay with
      | true, some o =>
        let o := { o with fault := none, pa := none, issue := s.nextIssue }
        .next { s.setOp o with th := { s.th.resumeSet with status := .replay o.id }, pfx := none, nextIssue := s.nextIssue + 1 }
      | stands, _ =>
        let s := s.dropReplay
        if stands && s.th.resume.own then .next { s with th := s.th.resumeSet, pfx := none }
        else if !targetOk s.th.fpc then s.faultAt 0x09 s.th.fpc 0
        else .next { s with th := s.th.resumeAt s.th.fpc, pfx := none })

/-! ### System registers (R16, R107, R382) -/

/-- A supervisor register's value and width in words (R382). -/
def State.supRead (s : State) (n : Nat) : Option (BitVec 64 × Bool) :=
  let t := s.tenantOf s.sup.tsel
  let w := t.windows.getD s.sup.wsel (1, 0)
  let v32 (x : Nat) : Option (BitVec 64 × Bool) := some (BitVec.ofNat 64 x, false)
  match n with
  | 0x80 => v32 s.sup.tsel
  | 0x81 => v32 s.sup.wsel
  | 0x82 => some (BitVec.ofNat 64 w.1, true)
  | 0x83 => some (BitVec.ofNat 64 w.2, true)
  | 0x84 => v32 t.fqhead
  | 0x85 => v32 t.fqtail
  | 0x86 => v32 t.quantum
  | 0x88 => some (s.sup.errcnt, true)
  | 0x89 => some (s.sup.readmissions ++ s.sup.dissents, true)
  | 0x8A => v32 s.sup.snapen.toNat
  | 0x8B => v32 s.sup.snapcause.toNat
  | _ => none

/-- R381: room in a fault queue takes the records held back, oldest first. -/
def State.admitHeld (s : State) (n : Nat) : Nat → State
  | 0 => s
  | k + 1 =>
    let t := s.tenantOf n
    match t.held with
    | [] => s
    | e :: rest =>
      if (t.fqtail + 1) % 2 ^ t.lgfq = t.fqhead then s
      else ((s.setTenant { t with held := rest }).pushEntry n e).admitHeld n k

/-- R381, R382: %fqhead moves; consumed records that wait for nothing are gone, and held records come in. -/
def State.writeFqhead (s : State) (n : Nat) (v : Nat) : State :=
  let t := s.tenantOf n
  let size := 2 ^ t.lgfq
  let h := v % size
  let consumed (i : Nat) : Bool := decide ((i + size - t.fqhead) % size < (h + size - t.fqhead) % size)
  let s := s.setTenant { t with fqhead := h, fq := t.fq.filter (fun e => e.wait != .none || !consumed e.index) }
  s.admitHeld n (t.held.length)

/-- A write of a supervisor register (R382); `none` where the register is read-only, unlisted, or refuses the value. -/
def State.supWrite (s : State) (n : Nat) (v : BitVec 64) : Option State :=
  let t := s.tenantOf s.sup.tsel
  let w := t.windows.getD s.sup.wsel (1, 0)
  let x := v.toNat % 2 ^ 32
  match n with
  | 0x80 => if x ≤ 15 then some { s with sup := { s.sup with tsel := x } } else none
  | 0x81 => if x ≤ 7 then some { s with sup := { s.sup with wsel := x } } else none
  | 0x82 => some (s.setTenant { t with windows := t.windows.set s.sup.wsel (v.toNat % 2 ^ 36, w.2) })
  | 0x83 => some (s.setTenant { t with windows := t.windows.set s.sup.wsel (w.1, v.toNat % 2 ^ 36) })
  | 0x84 => some (s.writeFqhead s.sup.tsel x)
  | 0x86 => some (s.setTenant { t with quantum := x })
  | 0x8A => some { s with sup := { s.sup with snapen := lo32 v } }
  | 0x8B => some { s with sup := { s.sup with snapcause := lo32 v } }
  | _ => none

/-- The context of the acting thread's team is a supervisor context (R312). -/
def State.isSup (s : State) : Bool := ((s.ctxOf s.tm.ctx).map Ctx.supervisor).getD false

/-- R16: a thread's system register: its value and whether it is 64 bits wide. -/
def State.sysRead (s : State) (n : Nat) : Option (BitVec 64 × Bool) :=
  let v (x : Nat) : Option (BitVec 64 × Bool) := some (BitVec.ofNat 64 x, false)
  match n with
  | 0x00 => v s.th.key.seat
  | 0x01 => v s.th.key.group
  | 0x02 => v s.tm.index
  | 0x03 => v (roleNum s.th.role)
  | 0x04 => v s.tm.core
  | 0x05 => v s.tm.ctx
  | 0x06 => v s.th.window
  | 0x07 => v s.tm.slot
  | 0x10 => v s.th.cause.toNat
  | 0x11 => some (s.th.fpc, true)
  | 0x12 => some (frecOf s.tm s.th.key, true)
  | 0x13 => some (((s.ctxOf s.tm.ctx).map Ctx.tvec).getD 0, true)
  | n => if s.isSup then s.supRead n else none

/-- `rdsr` (R107). -/
def execRdsr (d n : Nat) (s : State) : Out :=
  match s.sysRead n with
  | none => s.fault 0x02
  | some (v, wide) =>
    if wide then s.plain [] (pairRegs d) (fun t => t.setPair d v) else s.plain [] [d] (fun t => t.setReg d (lo32 v))

/-- Registers that `wrsr` may write, and whether they take a pair (R16, R382). -/
def State.sysWritable (s : State) (n : Nat) : Option Bool :=
  if n = 0x11 then (if s.th.trapActive then some true else none)
  else if !s.isSup then none
  else if n = 0x82 ∨ n = 0x83 then some true
  else if n = 0x80 ∨ n = 0x81 ∨ n = 0x84 ∨ n = 0x86 ∨ n = 0x8A ∨ n = 0x8B then some false
  else none

/-- `wrsr` (R107): %fpc in the handler, or a supervisor register. -/
def execWrsr (r n : Nat) (s : State) : Out :=
  match s.sysWritable n with
  | none => s.fault 0x02
  | some wide =>
    s.word { cls := 0, reads := if wide then pairRegs r else [r], writes := [] } (fun s =>
      let v := if wide then s.th.pair r else (s.th.reg r).setWidth 64
      if n = 0x11 then s.complete (fun t => { t with fpc := v })
      else match s.supWrite n v with
        | some s => .next s.advance
        | none => s.fault 0x02)

/-- `rdcyc` (R108). -/
def execRdcyc (d : Nat) (s : State) : Out :=
  s.plain [] (pairRegs d) (fun t => t.setPair d (s.coreAt s.tm.core).cycle)

/-! ### Philox-4x32-10 (R109) -/

/-- The generator's counter and key. -/
structure Philox where
  c0 : Word
  c1 : Word
  c2 : Word
  c3 : Word
  k0 : Word
  k1 : Word
  deriving DecidableEq, Repr

/-- One round. -/
def Philox.round (x : Philox) : Philox :=
  let p : BitVec 64 := (0xD2511F53#32).setWidth 64 * x.c0.setWidth 64
  let q : BitVec 64 := (0xCD9E8D57#32).setWidth 64 * x.c2.setWidth 64
  { x with c0 := hi32 q ^^^ x.c1 ^^^ x.k0, c1 := lo32 q, c2 := hi32 p ^^^ x.c3 ^^^ x.k1, c3 := lo32 p }

/-- `n` further rounds, the key raised before each. -/
def Philox.rounds (x : Philox) : Nat → Philox
  | 0 => x
  | n + 1 => Philox.rounds ({ x with k0 := x.k0 + 0x9E3779B9, k1 := x.k1 + 0xBB67AE85 } : Philox).round n

def Philox.word (x : Philox) (i : Nat) : Word :=
  match i with
  | 0 => x.c0
  | 1 => x.c1
  | 2 => x.c2
  | _ => x.c3

def philoxOf (t : Thread) (a : Nat) : Philox :=
  { c0 := t.reg a, c1 := t.reg (a + 1), c2 := t.reg (a + 2), c3 := t.reg (a + 3), k0 := t.reg (a + 4), k1 := t.reg (a + 5) }

/-- `prng` (R109). -/
def execPrng (d a i : Nat) (s : State) : Out :=
  s.plain (blockRegs a 6) [d] (fun t => t.setReg d (((philoxOf t a).round.rounds 9).word i))

/-! ### Spawn (R17, R20, R101) -/

/-- Both spawn forms. -/
def State.spawnForm (s : State) (flush : Bool) (r : Role) (a : Nat) (o : BitVec 15) : Out :=
  s.word { cls := 0, reads := [a], writes := [] } (fun s =>
    let entry := branchTarget s.header o
    match s.tm.entryRec entry r with
    | none => s.faultAt 0x0D entry 0
    | some _ =>
      match s.placeSpawn s.tm.uid entry r (s.th.reg a) flush with
      | some s => .next (s.advance.releaseTills s.tm.uid)
      | none => .next ((s.park (.spawn entry r (s.th.reg a) flush)).spawnDeadlock s.tm.uid))

/-- `spawn` (R101). -/
def execSpawn (r : Role) (a : Nat) (o : BitVec 15) (s : State) : Out := s.spawnForm false r a o

/-- `spawnf` (R101). -/
def execSpawnf (r : Role) (a : Nat) (o : BitVec 15) (s : State) : Out := s.spawnForm true r a o

/-! ### Prefixes (R45 to R49) -/

/-- The word after the acting thread's word in its clause. -/
def State.nextWord (s : State) : Option Nat :=
  match s.th.clause with
  | none => none
  | some c => (c.words[c.word]?).map BitVec.toNat

/-- R49 step 1 for a word of the acting thread: assigned, and not supervisor-only in a tenant context. -/
def State.opcodeOk (s : State) (w : Nat) : Bool := assignedWord w && (majorOf w != 0x6D || s.isSup)

/-- R39 for a word of the acting thread. -/
def State.classOk (s : State) (w : Nat) : Bool := classOfMajor (majorOf w) == 0 || classOfMajor (majorOf w) == s.clsNow

/-- Checks 1 and 2 on the prefixed word, then the prefix's own conditions (R49); then the pair's word is next. -/
def State.prefixWord (s : State) (ok : Nat → Bool) (p : Pfx) : Out :=
  match s.nextWord with
  | none => s.fault 0x03
  | some w =>
    if !s.opcodeOk w then s.fault 0x01
    else if !s.classOk w then s.fault 0x05
    else if s.pfx.isSome || !ok w then s.fault 0x03
    else .next { s with th := s.th.advance, pfx := some p }

/-- The operand prefix (R45). -/
def execOperandPrefix (p : Nat) (z : Bool) (c : Nat) (s : State) : Out :=
  s.prefixWord (fun w =>
    operandPrefixable (majorOf w) && (!(majorOf w == 0x1B) || !z) && (usesAddend (majorOf w) || c == 0))
    (.operand p z c)

/-- A global store of majors 0x43 and 0x47. -/
def isGlobalStore (m fn : Nat) : Bool := m == 0x43 || (m == 0x47 && decide (8 ≤ fn))

/-- The hint prefix (R46); before a global store its count must be 0 (R175). -/
def execHintPrefix (n l : Nat) (x : BitVec 16) (s : State) : Out :=
  s.prefixWord (fun w =>
    hintPrefixable (majorOf w) (bitsAt w 0 8) &&
      (!isScratchWord (majorOf w) (bitsAt w 0 8) || (n == 0 && l == 0)) &&
      (!isGlobalStore (majorOf w) (bitsAt w 0 8) || n == 0)) (.hint n l x)

end Sys2Proof.Machine
end

