-- ==== Sys2Proof/Machine/Pages.lean ====
section
/-! DEFINITION. Page faults: parking, the one record per page, and the translation of an access made at issue or by an
operation (01_thread R32; 16_die_control R318; 07_core_access R177). -/

namespace Sys2Proof.Machine

/-- A record waits for this page of this context. -/
def FqEntry.waitsFor (ctx page : Nat) (e : FqEntry) : Bool :=
  match e.wait with
  | .page c p _ => c == ctx && p == page
  | _ => false

/-- Adds an access to a page-fault record. -/
def FqEntry.attach (ctx page n : Nat) (e : FqEntry) : FqEntry :=
  match e.wait with
  | .page c p l => if c = ctx ∧ p = page then { e with wait := .page c p (l ++ [n]) } else e
  | _ => e

/-- R318: an access meets a page that is not present: it joins the page's record, or makes one. The thread parks in its
handler too, and the record's nested bit is clear (DESIGN CHOICE, log entry 74: R31 and R32 both speak of that fault). -/
def State.addAccess (s : State) (key : ThreadKey) (op push : Option Nat) (r : FaultRec) (fpc : Addr) (va : Addr)
    (lane : Option (Nat × ThreadKey)) : Nat × State :=
  let n := s.nextAccess
  let s := s.snapOnCause 0x10
  let r := s.withLanes lane { r with cause := 0x10, replayable := true, vaddr := va }
  let a : PageAccess := { num := n, key := key, op := op, push := push, base := r, fpc := fpc, issue := lane.map Prod.fst }
  let s := { s with nextAccess := n + 1, accesses := s.accesses ++ [a] }
  let t := s.tenantOf r.tenant
  if (t.fq ++ t.held).any (FqEntry.waitsFor r.ctx (pageOf va)) then
    (n, s.setTenant { t with fq := t.fq.map (FqEntry.attach r.ctx (pageOf va) n),
                             held := t.held.map (FqEntry.attach r.ctx (pageOf va) n) })
  else (n, s.pushEntry r.tenant { index := 0, record := r, wait := .page r.ctx (pageOf va) [n], lane := lane })

/-- An entry whose index the supervisor has not yet consumed. -/
def Tenant.inRing (t : Tenant) (i : Nat) : Bool :=
  let n := 2 ^ t.lgfq
  decide ((i + n - t.fqhead) % n < (t.fqtail + n - t.fqhead) % n)

/-- Accesses are given up: a record that none waits on any longer waits for nothing (R383). -/
def State.dropAccesses (s : State) (gone : PageAccess → Bool) : State :=
  let kept := s.accesses.filter (fun a => !gone a)
  let clear (e : FqEntry) : FqEntry :=
    match e.wait with
    | .page _ _ l => if kept.any (fun a => l.contains a.num) then e else { e with wait := .none }
    | _ => e
  let settle (t : Tenant) : Tenant :=
    { t with fq := (t.fq.map clear).filter (fun e => e.wait != .none || t.inRing e.index), held := t.held.map clear }
  { s with accesses := kept, tenants := s.tenants.map settle }

/-- What waited on an access waits on another one instead, or on none. -/
def State.waitOn (s : State) (a : PageAccess) (n : Option Nat) : State :=
  let op (o : Op) : Op := if some o.id = a.op then { o with waitPage := n } else o
  let push (p : Push) : Push := if some p.idx = a.push then { p with wait := n } else p
  { s with ops := s.ops.map op, pushes := s.pushes.map push }

/-- A thread parks; its team may be stopping it for a pre-emption (R25, R318). -/
def State.parkThread (s : State) (t : Thread) (p : Park) : State :=
  match s.team? t.key.team with
  | some m => s.setThread (m.parks t p)
  | none => s.setThread { t with status := .parked p }

/-- A lane of a gang issue, of the present one or an earlier one, has faulted without a record in the fault area (R176). -/
def State.laneFaulted (s : State) (lane : Option (Nat × ThreadKey)) : State :=
  match lane with
  | some (n, k) => if s.issue.map Issue.num = some n then s.markLane k none else s.noteLane n k
  | none => s

/-- R32: a thread parks at its word, or at a header, on a page that is not present; `lane` is the gang issue of the
access, if it has one. -/
def State.parkOnPage (s : State) (t : Thread) (r : FaultRec) (fpc : Addr) (va : Addr) (lane : Option (Nat × ThreadKey)) : State :=
  let (n, s) := s.addAccess t.key none none r fpc va lane
  (s.laneFaulted lane).parkThread t (.page n)

/-- The same for the acting thread at its word, with a record; a pair is issued again from its prefix. -/
def State.pageFaultAs (s : State) (r : FaultRec) (va : Addr) : State :=
  let fpc := s.wordPc
  let s := s.stall
  s.parkOnPage s.th r fpc va (s.laneOf s.th.key)

def State.pageFault (s : State) (va : Addr) : State := s.pageFaultAs s.here va

/-- Whether a page fault of one of its operations parks a thread in this status (R32). A thread that waits at a cross-lane
word or is parked on something else performs its word again once the page is resolved. -/
def Status.canParkOnPage : Status → Bool
  | .ready | .sync _ | .replay _ | .yielded _ | .xlane _ => true
  | .parked p => p.progress
  | _ => false

/-- R318: an operation meets a page that is not present, with the record of its access. An engine stalls; any other
accessor's thread parks. -/
def State.pageWait (s : State) (o : Op) (r : FaultRec) (va : Addr) : State :=
  let lane := if o.laned r.engine then some (o.issue, o.key) else none
  let (n, s) := s.addAccess o.key (some o.id) none r o.fpc va lane
  let s := (s.laneFaulted lane).setOp { o with waitPage := some n }
  if r.engine then s
  else
    match s.thread? o.key with
    | some t => if t.status.canParkOnPage then s.parkThread t (.page n) else s
    | none => s

def State.pageFaultOp (s : State) (o : Op) (engine : Bool) (va : Addr) : State :=
  s.pageWait o { o.base with engine := engine } va

/-- The status of a thread that no page holds any longer: waiting still for another page, for a synchronous operation or
a replay, or ready. -/
def State.unparked (s : State) (t : Thread) : Status :=
  match s.accesses.find? (fun a => a.key == t.key &&
      (match a.op.bind s.op? with | some o => o.waitPage == some a.num && !a.base.engine | none => false)) with
  | some a => .parked (.page a.num)
  | none =>
    match s.ops.find? (fun o => o.key == t.key && o.flag == none && o.fault.isNone) with
    | some o => if t.replay = some o.id then .replay o.id else .sync o.id
    | none => .ready

/-! ### Words that access memory -/

/-- An `ld.acq`. -/
def Op.isAcq (o : Op) : Bool :=
  match o.kind with
  | .load _ _ _ _ _ _ (some _) | .written true => true
  | _ => false

/-- R278: an `ld.acq` of the acting thread has not left its flag. -/
def State.acqPending (s : State) : Bool := !(s.awaited Op.isAcq).isEmpty

/-- A word that accesses memory or scratchpad or issues an engine operation: it waits for an earlier `ld.acq` (R278). -/
def State.memWord (s : State) (i : WordInfo) (body : State → Out) : Out := s.word i (fun s => s.waitFor Op.isAcq body)

/-- A tracked instruction waits while its flag is full (R12). -/
def State.tracked (s : State) (e : Bool) (body : State → Out) : Out := if s.flagRoom e then body s else .next s.stall

/-- The team of an operation is swapped out: an access that waited for a page is performed again after it resumes
(R318). -/
def State.outside (s : State) (u : Nat) : Bool :=
  match (s.team? u).map Team.res with
  | some (.swapped _ _ _ _ _ _) => true
  | _ => false

/-- An event of an operation that is neither faulted nor waiting for a page, and whose team is not out. -/
def State.onOp (s : State) (id : Nat) (body : Op → Ev) : Out :=
  s.orStay <|
  match s.op? id with
  | none => none
  | some o => if o.fault.isSome || o.waitPage.isSome || s.outside o.key.team then none else body o

/-! ### Reads and writes of memory (R235, R280) -/

/-- A read or write of memory by a thread. -/
def Op.accesses (o : Op) : Bool := o.kind.isRead || o.kind.isWrite

/-- One that has not faulted. -/
def Op.inFlight (o : Op) : Bool := o.accesses && o.fault.isNone

/-! ### Walks in flight (R317) -/

/-- The access kinds a walk of an outstanding operation checks, in order (R177, R269). -/
def OpKind.walkKinds (k : OpKind) : Option (Addr × List Access) :=
  match k with
  | .load va _ _ _ _ _ _ => some (va, [.read])
  | .ldb va _ _ => some (va, [.read])
  | .atom _ _ va _ _ _ => some (va, [.write, .read])
  | _ => none

/-- The places in memory that a copy is to reach next, each with its access kind (R190 to R192). -/
def OpKind.copyAccesses (k : OpKind) : List (Addr × Access) :=
  let ends (p : Piece) : List (Addr × Access) :=
    (match p.src with | .mem va => [(va, .read)] | _ => []) ++ (match p.dst with | .mem va => [(va, .write)] | _ => [])
  match k with
  | .copy ps _ => ps.flatMap ends
  | .cpw r _ _ _ _ => [(r, .read)]
  | .cpl list next _ [] _ => [(list + BitVec.ofNat 64 (16 * next), .read)]
  | .cpl _ _ _ ps _ => ps.flatMap ends
  | _ => []

/-- The first of them whose page the core's TLBs do not hold. -/
def State.copyMiss (s : State) (o : Op) : Option (Addr × Access) :=
  o.kind.copyAccesses.find? (fun x => decide (x.1.toNat < 2 ^ 57) && (s.tlbHit o.core o.ctx x.1).isNone)

/-- What an outstanding operation has still to translate: a thread's access its address, a copy the page it misses. -/
def State.untranslated (s : State) (o : Op) : Option (Addr × List Access) :=
  if o.fault.isSome || o.waitPage.isSome then none
  else
    match o.kind.walkKinds with
    | some x => if o.pa.isNone then some x else none
    | none => (s.copyMiss o).map (fun x => (x.1, [x.2]))

/-- The walk an outstanding operation needs: die, context and page. -/
def State.walkKey (s : State) (o : Op) : Option (Nat × Nat × Nat) :=
  match o.walk with
  | some k => if o.fault.isSome || o.waitPage.isSome then none else some k
  | none => (s.untranslated o).map (fun x => (dieOf o.core, o.ctx, pageOf x.1))

/-- An operation for which no walk has ended. -/
def Op.unwalked (o : Op) : Op := { o with walked := [] }

/-- The state in which a step of an engine's operation is made: the walks that have ended for it serve the step. -/
def State.walking (s : State) (o : Op) : State := { s.setOp o.unwalked with walkFor := some o.walked }

/-- R317: a step of an operation of an engine of the die. A translation in it that misses needs a walk: the operation starts
one or joins the one in flight, and the step is made when it has ended. -/
def State.withWalks (s : State) (o : Op) (body : State → Op → Ev) : Ev :=
  if o.walk.isSome then none
  else
    match body (s.walking o) o.unwalked with
    | none => none
    | some t =>
      match t.missed with
      | some k => some (s.setOp { o with walk := some k })
      | none => some { t with walkFor := none }

/-- The walks of a die that some operation still waits for. -/
def State.walksOn (s : State) (die : Nat) : List (Nat × Nat × Nat) :=
  s.walks.filter (fun w => w.1 == die && s.ops.any (fun o => s.walkKey o == some w))

/-- R317: a miss of a core on a page waits for a walk to end: the one in flight for that page, which it joins, or one of the
64 its die has in flight. -/
def State.walkBusy (s : State) (core ctx : Nat) (va : Addr) : Bool :=
  !s.walks.isEmpty && (s.tlbHit core ctx va).isNone &&
    (let l := s.walksOn (dieOf core)
     l.contains (dieOf core, ctx, pageOf va) || decide (64 ≤ l.length))

/-! ### Translations of accesses -/

/-- A precise fault that a translation or a memory read gives the acting thread (R177). LINK_FAILED, which R35 calls
deferred, is precise at a word that has no operation to defer it (DESIGN CHOICE, log entry 75). -/
def State.faultX (s : State) (e : XFault) : State :=
  if e.cause = 0x10 then s.pageFault e.vaddr
  else s.trap { s.here with cause := e.cause, vaddr := e.vaddr, detail := e.detail }

/-- An access translated at issue: its faults are precise and a page that is not present parks the thread (R177). A miss
stalls while it has to wait for a walk (R317). -/
def State.withPa (s : State) (va : Addr) (k : Access) (body : State → Leaf → Nat → Out) : Out :=
  if s.walkBusy s.tm.core s.tm.ctx va then .next s.stall else
  match s.translate s.tm.core s.tm.ctx va k with
  | (.error e, s) => .next (s.faultX e)
  | (.ok (l, pa), s) => body s l pa

/-- The record of a fault of an operation. -/
def Op.record (o : Op) (e : XFault) (engine : Bool) : FaultRec :=
  { o.base with cause := e.cause, vaddr := e.vaddr, detail := e.detail, engine := engine }

/-- Lanes of one gang issue that meet faults together: each fails with its own record, and all records of the issue that
are not yet delivered name them all (R176). -/
def State.failTogether (s : State) (now : List (Op × FaultRec)) : State :=
  let s := now.foldl (fun s x => s.noteLane x.1.issue x.1.key) s
  now.foldl (fun s x => s.failOp x.1 { x.2 with lanes := s.laneSeats x.1.issue x.1.key }) s

/-- The same for faults of translation and of memory, each with its own address. -/
def State.failLanes (s : State) (now : List (Op × XFault)) : State :=
  s.failTogether (now.map (fun x => (x.1, x.1.record x.2 false)))

/-- A fault met by a thread's own operation: a page wait, or the fault itself, of a lane of its issue (R29, R33). -/
def State.faultOp (s : State) (o : Op) (e : XFault) : State :=
  if e.cause = 0x10 then s.pageFaultOp o false e.vaddr else s.failLanes [(o, e)]

/-- Whether parts of a line can be read through a core's caches now: the link answers and no unit is poisoned (R231,
R358). -/
def State.coreReadable (s : State) (core : Nat) (va : Addr) (line : Nat) (xs : List (Nat × Nat)) (fill : Bool) :
    Except XFault Unit :=
  if s.linkDown line then .error ⟨0x31, 0, va⟩
  else if s.corePoisoned core line xs fill then .error ⟨0x30, 0, va⟩
  else .ok ()

/-- Whether bytes at their performing point can be read now: the link answers and no unit is poisoned (R231, R358). -/
def State.readable (s : State) (va : Addr) (pa n : Nat) : Except XFault Unit :=
  if s.linkDown pa then .error ⟨0x31, 0, va⟩
  else if s.poisoned pa n then .error ⟨0x30, 0, va⟩
  else .ok ()

end Sys2Proof.Machine
end

