-- ==== Sys2Proof/Machine/Pieces.lean ====
section
/-! DEFINITION. What a copy moves: pieces, the reads of a copy, layout records and entries of command lists (08_core_engines
R185, R190 to R192). -/

namespace Sys2Proof.Machine

/-! ### Pieces (R185) -/

/-- Cuts a run of bytes so that no piece crosses a 256-byte boundary at either end. -/
def cutRun (x y : Nat) : Nat → Nat → Nat → List (Nat × Nat)
  | 0, _, _ => []
  | fuel + 1, pos, rem =>
    if rem = 0 then []
    else
      let n := min rem (min (256 - (x + pos) % 256) (256 - (y + pos) % 256))
      (pos, n) :: cutRun x y fuel (pos + n) (rem - n)

/-- Pieces between two places given by functions of the position. -/
def piecesOf (x y len : Nat) (src dst : Nat → Loc) : List Piece :=
  (cutRun x y len 0 len).map (fun p => { src := src p.1, dst := dst p.1, len := p.2 })

def memAt (va : Addr) (i : Nat) : Loc := .mem (va + BitVec.ofNat 64 i)

/-- Memory to scratchpad. -/
def piecesIn (va : Addr) (u off len : Nat) : List Piece :=
  piecesOf va.toNat off len (memAt va) (fun i => .scratch u (off + i))

/-- Scratchpad to memory. -/
def piecesOut (u off : Nat) (va : Addr) (len : Nat) : List Piece :=
  piecesOf off va.toNat len (fun i => .scratch u (off + i)) (memAt va)

/-- Scratchpad to scratchpad. -/
def piecesAcross (u off v tgt len : Nat) : List Piece :=
  piecesOf off tgt len (fun i => .scratch u (off + i)) (fun i => .scratch v (tgt + i))

/-- Zero bytes to scratchpad. -/
def piecesZero (u off len : Nat) : List Piece :=
  (cutRun off off len 0 len).map (fun p => { src := .bytes (List.replicate p.2 0), dst := .scratch u (off + p.1), len := p.2 })

/-! ### Reading memory (R190) -/

/-- The first poisoned 8-byte unit of a range, as a virtual address. -/
def State.poisonVa (s : State) (core : Nat) (va : Addr) (pa n : Nat) : Addr :=
  ((atoms pa n).find? (fun x => s.corePoisoned core (lineOf pa) [x] false)).elim va
    (fun x => (va + BitVec.ofNat 64 (x.1 - pa)) &&& ~~~(7 : Addr))

/-- Bytes of memory as a copy reads them: raw, through a line already in L1 and allocating none. -/
def State.engineRead (s : State) (o : Op) (va : Addr) (n : Nat) : Except XFault (List Byte) × State :=
  if 2 ^ 57 ≤ va.toNat then (.error ⟨0x09, 0, va⟩, s)
  else
    match s.translate o.core o.ctx va .read with
    | (.error e, s) => (.error e, s)
    | (.ok (_, pa), s) =>
      match s.coreReadable o.core va (lineOf pa) (atoms pa n) false with
      | .error e => (.error (if e.cause = 0x30 then { e with vaddr := s.poisonVa o.core va pa n } else e), s)
      | .ok () =>
        let (b, s) := s.coreRead o.core (lineOf pa) (atoms pa n) 0 3 o.issue
        (.ok (slice b (pa % 256) n), s)

/-! ### Layout records (R191) -/

/-- The record's fields, if they are valid. -/
structure Layout where
  img : Addr
  w : Nat
  h : Nat
  cb : Nat
  rs : Nat
  x0 : Int
  y0 : Int
  p : Nat
  ow : Nat
  sx : Nat
  sy : Nat
  deriving DecidableEq, Repr

def Layout.of (r : List Byte) : Layout :=
  { img := leAddr (slice r 0 8), w := fieldAt r 0x08 2, h := fieldAt r 0x0A 2, cb := fieldAt r 0x0C 2, rs := fieldAt r 0x0E 2,
    x0 := (BitVec.ofNat 16 (fieldAt r 0x10 2)).toInt, y0 := (BitVec.ofNat 16 (fieldAt r 0x12 2)).toInt,
    p := fieldAt r 0x14 2, ow := fieldAt r 0x16 2, sx := fieldAt r 0x18 1, sy := fieldAt r 0x19 1 }

def Layout.valid (l : Layout) (r : List Byte) : Bool :=
  decide (l.img.toNat % 16 = 0) && decide (1 ≤ l.w) && decide (1 ≤ l.h) &&
  decide (16 ≤ l.cb) && decide (l.cb ≤ 4096) && decide (l.cb % 16 = 0) && decide (l.rs % 16 = 0) &&
  decide (l.w * l.cb ≤ l.rs) && decide (1 ≤ l.p) && decide (l.p ≤ 4096) && decide (1 ≤ l.ow) && decide (l.ow ≤ 4096) &&
  decide (1 ≤ l.sx) && decide (1 ≤ l.sy) && decide (fieldAt r 0x1A 6 = 0)

/-- The pieces of one position. -/
def Layout.position (l : Layout) (u d : Nat) (dx dy : Int) (p : Nat) : List Piece :=
  let ix := l.x0 + (p % l.ow : Nat) * l.sx + dx
  let iy := l.y0 + (p / l.ow : Nat) * l.sy + dy
  let dst := d + p * l.cb
  if 0 ≤ ix ∧ ix < l.w ∧ 0 ≤ iy ∧ iy < l.h then
    piecesIn (l.img + BitVec.ofInt 64 (iy * l.rs + ix * l.cb)) u dst l.cb
  else piecesZero u dst l.cb

/-! ### Entries of a command list (R192) -/

/-- An entry: address, scratchpad offset, length and flags. -/
structure ListEntry where
  va : Addr
  off : Nat
  len : Nat
  flags : Nat
  deriving DecidableEq, Repr

def ListEntry.of (r : List Byte) : ListEntry :=
  { va := leAddr (slice r 0 8), off := fieldAt r 8 4, len := fieldAt r 0x0C 3, flags := fieldAt r 0x0F 1 }

/-- The address of an entry. -/
def entryAt (list : Addr) (i : Nat) : Addr := list + BitVec.ofNat 64 (16 * i)

end Sys2Proof.Machine
end

