-- ==== Sys2Proof/Machine/Presence.lean ====
section
/-! DEFINITION. Scratchpad bytes, presence of lines, stash windows, barrier updates and what wakes the threads that wait
on them (06_core R136 to R141, R152; 08_core_engines R179, R180, R185, R186). -/

namespace Sys2Proof.Machine

/-! ### Ranges engines have yet to write (R137, R138) -/

/-- A range of a team's scratchpad: team, offset, length. -/
abbrev Range := Nat × Nat × Nat

def rangeMeets (a b : Range) : Bool := a.1 == b.1 && decide (a.2.1 < b.2.1 + b.2.2) && decide (b.2.1 < a.2.1 + a.2.2)

def Piece.range? (p : Piece) : Option Range :=
  match p.dst with
  | .scratch t o => some (t, o, p.len)
  | _ => none

/-- What `cpt` has still to deliver: 256 bytes a tile, and two halfwords a tile in stored form (R338). -/
def cptRanges (own next n dst md : Nat) (stored : Bool) : List Range :=
  (own, dst + 256 * next, 256 * (n - next)) ::
    (if stored then [(own, md + 2 * next, 2 * (n - next)), (own, md + 2 * n + 2 * next, 2 * (n - next))] else [])

/-- The scratchpad ranges an operation has still to write, as far as its operands tell. -/
def OpKind.toWrite (k : OpKind) (own : Nat) : List Range :=
  match k with
  | .copy ps _ => ps.filterMap Piece.range?
  | .cpl _ _ _ ps _ => ps.filterMap Piece.range?
  | .cpw _ d _ _ _ => [(own, d, 1)]
  | .cpt _ _ next n dst md st _ => cptRanges own next n dst md st
  | .mat m => [(own, m.aofs, 2048)]
  | .accClr a => [(own, a, 2048)]
  | _ => []

/-- The bytes a copy would read at an address now. -/
def State.peek (s : State) (o : Op) (va : Addr) (n : Nat) : Option (List Byte) :=
  match (s.engineRead o va n).1 with
  | .ok b => some b
  | .error _ => none

/-- The ranges that a layout record or the entries of a list yet to be read name (R137; log entry 16). While a record or an
entry cannot be read, all that it could name: from the record's destination on, and for an entry the whole scratchpad
(DEDUCED, log entry 100). -/
def State.listWrites (s : State) (o : Op) : List Range :=
  let size := ((s.team? o.key.team).map (fun m => 4096 * m.sgran)).getD 0
  match o.kind with
  | .cpw rec_ d _ _ _ =>
    (match s.peek o rec_ 32 with
     | some r => if (Layout.of r).valid r then [(o.key.team, d, (Layout.of r).p * (Layout.of r).cb)] else []
     | none => [(o.key.team, d, size - d)])
  | .cpl list next count _ _ =>
    (List.range (count - next)).filterMap (fun i =>
      match s.peek o (entryAt list (next + i)) 16 with
      | some r => if (ListEntry.of r).flags = 0 then some (o.key.team, (ListEntry.of r).off, (ListEntry.of r).len) else none
      | none => some (o.key.team, 0, size))
  | _ => []

/-- What an operation has still to write. R186: one that has faulted writes no more, and its lines are present again. -/
def State.toWrite (s : State) (o : Op) : List Range :=
  if o.fault.isSome then [] else o.kind.toWrite o.key.team ++ s.listWrites o

def State.opWrites (s : State) (o : Op) (r : Range) : Bool := (s.toWrite o).any (rangeMeets r)

/-- Line `l` of a team's scratchpad as a range. -/
def lineRange (u l : Nat) : Range := (u, 256 * l, 256)

/-- An operation with a number from `n` on, other than one named, still has to write a line that a range touches (R137). -/
def State.writtenBy (s : State) (r : Range) (but : Option Nat) (n : Nat := 0) : Bool :=
  s.ops.any (fun o => decide (n ≤ o.id) && some o.id != but &&
    s.opWrites o (r.1, r.2.1 / 256 * 256, (r.2.1 + r.2.2 + 255) / 256 * 256 - r.2.1 / 256 * 256))

/-- An operation issued before `id` still has to write a range (R138, R197). -/
def State.earlierWriter (s : State) (r : Range) (id : Nat) : Bool := s.ops.any (fun o => decide (o.id < id) && s.opWrites o r)

/-! ### Stash windows (R140, R141, R168 to R170) -/

/-- The window and line of a scratchpad offset. -/
def Team.stashAt (m : Team) (o : Nat) : Option (Nat × Nat) :=
  (m.stash.zipIdx.find? (fun p => p.1.valid && decide (p.1.off ≤ o) && decide (o < p.1.off + p.1.len))).map
    (fun p => (p.2, (o - p.1.off) / 256))

/-- The window and line of a virtual address. -/
def Team.stashVa (m : Team) (a : Addr) : Option (Nat × Nat) :=
  (m.stash.zipIdx.find? (fun p =>
      p.1.valid && decide (p.1.va.toNat ≤ a.toNat) && decide (a.toNat < p.1.va.toNat + p.1.len))).map
    (fun p => (p.2, (a.toNat - p.1.va.toNat) / 256))

def Team.window (m : Team) (w : Nat) : Stash := m.stash.getD w Stash.unset
def Stash.line (x : Stash) (l : Nat) : StashLine := x.lines.getD l .unfilled
def Stash.setLine (x : Stash) (l : Nat) (v : StashLine) : Stash := { x with lines := x.lines.set l v }
def Team.setWindow (m : Team) (w : Nat) (x : Stash) : Team := { m with stash := m.stash.set w x }

/-- The scratchpad offset of a line of a window. -/
def Stash.lineOff (x : Stash) (l : Nat) : Nat := x.off + 256 * l

/-- A range of scratchpad overlaps a valid window of a team (R170, R189). -/
def Team.overlapsStash (m : Team) (o n : Nat) : Bool :=
  m.stash.any (fun x => x.valid && decide (o < x.off + x.len) && decide (x.off < o + n))

/-! ### Scratchpad bytes -/

/-- What a byte of a team's scratchpad holds (R132: zero at placement). -/
def Team.scratchByte (m : Team) (o : Nat) : Byte := Memory.read m.scratch o

def Team.scratchBytes (m : Team) (o n : Nat) : List Byte := (List.range n).map (fun i => m.scratchByte (o + i))

/-- A 32-bit word that holds an uncorrectable error in a range (R154). -/
def Team.badIn (m : Team) (o n : Nat) : Bool := m.badWords.any (fun w => decide (4 * w < o + n) && decide (o < 4 * w + 4))

def cellsPut (o : Nat) (c : Cells) : List Byte → Cells
  | [] => c
  | b :: t => cellsPut (o + 1) (Memory.write o b c) t

/-- Bytes written; a word wholly overwritten is sound again (R154), and a line on which bytes land is no longer absent by the
image alone (R137, R323). -/
def Team.scratchWrite (m : Team) (o : Nat) (b : List Byte) : Team :=
  { m with scratch := cellsPut o m.scratch b,
           badWords := m.badWords.filter (fun w => !(decide (o ≤ 4 * w) && decide (4 * w + 4 ≤ o + b.length))),
           lineBits := m.lineBits.filter (fun p => p.2.isSome || !(decide (o < 256 * p.1 + 256) && decide (256 * p.1 < o + b.length))) }

/-- Bytes of a scratchpad line overlapped by a store, as a dirty mask. -/
def dirtyMask (o n : Nat) : BitVec 256 := BitVec.ofNat 256 ((2 ^ n - 1) * 2 ^ (o % 256))

/-- R136: bounds, then alignment, as a cause. -/
def Team.scratchCheck (m : Team) (o : Int) (n align : Nat) : Option Nat :=
  if o < 0 ∨ (4096 * m.sgran : Nat) < o + n then some 0x14
  else if o.toNat % align ≠ 0 then some 0x15
  else none

/-! ### Presence (R137) -/

/-- A line of a team's scratchpad whose presence bit is 0, but for what an operation that reads it has itself still to write:
an operation has still to write it, or a fill of it is in progress (R140), where no image gave the bit otherwise. -/
def State.absentTo (s : State) (reader : Option Nat) (u l : Nat) : Bool :=
  match s.team? u with
  | none => s.writtenBy (lineRange u l) reader
  | some m =>
    match (m.lineBits.find? (fun p => p.1 == l)).map Prod.snd with
    | some none => true
    | b =>
      s.writtenBy (lineRange u l) reader ((b.bind id).getD 0) ||
      (match m.stashAt (256 * l) with
       | some (w, i) => (m.window w).line i == .filling
       | none => false)

/-- A line of a team's scratchpad whose presence bit is 0. -/
def State.absent (s : State) (u l : Nat) : Bool := s.absentTo none u l

/-- R137: a range that an engine operation reads has every line present. -/
def State.linesPresent (s : State) (r : Range) (reader : Option Nat) : Bool :=
  (linesOf r.2.1 r.2.2).all (fun o => !s.absentTo reader r.1 (o / 256))

/-- Threads parked on lines that are present again go on, and perform their access before anything else happens (R137,
R166). -/
def State.wakeLines (s : State) : State :=
  s.mapThreads (fun t =>
    match t.status with
    | .parked (.line l) => if s.absent t.key.team l then t else { t with status := .ready, redo := true }
    | .parked (.stash w l _ _) =>
      (match s.team? t.key.team with
       | none => t
       | some m => if (m.window w).valid && (m.window w).line l == .filling then t else { t with status := .ready, redo := true })
    | _ => t)

/-! ### Barrier registers (R179, R180) -/

def Team.bar (m : Team) (b : Nat) : Bar := m.bars.getD b Bar.unset
def Team.setBar (m : Team) (b : Nat) (x : Bar) : Team := { m with bars := m.bars.set b x }

/-- R180: phase q has completed. -/
def Bar.doneAt (b : Bar) (q : Nat) : Bool :=
  let d := (b.phase + 65536 - q % 65536) % 65536
  decide (1 ≤ d) && decide (d ≤ 32768)

/-- R179: one update: a detail number where it faults, else the register and the groups it wakes. -/
def Bar.update (b : Bar) (count : Nat) (bytes : Int) : Except Nat (Bar × BitVec 32) :=
  if !b.valid then .error 1
  else if b.expected < count + b.arrived then .error 2
  else
    let q := b.pending + bytes
    if q < -(2 ^ 39) ∨ (2 ^ 39 : Int) - 1 < q then .error 3
    else
      let b := { b with pending := q, arrived := b.arrived + count }
      if b.arrived = b.expected ∧ b.pending = 0 then
        .ok ({ b with phase := (b.phase + 1) % 65536, arrived := 0, waiters := 0 }, b.waiters)
      else .ok (b, 0)

/-- The barrier register a parked thread waits on. -/
def Team.waitsOn (m : Team) (p : Park) : Option Nat :=
  match p with
  | .bar b _ => some b
  | .ringAcq r _ => some (m.rings.getD r Ring.unset).empty
  | .ringGet r _ => some (m.rings.getD r Ring.unset).full
  | _ => none

/-- A thread of the team that waits on a barrier register. -/
def Team.waiterOn (m : Team) (b : Nat) (t : Thread) : Bool :=
  t.key.team == m.uid && (match t.status with | .parked p => m.waitsOn p == some b | _ => false)

/-- A parked thread goes on at its word, where it evaluates the condition of its wait again (R8, R180). -/
def Thread.wake (t : Thread) : Thread :=
  match t.status with
  | .parked p => { t with status := .ready, held := some p }
  | _ => t

/-- R179: wakes the threads of groups that wait on a register; each tests its phase again. -/
def State.wakeGroups (s : State) (m : Team) (b : Nat) (groups : BitVec 32) : State :=
  s.mapThreads (fun t => if m.waiterOn b t && groups.getLsbD t.key.group then t.wake else t)

/-- The groups of threads whose wait, as `f` gives it, is on a register (R152). -/
def Team.groupsOn (m : Team) (b : Nat) (f : Thread → Option Park) (ts : List Thread) : BitVec 32 :=
  ts.foldl (fun w t => if ((f t).bind m.waitsOn) == some b then w ||| (1#32 <<< t.key.group) else w) 0

/-- What a thread is parked in, or was when it stopped. -/
def Thread.park? (t : Thread) : Option Park :=
  match t.status with
  | .parked p => some p
  | .saved _ p => p
  | _ => none

/-- One update of a team's register, with its wake-ups. -/
def State.barUpdate (s : State) (u b count : Nat) (bytes : Int) : Except Nat State :=
  match s.team? u with
  | none => .error 1
  | some m =>
    match (m.bar b).update count bytes with
    | .error e => .error e
    | .ok (x, g) => .ok ((s.setTeam (m.setBar b x)).wakeGroups m b g)

/-- A wait to which a fault of an engine is delivered: `bar.wait` or `ring.get`, for a phase of a register (R186). -/
def Team.faultWait (m : Team) (b q : Nat) (p : Park) : Bool :=
  match p with
  | .bar c n => c == b && n % 65536 == q
  | .ringGet r n => (m.rings.getD r Ring.unset).full == b && n % 65536 == q
  | _ => false

/-- R186: threads parked for the phase of a register that a failed operation would have helped complete go back to their words
and take its fault there; the others stay parked. A waiters bit stays while a thread of its group stays parked (R152). -/
def State.wakeForFault (s : State) (u b : Nat) : State :=
  match s.team? u with
  | none => s
  | some m =>
    let x := m.bar b
    let hit (t : Thread) : Bool :=
      t.key.team == u && (match t.status with | .parked p => m.faultWait b x.phase p | _ => false)
    let s := s.mapThreads (fun t => if hit t then t.wake else t)
    s.setTeam (m.setBar b { x with waiters := x.waiters &&& m.groupsOn b Thread.park? (s.threadsOf u) })

/-! ### Faults of engines (R186) -/

/-- An engine operation faults: its record is attached, lines are present again, and waiters of its register look. -/
def State.engineFail (s : State) (o : Op) (r : FaultRec) : State :=
  let s := s.failOp o { r with engine := true }
  let s := match o.kind.bar? with
    | some b => s.wakeForFault o.key.team b
    | none => s
  s.wakeLines

/-- An engine operation meets a fault of translation or memory: the engine stalls on a page, else fails (R189). -/
def State.engineFault (s : State) (o : Op) (e : XFault) : State :=
  if e.cause = 0x10 then s.pageFaultOp o true e.vaddr else s.engineFail o (o.record e true)

/-- An engine operation finds an invalid field, as a cause and detail (R178). -/
def State.engineField (s : State) (o : Op) (cause detail : Nat) : State :=
  s.engineFail o { o.base with cause := cause, detail := BitVec.ofNat 64 detail }

/-! ### Stash write-back (R141) -/

/-- The word of an escrow region lies at this address (R226). -/
def State.inRegion (s : State) (ctx : Nat) (va : Addr) : Bool := (s.regionOf ctx va).isSome

/-- The runs of consecutive numbers in an ascending list: first and length. -/
def runsOf : List Nat → List (Nat × Nat)
  | [] => []
  | a :: t =>
    match runsOf t with
    | [] => [(a, 1)]
    | (b, n) :: r => if b = a + 1 then (a, n + 1) :: r else (a, 1) :: (b, n) :: r

/-- The dirty bytes of unit `v` of a line go to the cluster cache, each run of them as one store (R234). -/
def State.stashUnitBack (s : State) (m : Team) (w l : Nat) (d : BitVec 256) (v : Nat) : State :=
  let x := m.window w
  let pa := x.pas.getD l 0
  (runsOf (((List.range 8).map (8 * v + ·)).filter d.getLsbD)).foldl (fun s r =>
    s.clusterStore m.core (pa + r.1) (m.scratchBytes (x.lineOff l + r.1) r.2)
      (s.inRegion m.ctx (x.va + BitVec.ofNat 64 (256 * l + r.1)))) s

/-- The dirty bytes of one line go to the cluster cache as stores, and the line becomes unfilled. A word in error goes as it is
read (DESIGN CHOICE, log entry 111). -/
def State.stashLineBack (s : State) (u w l : Nat) : State :=
  match s.team? u with
  | none => s
  | some m =>
    match (m.window w).line l with
    | .filled d =>
      let s := (List.range 32).foldl (fun s v => s.stashUnitBack m w l d v) s
      s.setTeam (m.setWindow w ((m.window w).setLine l .unfilled))
    | _ => s

/-- Unit `v` of a filled line becomes whole (R234): its dirty bytes go to the cluster cache, and it is read again, where it can
be. -/
def State.stashMend (s : State) (m : Team) (w l : Nat) (d : BitVec 256) (v : Nat) : Except XFault (Team × State) :=
  let x := m.window w
  let pa := x.pas.getD l 0
  let xs := [(pa + 8 * v, 8)]
  let s := s.stashUnitBack m w l d v
  match s.coreReadable m.core (x.va + BitVec.ofNat 64 (256 * l + 8 * v)) pa xs false with
  | .error e => .error e
  | .ok () =>
    let (b, s) := s.coreRead m.core pa xs 0 3 0
    .ok ((m.scratchWrite (x.lineOff l + 8 * v) (slice b (8 * v) 8)).setWindow w
      (x.setLine l (.filled (d &&& ~~~(dirtyMask (8 * v) 8)))), s)

/-- Every filled line of a window. -/
def State.stashBack (s : State) (u w : Nat) : State :=
  match s.team? u with
  | none => s
  | some m =>
    if (m.window w).valid then (List.range (m.window w).lines.length).foldl (fun s l => s.stashLineBack u w l) s else s

/-- Every window of a team: at a release or an acquire of cluster scope or wider (R141). -/
def State.stashBackAll (s : State) (u : Nat) : State :=
  (List.range 4).foldl (fun s w => s.stashBack u w) s

/-- R174: a unit that a team has written in memory past its stash, where a window has come to hold its address since: the
filled line takes the unit again, after what the team has stored there later; else the line is left unfilled. -/
def State.stashTakeUnit (s : State) (u : Nat) (a : Addr) : State :=
  match s.team? u with
  | none => s
  | some m =>
    match m.stashVa a with
    | none => s
    | some (w, l) =>
      match (m.window w).line l with
      | .filled d =>
        (match s.stashMend m w l d (a.toNat % 256 / 8) with
         | .ok (m, s) => s.setTeam m
         | .error _ => s.stashLineBack u w l)
      | _ => s

/-- The same for all units of a write. -/
def State.stashTake (s : State) (u : Nat) (va : Addr) (b : List Byte) : State :=
  if ((s.team? u).map (fun m => m.stash.any Stash.valid)).getD false then
    (atoms va.toNat b.length).foldl (fun s x => s.stashTakeUnit u (BitVec.ofNat 64 x.1)) s
  else s

/-! ### Releases and acquires (R237, R246) -/

/-- Every registration a cluster has sent is handled (R219). -/
def State.flushCluster (s : State) (c : Nat) : State :=
  let mine := s.registrations.filter (fun r => r.cluster == c)
  let s := { s with registrations := s.registrations.filter (fun r => r.cluster != c) }
  mine.foldl State.homeRegister s

/-- What a release at a scope does beyond waiting for the thread's accesses (R237, R141). -/
def State.releaseAt (s : State) (core u : Nat) (sc : Scope) : State :=
  match sc with
  | .team => s
  | .cluster => s.stashBackAll u
  | _ => (s.stashBackAll u).flushCluster (clusterOf core)

/-- The invalidation of an acquire at a scope (R278). -/
def State.acquireStep (s : State) (core u : Nat) (sc : Scope) : State :=
  match sc with
  | .team => s
  | _ => (s.stashBackAll u).acquireAt core sc

/-- An operation completes (R246): its join's acquire at its scope, then its flag. -/
def State.joinOp (s : State) (o : Op) : State := (s.acquireStep o.core o.key.team o.scope).finishOp o

/-- R185: bytes of an operation have landed: its register is told, and whether it is the last of them. An update that
faults is an engine fault of the operation. -/
def State.landed (s : State) (o : Op) (bytes : Nat) (last : Bool) : State :=
  match o.kind.bar? with
  | none => if last then (s.joinOp o).wakeLines else s.wakeLines
  | some b =>
    match s.barUpdate o.key.team b 0 (-(bytes : Int)) with
    | .error e => s.engineField o 0x02 e
    | .ok s =>
      if !last then s.wakeLines
      else match s.barUpdate o.key.team b 1 0 with
        | .error e => s.engineField o 0x02 e
        | .ok s => (s.joinOp o).wakeLines

end Sys2Proof.Machine
end

