-- ==== Sys2Proof/Machine/Scratch.lean ====
section
/-! DEFINITION. Scratchpad loads and stores, the presence test, and stash windows (07_core_access R164 to R170;
06_core R136, R137, R140, R141). -/

namespace Sys2Proof.Machine

/-! ### Data of an access (R165, R172) -/

/-- The registers an access of a size names (R43). -/
def dataRegs (d size : Nat) : List Nat := blockRegs d (if size ≤ 4 then 1 else size / 4)

/-- The register words a load of `size` bytes writes. -/
def loadWords (size : Nat) (signed : Bool) (b : List Byte) : List Word :=
  if size ≤ 2 then
    [if signed then (BitVec.ofNat (8 * size) (leNat b)).signExtend 32 else BitVec.ofNat 32 (leNat b)]
  else (List.range (size / 4)).map (fun i => leWord (slice b (4 * i) 4))

/-- The bytes a store of `size` bytes takes from its registers. -/
def Thread.storeData (t : Thread) (d size : Nat) : List Byte :=
  ((dataRegs d size).flatMap (fun r => leBytes 4 (t.reg r).toNat)).take size

/-! ### Stash lines (R140, R170) -/

/-- The acting thread touches a line of a window of its team: an unfilled line starts its fill, a line not yet filled
parks the thread, and a store needs a writable page that is not coded. `flagged` is a load on a flag. -/
def State.stashTouch (s : State) (w l off : Nat) (store flagged : Bool) (body : State → BitVec 256 → Out) : Out :=
  let x := s.tm.window w
  let va := x.va + BitVec.ofNat 64 (off - x.off)
  match x.line l with
  | .unfilled => .next (({ s with tm := s.tm.setWindow w (x.setLine l .filling) } : State).park (.stash w l off flagged))
  | .filling => .next (s.park (.stash w l off flagged))
  | .filled d =>
    if store && x.coded.getD l false then s.faultAt 0x13 va 0
    else if store && !x.writable.getD l false then s.faultAt 0x11 va 0
    else body s d

/-- The units of a line that a read of some bytes takes in part from the team's stores and in part from the fill. -/
def mixedUnits (d : BitVec 256) (off n : Nat) : List Nat :=
  ((atoms (off % 256) n).filter (fun x =>
    let ds := ((List.range x.2).map (x.1 + ·)).filter d.getLsbD
    !ds.isEmpty && ds.length != x.2)).map (fun x => x.1 / 8)

/-- The units become whole first (R234), in the order given; where one cannot be read, the line is filled again, which finds
the fault. -/
def State.stashWhole (s : State) (w l off : Nat) (flagged : Bool) (body : State → Out) : List Nat → Out
  | [] => body s
  | v :: t =>
    let x := s.tm.window w
    match x.line l with
    | .filled d =>
      (match s.stashMend s.tm w l d v with
       | .ok (m, s) => State.stashWhole { s with tm := m } w l off flagged body t
       | .error _ =>
         let s := (List.range 32).foldl (fun s v => s.stashUnitBack s.tm w l d v) s
         .next (({ s with tm := s.tm.setWindow w (x.setLine l .filling) } : State).park (.stash w l off flagged)))
    | _ => body s

/-- A load from a line of a window. -/
def State.stashLoad (s : State) (w l off n : Nat) (flagged : Bool) (body : State → Out) : Out :=
  s.stashTouch w l off false flagged (fun s d => s.stashWhole w l off flagged body (mixedUnits d off n))

/-- A store to a line of a window marks its bytes dirty. -/
def State.stashStore (s : State) (w l off n : Nat) (body : State → Out) : Out :=
  s.stashTouch w l off true false (fun s d =>
    body { s with tm := s.tm.setWindow w ((s.tm.window w).setLine l (.filled (d ||| dirtyMask off n))) })

/-- R136, R137, R164: bounds, alignment, presence, then the access at its offset. -/
def State.scratchAccess (s : State) (o : Int) (n : Nat) (store : Bool) (body : State → Nat → Out) : Out :=
  match s.tm.scratchCheck o n n with
  | some c => s.faultAt c (BitVec.ofInt 64 o) 0
  | none =>
    let off := o.toNat
    match s.tm.stashAt off with
    | some (w, l) =>
      if store then s.stashStore w l off n (fun s => body s off) else s.stashLoad w l off n false (fun s => body s off)
    | none => if s.absent s.tm.uid (off / 256) then .next (s.park (.line (off / 256))) else body s off

/-- R166: the acting thread takes bytes of its scratchpad into registers. Where a word of them is in error, vaddr is the
word that holds the first byte (R154; DESIGN CHOICE, log entry 78). -/
def State.scratchLoad (s : State) (off size : Nat) (signed : Bool) (d : Nat) : Out :=
  if s.tm.badIn off size then s.faultAt 0x30 (BitVec.ofNat 64 (off / 4 * 4)) 0
  else s.complete (fun t => t.setRegs d (loadWords size signed (s.tm.scratchBytes off size)))

/-- R166: the acting thread writes bytes of its scratchpad. -/
def State.scratchStore (s : State) (off : Nat) (b : List Byte) : Out :=
  .next ({ s with tm := s.tm.scratchWrite off b } : State).advance

/-- `lds` of a size (R165). -/
def State.lds (s : State) (size : Nat) (signed : Bool) (d b : Nat) (k : Int) : Out :=
  s.memWord { cls := 2, allows := .hint, reads := [b], writes := dataRegs d size } (fun s =>
    s.scratchAccess (s.th.scratchAddr b size k) size false (fun s off => s.scratchLoad off size signed d))

/-- `sts` of a size (R165). The store is visible at once, so every earlier load of the thread has returned (R235). -/
def State.sts (s : State) (size : Nat) (d b : Nat) (k : Int) : Out :=
  s.memWord { cls := 2, allows := .hint, reads := b :: dataRegs d size, writes := [] } (fun s =>
    s.waitFor (fun o => o.kind.isRead) (fun s =>
      s.scratchAccess (s.th.scratchAddr b size k) size true (fun s off => s.scratchStore off (s.th.storeData d size))))

/-- `lds.b32` (R165). -/
def execLdsB32 (d b : Nat) (i : BitVec 8) (s : State) : Out := s.lds 4 false d b (s.kFm i)

/-- `sts.b32` (R165). -/
def execStsB32 (d b : Nat) (i : BitVec 8) (s : State) : Out := s.sts 4 d b (s.kFm i)

/-- `lds.b128` (R165). -/
def execLdsB128 (d b : Nat) (i : BitVec 8) (s : State) : Out := s.lds 16 false d b (s.kFm i)

/-- `sts.b128` (R165). -/
def execStsB128 (d b : Nat) (i : BitVec 8) (s : State) : Out := s.sts 16 d b (s.kFm i)

/-- `lds.n8` (R165). -/
def execLdsN8 (d b : Nat) (s : State) : Out := s.lds 1 false d b s.kFmg

/-- `lds.i8` (R165). -/
def execLdsI8 (d b : Nat) (s : State) : Out := s.lds 1 true d b s.kFmg

/-- `lds.n16` (R165). -/
def execLdsN16 (d b : Nat) (s : State) : Out := s.lds 2 false d b s.kFmg

/-- `lds.i16` (R165). -/
def execLdsI16 (d b : Nat) (s : State) : Out := s.lds 2 true d b s.kFmg

/-- `lds.b64` (R165). -/
def execLdsB64 (d b : Nat) (s : State) : Out := s.lds 8 false d b s.kFmg

/-- `sts.b8` (R165). -/
def execStsB8 (d b : Nat) (s : State) : Out := s.sts 1 d b s.kFmg

/-- `sts.b16` (R165). -/
def execStsB16 (d b : Nat) (s : State) : Out := s.sts 2 d b s.kFmg

/-- `sts.b64` (R165). -/
def execStsB64 (d b : Nat) (s : State) : Out := s.sts 8 d b s.kFmg

/-- `prs.test` (R167). -/
def execPrsTest (p b : Nat) (s : State) : Out :=
  s.memWord { cls := 2, allows := .hint, reads := [b], writes := [] } (fun s =>
    let o := s.th.scratchAddr b 1 s.kFmg
    match s.tm.scratchCheck o 1 1 with
    | some c => s.faultAt c (BitVec.ofInt 64 o) 0
    | none => s.complete (fun t => t.setPred p (!s.absent s.tm.uid (o.toNat / 256))))

/-! ### Mapping (R168) -/

/-- A virtual range overlaps a valid window of a team. -/
def Team.overlapsVa (m : Team) (a : Addr) (n : Nat) : Bool :=
  m.stash.any (fun x => x.valid && decide (a.toNat < x.va.toNat + x.len) && decide (x.va.toNat < a.toNat + n))

/-- The checks of the table of R168, in its order: cause, detail and address, which is the scratchpad offset for a
scratchpad cause (DESIGN CHOICE, log entry 80). -/
def Team.mapCheck (m : Team) (off len : Nat) (va : Addr) : Option (Nat × Nat × Addr) :=
  if off % 256 ≠ 0 ∨ len % 256 ≠ 0 ∨ len = 0 then some (0x15, 0, BitVec.ofNat 64 off)
  else if 4096 * m.sgran < off + len then some (0x14, 0, BitVec.ofNat 64 off)
  else if va.toNat % 256 ≠ 0 ∨ 2 ^ 57 ≤ va.toNat then some (0x09, 0, va)
  else if m.stash.all Stash.valid then some (0x14, 1, BitVec.ofNat 64 off)
  else if m.overlapsStash off len || m.overlapsVa va len then some (0x14, 2, BitVec.ofNat 64 off)
  else none

/-- `stash.map` (R168): the checks at issue; the map itself proceeds as an operation. -/
def execStashMap (e : Bool) (d b : Nat) (s : State) : Out :=
  s.memWord { cls := 2, reads := pairRegs d ++ pairRegs b, writes := [] } (fun s =>
    s.tracked e (fun s =>
      let off := (s.th.reg d).toNat
      let len := (s.th.reg (d + 1)).toNat
      let va := s.th.pair b
      match s.tm.mapCheck off len va with
      | some (c, n, a) => s.faultAt c a (BitVec.ofNat 64 n)
      | none => .next (s.addOp e [] none (.stashMap off len va))))

/-- The pages of a range translated for reading, in ascending order, as leaves by line. -/
def State.mapLines (s : State) (core ctx : Nat) (va : Addr) : Nat → Except XFault (List (Leaf × Nat)) × State
  | 0 => (.ok [], s)
  | n + 1 =>
    match State.mapLines s core ctx va n with
    | (.error e, s) => (.error e, s)
    | (.ok ls, s) =>
      match s.translate core ctx (va + BitVec.ofNat 64 (256 * n)) .read with
      | (.error e, s) => (.error e, s)
      | (.ok x, s) => (.ok (ls ++ [x]), s)

/-- A window newly mapped: every line unfilled. -/
def Stash.mapped (off len : Nat) (va : Addr) (ls : List (Leaf × Nat)) : Stash :=
  { valid := true, off := off, len := len, va := va, lines := List.replicate (len / 256) .unfilled, pas := ls.map Prod.snd,
    big := ls.map (fun x => x.1.big), coded := ls.map (fun x => pteBit x.1.entry 5), writable := ls.map (fun x => pteBit x.1.entry 3),
    retranslate := List.replicate (len / 256) false }

/-- Event STASH_MAP_COMPLETE (R168): once every line of the range is present, the pages are translated, the range is set
to 0 and the window becomes valid. A window that another map has taken meanwhile faults as at issue (log entry 17). -/
def execStashMapComplete (op : Nat) (s : State) : Out :=
  s.onOp op (fun o =>
    match o.kind, s.team? o.key.team with
    | .stashMap off len va, some m =>
      if !s.linesPresent (m.uid, off, len) none then none
      else
        s.withWalks o (fun s o =>
          match s.mapLines o.core o.ctx va (len / 256) with
          | (.error e, s) => some (s.faultOp o e)
          | (.ok ls, s) =>
            match m.mapCheck off len va, (List.range 4).find? (fun w => !(m.window w).valid) with
            | none, some w =>
              let m := (m.scratchWrite off (List.replicate len 0)).setWindow w (Stash.mapped off len va ls)
              some ((s.setTeam m).finishOp o)
            | some (c, n, a), _ =>
              some (s.failTogether [(o, { o.base with cause := c, vaddr := a, detail := BitVec.ofNat 64 n })])
            | none, none => none)
    | _, _ => none)

/-! ### Write-back and unmapping (R169) -/

/-- The window at exactly an offset. -/
def Team.windowAt (m : Team) (off : Nat) : Option Nat :=
  (List.range 4).find? (fun w => (m.window w).valid && (m.window w).off == off)

/-- The shared form of `stash.wb` and `stash.unmap`; vaddr of SCRATCH_BOUNDS is the offset v[d] (R169; DESIGN CHOICE, log
entry 80). -/
def State.stashEnd (s : State) (e unmap : Bool) (d : Nat) : Out :=
  s.memWord { cls := 2, reads := [d], writes := [] } (fun s =>
    s.tracked e (fun s =>
      match s.tm.windowAt (s.th.reg d).toNat with
      | none => s.faultAt 0x14 ((s.th.reg d).setWidth 64) 4
      | some w => .next (s.addOp e [] none (.stashWb w unmap))))

/-- `stash.unmap` (R169). -/
def execStashUnmap (e : Bool) (d : Nat) (s : State) : Out := s.stashEnd e true d

/-- `stash.wb` (R169). -/
def execStashWb (e : Bool) (d : Nat) (s : State) : Out := s.stashEnd e false d

/-- R169: unmapping leaves filled lines as they are and sets unfilled lines to 0. -/
def Team.unmapWindow (m : Team) (w : Nat) : Team :=
  let x := m.window w
  let m := x.lines.zipIdx.foldl (fun m p =>
    match p.1 with
    | .filled _ => m
    | _ => m.scratchWrite (x.lineOff p.2) (List.replicate 256 0)) m
  m.setWindow w Stash.unset

/-- Event STASH_WB_COMPLETE (R169): no fill is in progress; the dirty bytes reach the cluster cache. Of two that are
outstanding on one window the later acts on what the window's place holds then: nothing, or a window mapped since (DESIGN
CHOICE, log entry 94). -/
def execStashWbComplete (op : Nat) (s : State) : Out :=
  s.onOp op (fun o =>
    match o.kind, s.team? o.key.team with
    | .stashWb w unmap, some m =>
      if (m.window w).lines.contains .filling then none
      else
        let kept := m.window w
        let s := s.stashBack m.uid w
        let s := match s.team? m.uid with
          | some m => if unmap && (m.window w).valid then s.setTeam ((m.setWindow w kept).unmapWindow w) else s
          | none => s
        some ((s.finishOp o).wakeLines)
    | _, _ => none)

/-! ### Fills (R140, R170) -/

/-- The threads of a team that wait for a line of a window, with the scratchpad offset of each access and whether it is a load
on a flag. -/
def State.fillWaiters (s : State) (u w l : Nat) : List (Thread × Nat × Bool) :=
  (s.threadsOf u).filterMap (fun t =>
    match t.status with
    | .parked (.stash w' l' off fl) => if w' = w ∧ l' = l then some (t, off, fl) else none
    | _ => none)

/-- A fill that cannot be made: the line is unfilled again, and the accessors take the fault at the word they wait at, each
with its own address (R176), or wait for the page. It is a deferred one (log entry 18), but for an uncorrectable error of
an access other than a load on a flag, which is precise (R177). A record names the seats that faulted in the same gang
issue (R176). -/
def State.fillFails (s : State) (u w l : Nat) (e : XFault) : State :=
  match s.team? u with
  | none => s
  | some m =>
    let ts := s.fillWaiters u w l
    let x := m.window w
    let m := m.setWindow w (x.setLine l .unfilled)
    let s := ts.foldl (fun s y => s.noteLane y.1.lastIssue y.1.key) (s.setTeam m)
    ts.foldl (fun s y =>
      let (t, off, flagged) := y
      let h := (t.clause.map ClauseCtx.header).getD t.hdr
      let i := (t.clause.map ClauseCtx.word).getD t.startAt
      let va := x.va + BitVec.ofNat 64 (off - x.off)
      if e.cause = 0x10 then
        s.parkOnPage t (s.recFor t m h i) (addr57 (h + BitVec.ofNat 64 (4 * i))) va (some (t.lastIssue, t.key))
      else
        let late := e.cause != 0x30 || flagged
        s.trapAtWord t m (fun r => { r with cause := e.cause, deferred := late, vaddr := va, detail := if late then h else 0,
                                            lanes := s.laneSeats t.lastIssue t.key })) s

/-- R170: a page of a window whose translation was dropped is translated again. -/
def State.refreshLine (s : State) (m : Team) (w l : Nat) : Except XFault Stash × State :=
  let x := m.window w
  if x.retranslate.getD l false then
    match s.translate m.core m.ctx (x.va + BitVec.ofNat 64 (256 * l)) .read with
    | (.error e, s) => (.error e, s)
    | (.ok (f, pa), s) =>
      (.ok { x with pas := x.pas.set l pa, big := x.big.set l f.big, coded := x.coded.set l (pteBit f.entry 5),
                    writable := x.writable.set l (pteBit f.entry 3), retranslate := x.retranslate.set l false }, s)
  else (.ok x, s)

/-- Whether a line that a cluster has filled can be read: the link answers and no unit is poisoned (R231, R358). -/
def State.lineSound (s : State) (c line : Nat) : Except XFault Unit :=
  if s.linkDown line then .error ⟨0x31, 0, 0⟩
  else if (unitsOf line 256).any (s.cluster c).poison.contains then .error ⟨0x30, 0, 0⟩
  else .ok ()

/-- Event STASH_FILL (R140): the 256 bytes of a line land, read as an L1 fill reads, and the accessors go on. -/
def execStashFill (team window line : Nat) (s : State) : Out :=
  s.orStay <|
  match s.team? team with
  | none => none
  | some m =>
    if !((m.window window).valid && (m.window window).line line == .filling) then none
    else
      match s.refreshLine m window line with
      | (.error e, s) => some (s.fillFails team window line e)
      | (.ok x, s) =>
        let pa := x.pas.getD line 0
        let s := if s.hasEscrow pa then (s.leaveLine m.core pa).settleLine pa else s
        let (b, s) := s.clusterLine (clusterOf m.core) pa
        match s.lineSound (clusterOf m.core) pa with
        | .error e => some (s.fillFails team window line e)
        | .ok () =>
          let m := (m.scratchWrite (x.lineOff line) b).setWindow window (x.setLine line (.filled 0))
          some ((s.l1Take m.core pa b).setTeam m).wakeLines

end Sys2Proof.Machine
end

