-- ==== Sys2Proof/Machine/Global.lean ====
section
/-! DEFINITION. Global loads and stores, their completion, and page walks of outstanding accesses (07_core_access R171 to
R177; 12_memory_model R235 to R237; 13_cluster_instr R278, R279; 16_die_control R315, R318). -/

namespace Sys2Proof.Machine

/-! ### Bytes that operations read and write -/

/-- The physical bytes a read of a thread takes, as address and length. -/
def Op.readsAt (o : Op) : List (Nat × Nat) :=
  match o.kind, o.pa with
  | .load _ n _ _ _ _ _, some a => [(a, n)]
  | .ldb _ _ _, some a => [(a, 4)]
  | .atom f _ _ _ _ _, some a => [(a, f.size)]
  | _, _ => []

/-- The physical bytes a write of a thread puts. -/
def Op.writesAt (o : Op) : List (Nat × Nat) :=
  match o.kind, o.pa with
  | .store _ b _, some a => [(a, b.length)]
  | .atom f _ _ _ _ _, some a => [(a, f.size)]
  | .badd _ _ _ _ _, some a => [(a, 4)]
  | .ctst ps, _ => ps.map (fun p => (p.2.1, p.2.2.length))
  | _, _ => []

def spanMeets (x : List (Nat × Nat)) (a n : Nat) : Bool := x.any (fun p => bytesMeet a n p.1 p.2)

/-- Earlier operations of a thread, in issue order, that have not been performed: those without a fault, and the loads that
`tret` is to perform again (R235, R250). One of the handler passes what waits for a load that the handler found faulted,
but for accesses to its own bytes (R242), and one whose team is being swapped out what waits for a page (DEDUCED, log
entry 84). -/
def State.earlier (s : State) (o : Op) : List Op :=
  let held := s.heldBack o.key
  s.ops.filter (fun p => p.owedTo o || (p.key == o.key && decide (p.id < o.id) && p.fault.isNone &&
    !(o.handler && !p.handler && held.contains p && !p.kind.meets o.kind) && !(o.letGo && p.waitPage.isSome)))

/-- R235, R236: a read of a thread may be satisfied: no earlier access of the thread to the same bytes is outstanding,
and the earlier ones have their addresses (log entry 19), but for those that have faulted, which are known by their
virtual addresses. -/
def State.readReady (s : State) (o : Op) (a n : Nat) : Bool :=
  (s.earlier o).all (fun p =>
    !(p.kind.isRead && p.pa.isNone && p.fault.isNone) && !(p.fault.isSome && p.kind.meets o.kind) &&
      !spanMeets p.readsAt a n && !spanMeets p.writesAt a n)

/-- R235: a write may become visible: every earlier load of the thread has returned, and earlier writes of the thread or
of its gang issue to the same bytes have been made (R176). -/
def State.writeReady (s : State) (o : Op) (a n : Nat) : Bool :=
  (s.earlier o).all (fun p => !p.kind.isRead) &&
  s.ops.all (fun p => !(decide (p.id < o.id) && p.fault.isNone && (p.key == o.key || p.issue == o.issue)) ||
    !spanMeets p.writesAt a n)

/-! ### Forks and joins (R246) -/

/-- R246: what precedes the fork in its thread's program order is done. -/
def State.forked (s : State) (o : Op) : Bool := (s.earlier o).all (fun p => !p.kind.isRead && !p.kind.isWrite)

/-- The first access of an operation: its fork's release is made at its scope, once what precedes the fork is done (R237,
R331). -/
def State.withFork (s : State) (o : Op) (body : State → Op → Ev) : Ev :=
  if !s.forked o then none
  else if o.begun then body s o
  else
    let o := { o with begun := true }
    body ((s.releaseAt o.core o.key.team o.scope).setOp o) o

/-! ### Loads -/

/-- R142, R314: the hint's policy, or the page's where the hint gives none. -/
def effectivePolicy (hint : Nat) (l : Leaf) : Nat := if hint = 0 then ptePol l.entry else hint

/-- A tracked load at an address: in a stash window from its line; else as an operation, translated now where a TLB holds
the page and otherwise by a walk (R171, R173, R177). -/
def State.loadAt (s : State) (e : Bool) (va : Addr) (size : Nat) (signed : Bool) (d : Nat) (acq : Option Scope) : Out :=
  let (n, l) := s.hint
  match s.tlbHit s.tm.core s.tm.ctx va with
  | none => .next (s.addOp e (dataRegs d size) none (.load va size signed d n l acq))
  | some _ =>
    s.withPa va .read (fun s f pa =>
      .next (s.addOp e (dataRegs d size) (some pa) (.load va size signed d n (effectivePolicy l f) acq)))

/-- The checks of R171 on an address. -/
def State.withAddr (s : State) (va : Addr) (size : Nat) (body : State → Out) : Out :=
  if addrOk va size then body s else s.faultAt 0x09 va 0

/-- The scratchpad offset that a virtual address in a window stands for. -/
def Stash.offsetOf (x : Stash) (va : Addr) : Nat := x.off + (va.toNat - x.va.toNat)

/-- `ld` of a size (R172). A stash line is taken or written at issue, so the thread's earlier accesses of memory come first
(R174, R235). -/
def State.ldForm (s : State) (e : Bool) (size : Nat) (signed : Bool) (d b : Nat) (k : Int) : Out :=
  s.memWord { cls := 2, allows := .hint, reads := pairRegs b, writes := dataRegs d size } (fun s =>
    s.tracked e (fun s =>
      let va := s.th.globalAddr b size k
      s.withAddr va size (fun s =>
        match s.tm.stashVa va with
        | some (w, l) =>
          s.waitFor Op.inFlight (fun s =>
            let off := (s.tm.window w).offsetOf va
            s.stashLoad w l off size (s.chosen e != 15) (fun s => s.scratchLoad off size signed d))
        | none => s.loadAt e va size signed d none)))

/-- `st` of a size (R172): its address is translated before the thread passes (R177). -/
def State.stForm (s : State) (e : Bool) (size : Nat) (d b : Nat) (k : Int) : Out :=
  s.memWord { cls := 2, allows := .hint, reads := pairRegs b ++ dataRegs d size, writes := [] } (fun s =>
    s.tracked e (fun s =>
      let va := s.th.globalAddr b size k
      s.withAddr va size (fun s =>
        match s.tm.stashVa va with
        | some (w, l) =>
          s.waitFor Op.accesses (fun s =>
            let off := (s.tm.window w).offsetOf va
            s.stashStore w l off size (fun s => s.scratchStore off (s.th.storeData d size)))
        | none =>
          s.withPa va .write (fun s _ pa => .next (s.addOp e [] (some pa) (.store va (s.th.storeData d size) none))))))

/-- `ld.b32` (R172). -/
def execLdB32 (e : Bool) (d b : Nat) (i : BitVec 8) (s : State) : Out := s.ldForm e 4 false d b (s.kFm i)

/-- `st.b32` (R172). -/
def execStB32 (e : Bool) (d b : Nat) (i : BitVec 8) (s : State) : Out := s.stForm e 4 d b (s.kFm i)

/-- `ld.n8` (R172). -/
def execLdN8 (e : Bool) (d b : Nat) (s : State) : Out := s.ldForm e 1 false d b s.kFmg

/-- `ld.i8` (R172). -/
def execLdI8 (e : Bool) (d b : Nat) (s : State) : Out := s.ldForm e 1 true d b s.kFmg

/-- `ld.n16` (R172). -/
def execLdN16 (e : Bool) (d b : Nat) (s : State) : Out := s.ldForm e 2 false d b s.kFmg

/-- `ld.i16` (R172). -/
def execLdI16 (e : Bool) (d b : Nat) (s : State) : Out := s.ldForm e 2 true d b s.kFmg

/-- `ld.b64` (R172). -/
def execLdB64 (e : Bool) (d b : Nat) (s : State) : Out := s.ldForm e 8 false d b s.kFmg

/-- `ld.b128` (R172). -/
def execLdB128 (e : Bool) (d b : Nat) (s : State) : Out := s.ldForm e 16 false d b s.kFmg

/-- `st.b8` (R172). -/
def execStB8 (e : Bool) (d b : Nat) (s : State) : Out := s.stForm e 1 d b s.kFmg

/-- `st.b16` (R172). -/
def execStB16 (e : Bool) (d b : Nat) (s : State) : Out := s.stForm e 2 d b s.kFmg

/-- `st.b64` (R172). -/
def execStB64 (e : Bool) (d b : Nat) (s : State) : Out := s.stForm e 8 d b s.kFmg

/-- `st.b128` (R172). -/
def execStB128 (e : Bool) (d b : Nat) (s : State) : Out := s.stForm e 16 d b s.kFmg

/-! ### Completion -/

/-- Bytes read from the issuing cluster's cache, past L1 (R278). -/
def State.clusterRead (s : State) (core pa n : Nat) : List Byte × State :=
  if s.hasEscrow (lineOf pa) then
    let s := (s.leaveLine core (lineOf pa)).settleLine (lineOf pa)
    (s.performBytes pa n, s)
  else
    let s := (s.makeRoom (clusterOf core) (.line (lineOf pa))).fetch (clusterOf core) (atoms pa n)
    (s.clusterBytes (clusterOf core) pa n, s)

/-- What precedes a read at home: what the cluster has sent to its slice arrives, and escrow on the line is settled (R216,
R230). -/
def State.beforeHome (s : State) (core pa n : Nat) : State :=
  let s := s.flushRegs (clusterOf core) pa n
  if s.hasEscrow (lineOf pa) then (s.leaveLine core (lineOf pa)).settleLine (lineOf pa) else s

/-- Bytes a view reads at their performing point (R221). -/
def State.homeAt (s : State) (v : View) (core pa n : Nat) : List Byte × State := (s.beforeHome core pa n).viewBytes v pa n

/-- Whether they can be read there (R231, R358). -/
def State.homeReadable (s : State) (core : Nat) (va : Addr) (pa n : Nat) : Except XFault Unit :=
  (s.beforeHome core pa n).readable va pa n

/-- A cluster answers a read of a range itself: it owns the words, or the last write of its own that meets the range covers it,
its registration being on its way (R218, R219). -/
def State.answersItself (s : State) (c pa n : Nat) : Bool :=
  !s.hasEscrow (lineOf pa) && (atoms pa n).all (s.serves c) &&
    ((wordsOf pa n).all (fun w => s.ownerOf w == some c) || !(s.patches c pa n).isEmpty)

/-- Bytes of an acquire at device scope or wider: from the cluster's own cache where it answers itself, else at home. -/
def State.homeRead (s : State) (core pa n : Nat) : List Byte × State :=
  let c := clusterOf core
  if s.answersItself c pa n then (s.clusterBytes c pa n, s) else s.homeAt none core pa n

/-- Where the value of an acquire comes from, by its scope (R278). -/
def State.acqValue (s : State) (o : Op) (pa n : Nat) (sc : Scope) : List Byte × State :=
  match sc with
  | .cluster => s.clusterRead o.core pa n
  | _ => s.homeRead o.core pa n

/-- Whether the word of an acquire can be read there (R269): the same copy that gives its value is not poisoned. -/
def State.acqReadable (s : State) (o : Op) (va : Addr) (pa n : Nat) (sc : Scope) : Except XFault Unit :=
  let bad : Bool :=
    if sc = .cluster ∧ s.hasEscrow (lineOf pa) = false then
      (unitsOf pa n).any ((s.makeRoom o.cluster (.line (lineOf pa))).fetch o.cluster (atoms pa n) |>.cluster o.cluster).poison.contains
    else if s.answersItself o.cluster pa n then (unitsOf pa n).any (s.cluster o.cluster).poison.contains
    else (s.beforeHome o.core pa n).poisoned pa n
  if s.linkDown pa then .error ⟨0x31, 0, va⟩
  else if bad then .error ⟨0x30, 0, va⟩
  else .ok ()

/-- A load that goes through L1 and the coalescer: no acquire, or one of team scope (R145, R278). -/
def OpKind.coalesces (k : OpKind) : Bool :=
  match k with
  | .load _ _ _ _ _ _ none | .load _ _ _ _ _ _ (some .team) => true
  | _ => false

/-- Loads of one gang issue that the coalescer holds together (R145). -/
def State.mates (s : State) (o : Op) : List Op :=
  s.ops.filter (fun p => p.issue == o.issue && p.fault.isNone && p.waitPage.isNone && p.kind.coalesces)

/-- The lanes of an issue that address the tile of an address. -/
def State.tileLanes (s : State) (o : Op) (pa : Nat) : List Op :=
  (s.mates o).filter (fun p => p.pa.map lineOf == some (lineOf pa))

/-- The parts of a tile that the lanes of an issue read, those of a 16-byte load in its two halves (R234). -/
def State.tileParts (s : State) (o : Op) (pa : Nat) : List (Nat × Nat) :=
  ((s.tileLanes o pa).flatMap Op.readsAt).flatMap (fun x => atoms x.1 x.2)

/-- R143: a load of a hint's count and policy leaves a line in L1. -/
def OpKind.fills (k : OpKind) : Bool :=
  match k with
  | .load _ _ _ _ n l _ => l != 3 && n != 1
  | _ => false

/-- R176: whether the 256-byte tile that holds a lane's address can be read for its lanes (log entry 20). -/
def State.tileReadable (s : State) (o : Op) (va : Addr) (pa : Nat) : Except XFault Unit :=
  s.coreReadable o.core va (lineOf pa) (s.tileParts o pa) o.kind.fills

/-- The loads of one issue that address tiles which cannot be read, each with its fault (R176). -/
def State.badLoads (s : State) (o : Op) : List (Op × XFault) :=
  (s.mates o).filterMap (fun p =>
    match p.kind, p.pa with
    | .load va _ _ _ _ _ _, some pa =>
      (match s.tileReadable p va pa with
       | .error e => some (p, e)
       | .ok () => none)
    | _, _ => none)

/-- A lane of a load's gang issue still has to write its registers: another one that has neither faulted nor waits for a page
or for a faulted load of its thread (R173, R176; log entry 104). -/
def State.matesOut (s : State) (o : Op) : Bool :=
  s.ops.any (fun p => p.issue == o.issue && p.id != o.id && p.fault.isNone && p.waitPage.isNone &&
    (match p.kind with | .load .. => true | _ => false) && !(s.heldBack p.key).contains p)

/-- R173: a load's lane writes its registers, whose pending bits clear; it leaves its flag with the last good lane of its
issue. -/
def State.loadDone (s : State) (o : Op) (d : Nat) (ws : List Word) : State :=
  let s := s.writeRegs o.key d ws
  if s.matesOut o then
    let s := match s.thread? o.key with
      | some t => s.setThread (t.clearPendings o.regs)
      | none => s
    s.setOp { o with kind := .written o.isAcq, regs := [] }
  else s.finishOp o

/-- A lane of the coalescer takes its bytes of a tile, whose 256 bytes are `b` (R145). -/
def State.loadLane (s : State) (b : List Byte) (o : Op) : State :=
  match o.kind, o.pa with
  | .load _ n sg d _ _ _, some pa => s.loadDone o d (loadWords n sg (slice b (pa % 256) n))
  | _, _ => s

/-- A lane may have its value: R235, R236. -/
def State.laneReady (s : State) (o : Op) : Bool :=
  match o.kind, o.pa with
  | .load _ n _ _ _ _ _, some pa => s.readReady o pa n
  | _, _ => false

/-- The lane's thread is parked on a page, so that the other lanes do not wait for it. -/
def State.laneParked (s : State) (o : Op) : Bool :=
  match (s.thread? o.key).map Thread.status with
  | some (.parked (.page _)) => true
  | _ => false

/-- R145: the coalescer may look the tile of an operation up: its issue's addresses are known, and the lanes on the tile may
have their values. -/
def State.tileGathered (s : State) (o : Op) (pa : Nat) : Bool :=
  (s.mates o).all (fun p => p.pa.isSome) && (s.tileLanes o pa).all (fun p => s.laneReady p || s.laneParked p)

/-- Event LOAD_RETURN for a plain or acquiring load (R145, R173, R278). One lookup serves every lane of the issue on the
tile. Both halves of a 16-byte load read at one moment (DESIGN CHOICE, log entry 115). -/
def State.loadReturn (s : State) (o : Op) (va : Addr) (size : Nat) (signed : Bool) (d count policy : Nat)
    (acq : Option Scope) : Ev :=
  match o.pa with
  | none => none
  | some pa =>
    if !s.readReady o pa size then none
    else if o.kind.coalesces then
      if !s.tileGathered o pa then none
      else
        match s.tileReadable o va pa with
        | .error _ => some (s.failLanes (s.badLoads o))
        | .ok () =>
          let lanes := (s.tileLanes o pa).filter s.laneReady
          let (b, s) := s.coreRead o.core (lineOf pa) (s.tileParts o pa) count policy o.issue
          some (lanes.foldl (fun s p => s.loadLane b p) s)
    else
      let sc := acq.getD .device
      match s.acqReadable o va pa size sc with
      | .error e => some (s.failLanes [(o, e)])
      | .ok () =>
        let (b, s) := s.acqValue o pa size sc
        some ((s.acquireStep o.core o.key.team sc).loadDone o d (loadWords size signed b))

/-- What must hold before a store-release's bytes are written (R237, R279): the accesses before it are done. -/
def State.releaseReady (s : State) (o : Op) : Bool := (s.earlier o).all (fun p => !p.kind.isRead && !p.kind.isWrite)

/-- Event STORE_WRITTEN (R173, R279): the bytes reach the cluster cache, or home where the line holds escrow. -/
def State.storeWritten (s : State) (o : Op) (va : Addr) (b : List Byte) (rel : Option Scope) : Ev :=
  match o.pa with
  | none => none
  | some pa =>
    if !s.writeReady o pa b.length || (rel.isSome && !s.releaseReady o) then none
    else
      let s := match rel with
        | none => s
        | some sc => s.releaseAt o.core o.key.team sc
      some (((s.clusterStore o.core pa b (s.inRegion o.ctx va)).stashTake o.key.team va b).finishOp o)

/-- The operation with its address found; a load takes its page's policy. -/
def Op.withPa (o : Op) (l : Leaf) (pa : Nat) : Op :=
  match o.kind with
  | .load va n g d c p a => { o with pa := some pa, kind := .load va n g d c (effectivePolicy p l) a }
  | _ => { o with pa := some pa }

/-- A translation that must pass several kinds. -/
def State.translateAll (s : State) (core ctx : Nat) (va : Addr) : List Access → Except XFault (Leaf × Nat) × State
  | [] => (.error ⟨0x11, 0, va⟩, s)
  | [k] => s.translate core ctx va k
  | k :: ks =>
    match s.translate core ctx va k with
    | (.error e, s) => (.error e, s)
    | (.ok _, s) => State.translateAll s core ctx va ks

/-- The operations that wait for a walk. -/
def State.walkers? (s : State) (k : Nat × Nat × Nat) : List Op := s.ops.filter (fun o => s.walkKey o == some k)

/-- The end of a walk for one operation: its address, its wait for a page, or a fault, which is kept with the others. A copy's
fault is its engine's (R189). -/
def State.walkDone (s : State) (fails : List (Op × XFault)) (o : Op) : List (Op × XFault) × State :=
  match o.walk, s.untranslated o with
  | some k, _ => (fails, s.setOp { o with walk := none, walked := k :: o.walked })
  | none, none => (fails, s)
  | none, some (va, ks) =>
    match s.translateAll o.core o.ctx va ks with
    | (.error e, s) =>
      if o.kind.walkKinds.isNone then (fails, s.engineFault o { e with vaddr := va })
      else if e.cause = 0x10 then (fails, s.pageFaultOp o false va)
      else (fails ++ [(o, { e with vaddr := va })], s)
    | (.ok (f, pa), s) => (fails, if o.kind.walkKinds.isNone then s else s.setOp (o.withPa f pa))

/-- A walk ends: every operation that joined it goes on; those that fault do so together (R176). -/
def State.endWalk (s : State) (k : Nat × Nat × Nat) : State :=
  let l := s.walkers? k
  let (fails, s) := l.foldl (fun x o => x.2.walkDone x.1 o) (([] : List (Op × XFault)), ({ s with walks := s.walks.filter (· != k) } : State))
  if fails.isEmpty then s else s.failLanes fails

/-- Event PAGE_WALK (R315, R317): an access that met no TLB entry starts a walk, where its die has fewer than 64 in flight
and none for its page; else the walk it has started or joined ends. -/
def execPageWalk (op : Nat) (s : State) : Out :=
  s.onOp op (fun o =>
    match s.walkKey o with
    | none => none
    | some k =>
      if s.walks.contains k then some (s.endWalk k)
      else if (s.walksOn k.1).length < 64 then
        some { s with walks := s.walks.filter (fun w => s.ops.any (fun o => s.walkKey o == some w)) ++ [k] }
      else none)

end Sys2Proof.Machine
end

