-- ==== Sys2Proof/Machine/Atomics.lean ====
section
/-! DEFINITION. Atomics, reductions and the escrow words (11_cluster R221, R222, R226 to R230; 13_cluster_instr R267 to
R276). -/

namespace Sys2Proof.Machine

/-! ### Words of majors 0x60 to 0x64 (R267, R268) -/

def infoC4 (reads writes : List Nat) : WordInfo := { cls := 4, reads := reads, writes := writes }

/-- The address checks of R267, then the stash test of R268. -/
def State.wordAddr (s : State) (va : Addr) (size : Nat) (body : State → Out) : Out :=
  s.withAddr va size (fun s => if (s.tm.stashVa va).isSome then s.faultDetail 0x02 16 else body s)

/-- A store-like translation that needs read and write (R269). -/
def State.withRw (s : State) (va : Addr) (body : State → Nat → Out) : Out :=
  if s.walkBusy s.tm.core s.tm.ctx va then .next s.stall else
  match s.translateAll s.tm.core s.tm.ctx va [.write, .read] with
  | (.error e, s) => .next (s.faultX e)
  | (.ok (_, pa), s) => body s pa

/-! ### Read-modify-write (R271) -/

/-- Registers the operand takes, and those the old value goes to. -/
def AtomForm.operands (f : AtomForm) (d : Nat) : List Nat :=
  match f with
  | .addB64 | .cas => [d, d + 1]
  | .casB64 => blockRegs d 4
  | _ => [d]

def AtomForm.results (f : AtomForm) (d : Nat) : List Nat := blockRegs d (f.size / 4)

/-- The new value from the old one, the operand and the value to swap in; none where nothing is written. -/
def AtomForm.apply (f : AtomForm) (x new o : BitVec 64) : Option (BitVec 64) :=
  let on32 (g : Word → Word → Word) : Option (BitVec 64) := some ((g (lo32 o) (lo32 x)).setWidth 64)
  match f with
  | .addB32 => on32 (· + ·)
  | .addB64 => some (o + x)
  | .addF32 => on32 (faddOf .rne)
  | .addBf16x2 => on32 hadd2Of
  | .minI32 => on32 (fun o v => if leI32 o v then o else v)
  | .minN32 => on32 (fun o v => if leN32 o v then o else v)
  | .maxI32 => on32 (fun o v => if leI32 v o then o else v)
  | .maxN32 => on32 (fun o v => if leN32 v o then o else v)
  | .and => on32 (· &&& ·)
  | .or => on32 (· ||| ·)
  | .xor => on32 (· ^^^ ·)
  | .xchg => on32 (fun _ v => v)
  | .cas => if lo32 o = lo32 x then some new else none
  | .casB64 => if o = x then some new else none

/-- The operand, and the value a compare-and-swap puts. -/
def Thread.atomOperands (t : Thread) (f : AtomForm) (d : Nat) : BitVec 64 × BitVec 64 :=
  match f with
  | .addB64 => (t.pair d, 0)
  | .cas => ((t.reg d).setWidth 64, (t.reg (d + 1)).setWidth 64)
  | .casB64 => (t.pair d, t.pair (d + 2))
  | _ => ((t.reg d).setWidth 64, 0)

/-- The shared form of `atom` and `red`. -/
def State.atomWord (s : State) (returns : Bool) (f : AtomForm) (e : Bool) (d a : Nat) (sc : Scope) : Out :=
  let dest := if returns then f.results d else []
  s.memWord (infoC4 (pairRegs a ++ f.operands d) dest) (fun s => s.tracked e (fun s =>
    let va := s.th.pair a
    s.wordAddr va f.size (fun s => s.withRw va (fun s pa =>
      let (x, n) := s.th.atomOperands f d
      .next (s.addOp e dest (some pa) (.atom f sc va x n (if returns then some d else none)))))))

/-- `atom.add.b32` (R271). -/
def execAtomAddB32 (e : Bool) (d a : Nat) (c : Scope) (s : State) : Out := s.atomWord true .addB32 e d a c

/-- `atom.add.b64` (R271). -/
def execAtomAddB64 (e : Bool) (d a : Nat) (c : Scope) (s : State) : Out := s.atomWord true .addB64 e d a c

/-- `atom.add.f32` (R271). -/
def execAtomAddF32 (e : Bool) (d a : Nat) (c : Scope) (s : State) : Out := s.atomWord true .addF32 e d a c

/-- `atom.add.bf16x2` (R271). -/
def execAtomAddBf16x2 (e : Bool) (d a : Nat) (c : Scope) (s : State) : Out := s.atomWord true .addBf16x2 e d a c

/-- `atom.min.i32` (R271). -/
def execAtomMinI32 (e : Bool) (d a : Nat) (c : Scope) (s : State) : Out := s.atomWord true .minI32 e d a c

/-- `atom.min.n32` (R271). -/
def execAtomMinN32 (e : Bool) (d a : Nat) (c : Scope) (s : State) : Out := s.atomWord true .minN32 e d a c

/-- `atom.max.i32` (R271). -/
def execAtomMaxI32 (e : Bool) (d a : Nat) (c : Scope) (s : State) : Out := s.atomWord true .maxI32 e d a c

/-- `atom.max.n32` (R271). -/
def execAtomMaxN32 (e : Bool) (d a : Nat) (c : Scope) (s : State) : Out := s.atomWord true .maxN32 e d a c

/-- `atom.and` (R271). -/
def execAtomAnd (e : Bool) (d a : Nat) (c : Scope) (s : State) : Out := s.atomWord true .and e d a c

/-- `atom.or` (R271). -/
def execAtomOr (e : Bool) (d a : Nat) (c : Scope) (s : State) : Out := s.atomWord true .or e d a c

/-- `atom.xor` (R271). -/
def execAtomXor (e : Bool) (d a : Nat) (c : Scope) (s : State) : Out := s.atomWord true .xor e d a c

/-- `atom.xchg` (R271). -/
def execAtomXchg (e : Bool) (d a : Nat) (c : Scope) (s : State) : Out := s.atomWord true .xchg e d a c

/-- `atom.cas` (R271). -/
def execAtomCas (e : Bool) (d a : Nat) (c : Scope) (s : State) : Out := s.atomWord true .cas e d a c

/-- `atom.cas.b64` (R271). -/
def execAtomCasB64 (e : Bool) (d a : Nat) (c : Scope) (s : State) : Out := s.atomWord true .casB64 e d a c

/-- `red.add.b32` (R272). -/
def execRedAddB32 (e : Bool) (d a : Nat) (c : Scope) (s : State) : Out := s.atomWord false .addB32 e d a c

/-- `red.add.f32` (R272). -/
def execRedAddF32 (e : Bool) (d a : Nat) (c : Scope) (s : State) : Out := s.atomWord false .addF32 e d a c

/-- `red.min.i32` (R272). -/
def execRedMinI32 (e : Bool) (d a : Nat) (c : Scope) (s : State) : Out := s.atomWord false .minI32 e d a c

/-- `red.max.i32` (R272). -/
def execRedMaxI32 (e : Bool) (d a : Nat) (c : Scope) (s : State) : Out := s.atomWord false .maxI32 e d a c

/-- `red.or` (R272). -/
def execRedOr (e : Bool) (d a : Nat) (c : Scope) (s : State) : Out := s.atomWord false .or e d a c

/-! ### Performing an atomic (R221, R222) -/

/-- The lanes that are one combined operation: same issue, form, scope and word. -/
def State.atomLanes (s : State) (o : Op) : List Op :=
  s.ops.filter (fun p =>
    p.issue == o.issue && p.pa == o.pa && p.fault.isNone && p.waitPage.isNone &&
    (match p.kind, o.kind with
     | .atom f c _ _ _ d, .atom g k _ _ _ h => f = g && c = k && d.isSome == h.isSome
     | _, _ => false))

/-- R235, R236: an atomic may be performed: its thread's earlier reads have returned and earlier writes to its word are made. -/
def State.atomReady (s : State) (o : Op) (a n : Nat) : Bool :=
  (s.earlier o).all (fun p => !p.kind.isRead && !spanMeets p.writesAt a n)

/-- The serial order of R222: each lane's old value, the last value, and whether anything is written. -/
def atomFold (v : BitVec 64) : List Op → List (Op × BitVec 64) × BitVec 64 × Bool
  | [] => ([], v, false)
  | o :: t =>
    match o.kind with
    | .atom f _ _ x n _ =>
      let w := f.apply x n v
      let (l, u, any) := atomFold (w.getD v) t
      ((o, v) :: l, u, w.isSome || any)
    | _ => atomFold v t

/-- Cached copies of bytes that a thread has just seen at home: its cluster drops them and its core's L1 takes them. -/
def State.seenAtHome (s : State) (core pa n : Nat) : State :=
  (s.setCluster ((s.cluster (clusterOf core)).dropBytes pa n)).l1Take core pa (s.performBytes pa n)

/-- R221, R273: an atomic is performed in the issuing cluster's cache: its scope is cluster or narrower, the cluster owns
every word it touches, and they lie in no escrow region. -/
def State.atomInside (s : State) (o : Op) (sc : Scope) (va : Addr) (pa n : Nat) : Bool :=
  (sc == .team || sc == .cluster) && (wordsOf pa n).all (fun w => s.ownerOf w == some (clusterOf o.core)) && !s.inRegion o.ctx va

/-- One combined operation at its performing point (R221), on a state in which what its cluster sent there has arrived: in
the issuing cluster's cache, else at home. The core's L1 follows what its threads have seen (R236). -/
def State.atomPerform (s : State) (o : Op) (sc : Scope) (va : Addr) (pa n : Nat) (lanes : List Op) : List (Op × BitVec 64) × State :=
  let c := clusterOf o.core
  let old := leAddr (s.performBytes pa n)
  let (olds, v, wrote) := atomFold old lanes
  let b := leBytes n v.toNat
  if s.atomInside o sc va pa n then
    let s := if wrote then
        let s := s.markView none pa n
        s.setCluster ((s.cluster c).store pa b)
      else s
    (olds, s.l1Take o.core pa (s.performBytes pa n))
  else if wrote then (olds, (s.deviceWrite o.core pa b).stashTake o.key.team va b)
  else (olds, (s.revokeRange pa n).seenAtHome o.core pa n)

/-- A lane's old value reaches its registers and the lane leaves its flag. -/
def State.atomLeave (s : State) (o : Op) (old : BitVec 64) : State :=
  match o.kind with
  | .atom f _ _ _ _ (some d) =>
    (s.writeRegs o.key d (if f.size = 8 then [lo32 old, hi32 old] else [lo32 old])).finishOp o
  | _ => s.finishOp o

/-- The page-crossing case does not arise: words are aligned. Both words of an 8-byte atomic have one owner or go home. -/
def State.atomReturn (s : State) (o : Op) (f : AtomForm) (sc : Scope) (va : Addr) : Ev :=
  match o.pa with
  | none => none
  | some pa =>
    let lanes := s.atomLanes o
    if !lanes.all (fun p => s.atomReady p pa f.size) then none
    else
      let s := s.beforeHome o.core pa f.size
      match s.readable va pa f.size with
      | .error e => some (s.failLanes (lanes.map (fun p => (p, e))))
      | .ok () =>
        let (olds, s) := s.atomPerform o sc va pa f.size lanes
        some (olds.foldl (fun s x => s.atomLeave x.1 x.2) s)

/-! ### Escrow additions (R228, R274) -/

/-- The shared form of `badd`. -/
def State.baddWord (s : State) (bf e : Bool) (d a : Nat) : Out :=
  s.memWord (infoC4 (pairRegs a ++ [d]) []) (fun s => s.tracked e (fun s =>
    let va := s.th.pair a
    s.wordAddr va 4 (fun s =>
      match s.regionOf s.tm.ctx va with
      | none => s.faultDetail 0x02 18
      | some r =>
        if r.bf16 != bf then s.faultDetail 0x02 17
        else s.withRw va (fun s pa => .next (s.addOp e [] (some pa) (.badd bf va (s.th.reg d) false 0))))))

/-- `badd.f32` (R274). -/
def execBaddF32 (e : Bool) (d a : Nat) (s : State) : Out := s.baddWord false e d a

/-- `badd.bf16x2` (R274). -/
def execBaddBf16x2 (e : Bool) (d a : Nat) (s : State) : Out := s.baddWord true e d a

/-- FP32 upward rounding of a sum of magnitudes (R228). -/
def addUp (x y : Word) : Word := toF32 .up ((f32 x).add (f32 y))

/-- Escrow a cluster holds on a line, or none yet held. -/
def Cluster.escrowAt (k : Cluster) (line : Nat) (bf : Bool) : Escrow :=
  (k.escrowOn line).getD { line := line, bf16 := bf, parts := [], mags := [], trk := 0, alw := 0, bad := [] }

def State.setEscrow (s : State) (c : Nat) (e : Escrow) : State :=
  let k := s.cluster c
  s.setCluster { k with escrow := upsert (fun x => x.line == e.line) e k.escrow }

def setAssoc (l : List (Nat × Word)) (i : Nat) (w : Word) : List (Nat × Word) := upsert (fun p => p.1 == i) (i, w) l

/-- Greater of two FP32 magnitudes. -/
def maxMag (x y : Word) : Word := if flt x y then y else x

/-- The addend of a `badd` still to be made, as FP32, and its element number. -/
def baddItem (bf : Bool) (x : Word) (pa next : Nat) : Word × Nat :=
  if bf then ((if next = 0 then loHalf x else hiHalf x) ++ 0#16, (pa % 256) / 2 + next)
  else (x, (pa % 256) / 4)

/-- FP32 +∞ as a magnitude that no allowance covers (R228). -/
def isHuge (w : Word) : Bool :=
  match f32 w with
  | .fin _ _ => false
  | _ => true

/-- What an addition needs of the allowance (R228): the new magnitude and the new tracker. -/
def Escrow.needs (e : Escrow) (a : Word) (i : Nat) : Word × Word :=
  let m := addUp (assocWord e.mags i) (a &&& 0x7FFFFFFF)
  (m, maxMag e.trk m)

def finite32 (w : Word) : Bool :=
  match f32 w with
  | .fin _ _ => true
  | _ => false

/-- Sum of the allowances that clusters hold on a line, as exact reals. -/
def State.allowances (s : State) (line : Nat) (but : Option Nat) : Rat :=
  s.clusters.foldl (fun q k => if some k.num = but then q else q + ((k.escrowOn line).elim 0 (fun e => (f32 e.alw).real))) 0

/-- The other cluster with the largest allowance on a line, ties to the lowest number (R228, R230). -/
def State.largestHolder (s : State) (line c : Nat) : Option Nat :=
  (s.clusters.foldl (fun (best : Option (Nat × Rat)) k =>
    match k.escrowOn line with
    | none => best
    | some e =>
      let q := (f32 e.alw).real
      if k.num = c then best
      else match best with
        | none => some (k.num, q)
        | some (n, r) => if r < q ∨ (r = q ∧ k.num < n) then some (k.num, q) else best) none).map Prod.fst

/-- Home revokes other clusters' allowances until a condition on the state holds or none is left. -/
def State.revokeUntil (s : State) (line c : Nat) (enough : State → Bool) : Nat → State
  | 0 => s
  | n + 1 =>
    if enough s then s
    else match s.largestHolder line c with
      | none => s
      | some k => (s.settleFrom k line).revokeUntil line c enough n

/-- The escrow operation that home or the cluster handles next among those of one issue and thread order (R227). -/
def State.baddTurn (s : State) (o : Op) (pa : Nat) : Bool :=
  s.writeReady o (pa / 256 * 256 + pa % 256) 4 &&
  s.ops.all (fun p => !(decide (p.id < o.id) && p.issue == o.issue && p.fault.isNone &&
    (match p.kind with | .badd _ _ _ _ _ => true | _ => false)))

/-- Whether the addition must ask home (R228). -/
def State.baddAsks (s : State) (o : Op) (bf : Bool) (x : Word) (pa next : Nat) : Bool :=
  let (a, i) := baddItem bf x pa next
  let e := (s.cluster o.cluster).escrowAt (lineOf pa) bf
  finite32 a && flt e.alw (e.needs a i).2

/-- The region's limit for an address of a context. -/
def State.limitOf (s : State) (ctx : Nat) (va : Addr) : Word := ((s.regionOf ctx va).map Region.limit).getD 0

/-- Event ALLOWANCE_REQUEST (R228): home answers, revoking where the headroom is short. A need that has rounded up to +∞
exceeds every headroom. The new allowance is rounded toward zero (DESIGN CHOICE, log entry 114). -/
def execAllowanceRequest (op : Nat) (s : State) : Out :=
  s.onOp op (fun o =>
    match o.kind, o.pa with
    | .badd bf va x false next, some pa =>
      if !(s.baddTurn o pa && s.baddAsks o bf x pa next) then none
      else
        let c := o.cluster
        let line := lineOf pa
        let s := (s.flushRegs c pa 4).makeRoom c (.line line)
        let (a, i) := baddItem bf x pa next
        let limit := (f32 (s.limitOf o.ctx va)).real
        let held := (s.cluster c).escrowAt line bf
        let need := (held.needs a i).2
        let short := (f32 need).real - (f32 held.alw).real
        let headroom (t : State) : Rat := limit - t.allowances line none
        let s := s.revokeUntil line c (fun t => !isHuge need && decide (short ≤ headroom t)) 96
        let g := if isHuge need then headroom s else min (headroom s) (max short (limit / 4))
        let e := (s.cluster c).escrowAt line bf
        let s := s.setEscrow c { e with alw := toF32 .rz (Val.ofRat ((f32 e.alw).real + g)) }
        some (s.setOp { o with kind := .badd bf va x true next })
    | _, _ => none)

/-- One addition is withheld, or applied at home after its cluster's settlement (R228). The cluster keeps one partial for
each element (DESIGN CHOICE, log entry 98: R227 allows from one to four). -/
def State.baddElement (s : State) (o : Op) (bf : Bool) (x : Word) (pa next : Nat) : State :=
  let c := o.cluster
  let line := lineOf pa
  let (a, i) := baddItem bf x pa next
  let s := ((s.revokeRange line 256).leaveLine o.core line).makeRoom c (.line line)
  let e := (s.cluster c).escrowAt line bf
  let (m, need) := e.needs a i
  if finite32 a && !flt e.alw need then
    s.setEscrow c { e with parts := setAssoc e.parts i (faddOf .rne (assocWord e.parts i) a), mags := setAssoc e.mags i m,
                           trk := need }
  else (s.settleFrom c line).settleElem line bf i a

/-- ATOMIC_RETURN for `badd`: its next addition, and the flag after the last. -/
def State.baddReturn (s : State) (o : Op) (bf : Bool) (va : Addr) (x : Word) (asked : Bool) (next : Nat) : Ev :=
  match o.pa with
  | none => none
  | some pa =>
    if !s.baddTurn o pa || (!asked && s.baddAsks o bf x pa next) then none
    else
      let s := s.flushRegs o.cluster pa 4
      match s.readable va pa 4 with
      | .error e => some (s.failLanes [(o, e)])
      | .ok () =>
        let s := s.baddElement o bf x pa next
        if bf && next == 0 then some (s.setOp { o with kind := .badd bf va x false 1 }) else some (s.finishOp o)

/-! ### `ldb` and `bsettle` (R275, R276) -/

/-- `ldb.f32` (R275). Outside every region of its context it is the load that `ld.b32` is. -/
def execLdbF32 (e : Bool) (d a : Nat) (s : State) : Out :=
  s.memWord (infoC4 (pairRegs a ++ [d]) [d]) (fun s => s.tracked e (fun s =>
    let va := s.th.pair a
    s.wordAddr va 4 (fun s =>
      let k := OpKind.ldb va d (s.th.reg d)
      if (s.regionOf s.tm.ctx va).isNone then s.loadAt e va 4 false d none
      else
        match s.tlbHit s.tm.core s.tm.ctx va with
        | none => .next (s.addOp e [d] none k)
        | some _ => s.withPa va .read (fun s _ pa => .next (s.addOp e [d] (some pa) k)))))

/-- The tolerance of R275, none for +∞. -/
def toleranceOf (w : Word) : Option Rat :=
  match f32 w with
  | .inf false => none
  | .fin false m => some m
  | _ => some 0

/-- C's partial of an element, where its magnitude is nonzero (R247). -/
def Escrow.partial? (e : Escrow) (i : Nat) : Option Word :=
  if (f32 (assocWord e.mags i)).isZero then none else some (assocWord e.parts i)

/-- C's partial of an element of a word is in error (R231, R275). -/
def Escrow.badAt (e : Escrow) (pa : Nat) : Bool :=
  e.bad.any (fun i => if e.bf16 then i / 2 == pa % 256 / 4 else i == pa % 256 / 4)

/-- The value of R275 at home with C's own partials. -/
def escrowValue (e : Option Escrow) (bf : Bool) (pa : Nat) (h : Word) : Word :=
  if bf then
    let one (x : BitVec 16) (i : Nat) : BitVec 16 :=
      match e.bind (fun e => e.partial? i) with
      | some p => toB16 ((b16 x).add (f32 p))
      | none => x
    packHalves (one (loHalf h) (pa % 256 / 2)) (one (hiHalf h) (pa % 256 / 2 + 1))
  else
    match e.bind (fun e => e.partial? (pa % 256 / 4)) with
    | some p => toF32 .rne ((f32 h).add (f32 p))
    | none => h

/-- ATOMIC_RETURN for `ldb`. Its region may have gone since its issue; then it reads as a load does (R275). -/
def State.ldbReturn (s : State) (o : Op) (va : Addr) (d : Nat) (tol : Word) : Ev :=
  match o.pa with
  | none => none
  | some pa =>
    if !s.readReady o pa 4 then none
    else
      match s.regionOf o.ctx va with
      | none =>
        (match s.coreReadable o.core va (lineOf pa) [(pa, 4)] false with
         | .error e => some (s.failLanes [(o, e)])
         | .ok () =>
           let (b, s) := s.coreRead o.core (lineOf pa) [(pa, 4)] 0 3 o.issue
           some ((s.writeRegs o.key d [leWord (slice b (pa % 256) 4)]).finishOp o))
      | some r =>
        let s := s.flushRegs o.cluster pa 4
        let c := o.cluster
        let line := lineOf pa
        match s.readable va pa 4, ((s.cluster c).escrowOn line).any (fun e => e.badAt pa) with
        | .error e, _ => some (s.failLanes [(o, e)])
        | .ok (), true => some (s.failLanes [(o, ⟨0x30, 0, va⟩)])
        | .ok (), false =>
          let s := match toleranceOf tol with
            | none => s
            | some q => s.revokeUntil line c (fun t => decide (t.allowances line (some c) ≤ q)) 96
          let v := escrowValue ((s.cluster c).escrowOn line) r.bf16 pa (s.performWord pa)
          some (((s.leaveLine o.core line).writeRegs o.key d [v]).finishOp o)

/-- `bsettle` (R276): its page needs read and write, and its coded mark is not tested (R269). -/
def execBsettle (e : Bool) (a : Nat) (s : State) : Out :=
  s.memWord (infoC4 (pairRegs a) []) (fun s => s.tracked e (fun s =>
    let va := s.th.pair a
    s.wordAddr va 1 (fun s => s.withPa va .read (fun s l pa =>
      if !pteBit l.entry 3 then .next (s.faultX ⟨0x11, 0, va⟩)
      else .next (s.addOp e [] (some pa) (.bsettle va))))))

/-- An element the cluster holds is in error, or lies on a poisoned unit (R231, R269). -/
def State.poisonedEscrow (s : State) (c line : Nat) : Bool :=
  match (s.cluster c).escrowOn line with
  | none => false
  | some e => !e.bad.isEmpty || e.held.any (fun p => s.poisoned (line + (if e.bf16 then 2 else 4) * p.1) (if e.bf16 then 2 else 4))

/-- ATOMIC_RETURN for `bsettle`: the cluster settles its escrow on a line of a region; anywhere else nothing happens
(R276). -/
def State.bsettleReturn (s : State) (o : Op) (va : Addr) : Ev :=
  match o.pa with
  | none => none
  | some pa =>
    if !(s.earlier o).all (fun p => !(match p.kind with | .badd _ _ _ _ _ => true | _ => false)) then none
    else if (s.regionOf o.ctx va).isNone then some (s.finishOp o)
    else
      let s := s.flushRegs o.cluster pa 4
      let bad := s.poisonedEscrow o.cluster (lineOf pa)
      let s := s.settleFrom o.cluster (lineOf pa)
      if bad then some (s.failLanes [(o, ⟨0x30, 0, va⟩)]) else some (s.finishOp o)

/-- Event ATOMIC_RETURN (R270). -/
def execAtomicReturn (op : Nat) (s : State) : Out :=
  s.onOp op (fun o =>
    match o.kind with
    | .atom f c va _ _ _ => s.atomReturn o f c va
    | .badd bf va x asked next => s.baddReturn o bf va x asked next
    | .ldb va d tol => s.ldbReturn o va d tol
    | .bsettle va => s.bsettleReturn o va
    | _ => none)

end Sys2Proof.Machine
end

