-- ==== Sys2Proof/Machine/Barrier.lean ====
section
/-! DEFINITION. Barrier registers and stage rings (08_core_engines R178 to R187). -/

namespace Sys2Proof.Machine

/-! ### Shared forms -/

/-- R184, R237: an arrival releases at team scope, so it stalls until the thread's earlier accesses are done. -/
def State.teamRelease (s : State) (body : State → Out) : Out := s.waitFor Op.accesses body

/-- One update by a thread (R179). -/
def State.threadUpdate (s : State) (b count : Nat) (bytes : Int) : Out :=
  match s.barUpdate s.tm.uid b count bytes with
  | .error d => s.faultDetail 0x02 d
  | .ok s => .next s.advance

/-- R186: an engine fault that waits for this thread at a phase of a register. -/
def State.barFaultFor (s : State) (b q : Nat) : Option BarFault :=
  s.tm.barFaults.find? (fun f => f.bar == b && f.phase == q % 65536 && !s.th.seenFaults.contains f.op)

/-- R186: the thread takes it, and goes on at its wait after `tret`. -/
def State.takeBarFault (s : State) (f : BarFault) : State :=
  let t := { s.th with seenFaults := f.op :: s.th.seenFaults }
  let own := s.here
  let r := { f.record with seat := own.seat, group := own.group, role := own.role, lanes := own.lanes }
  { s.trapThread t s.tm r f.fpc (s.header, s.wordIdx) f.count none with pfx := none }

/-- R181, R187: waits for a phase of a register: an engine fault first, then the phase, else the thread parks with its
group's waiter bit set. -/
def State.waitPhase (s : State) (faults : Bool) (b q : Nat) (p : Park) (body : State → Out) : Out :=
  match if faults then s.barFaultFor b q else none with
  | some f => .next (s.takeBarFault f)
  | none =>
    let x := s.tm.bar b
    if x.doneAt q then body s
    else
      let m := s.tm.setBar b { x with waiters := x.waiters ||| (1#32 <<< s.th.key.group) }
      .next (({ s with tm := m } : State).park p)

def infoC3 (reads writes : List Nat) : WordInfo := { cls := 3, reads := reads, writes := writes }

/-- A test of a valid register into a predicate. -/
def State.barTest (s : State) (p a b : Nat) (f : Bar → Word → Bool) : Out :=
  s.word (infoC3 [a] []) (fun s =>
    let x := s.tm.bar b
    if !x.valid then s.faultDetail 0x02 1 else s.complete (fun t => t.setPred p (f x (t.reg a))))

/-- R182: an engine operation of the team that names a register has not finished. -/
def State.barEngines (s : State) (u b : Nat) : Bool :=
  s.ops.any (fun o => o.key.team == u && o.fault.isNone && o.kind.bar? == some b)

/-- R182. -/
def State.barBusy (s : State) (b : Nat) : Bool :=
  let x := s.tm.bar b
  x.arrived != 0 || x.pending != 0 || x.waiters != 0 || s.barEngines s.tm.uid b

/-! ### The barrier forms (R181) -/

/-- `bar.init` (R182). -/
def execBarInit (a n : Nat) (s : State) : Out :=
  s.word (infoC3 [a] []) (fun s =>
    let x := s.tm.bar n
    let v := (s.th.reg a).toNat
    if x.valid && s.barBusy n then s.faultDetail 0x02 4
    else if v = 0 ∨ 65535 < v then s.faultDetail 0x02 5
    else
      let m := s.tm.setBar n { x with expected := v, arrived := 0, pending := 0, valid := true }
      .next ({ s with tm := { m with barFaults := m.barFaults.filter (fun f => f.bar != n) } } : State).advance)

/-- `bar.arr` (R179). -/
def execBarArr (a n : Nat) (s : State) : Out :=
  s.word (infoC3 [a] []) (fun s => s.teamRelease (fun s => s.threadUpdate n (s.th.reg a).toNat 0))

/-- `bar.exp` (R179): it carries no ordering (R184). -/
def execBarExp (a n : Nat) (s : State) : Out :=
  s.word (infoC3 [a] []) (fun s => s.threadUpdate n 0 (s.th.reg a).toNat)

/-- `bar.arx` (R179). -/
def execBarArx (d a n : Nat) (s : State) : Out :=
  s.word (infoC3 [d, a] []) (fun s => s.teamRelease (fun s => s.threadUpdate n (s.th.reg d).toNat (s.th.reg a).toNat))

/-- `bar.wait` from its wait on: a thread that has parked in it evaluates `done` alone again (R8, R180). -/
def State.barWait (s : State) (n q : Nat) : Out := s.waitPhase true n q (.bar n q) (fun s => .next s.advance)

/-- `bar.wait` (R181). -/
def execBarWait (a n : Nat) (s : State) : Out :=
  match s.th.held with
  | some (.bar b q) => s.barWait b (q % 65536)
  | _ =>
    s.word (infoC3 [a] []) (fun s =>
      if !(s.tm.bar n).valid then s.faultDetail 0x02 1 else s.barWait n ((s.th.reg a).toNat % 65536))

/-- `bar.try` (R181). -/
def execBarTry (p a n : Nat) (s : State) : Out := s.barTest p a n (fun x v => x.doneAt (v.toNat % 65536))

/-- `bar.par` (R183). -/
def execBarPar (p a n : Nat) (s : State) : Out := s.barTest p a n (fun x v => x.phase % 2 != v.toNat % 2)

/-- `bar.inv` (R182). -/
def execBarInv (n : Nat) (s : State) : Out :=
  s.word (infoC3 [] []) (fun s =>
    if s.barBusy n then s.faultDetail 0x02 4
    else .next ({ s with tm := s.tm.setBar n { s.tm.bar n with valid := false } } : State).advance)

/-! ### The ring forms (R187) -/

def Team.ring (m : Team) (r : Nat) : Ring := m.rings.getD r Ring.unset

/-- A ring that is declared and whose registers are both valid. -/
def State.withRing (s : State) (n : Nat) (body : State → Ring → Out) : Out :=
  let r := s.tm.ring n
  if r.valid && (s.tm.bar r.full).valid && (s.tm.bar r.empty).valid then body s r else s.faultDetail 0x02 1

/-- The slot of a use (R187). -/
def Ring.slotOf (r : Ring) (n : Nat) : Nat := n % r.slots

/-- `ring.acq` from its wait on (R187). -/
def State.ringAcq (s : State) (d r : Nat) (x : Ring) (n : Nat) : Out :=
  s.waitPhase false x.empty ((n + 65536 - x.slots) % 65536) (.ringAcq r n) (fun s =>
    let m := { s.tm with rings := s.tm.rings.set r { x with head := x.slotOf (n + 1) } }
    ({ s with tm := m } : State).complete (fun t => t.setReg d (BitVec.ofNat 32 (x.slotOf n))))

/-- `ring.acq` (R187). -/
def execRingAcq (d a r : Nat) (s : State) : Out :=
  match s.th.held with
  | some (.ringAcq r n) => s.ringAcq d r (s.tm.ring r) (n % 65536)
  | _ => s.word (infoC3 [a] [d]) (fun s => s.withRing r (fun s x => s.ringAcq d r x ((s.th.reg a).toNat % 65536)))

/-- `ring.com` (R187). -/
def execRingCom (a r : Nat) (s : State) : Out :=
  s.word (infoC3 [a] []) (fun s => s.withRing r (fun s x =>
    s.teamRelease (fun s => s.threadUpdate x.full (s.th.reg a).toNat 0)))

/-- `ring.get` from its wait on (R187). -/
def State.ringGet (s : State) (d r : Nat) (x : Ring) (n : Nat) : Out :=
  s.waitPhase true x.full n (.ringGet r n) (fun s =>
    let m := { s.tm with rings := s.tm.rings.set r { x with tail := x.slotOf (n + 1) } }
    ({ s with tm := m } : State).complete (fun t => t.setReg d (BitVec.ofNat 32 (x.slotOf n))))

/-- `ring.get` (R187). -/
def execRingGet (d a r : Nat) (s : State) : Out :=
  match s.th.held with
  | some (.ringGet r n) => s.ringGet d r (s.tm.ring r) (n % 65536)
  | _ => s.word (infoC3 [a] [d]) (fun s => s.withRing r (fun s x => s.ringGet d r x ((s.th.reg a).toNat % 65536)))

/-- `ring.rel` (R187). -/
def execRingRel (a r : Nat) (s : State) : Out :=
  s.word (infoC3 [a] []) (fun s => s.withRing r (fun s x =>
    s.teamRelease (fun s => s.threadUpdate x.empty (s.th.reg a).toNat 0)))

end Sys2Proof.Machine
end

