-- ==== Sys2Proof/Machine/Coding.lean ====
section
/-! DEFINITION. Code tables, coded tiles, the decoder lanes and the mint (06_core R146 to R149, R151). -/

namespace Sys2Proof.Machine

/-! ### Table records (R146) -/

/-- Alphabet size. -/
def tableSymbols (r : List Byte) : Nat := if fieldAt r 0 1 = 0 then 16 else 256

/-- Number of codes of a length. -/
def tableCount (r : List Byte) (l : Nat) : Nat := fieldAt r (2 * l) 2

/-- Symbol i in code order. -/
def tableSym (r : List Byte) (i : Nat) : Nat := (r.getD (0x20 + i) 0).toNat

/-- The counts of lengths 1 to 15. -/
def tableCounts (r : List Byte) : List Nat := (List.range 15).map (fun i => tableCount r (i + 1))

/-- S. -/
def tableTotal (r : List Byte) : Nat := (tableCounts r).foldl (· + ·) 0

/-- Check 3: the first length at which the running count or the running Kraft sum passes its bound. Kraft sums are in
units of 2^−15. -/
def badCount (r : List Byte) (size : Nat) : Nat → Nat → Nat → Nat → Option Nat
  | 0, _, _, _ => none
  | fuel + 1, l, total, kraft =>
    let total := total + tableCount r l
    let kraft := kraft + tableCount r l * 2 ^ (15 - l)
    if size < total ∨ 2 ^ 15 < kraft then some l else badCount r size fuel (l + 1) total kraft

/-- Check 5: the first listed symbol that is too large or repeats. -/
def badSym (r : List Byte) (size n : Nat) : Option Nat :=
  (List.range n).find? (fun i => decide (size ≤ tableSym r i) || (List.range i).any (fun j => tableSym r j == tableSym r i))

/-- R146: the offset that the first failing check reports, or none for a valid record. -/
def tableFault (r : List Byte) : Option Nat :=
  if 1 < fieldAt r 0 1 then some 0
  else if fieldAt r 1 1 ≠ 0 then some 1
  else
    match badCount r (tableSymbols r) 15 1 0 0 with
    | some l => some (2 * l)
    | none =>
      let n := tableTotal r
      if n = 0 then some 2
      else
        match badSym r (tableSymbols r) n with
        | some i => some (0x20 + i)
        | none =>
          match (List.range 256).find? (fun i => decide (n ≤ i) && tableSym r i != 0) with
          | some i => some (0x20 + i)
          | none => none

/-! ### Streams (R147, R148) -/

/-- Stream bit p of `len` coded bytes; bits past the end read 0. -/
def streamBit (b : List Byte) (len p : Nat) : Nat := if 8 * len ≤ p then 0 else (b.getD (p / 8) 0).toNat / 2 ^ (p % 8) % 2

/-- The canonical code that begins at `pos`: its length and symbol. `code` is the bits read, `first` the first code of
the length reached, `index` its symbol's place. -/
def matchCode (r b : List Byte) (len pos : Nat) : Nat → Nat → Nat → Nat → Nat → Option (Nat × Nat)
  | 0, _, _, _, _ => none
  | fuel + 1, l, code, first, index =>
    let code := 2 * code + streamBit b len (pos + l - 1)
    let n := tableCount r l
    if first ≤ code ∧ code < first + n then some (l, tableSym r (index + (code - first)))
    else matchCode r b len pos fuel (l + 1) code (2 * (first + n)) (index + n)

def nextCode (r b : List Byte) (len pos : Nat) : Option (Nat × Nat) := matchCode r b len pos 15 1 0 0 0

/-- CRC-16, polynomial 0x1021, one byte entered most significant bit first. -/
def crcByte (c : Nat) (b : Byte) : Nat :=
  (List.range 8).foldl (fun c _ => if c / 2 ^ 15 % 2 = 1 then (c * 2 % 2 ^ 16) ^^^ 0x1021 else c * 2 % 2 ^ 16)
    (c ^^^ (b.toNat * 256))

/-- The check code (R148). -/
def crc16 (b : List Byte) : Nat := b.foldl crcByte 0xFFFF

/-- A decode fault: cause and bit offset (R310). -/
structure DecodeFault where
  cause : Nat
  bitoff : Nat
  deriving DecidableEq, Repr

/-- A nibble that is no int3 container code, −4 to 3 (R68). -/
def badInt3 (n : Nat) : Bool := decide (4 ≤ n) && decide (n ≤ 0xB)

/-- A symbol that gives an int3 element out of range: one nibble, or two under a 256-symbol table. -/
def badSymbol (small : Bool) (sym : Nat) : Bool := if small then badInt3 sym else badInt3 (sym % 16) || badInt3 (sym / 16)

/-- The symbols of a stream, `n` left to read from `pos`. -/
def readSymbols (r b : List Byte) (len : Nat) (int3 : Bool) : Nat → Nat → Except DecodeFault (List Nat × Nat)
  | 0, pos => .ok ([], pos)
  | n + 1, pos =>
    match nextCode r b len pos with
    | none => .error ⟨0x20, pos⟩
    | some (l, sym) =>
      if 8 * len < pos + l then .error ⟨0x21, pos⟩
      else if int3 && badSymbol (tableSymbols r == 16) sym then .error ⟨0x25, pos⟩
      else
        match readSymbols r b len int3 n (pos + l) with
        | .error e => .error e
        | .ok (t, p) => .ok (sym :: t, p)

/-- Nibble symbols, two to a byte, low first. -/
def joinNibbles : List Nat → List Byte
  | lo :: hi :: t => BitVec.ofNat 8 (16 * hi + lo) :: joinNibbles t
  | _ => []

/-- R149 for a coded tile: the table of the slot, or none where it is empty. -/
def decodeCoded (table : Option (List Byte)) (int3 : Bool) (b : List Byte) (len chk : Nat) : Except DecodeFault (List Byte) :=
  match table with
  | none => .error ⟨0x24, 0⟩
  | some r =>
    if 160 < len then .error ⟨0x22, 0⟩
    else
      let small := tableSymbols r == 16
      match readSymbols r b len int3 (if small then 512 else 256) 0 with
      | .error e => .error e
      | .ok (syms, pos) =>
        if (pos + 7) / 8 ≠ len ∨ (List.range (8 * len - pos)).any (fun i => streamBit b len (pos + i) == 1) then .error ⟨0x21, pos⟩
        else if crc16 (b.take len) ≠ chk then .error ⟨0x23, 8 * len⟩
        else .ok (if small then joinNibbles syms else syms.map (BitVec.ofNat 8))

/-- Element e of a 4-bit tile (R68, R295). -/
def nibbleAt (b : List Byte) (e : Nat) : Nat := (b.getD (e / 2) 0).toNat / 16 ^ (e % 2) % 16

/-- The lowest int3 element out of range. -/
def badElement (b : List Byte) : Option Nat := (List.range 512).find? (fun e => badInt3 (nibbleAt b e))

/-- The range check of a tile that is not coded (R149). -/
def checkInt3 (int3 : Bool) (b : List Byte) : Except DecodeFault (List Byte) :=
  match (if int3 then badElement b else none) with
  | some e => .error ⟨0x25, 4 * e⟩
  | none => .ok b

/-- R149 for a raw tile. -/
def decodeRaw (int3 : Bool) (b : List Byte) (chk : Nat) : Except DecodeFault (List Byte) :=
  match checkInt3 int3 b with
  | .error e => .error e
  | .ok b => if crc16 b ≠ chk then .error ⟨0x23, 2048⟩ else .ok b

/-- R298: a pattern of `w` bits in every element. -/
def patternTile (w pat : Nat) : List Byte :=
  (List.range 256).map (fun i => BitVec.ofNat 8 (if w = 4 then pat % 16 * 17 else pat / 256 ^ (i % (w / 8))))

/-! ### The mint (R151) -/

/-- The code of a symbol: its length and value. -/
def codeOf (r : List Byte) (sym : Nat) : Nat → Nat → Nat → Nat → Option (Nat × Nat)
  | 0, _, _, _ => none
  | fuel + 1, l, first, index =>
    let n := tableCount r l
    match (List.range n).find? (fun j => tableSym r (index + j) == sym) with
    | some j => some (l, first + j)
    | none => codeOf r sym fuel (l + 1) (2 * (first + n)) (index + n)

/-- The bits of a code, most significant first. -/
def codeBits (l code : Nat) : List Nat := (List.range l).map (fun i => code / 2 ^ (l - 1 - i) % 2)

/-- Bits packed into bytes, bit p at bit p mod 8 of byte p div 8. -/
def packBits (bits : List Nat) : List Byte :=
  (List.range ((bits.length + 7) / 8)).map (fun i =>
    BitVec.ofNat 8 ((List.range 8).foldl (fun n j => n + bits.getD (8 * i + j) 0 * 2 ^ j) 0))

/-- The symbols of 256 expanded bytes, in stream order. -/
def tileSymbols (r b : List Byte) : List Nat :=
  if tableSymbols r = 16 then (List.range 512).map (nibbleAt b) else b.map BitVec.toNat

/-- The coded stream of a tile, if every symbol has a code. -/
def mint (r b : List Byte) : Option (List Byte) :=
  let codes := (tileSymbols r b).map (fun s => codeOf r s 15 1 0 0)
  if codes.any Option.isNone then none
  else some (packBits ((codes.filterMap id).flatMap (fun c => codeBits c.1 c.2)))

end Sys2Proof.Machine
end

