-- ==== Sys2Proof/Machine/Copy.lean ====
section
/-! DEFINITION. The copy unit: `cpy`, `cpy.peer`, `cpw`, `cpl` and the landing of pieces (08_core_engines R185, R186, R188
to R192; 06_core R135, R137, R138, R150). -/

namespace Sys2Proof.Machine

/-! ### Queues of the engines (R126, R135) -/

/-- A remote copy whose source the copy unit has still to read (R413). -/
def RemoteOp.reading (r : RemoteOp) : Bool :=
  !r.sent && (match r.body with | .copy _ _ _ _ _ => true | _ => false)

/-- An operation of a core's copy unit. -/
def OpKind.isCopy (k : OpKind) : Bool :=
  match k with
  | .copy _ _ | .cpw _ _ _ _ _ | .cpl _ _ _ _ _ | .cpt _ _ _ _ _ _ _ _ => true
  | .remote r => r.reading
  | _ => false

/-- An operation of a core's matrix engine. -/
def OpKind.isMatrix (k : OpKind) : Bool :=
  match k with
  | .mat _ | .accClr _ => true
  | _ => false

/-- The operations an engine of a core holds, in queue order. -/
def State.engineQueue (s : State) (core : Nat) (which : OpKind → Bool) : List Op :=
  s.ops.filter (fun o => o.core == core && o.fault.isNone && which o.kind)

/-- R135: an instruction whose engine's queue is full stalls. -/
def State.queued (s : State) (which : OpKind → Bool) (size : Nat) (body : State → Out) : Out :=
  if (s.engineQueue s.tm.core which).length < size then body s else .next s.stall

/-- R135: the copy unit has begun this operation: at most 8 are in flight. -/
def State.copyBegun (s : State) (o : Op) : Bool := ((s.engineQueue o.core OpKind.isCopy).take 8).any (fun p => p.id == o.id)

/-! ### The control word (R188) -/

structure CopyCtl where
  dir : Bool
  b : Bool
  bar : Nat
  scope : Scope
  pcore : Nat
  pslot : Nat
  len : Nat
  deriving DecidableEq, Repr

/-- The scope field of the control word (R188). -/
def scopeOf (n : Nat) : Scope :=
  match n with
  | 0 => .team
  | 1 => .cluster
  | 2 => .device
  | _ => .system

def CopyCtl.of (w : Word) : CopyCtl :=
  { dir := w.getLsbD 31, b := w.getLsbD 30, bar := w.toNat / 2 ^ 26 % 16, scope := scopeOf (w.toNat / 2 ^ 24 % 4), pcore := w.toNat / 2 ^ 20 % 16,
    pslot := w.toNat / 2 ^ 16 % 16, len := w.toNat % 65536 }

/-- The scope of a copy's fork and join. No outcome depends on the field (R246), so one of team scope, too, writes the team's
stash lines back first and drops the core's own copies of memory after (DEDUCED, log entry 109). -/
def CopyCtl.memScope (c : CopyCtl) : Scope := if c.scope = .team then .cluster else c.scope

def CopyCtl.bar? (c : CopyCtl) : Option Nat := if c.b then some c.bar else none

/-- Which of the four forms. -/
inductive CopyForm where
  | cpy | peer | cpw | cpl
  deriving DecidableEq, Repr

/-- The checks of the control word, as a detail number (R178, R188), in an order that R188 does not give (DESIGN CHOICE, log
entry 112). -/
def Team.ctlCheck (m : Team) (f : CopyForm) (c : CopyCtl) : Option Nat :=
  if c.dir && f != .cpy then some 6
  else if !c.b && c.bar != 0 then some 6
  else if c.b && !(m.bar c.bar).valid then some 1
  else if f != .peer && (c.pcore != 0 || c.pslot != 0) then some 6
  else
    match f with
    | .cpy | .peer => if c.len = 0 ∨ 32768 < c.len then some 6 else none
    | .cpl => if c.len = 0 then some 6 else none
    | .cpw => none

/-- R178 detail 7: the team in a slot of a core of the issuer's cluster, if it is of the issuer's context. -/
def State.peerTeam (s : State) (c : CopyCtl) : Option Team :=
  let core := 16 * clusterOf s.tm.core + c.pcore
  s.allTeams.find? (fun m => m.resident && m.core == core && m.slot == c.pslot && m.ctx == s.tm.ctx)

/-! ### Issue (R189) -/

/-- A scratchpad range of a copy: R136 with size 16, then no valid window of the issuer's team (R170). -/
def State.copyRange (s : State) (m : Team) (o n : Nat) (body : State → Out) : Out :=
  match m.scratchCheck o n 16 with
  | some c => s.faultAt c (BitVec.ofNat 64 o) 0
  | none => body s

def State.copyStash (s : State) (o n : Nat) (body : State → Out) : Out :=
  if s.tm.overlapsStash o n then s.faultAt 0x14 (BitVec.ofNat 64 o) 3 else body s

/-- The common front of the four forms: checks of R49, room in flag and queue, the control word. -/
def State.copyWord (s : State) (e : Bool) (f : CopyForm) (reads : List Nat) (b : Nat) (body : State → CopyCtl → Out) : Out :=
  s.memWord { cls := 3, role := some .copy, reads := reads ++ [b], writes := [] } (fun s =>
    s.tracked e (fun s => s.queued OpKind.isCopy 32 (fun s =>
      let c := CopyCtl.of (s.th.reg b)
      match s.tm.ctlCheck f c with
      | some d => s.faultDetail 0x02 d
      | none => body s c)))

/-- `cpy` (R189). -/
def execCpy (e : Bool) (d a b : Nat) (s : State) : Out :=
  s.copyWord e .cpy ([d] ++ pairRegs a) b (fun s c =>
    let off := (s.th.reg d).toNat
    let va := s.th.pair a
    let n := 16 * c.len
    s.copyRange s.tm off n (fun s => s.copyStash off n (fun s => s.withAddr va 16 (fun s =>
      let ps := if c.dir then piecesOut s.tm.uid off va n else piecesIn va s.tm.uid off n
      .next (s.addOp e [] none (.copy ps c.bar?) c.memScope)))))

/-- `cpy.peer` (R189, R190): a window of the target team that the range overlaps is an engine fault (R170). Of the two
scratchpad ranges the target's is checked first (DESIGN CHOICE, log entry 95: R189 gives no order between them). -/
def execCpyPeer (e : Bool) (d a b : Nat) (s : State) : Out :=
  s.copyWord e .peer [d, a] b (fun s c =>
    match s.peerTeam c with
    | none => s.faultDetail 0x02 7
    | some m =>
      let tgt := (s.th.reg d).toNat
      let off := (s.th.reg a).toNat
      let n := 16 * c.len
      s.copyRange m tgt n (fun s => s.copyRange s.tm off n (fun s => s.copyStash off n (fun s =>
        let id := s.nextOp
        let s := s.addOp e [] none (.copy (piecesAcross s.tm.uid off m.uid tgt n) c.bar?) .team
        match m.overlapsStash tgt n, s.op? id with
        | true, some o =>
          .next (s.engineFail o { o.base with cause := 0x14, vaddr := BitVec.ofNat 64 tgt, detail := 3 })
        | _, _ => .next s))))

/-- R137: the lines that a `cpw` or `cpl` will write are known from its record or list, so that the thread's own accesses
before it are done when it issues (log entry 16). -/
def State.listed (s : State) (body : State → Out) : Out := s.waitFor Op.accesses body

/-- `cpw` (R189, R191). -/
def execCpw (e : Bool) (d a b : Nat) (s : State) : Out :=
  s.copyWord e .cpw ([d] ++ pairRegs a) b (fun s c =>
    let off := (s.th.reg d).toNat
    let va := s.th.pair a
    if off % 16 ≠ 0 then s.faultAt 0x15 (BitVec.ofNat 64 off) 0
    else s.copyStash (off / 256 * 256) 256 (fun s => s.withAddr va 32 (fun s => s.listed (fun s =>
      let dx := (BitVec.ofNat 8 (c.len / 256)).toInt
      let dy := (BitVec.ofNat 8 c.len).toInt
      .next (s.addOp e [] none (.cpw va off dx dy c.bar?) c.memScope)))))

/-- `cpl` (R189, R192). -/
def execCpl (e : Bool) (a b : Nat) (s : State) : Out :=
  s.copyWord e .cpl (pairRegs a) b (fun s c =>
    s.withAddr (s.th.pair a) 16 (fun s => s.listed (fun s =>
      .next (s.addOp e [] none (.cpl (s.th.pair a) 0 c.len [] c.bar?) c.memScope))))

/-! ### Reading and writing the ends of a piece (R190) -/

/-- Bytes written to memory as a copy writes them. -/
def State.engineWrite (s : State) (o : Op) (va : Addr) (b : List Byte) : Except XFault Unit × State :=
  if 2 ^ 57 ≤ va.toNat then (.error ⟨0x09, 0, va⟩, s)
  else
    match s.translate o.core o.ctx va .write with
    | (.error e, s) => (.error e, s)
    | (.ok (_, pa), s) => (.ok (), s.clusterStore o.core pa b (s.inRegion o.ctx va))

/-- The bytes at the source of a piece; in error, vaddr is the start of the piece (R154; DESIGN CHOICE, log entry 78). -/
def State.readLoc (s : State) (o : Op) (l : Loc) (n : Nat) : Except XFault (List Byte) × State :=
  match l with
  | .bytes b => (.ok b, s)
  | .mem va => s.engineRead o va n
  | .scratch u off =>
    match s.team? u with
    | none => (.ok (List.replicate n 0), s)
    | some m => if m.badIn off n then (.error ⟨0x30, 0, BitVec.ofNat 64 off⟩, s) else (.ok (m.scratchBytes off n), s)

/-- Where bytes for a team's scratchpad go: into it while it is resident, to its image while it is swapped out (R324),
nowhere once its slot is freed. Answers whether they have landed. -/
def State.scratchLand (s : State) (o : Op) (u off : Nat) (b : List Byte) : Bool × State :=
  match s.team? u with
  | none => (true, s)
  | some m =>
    match m.res with
    | .resident _ _ => (true, s.setTeam (m.scratchWrite off b))
    | .swapped _ _ _ _ _ _ =>
      (false, { s with imageUpdates := s.imageUpdates ++ [⟨s.nextIdx, u, o.id, .scratch off b⟩], nextIdx := s.nextIdx + 1 })
    | _ => (true, s)

def State.writeLoc (s : State) (o : Op) (l : Loc) (b : List Byte) : Except XFault Bool × State :=
  match l with
  | .bytes _ => (.ok true, s)
  | .mem va =>
    match s.engineWrite o va b with
    | (.error e, s) => (.error e, s)
    | (.ok (), s) => (.ok true, s)
  | .scratch u off =>
    let (done, s) := s.scratchLand o u off b
    (.ok done, s)

/-! ### Landing -/

/-- A copy need not wait for a walk of an address: a TLB of its core holds the page, or the address faults as it is (R317). -/
def State.copyHit (s : State) (o : Op) (va : Addr) : Bool := decide (2 ^ 57 ≤ va.toNat) || (s.tlbHit o.core o.ctx va).isSome

/-- R137, R138, R317: a piece can land: its source lines are present, no earlier operation has still to write its bytes, and
its pages are translated. -/
def State.pieceReady (s : State) (o : Op) (p : Piece) : Bool :=
  (match p.src with
   | .scratch u off => s.linesPresent (u, off, p.len) (some o.id)
   | .mem va => s.copyHit o va
   | .bytes _ => true) &&
  (match p.dst with
   | .scratch u off => !s.earlierWriter (u, off, p.len) o.id
   | .mem va => s.copyHit o va
   | .bytes _ => true)

/-- Image updates of an operation that have not been applied. -/
def State.updatesOf (s : State) (id : Nat) : Bool := s.imageUpdates.any (fun u => u.op == id)

/-- One piece of an operation lands, whichever may be next; `mk` rebuilds the operation from the pieces left, and `more`
tells that other pieces will follow. -/
def State.landPiece (s : State) (o : Op) (ps : List Piece) (more : Bool) (mk : List Piece → OpKind) : Ev :=
  let ready := ps.zipIdx.filter (fun p => s.pieceReady o p.1)
  let (i, s) := s.pick ready.length
  match ready[i]? with
  | none => none
  | some (p, j) =>
    match s.readLoc o p.src p.len with
    | (.error e, s) => some (s.engineFault o e)
    | (.ok b, s) =>
      match s.writeLoc o p.dst b with
      | (.error e, s) => some (s.engineFault o e)
      | (.ok done, s) =>
        let o := { o with kind := mk (ps.eraseIdx j) }
        let s := s.setOp o
        if done then some (s.landed o p.len ((ps.eraseIdx j).isEmpty && !more && !s.updatesOf o.id)) else some s

/-! ### `cpw` (R191) -/

/-- The layout record arrives: its fields and the scratchpad range are checked, and the window's pieces are known. -/
def State.cpwRecord (s : State) (o : Op) (rec_ : Addr) (d : Nat) (dx dy : Int) (bar : Option Nat) : Ev :=
  match s.engineRead o rec_ 32, s.team? o.key.team with
  | (.error e, s), _ => some (s.engineFault o e)
  | (.ok r, s), some m =>
    let l := Layout.of r
    if !l.valid r then some (s.engineField o 0x02 8)
    else
      match m.scratchCheck d (l.p * l.cb) 16 with
      | some c => some (s.engineFail o { o.base with cause := c, vaddr := BitVec.ofNat 64 d })
      | none =>
        if m.overlapsStash d (l.p * l.cb) then
          some (s.engineFail o { o.base with cause := 0x14, vaddr := BitVec.ofNat 64 d, detail := 3 })
        else some (s.setOp { o with kind := .copy ((List.range l.p).flatMap (l.position m.uid d dx dy)) bar })
  | (.ok _, s), none => some (s.dropOp o.id)

/-! ### `cpl` (R192) -/

/-- One entry of the list is read and checked, in this order of its fields' faults (DESIGN CHOICE, log entry 96: R192 gives
none); its pieces are the next to land. -/
def State.cplEntry (s : State) (o : Op) (list : Addr) (next count : Nat) (bar : Option Nat) : Ev :=
  match s.engineRead o (entryAt list next) 16, s.team? o.key.team with
  | (.error e, s), _ => some (s.engineFault o e)
  | (.ok r, s), some m =>
    let x := ListEntry.of r
    let bad (c : Nat) (a : Addr) (d : BitVec 64) : Ev :=
      some (s.engineFail o { o.base with cause := c, vaddr := a, detail := d })
    if !addrOk x.va 16 then bad 0x09 x.va 0
    else if x.off % 16 ≠ 0 then bad 0x15 (BitVec.ofNat 64 x.off) 0
    else if x.len % 16 ≠ 0 ∨ x.len < 16 ∨ 2 ^ 19 < x.len ∨ 1 < x.flags then some (s.engineField o 0x02 8)
    else
      match m.scratchCheck x.off x.len 16 with
      | some c => bad c (BitVec.ofNat 64 x.off) 0
      | none =>
        if m.overlapsStash x.off x.len then bad 0x14 (BitVec.ofNat 64 x.off) 3
        else
          let ps := if x.flags = 1 then piecesOut m.uid x.off x.va x.len else piecesIn x.va m.uid x.off x.len
          some (s.setOp { o with kind := .cpl list (next + 1) count ps bar })
  | (.ok _, s), none => some (s.dropOp o.id)

/-- Event COPY_LANDING for the operations of this file. Its accesses follow the fork, with its release at the control word's
scope (R190, R246). -/
def State.copyLanding (s : State) (o : Op) : Ev :=
  if !s.copyBegun o then none
  else
    s.withFork o (fun s o =>
      match o.kind with
      | .copy ps bar => s.landPiece o ps false (fun ps => .copy ps bar)
      | .cpw r d dx dy bar => if s.copyHit o r then s.cpwRecord o r d dx dy bar else none
      | .cpl list next count [] bar =>
        if s.copyHit o (entryAt list next) then s.cplEntry o list next count bar else none
      | .cpl list next count ps bar => s.landPiece o ps (next != count) (fun ps => .cpl list next count ps bar)
      | _ => none)

end Sys2Proof.Machine
end

