-- ==== Sys2Proof/Machine/Lanes.lean ====
section
/-! DEFINITION. The cross-lane instructions: the meeting of the named seats, exchanges, votes, reductions and sampling
(07_core_access R156 to R163). -/

namespace Sys2Proof.Machine

/-! ### The participation set (R156, R157) -/

/-- The live seats of a thread's group. -/
def State.liveSeats (s : State) (t : Thread) : Word :=
  match s.team? t.key.team with
  | none => 0
  | some m => ((m.groups.find? (fun g => g.num == t.key.group)).map Group.live).getD 0

/-- The mask a thread waits with, if it waits at a cross-lane instruction. -/
def Thread.waitMask (t : Thread) : Option Word :=
  match t.status with
  | .xlane m => some m
  | _ => none

/-- The threads of a group that wait at the instruction at an address, by ascending seat. -/
def State.waitingAt (s : State) (k : ThreadKey) (pc : Addr) : List Thread :=
  (List.range 32).filterMap (fun i =>
    s.allThreads.find? (fun t => t.key == { k with seat := i } && t.pc == pc && t.waitMask.isSome))

/-- The seats of a mask that are live, in a thread's group: its named set. -/
def State.namedSet (s : State) (t : Thread) : Word := (t.waitMask.getD 0) &&& s.liveSeats t

def seatsOf (ts : List Thread) : Word := ts.foldl (fun m t => m ||| (1#32 <<< t.key.seat)) 0

/-- The set P that is complete: a thread alone where its mask names only itself, else the seats some waiting
thread names, all of them waiting here. Where one arrival completes several named sets, the lowest waiting seat's is
taken (DESIGN CHOICE, log entry 79). -/
def State.completeAt (s : State) (t : Thread) (w : List Thread) : Option (List Thread) :=
  if s.namedSet t == 1#32 <<< t.key.seat then some [t]
  else
    (w.find? (fun t => s.namedSet t &&& ~~~(seatsOf w) == 0)).map (fun t =>
      w.filter (fun u => (s.namedSet t).getLsbD u.key.seat))

/-- The set that the acting thread completes. -/
def State.complete? (s : State) (w : List Thread) : Option (List Thread) := s.completeAt s.th w

/-- A thread of a meeting has a register whose load has faulted, and the lanes of that load have not settled: its fault cannot
be delivered yet (R176). -/
def State.meetHeld (s : State) (t : Thread) (reads writes : List Nat) : Bool :=
  match t.badOperand reads writes with
  | some r =>
    t.pending r && (match s.ops.find? (fun o => o.key == t.key && o.regs.contains r && o.fault.isSome) with
                    | some o => !s.faultReady o
                    | none => false)
  | none => false

/-- R13: a thread reads or writes a pending register at the word it stands at. -/
def State.hazardOf (s : State) (t : Thread) (m : Team) (r : Nat) : State :=
  match s.ops.find? (fun o => o.key == t.key && o.regs.contains r && o.fault.isSome) with
  | some o =>
    let c := (t.clause.map ClauseCtx.header).getD t.hdr
    let w := (t.clause.map ClauseCtx.word).getD t.startAt
    s.deliver t m o (o.fault.getD s.here) (c, w)
  | none => s.trapAtWord t m (fun f => { f with cause := 0x07 })

/-- R156, R157: faults of a meeting keep the lanes their own rule gives: they are not among the lanes of the gang issue. -/
def State.offIssue (s : State) (f : State → State) : State := { f { s with issue := none } with issue := s.issue }

/-- A fault of one thread of a meeting on its registers, if it has one (R157, R154). -/
def State.meetFault (s : State) (t : Thread) (m : Team) (reads writes : List Nat) : Option State :=
  (t.badOperand reads writes).map (fun r =>
    if t.pending r then s.hazardOf t m r
    else s.trapAtWord t m (fun f => { f with cause := 0x30, vaddr := BitVec.ofNat 64 r }))

/-- R156: the threads of P named different sets. -/
def State.setsDiffer (s : State) (p : List Thread) : Word :=
  match p with
  | [] => 0
  | t :: _ => seatsOf (p.filter (fun u => s.namedSet u != s.namedSet t))

/-- R21, R22: the threads of P take part in one issue: none of them issues again in the core cycle, and their ages are 0. -/
def State.issueTogether (s : State) (p : List Thread) : State :=
  let keys := p.map Thread.key
  let c := s.coreAt s.tm.core
  (s.setCore { c with issued := c.issued ++ keys }).mapThreads (fun t => if keys.contains t.key then { t with age := 0 } else t)

/-- R156, R157: what happens once P is complete: the sets are compared, every thread's registers are checked, and `run`
makes the one execution. -/
def State.meet (s : State) (p : List Thread) (reads writes : List Nat) (run : State → List Thread → State) : State :=
  match s.team? s.th.key.team with
  | none => s
  | some m =>
    if s.setsDiffer p != 0 then
      let d := (s.setsDiffer p).setWidth 64
      s.offIssue (fun s => p.foldl (fun s t => s.trapAtWord t m (fun f => { f with cause := 0x02, lanes := seatsOf p, detail := d })) s)
    else if p.any (fun t => s.meetHeld t reads writes) then s
    else if p.any (fun t => (s.meetFault t m reads writes).isSome) then
      s.offIssue (fun s => p.foldl (fun s t => (s.meetFault t m reads writes).getD s) s)
    else run s p

/-- The acting thread, which waits at its word, goes on with its set P once that is complete (R156). -/
def State.tryMeet (s : State) (reads writes : List Nat) (run : State → List Thread → State) : State :=
  match s.complete? (s.waitingAt s.th.key s.th.pc) with
  | none => s
  | some p => (s.issueTogether p).meet (p.map (fun t => { t with age := 0, redo := false })) reads writes run

/-- A word at which threads of a group meet (R156): checks at arrival, the mask read from v[m], then the wait. A thread that
waits here already keeps the mask it read. -/
def State.meeting (s : State) (i : WordInfo) (m : Nat) (reads writes : List Nat) (run : State → List Thread → State) :
    Out :=
  if s.th.waitMask.isSome then .next (s.tryMeet reads writes run)
  else
    match s.checkWord { i with reads := m :: reads, writes := writes } with
    | some c => s.fault c
    | none =>
      s.withRegs [m] [] (fun s =>
        .next ((s.withTh (fun t => { t with status := .xlane (t.reg m ||| (1#32 <<< t.key.seat)) })).tryMeet reads writes run))

/-- Every thread of P takes what `f` computes from P and itself, and moves on. -/
def laneRun (f : List Thread → Thread → Thread) (s : State) (p : List Thread) : State :=
  p.foldl (fun s t => s.setThread { (f p t).advance with status := .ready }) s

/-- A class-2 cross-lane word (R156 to R158). -/
def State.crossLane (s : State) (m : Nat) (reads writes : List Nat) (f : List Thread → Thread → Thread) : Out :=
  s.meeting { cls := 2, reads := [], writes := [] } m reads writes (laneRun f)

/-! ### Exchanges (R160) -/

/-- The value at a seat of P, else the thread's own. -/
def fromSeat (p : List Thread) (a : Nat) (t : Thread) (src : Int) : Word :=
  match p.find? (fun u => (u.key.seat : Int) == src) with
  | some u => u.reg a
  | none => t.reg a

/-- The shared form of `sget.*`: the source seat from the own seat and the selector. -/
def State.sget (s : State) (d a m : Nat) (src : Nat → Word → Int) : Out :=
  s.crossLane m [a, d] [d] (fun p t => t.setReg d (fromSeat p a t (src t.key.seat (t.reg d))))

/-- `sget.at` (R160). -/
def execSgetAt (d a m : Nat) (s : State) : Out := s.sget d a m (fun _ q => q.toNat)

/-- `sget.xor` (R160). -/
def execSgetXor (d a m : Nat) (s : State) : Out := s.sget d a m (fun i q => ((i ^^^ (q.toNat % 32) : Nat) : Int))

/-- `sget.below` (R160). -/
def execSgetBelow (d a m : Nat) (s : State) : Out := s.sget d a m (fun i q => (i : Int) - q.toNat)

/-- `sget.above` (R160). -/
def execSgetAbove (d a m : Nat) (s : State) : Out := s.sget d a m (fun i q => (i : Int) + q.toNat)

/-! ### Masks and votes (R159, R161) -/

/-- `seat` (R159). -/
def execSeat (d m : Nat) (s : State) : Out := s.crossLane m [] [d] (fun p t => t.setReg d (seatsOf p))

/-- `ballot` (R161). -/
def execBallot (d p m : Nat) (s : State) : Out :=
  s.crossLane m [] [d] (fun ts t => t.setReg d (seatsOf (ts.filter (fun u => u.pred p))))

/-- `match` (R161). -/
def execMatchSeats (d a m : Nat) (s : State) : Out :=
  s.crossLane m [a] [d] (fun ts t => t.setReg d (seatsOf (ts.filter (fun u => u.reg a == t.reg a))))

/-- The shared form of the votes. -/
def State.vote (s : State) (p q m : Nat) (f : List Bool → Bool) : Out :=
  s.crossLane m [] [] (fun ts t => t.setPred p (f (ts.map (fun u => u.pred q))))

/-- `vote.any` (R161). -/
def execVoteAny (p q m : Nat) (s : State) : Out := s.vote p q m (fun l => l.any id)

/-- `vote.all` (R161). -/
def execVoteAll (p q m : Nat) (s : State) : Out := s.vote p q m (fun l => l.all id)

/-- `vote.eq` (R161). -/
def execVoteEq (p q m : Nat) (s : State) : Out := s.vote p q m (fun l => l.all id || l.all not)

/-! ### Reductions and the scan (R162) -/

/-- The shared form of the reductions: one value from the operands in ascending seat order. -/
def State.redux (s : State) (d a m : Nat) (f : List Word → Word) : Out :=
  s.crossLane m [a] [d] (fun p t => t.setReg d (f (p.map (fun u => u.reg a))))

def sumWords (l : List Word) : Word := l.foldl (· + ·) 0

/-- The FP32 sum in ascending seat order. -/
def sumFloats : List Word → Word
  | [] => 0
  | w :: ws => ws.foldl (faddOf .rne) (if (f32 w).isNan then nan32 else w)

/-- The first element that no other precedes. -/
def pickBy (better : Word → Word → Bool) : List Word → Word
  | [] => 0
  | w :: ws => ws.foldl (fun b x => if better x b then x else b) w

/-- `redux.add.i32` (R162). -/
def execReduxAddI32 (d a m : Nat) (s : State) : Out := s.redux d a m sumWords

/-- `redux.add.f32` (R162). -/
def execReduxAddF32 (d a m : Nat) (s : State) : Out := s.redux d a m sumFloats

/-- `redux.min.i32` (R162). -/
def execReduxMinI32 (d a m : Nat) (s : State) : Out := s.redux d a m (pickBy ltI32)

/-- `redux.max.i32` (R162). -/
def execReduxMaxI32 (d a m : Nat) (s : State) : Out := s.redux d a m (pickBy (fun x b => ltI32 b x))

/-- `scan.add.i32` (R162). -/
def execScanAddI32 (d a m : Nat) (s : State) : Out :=
  s.crossLane m [a] [d] (fun p t =>
    t.setReg d (sumWords ((p.filter (fun u => decide (u.key.seat ≤ t.key.seat))).map (fun u => u.reg a))))

/-! ### Sampling (R163) -/

/-- A weight: its value where it is finite and positive, else 0. -/
def weightOf (w : Word) : Rat :=
  match f32 w with
  | .fin false m => m
  | _ => 0

/-- The lowest seat whose running sum exceeds `x`. -/
def drawSeat (x : Rat) : Rat → List (Nat × Rat) → Word
  | _, [] => 0xFFFFFFFF
  | acc, (i, w) :: t => if x < acc + w then BitVec.ofNat 32 i else drawSeat x (acc + w) t

/-- The draw: weights by ascending seat, and the random operand of the lowest seat. -/
def sampleSeat (ws : List (Nat × Rat)) (r : Word) : Word :=
  let total := (ws.map Prod.snd).foldl (· + ·) 0
  if total = 0 then 0xFFFFFFFF else drawSeat (total * r.toNat / 2 ^ 32) 0 ws

/-- `sample` (R163). -/
def execSample (d a m : Nat) (s : State) : Out :=
  s.crossLane m [a, d] [d] (fun p t =>
    t.setReg d (sampleSeat (p.map (fun u => (u.key.seat, weightOf (u.reg a)))) ((p.head?.map (fun u => u.reg d)).getD 0)))

end Sys2Proof.Machine
end

