-- ==== Sys2Proof/Machine/Matrix.lean ====
section
/-! DEFINITION. The matrix engine and the code-table words (08_core_engines R193 to R200; 03_numbers R77, R78). -/

namespace Sys2Proof.Machine

/-! ### The forms (R195) -/

/-- Element formats of activations and weights. -/
inductive Elem where
  | e4m3 | e5m2 | bf16 | int4 | int3 | e2m1
  deriving DecidableEq, Repr

def elemNum : Elem → Nat
  | .e4m3 => 0
  | .e5m2 => 1
  | .bf16 => 2
  | .int4 => 3
  | .int3 => 4
  | .e2m1 => 5

def elemOf (n : Nat) : Elem := [Elem.e4m3, .e5m2, .bf16, .int4, .int3, .e2m1].getD n .e4m3

/-- The value of an element's bits (R77). -/
def Elem.val (f : Elem) (n : Nat) : Val :=
  match f with
  | .e4m3 => Sys2Proof.Machine.e4m3.val n
  | .e5m2 => Sys2Proof.Machine.e5m2.val n
  | .bf16 => Sys2Proof.Machine.bf16.val n
  | .e2m1 => Sys2Proof.Machine.e2m1.val n
  | _ => Val.ofRat (Sys2Proof.Machine.int4 n : Int)

/-- Registers of an A block, and of a B block of mmf (R194). -/
def aRegs (f : Elem) : Nat := if f = .bf16 then 16 else 8
def bRegs (f : Elem) : Nat := if f = .bf16 then 32 else 16

/-! ### The parameter block (R193) -/

structure MatParams where
  wofs : Nat
  aofs : Nat
  wlen : List Nat
  wchk : List Nat
  slot : Nat
  sreg : Nat
  breg : Nat
  ctl : Nat
  mofs : Nat
  deriving DecidableEq, Repr

def MatParams.of (b : List Byte) : MatParams :=
  { wofs := fieldAt b 0 4, aofs := fieldAt b 4 4, wlen := (List.range 4).map (fun t => fieldAt b (8 + 2 * t) 2),
    wchk := (List.range 4).map (fun t => fieldAt b (0x10 + 2 * t) 2), slot := fieldAt b 0x18 1, sreg := fieldAt b 0x19 1,
    breg := fieldAt b 0x1A 1, ctl := fieldAt b 0x1B 1, mofs := fieldAt b 0x1C 4 }

def MatParams.sparsity (p : MatParams) : Nat := p.ctl % 4
def MatParams.tiles (p : MatParams) : Nat := if p.sparsity = 0 then 4 else if p.sparsity = 1 then 2 else 1
/-- N kept of 32 positions. -/
def keptOf (sparsity : Nat) : Nat := if sparsity = 1 then 16 else 8
def MatParams.arrive (p : MatParams) : Option Nat := if p.ctl / 8 % 2 = 1 then some (p.ctl / 16) else none
def tileLen (w : Nat) : Nat := w % 512
def tileMode (w : Nat) : Nat := w / 512 % 4

/-- A wlen word with its wchk. -/
def wlenOk (w chk : Nat) : Bool :=
  decide (w / 2 ^ 11 = 0) &&
  (match tileMode w with
   | 0 => tileLen w == 0 || tileLen w == 256
   | 1 => decide (1 ≤ tileLen w)
   | 2 => tileLen w == 0 && chk == 0
   | _ => false)

/-- Check 2 of R193. -/
def MatParams.fieldsOk (p : MatParams) (mmf : Bool) : Bool :=
  p.ctl / 4 % 2 == 0 && p.sparsity != 3 &&
  (if mmf then
     p.wofs == 0 && p.wlen.all (· == 0) && p.wchk.all (· == 0) && p.slot == 0 && p.sreg == 0 && p.mofs == 0 && p.sparsity == 0
   else
     (List.range 4).all (fun t =>
       let w := p.wlen.getD t 0
       let c := p.wchk.getD t 0
       if t < p.tiles then wlenOk w c else w == 0 && c == 0) &&
     decide (p.slot < 8) && p.breg == 0 && (p.sparsity != 0 || p.mofs == 0))

/-- A range of check 4: alignment to 256, bounds, then stash windows. Of a range that is misaligned and out of bounds the
alignment is reported (DESIGN CHOICE, log entry 113). -/
def Team.matRange (m : Team) (o n : Nat) : Option (Nat × Nat × Addr) :=
  if o % 256 ≠ 0 then some (0x15, 0, BitVec.ofNat 64 o)
  else if 4096 * m.sgran < o + n then some (0x14, 0, BitVec.ofNat 64 o)
  else if m.overlapsStash o n then some (0x14, 3, BitVec.ofNat 64 o)
  else none

/-- The ranges an operation uses, in the order of check 4. -/
def MatParams.ranges (p : MatParams) (mmf : Bool) : List (Nat × Nat) :=
  if mmf then [(p.aofs, 2048)]
  else [(p.wofs, 256 * p.tiles), (p.aofs, 2048)] ++ (if p.sparsity = 0 then [] else [(p.mofs, 256)])

/-- Check 5: the accumulator overlaps another region. -/
def MatParams.overlaps (p : MatParams) (mmf : Bool) (block : Nat) : Bool :=
  bytesMeet p.aofs 2048 block 32 ||
  (!mmf && (bytesMeet p.aofs 2048 p.wofs (256 * p.tiles) || (p.sparsity != 0 && bytesMeet p.aofs 2048 p.mofs 256)))

/-- The registers an operation reads in every seat, in the order of check 6. -/
def MatParams.regs (p : MatParams) (mmf : Bool) (a : Nat) (af wf : Elem) : List Nat :=
  blockRegs a (aRegs af) ++ (if mmf then blockRegs p.breg (bRegs wf) else [p.sreg])

/-- Checks 2 to 6 of R193 in order: cause, detail and address. -/
def Team.matChecks (m : Team) (p : MatParams) (mmf : Bool) (block a window : Nat) (af wf : Elem) :
    Option (Nat × Nat × Addr) :=
  if !p.fieldsOk mmf then some (0x02, 9, 0)
  else if (match p.arrive with | some b => !(m.bar b).valid | none => false) then some (0x02, 1, 0)
  else
    match (p.ranges mmf).findSome? (fun r => m.matRange r.1 r.2) with
    | some x => some x
    | none =>
      if p.overlaps mmf block then some (0x02, 11, 0)
      else if (p.regs mmf a af wf).any (fun r => decide (window ≤ r)) then some (0x08, 0, 0)
      else none

/-! ### Issue (R196) -/

/-- Threads of the acting thread's group. -/
def State.groupThreads (s : State) (k : ThreadKey) : List Thread :=
  s.allThreads.filter (fun t => t.key.team == k.team && t.key.group == k.group)

/-- R13: pending bits of a matrix operation in every thread of its group. -/
def State.groupPend (s : State) (k : ThreadKey) (f : Thread → Thread) : State :=
  s.mapThreads (fun t => if t.key.team == k.team && t.key.group == k.group then f t else t)

/-- Check 7 of R193: a pending register in the group. -/
def State.matHazard (s : State) (regs : List Nat) : Option State :=
  match s.th.hazard regs with
  | some r => if s.ops.any (fun o => o.key == s.th.key && o.regs.contains r && o.fault.isSome) then some (s.hazardTrap r) else none
  | none => none

/-- The seats of the group with a pending register. -/
def State.pendingSeats (s : State) (regs : List Nat) : Word :=
  ((s.groupThreads s.th.key).filter (fun t => (t.hazard regs).isSome)).foldl (fun m t => m ||| (1#32 <<< t.key.seat)) 0

/-- A weight tile decoded from scratchpad (R149). -/
def Team.weightTile (m : Team) (p : MatParams) (int3 : Bool) (t : Nat) : Except DecodeFault (List Byte) :=
  let b := m.scratchBytes (p.wofs + 256 * t) 256
  let w := p.wlen.getD t 0
  let chk := p.wchk.getD t 0
  match tileMode w with
  | 0 => decodeRaw int3 b chk
  | 1 => decodeCoded (m.ctabs.getD p.slot none) int3 b (tileLen w) chk
  | _ => .ok (List.replicate 256 0)

/-- The bitmap's words. -/
def Team.bitmapWords (m : Team) (p : MatParams) : List Word :=
  if p.sparsity = 0 then [] else (List.range 64).map (fun i => leWord (m.scratchBytes (p.mofs + 4 * i) 4))

def popcount32 (w : Word) : Nat := ((List.range 32).filter (fun i => w.getLsbD i)).length

/-- Why the weight tiles of an operation do not validate (R194, R196, R154). -/
inductive WeightFault where
  | decode (tile : Nat) (f : DecodeFault)
  | bitmap
  | bad (word : Nat)
  deriving DecidableEq, Repr

/-- The first bad word of a list of ranges (R154). -/
def Team.firstBad (m : Team) (rs : List (Nat × Nat)) : Option Nat :=
  m.badWords.find? (fun w => rs.any (fun r => bytesMeet (4 * w) 4 r.1 r.2))

/-- Bytes of a weight tile's 256 that its decoding reads: a raw tile's, a coded tile's length, none of a zero tile
(DEDUCED, log entry 97). -/
def tileRead (w : Nat) : Nat :=
  match tileMode w with
  | 0 => 256
  | 1 => min (tileLen w) 256
  | _ => 0

/-- A bitmap word with a number of set bits other than N. -/
def MatParams.badMap (p : MatParams) (ws : List Word) : Bool := ws.any (fun w => popcount32 w != keptOf p.sparsity)

/-- The fault of tile `t`'s turn, if any, in the order of R196: its bytes, its decoding, the bitmap's words, its counts. -/
def Team.weightFault (m : Team) (p : MatParams) (int3 : Bool) (t : Nat) : Option WeightFault :=
  match m.firstBad [(p.wofs + 256 * t, tileRead (p.wlen.getD t 0))] with
  | some w => some (.bad w)
  | none =>
    match m.weightTile p int3 t with
    | .error f => some (.decode t f)
    | .ok _ =>
      match (if p.sparsity = 0 then none else m.firstBad [(p.mofs, 256)]) with
      | some w => some (.bad w)
      | none => if p.badMap (m.bitmapWords p) then some .bitmap else none

/-- The weight tiles, or the first fault (R196). -/
def Team.weightTiles (m : Team) (p : MatParams) (int3 : Bool) : Except WeightFault (List (List Byte)) :=
  match (List.range p.tiles).findSome? (m.weightFault p int3) with
  | some f => .error f
  | none => .ok ((List.range p.tiles).map (fun t => match m.weightTile p int3 t with | .ok b => b | .error _ => []))

/-- The first line of a list of ranges that is absent. -/
def State.firstAbsent (s : State) (u : Nat) (rs : List (Nat × Nat)) : Option Nat :=
  rs.findSome? (fun r => ((List.range ((r.2 + 255) / 256)).map (fun i => r.1 / 256 + i)).find? (fun l => s.absent u l))

/-- The operation enters the matrix queue. -/
def State.matEnter (s : State) (e mmf : Bool) (a sel : Nat) (af wf : Elem) (p : MatParams) (tiles : List (List Byte))
    (bitmap : List Word) : Out :=
  let regs := p.regs mmf a af wf
  let m : MatOp :=
    { aFmt := elemNum af, wFmt := elemNum wf, isMmf := mmf, areg := a, breg := p.breg, sreg := p.sreg, sel := sel,
      aofs := p.aofs, sparsity := p.sparsity, tiles := tiles, bitmap := bitmap, arrive := p.arrive }
  let k := s.th.key
  .next ((s.addOp e regs none (.mat m) .team).groupPend k (fun t => t.setPendings regs))

/-- R196 from the presence wait on: tiles are decoded, the bitmaps are checked. The thread keeps the block, read once, while
it waits (R193). -/
def State.matDecode (s : State) (e mmf : Bool) (a sel : Nat) (af wf : Elem) (block : List Byte) : Out :=
  let p := MatParams.of block
  let src := if mmf then [] else (p.ranges false).filter (fun r => r.1 != p.aofs)
  match s.firstAbsent s.tm.uid src with
  | some l => .next ((s.withTh (fun t => { t with block := some block })).park (.line l))
  | none =>
    if mmf then s.matEnter e mmf a sel af wf p [] []
    else
      match s.tm.weightTiles p (wf == .int3) with
      | .error .bitmap => s.faultDetail 0x02 10
      | .error (.bad w) => s.faultAt 0x30 (BitVec.ofNat 64 (4 * w)) 0
      | .error (.decode t f) =>
        .next (s.trap { s.here with cause := f.cause, bitoff := BitVec.ofNat 32 f.bitoff, tensor := 0x00FF0000,
                                    tile := BitVec.ofNat 64 t })
      | .ok ts => s.matEnter e mmf a sel af wf p ts (s.tm.bitmapWords p)

/-- R193: the checks before the presence wait, and the reading of the block. A block that lies in a valid stash window is
read from the scratchpad as it stands (DESIGN CHOICE, log entry 97). A bad word anywhere in it is reported with the block's
offset (DESIGN CHOICE, log entry 78). -/
def State.matCheck (s : State) (e mmf : Bool) (a sel o : Nat) (af wf : Elem) : Out :=
  if o % 32 ≠ 0 then s.faultAt 0x15 (BitVec.ofNat 64 o) 0
  else if 4096 * s.tm.sgran < o + 32 then s.faultAt 0x14 (BitVec.ofNat 64 o) 0
  else if s.absent s.tm.uid (o / 256) then .next (s.park (.line (o / 256)))
  else if s.tm.badIn o 32 then s.faultAt 0x30 (BitVec.ofNat 64 o) 0
  else
    let block := s.tm.scratchBytes o 32
    let p := MatParams.of block
    match s.tm.matChecks p mmf o a s.th.window af wf with
    | some (c, d, va) => s.faultAt c va (BitVec.ofNat 64 d)
    | none =>
      let regs := p.regs mmf a af wf
      match s.matHazard regs with
      | some s => .next s
      | none =>
        if s.pendingSeats regs != 0 then
          .next (s.offIssue (fun s => s.trap { s.here with cause := 0x07, lanes := s.pendingSeats regs }))
        else s.matDecode e mmf a sel af wf block

/-- The shared form of mmq and mmf. -/
def State.matWord (s : State) (e mmf : Bool) (a pr sel : Nat) (af wf : Elem) : Out :=
  s.memWord { cls := 3, role := some .matrix, reads := [pr], writes := [] } (fun s =>
    s.tracked e (fun s => s.queued OpKind.isMatrix 8 (fun s =>
      match s.th.block with
      | some b => s.matDecode e mmf a sel af wf b
      | none => s.matCheck e mmf a sel (s.th.reg pr).toNat af wf)))

/-- `mmq.i4.e4m3` (R195, R196). -/
def execMmqI4E4m3 (e : Bool) (a p sel : Nat) (s : State) : Out := s.matWord e false a p sel .e4m3 .int4

/-- `mmq.i4.e5m2` (R195, R196). -/
def execMmqI4E5m2 (e : Bool) (a p sel : Nat) (s : State) : Out := s.matWord e false a p sel .e5m2 .int4

/-- `mmq.i4.bf16` (R195, R196). -/
def execMmqI4Bf16 (e : Bool) (a p sel : Nat) (s : State) : Out := s.matWord e false a p sel .bf16 .int4

/-- `mmq.i3.e4m3` (R195, R196). -/
def execMmqI3E4m3 (e : Bool) (a p sel : Nat) (s : State) : Out := s.matWord e false a p sel .e4m3 .int3

/-- `mmq.i3.bf16` (R195, R196). -/
def execMmqI3Bf16 (e : Bool) (a p sel : Nat) (s : State) : Out := s.matWord e false a p sel .bf16 .int3

/-- `mmq.f4.e4m3` (R195, R196). -/
def execMmqF4E4m3 (e : Bool) (a p sel : Nat) (s : State) : Out := s.matWord e false a p sel .e4m3 .e2m1

/-- `mmq.f4.bf16` (R195, R196). -/
def execMmqF4Bf16 (e : Bool) (a p sel : Nat) (s : State) : Out := s.matWord e false a p sel .bf16 .e2m1

/-- `mmf.e4m3` (R195, R196). -/
def execMmfE4m3 (e : Bool) (a p : Nat) (s : State) : Out := s.matWord e true a p 0 .e4m3 .e4m3

/-- `mmf.e5m2` (R195, R196). -/
def execMmfE5m2 (e : Bool) (a p : Nat) (s : State) : Out := s.matWord e true a p 0 .e5m2 .e5m2

/-- `mmf.bf16` (R195, R196). -/
def execMmfBf16 (e : Bool) (a p : Nat) (s : State) : Out := s.matWord e true a p 0 .bf16 .bf16

/-- `acc.clr` (R198). -/
def execAccClr (e : Bool) (p : Nat) (s : State) : Out :=
  s.memWord { cls := 3, role := some .matrix, reads := [p], writes := [] } (fun s =>
    s.tracked e (fun s => s.queued OpKind.isMatrix 8 (fun s =>
      let o := (s.th.reg p).toNat
      match s.tm.matRange o 2048 with
      | some (c, d, va) => s.faultAt c va (BitVec.ofNat 64 d)
      | none => .next (s.addOp e [] none (.accClr o) .team))))

/-! ### The engine (R194, R196) -/

/-- A register of a seat of the group: of its thread, of an exited thread as it left it, or 0 (R15, R34). -/
def State.seatReg (s : State) (k : ThreadKey) (m : Team) (seat r : Nat) : Word :=
  match s.thread? { k with seat := seat } with
  | some t => t.reg r
  | none =>
    match m.groups.find? (fun g => g.num == k.group) with
    | some g => ((g.dead.find? (fun d => d.1 == seat)).map (fun d => d.2.1.getD r 0)).getD 0
    | none => 0

/-- Registers of a seat of the group that hold an uncorrectable error, of an exited thread's too (R154, R194). -/
def State.seatBad (s : State) (k : ThreadKey) (m : Team) (seat : Nat) : List Nat :=
  match s.thread? { k with seat := seat } with
  | some t => t.badRegs
  | none =>
    match m.groups.find? (fun g => g.num == k.group) with
    | some g => ((g.dead.find? (fun d => d.1 == seat)).map (fun d => d.2.2)).getD []
    | none => []

/-- Byte, or half, i of a word as a number. -/
def byteOf (w : Word) (i : Nat) : Nat := w.toNat / 256 ^ i % 256
def halfOf (w : Word) (i : Nat) : Nat := w.toNat / 65536 ^ i % 65536

/-- Element `j` of a run of registers that holds a format. -/
def packedElem (f : Elem) (reg : Nat → Word) (j : Nat) : Nat :=
  if f = .bf16 then halfOf (reg (j / 2)) (j % 2) else byteOf (reg (j / 4)) (j % 4)

/-- A(m, k) (R194). -/
def matA (reg : Nat → Nat → Word) (x : MatOp) (m k : Nat) : Val :=
  let f := elemOf x.aFmt
  f.val (packedElem f (fun i => reg (m + 16 * (k / 32)) (x.areg + i)) (k % 32))

/-- Kept positions of column n below k, and whether k is kept. -/
def keptAt (x : MatOp) (n k : Nat) : Bool := (x.bitmap.getD (2 * n + k / 32) 0).getLsbD (k % 32)

def keptBelow (x : MatOp) (n k : Nat) : Nat := ((List.range k).filter (keptAt x n)).length

/-- B(k, n) (R194), or none for a pruned position. -/
def matB (reg : Nat → Nat → Word) (x : MatOp) (k n : Nat) : Option Val :=
  let f := elemOf x.wFmt
  if x.isMmf then some (f.val (packedElem f (fun i => reg n (x.breg + i)) k))
  else if x.sparsity = 0 then some (f.val (nibbleAt (x.tiles.getD (n / 8) []) (64 * (n % 8) + k)))
  else if keptAt x n k then
    let cols := if x.sparsity = 1 then 16 else 32
    some (f.val (nibbleAt (x.tiles.getD (n / cols) []) (2 * keptOf x.sparsity * (n % cols) + keptBelow x n k)))
  else none

/-- scale(n, g) (R194), none for mmf. -/
def matScale (reg : Nat → Nat → Word) (x : MatOp) (n g : Nat) : Option Val :=
  if x.isMmf then none
  else
    let b := byteOf (reg n x.sreg) (2 * x.sel + g)
    some (if elemOf x.wFmt = .e2m1 then e8m0 b else Sys2Proof.Machine.e4m3.val b)

/-- One group of one accumulator element. -/
def matGroup (reg : Nat → Nat → Word) (x : MatOp) (m n g : Nat) (acc : Word) : Word :=
  groupStep acc (matScale reg x n g) ((List.range 32).map (fun j =>
    match matB reg x (32 * g + j) n with
    | some w => groupTerm w (matA reg x m (32 * g + j))
    | none => .fin false 0))

/-- Accumulator (m, n) after the operation. -/
def matElement (reg : Nat → Nat → Word) (x : MatOp) (m n : Nat) (acc : Word) : Word :=
  matGroup reg x m n 1 (matGroup reg x m n 0 acc)

/-- The 2 KiB of the accumulator after the operation. -/
def matResult (reg : Nat → Nat → Word) (x : MatOp) (acc : Nat → Word) : List Byte :=
  (List.range 512).flatMap (fun i => leBytes 4 (matElement reg x (i / 32) (i % 32) (acc i)).toNat)

/-- Registers the operation reads in every seat. -/
def MatOp.regs (x : MatOp) : List Nat :=
  blockRegs x.areg (aRegs (elemOf x.aFmt)) ++ (if x.isMmf then blockRegs x.breg (bRegs (elemOf x.wFmt)) else [x.sreg])

/-- The operation is the first of its core's matrix queue, what precedes its fork is done (R246), and earlier writers of its
accumulator are done. -/
def State.matTurn (s : State) (o : Op) (aofs : Nat) : Bool :=
  (match s.engineQueue o.core OpKind.isMatrix with
   | p :: _ => p.id == o.id
   | [] => false) &&
  s.forked o && !s.earlierWriter (o.key.team, aofs, 2048) o.id

/-- The pending bits of a matrix operation's operands are taken away, in every thread of the group. -/
def State.matTaken (s : State) (o : Op) : State :=
  (s.groupPend o.key (fun t => t.clearPendings o.regs)).setOp { o with regs := [] }

/-- R197: an uncorrectable word that the engine reads: a register of a seat of the group, lowest seat first, or a word of
the accumulator (which of several it names is the model's choice, log entry 97). -/
def State.matBad (s : State) (o : Op) (m : Team) (x : MatOp) : Option Addr :=
  match (List.range 32).findSome? (fun seat => (s.seatBad o.key m seat).find? (fun r => x.regs.contains r)) with
  | some r => some (BitVec.ofNat 64 r)
  | none => (m.firstBad [(x.aofs, 2048)]).map (fun w => BitVec.ofNat 64 (4 * w))

/-- The last step of an operation: its flag, and its arrival (R185). -/
def State.matLeave (s : State) (o : Op) (arrive : Option Nat) : State :=
  match arrive with
  | none => (s.finishOp o).wakeLines
  | some b =>
    match s.barUpdate o.key.team b 1 0 with
    | .error d => s.engineField o 0x02 d
    | .ok s => (s.finishOp o).wakeLines

/-- Event MATRIX_EXECUTE (R196). -/
def execMatrixExecute (op : Nat) (s : State) : Out :=
  s.onOp op (fun o =>
    match o.kind, s.team? o.key.team with
    | .mat x, some m =>
      if !s.matTurn o x.aofs then none
      else
        match s.matBad o m x with
        | some va =>
          let s := s.matTaken o
          some (s.engineFail { o with regs := [] } { o.base with cause := 0x30, vaddr := va })
        | none =>
          let b := matResult (fun seat r => s.seatReg o.key m seat r) x
            (fun i => leWord (m.scratchBytes (x.aofs + 4 * i) 4))
          let s := (s.matTaken o).setTeam (m.scratchWrite x.aofs b)
          some (s.matLeave { o with regs := [] } x.arrive)
    | _, _ => none)

/-- Event ACC_CLR_EXECUTE (R198). -/
def execAccClrExecute (op : Nat) (s : State) : Out :=
  s.onOp op (fun o =>
    match o.kind, s.team? o.key.team with
    | .accClr a, some m =>
      if !s.matTurn o a then none
      else some ((s.setTeam (m.scratchWrite a (List.replicate 2048 0))).matLeave o none)
    | _, _ => none)

/-! ### Code tables (R199, R200) -/

/-- A thread's earlier writes to memory have been made: the words that read memory at issue wait for them (R235). -/
def State.ownWrites (s : State) (body : State → Out) : Out := s.waitFor (fun o => o.kind.isWrite) body

/-- Bytes read at device scope by the acting thread, 32 at a time: `n` runs from an address (R199, R332). -/
def State.deviceBytes (s : State) (va : Addr) : Nat → Except XFault (List Byte) × State
  | 0 => (.ok [], s)
  | n + 1 =>
    match State.deviceBytes s va n with
    | (.error e, s) => (.error e, s)
    | (.ok b, s) =>
      let a := va + BitVec.ofNat 64 (32 * n)
      match s.translate s.tm.core s.tm.ctx a .read with
      | (.error e, s) => (.error e, s)
      | (.ok (_, pa), s) =>
        match s.homeReadable s.tm.core a pa 32 with
        | .error e => (.error e, s)
        | .ok () =>
          let (c, s) := s.homeAt none s.tm.core pa 32
          (.ok (b ++ c), s)

/-- The units of a team's filled stash lines from which 32 bytes are read become whole (R234), and the bytes. -/
def State.windowBytes (s : State) (w l off : Nat) (d : BitVec 256) : Except XFault (List Byte) × State :=
  let r := (mixedUnits d off 32).foldl (fun (x : Except XFault State) v =>
    match x with
    | .error e => .error e
    | .ok s =>
      match (s.tm.window w).line l with
      | .filled d => (s.stashMend s.tm w l d v).map (fun y => { y.2 with tm := y.1 })
      | _ => .ok s) (.ok s)
  match r with
  | .error e => (.error e, s)
  | .ok s =>
    if s.tm.badIn off 32 then (.error ⟨0x30, 0, BitVec.ofNat 64 off⟩, s) else (.ok (s.tm.scratchBytes off 32), s)

/-- Bytes of a record, 32 at a time, as the team's own accesses take them: from its stash lines (R140), which are filled, else
at home. -/
def State.recordBytes (s : State) (va : Addr) : Nat → Except XFault (List Byte) × State
  | 0 => (.ok [], s)
  | n + 1 =>
    match State.recordBytes s va n with
    | (.error e, s) => (.error e, s)
    | (.ok b, s) =>
      let a := va + BitVec.ofNat 64 (32 * n)
      let (r, s) :=
        match s.tm.stashVa a with
        | some (w, l) =>
          (match (s.tm.window w).line l with
           | .filled d => s.windowBytes w l ((s.tm.window w).offsetOf a) d
           | _ => s.deviceBytes a 1)
        | none => s.deviceBytes a 1
      match r with
      | .error e => (.error e, s)
      | .ok c => (.ok (b ++ c), s)

/-- The first line of the team's stash windows that `n` parts of 32 bytes lie in and that is not filled: window, line,
offset. -/
def Team.recordLine (m : Team) (va : Addr) (n : Nat) : Option (Nat × Nat × Nat) :=
  (List.range n).findSome? (fun i =>
    let a := va + BitVec.ofNat 64 (32 * i)
    match m.stashVa a with
    | some (w, l) =>
      (match (m.window w).line l with
       | .filled _ => none
       | _ => some (w, l, (m.window w).offsetOf a))
    | none => none)

/-- A record in memory is accessed at issue: a stash line of it that is not filled is touched first. -/
def State.withRecord (s : State) (va : Addr) (n : Nat) (body : State → Out) : Out :=
  match s.tm.recordLine va n with
  | some (w, l, off) => s.stashTouch w l off false false (fun s _ => .next s.stall)
  | none => body s

/-- `ctld` (R199): the record is read and checked before the thread passes; the slot is replaced later (R200). -/
def execCtld (e : Bool) (a slot : Nat) (s : State) : Out :=
  s.memWord { cls := 3, role := some .matrix, reads := pairRegs a, writes := [] } (fun s =>
    s.tracked e (fun s => s.withAddr (s.th.pair a) 32 (fun s => s.ownWrites (fun s =>
      s.withRecord (s.th.pair a) 9 (fun s =>
        match s.recordBytes (s.th.pair a) 9 with
        | (.error x, s) => .next (s.faultX x)
        | (.ok r, s) =>
          match tableFault r with
          | some o => s.faultDetail 0x26 o
          | none => .next (s.addOp e [] none (.ctld slot r)))))))

/-- A store to a line of a window can be made: its page is not coded and may be written (R141, R170). -/
def Stash.storable (x : Stash) (l : Nat) (a : Addr) : Except XFault Unit :=
  if x.coded.getD l false then .error ⟨0x13, 0, a⟩
  else if !x.writable.getD l false then .error ⟨0x11, 0, a⟩
  else .ok ()

/-- The parts of a 288-byte store, 32 bytes at a time: those of memory translated for writing, those in windows to be
stored there (R140). -/
def State.storeParts (s : State) (va : Addr) (b : List Byte) : Nat → Except XFault (List (Addr × Nat × List Byte)) × State
  | 0 => (.ok [], s)
  | n + 1 =>
    match State.storeParts s va b n with
    | (.error e, s) => (.error e, s)
    | (.ok ps, s) =>
      let a := va + BitVec.ofNat 64 (32 * n)
      match s.tm.stashVa a with
      | some (w, l) =>
        (match (s.tm.window w).storable l a with
         | .error e => (.error e, s)
         | .ok () => (.ok ps, s))
      | none =>
        match s.translate s.tm.core s.tm.ctx a .write with
        | (.error e, s) => (.error e, s)
        | (.ok (_, pa), s) => (.ok (ps ++ [(a, pa, slice b (32 * n) 32)]), s)

/-- The bytes of a store that lie in a team's windows go to its stash lines, which are filled, and are dirty there (R140). -/
def Team.storeRecord (m : Team) (va : Addr) (b : List Byte) (n : Nat) : Team :=
  (List.range n).foldl (fun m i =>
    let a := va + BitVec.ofNat 64 (32 * i)
    match m.stashVa a with
    | none => m
    | some (w, l) =>
      let x := m.window w
      match x.line l with
      | .filled d =>
        (m.scratchWrite (x.offsetOf a) (slice b (32 * i) 32)).setWindow w
          (x.setLine l (.filled (d ||| dirtyMask (x.offsetOf a) 32)))
      | _ => m) m

/-- Some part of a record lies in a window of the team. -/
def Team.windowed (m : Team) (va : Addr) (n : Nat) : Bool :=
  (List.range n).any (fun i => (m.stashVa (va + BitVec.ofNat 64 (32 * i))).isSome)

/-- `ctst` (R199): an empty slot stores zeros. What lies in a stash window is stored there at issue, after the thread's earlier
accesses (R235); the rest goes to memory. -/
def execCtst (e : Bool) (a slot : Nat) (s : State) : Out :=
  s.memWord { cls := 3, reads := pairRegs a, writes := [] } (fun s =>
    s.tracked e (fun s => s.withAddr (s.th.pair a) 32 (fun s =>
      s.waitFor (fun o => s.tm.windowed (s.th.pair a) 9 && o.accesses) (fun s =>
        s.withRecord (s.th.pair a) 9 (fun s =>
          let b := (s.tm.ctabs.getD slot none).getD (List.replicate 288 0)
          match s.storeParts (s.th.pair a) b 9 with
          | (.error x, s) => .next (s.faultX x)
          | (.ok ps, s) =>
            .next (({ s with tm := s.tm.storeRecord (s.th.pair a) b 9 } : State).addOp e [] none (.ctst ps)))))))

/-- `ctinv` (R199). -/
def execCtinv (slot : Nat) (s : State) : Out :=
  s.word { cls := 3, reads := [], writes := [] } (fun s =>
    .next ({ s with tm := { s.tm with ctabs := s.tm.ctabs.set slot none } } : State).advance)

/-- The table takes its slot and the `ctld` leaves its flag (R200). -/
def State.ctldReturn (s : State) (o : Op) (slot : Nat) (r : List Byte) : Ev :=
  match s.team? o.key.team with
  | none => some (s.dropOp o.id)
  | some m => some ((s.setTeam { m with ctabs := m.ctabs.set slot (some r) }).finishOp o)

/-- The record of a `ctst` reaches the cluster cache, as the bytes of a store do (R174). -/
def State.ctstWritten (s : State) (o : Op) (ps : List (Addr × Nat × List Byte)) : Ev :=
  if !ps.all (fun p => s.writeReady o p.2.1 p.2.2.length) then none
  else
    some ((ps.foldl (fun s p =>
      (s.clusterStore o.core p.2.1 p.2.2 (s.inRegion o.ctx p.1)).stashTake o.key.team p.1 p.2.2) s).finishOp o)

end Sys2Proof.Machine
end

