-- ==== Sys2Proof/Machine/Cluster.lean ====
section
/-! DEFINITION. Monitor waits, acquire loads, release stores, fences, cache maintenance, and the events of clusters and
home slices (11_cluster R218 to R225, R231; 12_memory_model R237, R248; 13_cluster_instr R277 to R282). -/

namespace Sys2Proof.Machine

/-! ### Monitors (R223 to R225, R277) -/

/-- R224: home arms an entry for a thread, shared by its team's waiters on the same word and condition; the line's
owned words are revoked. None where the slice's 256 entries are taken (R225). -/
def State.armMonitor (s : State) (pa cmp : Nat) (value : Word) (ctx team group : Nat) : Option State :=
  let same (m : Monitor) : Bool :=
    m.word == pa && m.cmp == cmp && m.value == value && m.team == some team && !m.fired
  let bit : BitVec 32 := 1#32 <<< group
  if s.monitors.any same then
    some { s with monitors := s.monitors.map (fun m => if same m then { m with groups := m.groups ||| bit } else m) }
  else if 256 ≤ (s.monitors.filter (fun m => sliceOf m.word == sliceOf pa)).length then none
  else
    let s := s.revokeRange (lineOf pa) 256
    some { s with monitors := s.monitors ++ [⟨s.nextMonitor, pa, cmp, value, ctx, some team, bit, none, false, none⟩],
                  nextMonitor := s.nextMonitor + 1 }

/-- The address and comparand that a thread resumed inside its wait stands for (R322, R323). -/
def Thread.heldWait (t : Thread) : Option (Addr × Word) :=
  match t.held with
  | some (.mwait va _ v) => some (va, v)
  | some (.mwaitOverflow va _ v) => some (va, v)
  | _ => none

/-- `mwait` of a comparison (R277): the read at home, then the acquire of R220 or the wait of R224 or R225. -/
def State.mwaitWord (s : State) (cmp d a : Nat) : Out :=
  s.memWord (infoC4 (pairRegs a ++ [d]) []) (fun s =>
    let (va, v) := s.th.heldWait.getD (s.th.pair a, s.th.reg d)
    s.wordAddr va 4 (fun s => s.ownWrites (fun s => s.withPa va .read (fun s _ pa =>
      match s.homeReadable s.tm.core va pa 4 with
      | .error e => .next (s.faultX e)
      | .ok () =>
        let (b, s) := s.homeAt none s.tm.core pa 4
        if cmpHolds cmp (leWord b) v then .next (s.acquireStep s.tm.core s.tm.uid .device).advance
        else
          match s.armMonitor pa cmp v s.tm.ctx s.tm.uid s.th.key.group with
          | some s => .next (s.park (.mwait va cmp v))
          | none => .next ((s.withTh (fun t => { t with poll := 4096 })).park (.mwaitOverflow va cmp v))))))

/-- `mwait.eq` (R277). -/
def execMwaitEq (d a : Nat) (s : State) : Out := s.mwaitWord 0 d a

/-- `mwait.ne` (R277). -/
def execMwaitNe (d a : Nat) (s : State) : Out := s.mwaitWord 1 d a

/-- `mwait.ge.i32` (R277). -/
def execMwaitGeI32 (d a : Nat) (s : State) : Out := s.mwaitWord 2 d a

/-- `mwait.lt.i32` (R277). -/
def execMwaitLtI32 (d a : Nat) (s : State) : Out := s.mwaitWord 3 d a

/-- `mwait.ge.n32` (R277). -/
def execMwaitGeN32 (d a : Nat) (s : State) : Out := s.mwaitWord 4 d a

/-- `mwait.lt.n32` (R277). -/
def execMwaitLtN32 (d a : Nat) (s : State) : Out := s.mwaitWord 5 d a

/-- A thread that a monitor's wake names: of the team, in one of its groups, waiting on the same condition. -/
def Monitor.wakes (m : Monitor) (u : Nat) (t : Thread) : Bool :=
  t.key.team == u && m.groups.getLsbD t.key.group &&
  (match t.status with
   | .parked (.mwait _ c v) => c == m.cmp && v == m.value
   | _ => false)

/-- A team that waits outside may be resumed (R224, R323). -/
def Team.runnable (t : Team) : Team :=
  match t.res with
  | .swapped c k b n .wake o => { t with res := .swapped c k b n .place o }
  | _ => t

/-- Event MONITOR_WAKE (R224): the wake reaches the core, whose threads read their word again, or the dispatcher, which
marks the team runnable. -/
def execMonitorWake (idx : Nat) (s : State) : Out :=
  s.orStay <|
  match s.monitors.find? (fun m => m.idx == idx) with
  | none => none
  | some m =>
    match m.team with
    | none => none
    | some u =>
      if !m.fired then none
      else
        let s : State := { s with monitors := s.monitors.filter (fun x => x.idx != idx) }
        match s.team? u with
        | none => some s
        | some t =>
          let s := s.mapThreads (fun x => if m.wakes u x then { x with status := .ready } else x)
          some (s.setTeam t.runnable)

/-- R225: the word of an overflow wait read at home now: whether the thread must do its `mwait` again, as the condition holds
or the word cannot be read. -/
def State.pollMwait (s : State) (m : Team) (va : Addr) (cmp : Nat) (v : Word) : Bool × State :=
  match s.translate m.core m.ctx va .read with
  | (.error _, s) => (true, s)
  | (.ok (_, pa), s) =>
    match s.homeReadable m.core va pa 4 with
    | .error _ => (true, s)
    | .ok () =>
      let (b, s) := s.homeAt none m.core pa 4
      (cmpHolds cmp (leWord b) v, s)

/-- Event MWAIT_OVERFLOW_POLL (R225): the condition of a thread in overflow mode is read again at home; it comes at the
latest 4096 core cycles after the last reading. -/
def execMwaitOverflowPoll (k : ThreadKey) (s : State) : Out :=
  s.orStay <|
  match s.thread? k, s.team? k.team with
  | some t, some m =>
    (match t.status with
     | .parked (.mwaitOverflow va cmp v) =>
       if m.resident then
         let (go, s) := s.pollMwait m va cmp v
         some (s.setThread (if go then { t with status := .ready } else { t with poll := 4096 }))
       else none
     | _ => none)
  | _, _ => none

/-! ### Acquire loads and release stores (R278, R279) -/

/-- `ld.acq` of a size. -/
def State.ldAcqWord (s : State) (e : Bool) (size d a : Nat) (sc : Scope) : Out :=
  s.memWord (infoC4 (pairRegs a) (dataRegs d size)) (fun s => s.tracked e (fun s =>
    let va := s.th.pair a
    s.wordAddr va size (fun s => s.loadAt e va size false d (some sc))))

/-- `st.rel` of a size. -/
def State.stRelWord (s : State) (e : Bool) (size d a : Nat) (sc : Scope) : Out :=
  s.memWord (infoC4 (pairRegs a ++ dataRegs d size) []) (fun s => s.tracked e (fun s =>
    let va := s.th.pair a
    s.wordAddr va size (fun s => s.withPa va .write (fun s _ pa =>
      .next (s.addOp e [] (some pa) (.store va (s.th.storeData d size) (some sc)))))))

/-- `ld.acq.b32` (R278). -/
def execLdAcqB32 (e : Bool) (d a : Nat) (c : Scope) (s : State) : Out := s.ldAcqWord e 4 d a c

/-- `ld.acq.b64` (R278). -/
def execLdAcqB64 (e : Bool) (d a : Nat) (c : Scope) (s : State) : Out := s.ldAcqWord e 8 d a c

/-- `st.rel.b32` (R279). -/
def execStRelB32 (e : Bool) (d a : Nat) (c : Scope) (s : State) : Out := s.stRelWord e 4 d a c

/-- `st.rel.b64` (R279). -/
def execStRelB64 (e : Bool) (d a : Nat) (c : Scope) (s : State) : Out := s.stRelWord e 8 d a c

/-! ### Fences (R280) -/

/-- A fence: the acting thread waits for its earlier reads, and its earlier writes where it releases, then the body. -/
def State.fence (s : State) (writes : Bool) (body : State → State) : Out :=
  s.word (infoC4 [] []) (fun s =>
    s.waitFor (fun o => o.kind.isRead || (writes && o.kind.isWrite)) (fun s => .next (body s).advance))

/-- `fence.acq` (R280). -/
def execFenceAcq (c : Scope) (s : State) : Out := s.fence false (fun s => s.acquireStep s.tm.core s.tm.uid c)

/-- `fence.rel` (R280). -/
def execFenceRel (c : Scope) (s : State) : Out := s.fence true (fun s => s.releaseAt s.tm.core s.tm.uid c)

/-- `fence.ar` (R241, R280): a release, then an acquire; steps take place one at a time, which is the order of R241. -/
def execFenceAr (c : Scope) (s : State) : Out :=
  s.fence true (fun s => (s.releaseAt s.tm.core s.tm.uid c).acquireStep s.tm.core s.tm.uid c)

/-! ### Cache maintenance (R281, R282) -/

/-- A maintenance word: the whole address must have bits [63:57] zero and the range end by 2^57. -/
def State.maintWord (s : State) (form : Nat) (e : Bool) (d a : Nat) (sc : Scope) : Out :=
  s.memWord (infoC4 (pairRegs a ++ [d]) []) (fun s => s.tracked e (fun s =>
    let va := s.th.pair a
    let n := (s.th.reg d).toNat
    if !addrOk va 1 || decide (2 ^ 57 < va.toNat + n) then s.faultAt 0x09 va 0
    else .next (s.addOp e [] none (.cmaint form sc va n))))

/-- `cclean` (R281). -/
def execCclean (e : Bool) (d a : Nat) (c : Scope) (s : State) : Out := s.maintWord 0 e d a c

/-- `cinval` (R281). -/
def execCinval (e : Bool) (d a : Nat) (c : Scope) (s : State) : Out := s.maintWord 1 e d a c

/-- `cflush` (R281). -/
def execCflush (e : Bool) (d a : Nat) (c : Scope) (s : State) : Out := s.maintWord 2 e d a c

/-- A linear line that a range of physical lines covers. -/
def Tag.inLines (pa n : Nat) (t : Tag) : Bool :=
  match t with
  | .line p => decide (lineOf pa ≤ p) && decide (p < pa + n)
  | .tile _ _ _ => false

/-- R281: a core's L1 lines of a range go. -/
def State.l1Drop (s : State) (core pa n : Nat) : State :=
  let k := s.coreAt core
  s.setCore { k with l1 := k.l1.filter (fun l => !l.tag.inLines pa n) }

/-- The cores of a cluster that hold anything. -/
def State.clusterCores (s : State) (c : Nat) : List Nat := (s.cores.map Core.num).filter (fun k => clusterOf k == c)

def State.clusterNums (s : State) : List Nat := s.clusters.map Cluster.num

/-- The lines a range of physical addresses touches: first line, and bytes to the end of the last. -/
def linesSpan (pa n : Nat) : Nat × Nat := (lineOf pa, lineOf (pa + n - 1) + 256 - lineOf pa)

/-- Dirty stash bytes of a team inside a virtual range are written back and the lines become unfilled. -/
def State.stashClean (s : State) (u : Nat) (va : Addr) (n : Nat) : State :=
  match s.team? u with
  | none => s
  | some m =>
    m.stash.zipIdx.foldl (fun s x =>
      (List.range x.1.lines.length).foldl (fun s l =>
        let a := x.1.va.toNat + 256 * l
        if x.1.valid && decide (a < va.toNat + n) && decide (va.toNat < a + 256) then s.stashLineBack u x.2 l else s) s) s

/-- Copies of a cluster that are neither dirty, owned nor in escrow are dropped. -/
def Cluster.dropClean (k : Cluster) (a n : Nat) : Cluster :=
  k.keepBytes (fun b =>
    !(decide (a ≤ b.1) && decide (b.1 < a + n)) || k.owned.contains (wordOf b.1) ||
    k.dirty.any (fun d => wordOf d == wordOf b.1) || (k.escrowOn (lineOf b.1)).isSome)

/-- Copies of the shared cache that are not dirty are dropped: marks on them go, those behind a failed link apart, which
stand for bytes that are lost (R231, R358). -/
def State.homeDropClean (s : State) (a n : Nat) : State :=
  { s with homePoison := s.homePoison.filter (fun u =>
      !(unitsOf a n).contains u || s.linkDown (8 * u) || s.home.any (fun c => c.1 / 8 == u)) }

/-- Every copy of a range leaves a cluster: evictions, and its cores' L1 lines. -/
def State.clusterFlush (s : State) (c a n : Nat) : State :=
  let s := (List.range (n / 256)).foldl (fun s i => s.evictLine c (a + 256 * i)) s
  (s.clusterCores c).foldl (fun s k => s.l1Drop k a n) s

/-- What every cluster sent to the slices of a range's lines is handled (R216). -/
def State.flushRange (s : State) (pa n : Nat) : State :=
  let hit (r : Registration) : Bool := r.before r.cluster pa n
  let mine := s.registrations.filter hit
  let s := { s with registrations := s.registrations.filter (fun r => !hit r) }
  mine.foldl State.homeRegister s

/-- `cclean` of a mapped range (R281); at device scope it is the writer's step of R249 for the linear view. -/
def State.cleanRange (s : State) (o : Op) (sc : Scope) (va : Addr) (pa n : Nat) : State :=
  let (a, len) := linesSpan pa n
  let s := s.stashClean o.key.team va n
  match sc with
  | .team => s
  | .cluster => (s.flushRegs o.cluster a len).writeBack o.cluster a len
  | _ =>
    let s := s.flushRange a len
    ((s.clusterNums.foldl (fun s c => s.writeBack c a len) s).homeToMem a len).cleanView none a len

/-- `cinval` of a mapped range (R281); at device scope it is the reader's step of R249 for the linear view. -/
def State.invalRange (s : State) (o : Op) (sc : Scope) (pa n : Nat) : State :=
  let (a, len) := linesSpan pa n
  let s := s.l1Drop o.core a len
  match sc with
  | .team => s
  | .cluster => s.setCluster ((s.cluster o.cluster).dropClean a len)
  | _ =>
    let s := (s.clusterNums.foldl (fun s c => s.setCluster ((s.cluster c).dropClean a len)) s).homeDropClean a len
    ((s.cores.map Core.num).foldl (fun s k => s.l1Drop k a len) s).seeView none (unitsOf a len).contains

/-- `cflush` of a mapped range (R281). -/
def State.flushRangeAt (s : State) (o : Op) (sc : Scope) (va : Addr) (pa n : Nat) : State :=
  let (a, len) := linesSpan pa n
  let s := s.cleanRange o sc va pa n
  match sc with
  | .team => s.l1Drop o.core a len
  | .cluster => s.clusterFlush o.cluster a len
  | _ =>
    let s := s.clusterNums.foldl (fun s c => s.clusterFlush c a len) s
    (((s.cores.map Core.num).foldl (fun s k => s.l1Drop k a len) s).homeToMem a len).seeView none (unitsOf a len).contains

/-- One mapped part of a maintenance range. -/
def State.maintPart (s : State) (o : Op) (form : Nat) (sc : Scope) (va : Addr) (pa n : Nat) : State :=
  if form = 0 then s.cleanRange o sc va pa n
  else if form = 1 then s.invalRange o sc pa n
  else s.flushRangeAt o sc va pa n

/-- R282: the range page by page; the fault that ends it, if any. `fuel` bounds the pages. -/
def State.maintPages (s : State) (o : Op) (form : Nat) (sc : Scope) : Nat → Addr → Nat → Option XFault × State
  | 0, _, _ => (none, s)
  | fuel + 1, va, n =>
    if n = 0 then (none, s)
    else
      let k := min n (65536 - va.toNat % 65536)
      let next (s : State) : Option XFault × State := s.maintPages o form sc fuel (va + BitVec.ofNat 64 k) (n - k)
      match s.leafAt o.core o.ctx va with
      | (.error e, s) => if e.cause = 0x10 then next s else (some e, s)
      | (.ok l, s) => next (s.maintPart o form sc va (l.pa va) k)

/-- Event CACHE_MAINTENANCE_COMPLETE (R281, R282): after the thread's earlier writes; a length of 0 completes at once. -/
def execCacheMaintenanceComplete (op : Nat) (s : State) : Out :=
  s.onOp op (fun o =>
    match o.kind with
    | .cmaint form sc va n =>
      if n != 0 && !(s.earlier o).all (fun p => !p.kind.isWrite) then none
      else
        s.withWalks o (fun s o =>
          match s.maintPages o form sc 65538 va n with
          | (some e, s) => some (s.faultOp o e)
          | (none, s) => some (s.finishOp o))
    | _ => none)

/-! ### Home and cluster events -/

/-- The slice a registration goes to. -/
def Registration.slice (r : Registration) : Nat := sliceOf r.start

/-- The registrations of a cluster that home may handle next: the oldest for each slice (R216), and where one for a slice is
due, of such slices only (R242; log entry 81). -/
def State.nextRegs (s : State) (c : Nat) : List Registration :=
  let mine := s.registrations.filter (fun r => r.cluster == c)
  let heads := mine.filter (fun r => mine.find? (fun q => q.slice == r.slice) == some r)
  let late := heads.filter (fun r => mine.any (fun q => q.slice == r.slice && decide (q.due ≤ s.tick)))
  if late.isEmpty then heads else late

/-- Event HOME_REGISTRATION (R218): home handles a registration of a cluster; which slice is served is a free choice where
several wait (R216). -/
def execHomeRegistration (cluster : Nat) (s : State) : Out :=
  s.orStay <|
  let handle (s : State) (r : Registration) : Ev := some (State.homeRegister { s with registrations := s.registrations.erase r } r)
  match s.nextRegs cluster with
  | [] => none
  | [r] => handle s r
  | r :: l =>
    let (i, s) := s.pick (l.length + 1)
    handle s ((r :: l).getD i r)

/-- Event HOME_READ_FORWARD (R219): a load of a cluster misses on a word that another cluster owns; home forwards the
read and the owner answers, keeping ownership. -/
def execHomeReadForward (cluster word : Nat) (s : State) : Out :=
  s.orStay <|
  let wanted := s.ops.any (fun o => o.cluster == cluster && o.fault.isNone && spanMeets o.readsAt (4 * word) 4)
  match s.ownerOf word with
  | some c =>
    if c = cluster ∨ !wanted then none
    else some ((s.makeRoom cluster (.line (lineOf (4 * word)))).fillUnit cluster (word / 2))
  | none => none

/-- A cluster cache holds a linear line in a set whose 16 ways are all taken, from which it may evict (R214). -/
def Cluster.mayEvict (k : Cluster) (line : Nat) : Bool :=
  k.tags.contains (.line line) &&
  decide (16 ≤ (k.tags.filter (fun t => t.clusterSet == (Tag.line line).clusterSet)).length)

/-- Event LINE_EVICTION (R219, R229): a cluster evicts a line of a full set, after what it sent home for it. -/
def execLineEviction (cluster line : Nat) (s : State) : Out :=
  s.orStay <|
  if (s.cluster cluster).mayEvict line then some (s.evictTag cluster (.line line)) else none

/-- A word of a register (R154). -/
def State.badRegister (s : State) (k : ThreadKey) (r : Nat) : Ev :=
  match s.thread? k with
  | none => none
  | some t => if t.live && decide (r < t.window) then some (s.setThread { t with badRegs := mark t.badRegs r }) else none

/-- A word of a team's scratchpad (R154). -/
def State.badScratch (s : State) (team w : Nat) : Ev :=
  match s.team? team with
  | none => none
  | some m =>
    if m.resident && decide (4 * w + 4 ≤ 4096 * m.sgran) then some (s.setTeam { m with badWords := mark m.badWords w })
    else none

/-- R391: an error reported through the physical function's vector 3 and an MCTP event. -/
def State.report (s : State) : State :=
  { s with sup := { s.sup with irqs := s.sup.irqs ++ [3] }, mgmt := { s.mgmt with events := s.mgmt.events + 1 } }

/-- R391: an error in bytes that belong to no context, as no context's tenant has them in its windows, is reported at the
package. -/
def State.reportData (s : State) (pa : Nat) : State :=
  if s.ctxs.any (fun c => (s.tenantOf c.tenant).holds pa 1) then s else s.report

/-- Event CACHE_UNCORRECTABLE_ERROR (R143, R154, R231, R354, R355), by where the error lies; a corrected error is counted. -/
def execCacheUncorrectableError (err : CacheError) (s : State) : Out :=
  s.orStay <|
  match err with
  | .data pa => if inMap pa then some ((s.addPoison pa).reportData pa) else none
  | .memory pa => if inMap pa then some ({ s with poison := mark s.poison (pa / 8) }.reportData pa) else none
  | .cluster c pa =>
    let k := s.cluster c
    if k.bytes.any (fun b => b.1 / 8 == pa / 8) then some ((s.setCluster { k with poison := mark k.poison (pa / 8) }).reportData pa)
    else none
  | .l1 core i =>
    let k := s.coreAt core
    if i < k.l1.length then some (s.setCore { k with l1 := k.l1.eraseIdx i }) else none
  | .tagBlock pa =>
    if (stackOf pa).isSome then
      some ({ s with poison := (unitsOf (pa / 4096 * 4096) 4096).foldl mark s.poison }.reportData pa)
    else none
  | .escrow c line elem =>
    ((s.cluster c).escrowOn line).bind (fun e =>
      if elem < (if e.bf16 then 128 else 64) then some (s.setEscrow c { e with bad := mark e.bad elem }) else none)
  | .tile c x tensor num =>
    let k := s.cluster c
    let t := Tag.tile x tensor num
    if k.tiles.any (fun y => y.1 == t) then
      some (s.setCluster { k with tiles := k.tiles.map (fun y => if y.1 = t then (t, { y.2 with bad := true }) else y) })
    else none
  | .registry word => some (s.revokeRange (lineOf (4 * word)) 256).report
  | .monitor idx =>
    (match s.monitors.find? (fun m => m.idx == idx) with
     | none => none
     | some m =>
       some { s with monitors := s.monitors.map (fun x => if sliceOf x.word == sliceOf m.word then { x with fired := true } else x) })
  | .allowance line => some (s.settleLine line).report
  | .register k r => s.badRegister k r
  | .scratch team w => s.badScratch team w
  | .corrected => some { s with sup := { s.sup with errcnt := s.sup.errcnt + 1 } }

end Sys2Proof.Machine
end

