-- ==== Sys2Proof/Machine/TileStore.lean ====
section
/-! DEFINITION. Tensor descriptors, tiles, the block index, slot pools, tile reads and tile updates (15_die_tensors). -/

namespace Sys2Proof.Machine

/-! ### Descriptors and tiles (R292 to R295) -/

/-- Element width of a format in bits (R294). -/
def formatWidth (f : Nat) : Nat := [32, 16, 8, 8, 4, 4, 4, 8, 16, 32].getD f 32

def Desc.width (d : Desc) : Nat := formatWidth d.fmt

/-- TW and TH (R294). -/
def Desc.tw (d : Desc) : Nat := if d.width = 32 then 8 else if d.width = 4 then 32 else 16
def Desc.th (d : Desc) : Nat := if d.width = 32 ∨ d.width = 16 then 8 else 16

def Desc.extent (d : Desc) (i : Nat) : Nat := d.dims.getD i 1

/-- The tile grid (R295). -/
def Desc.grid (d : Desc) (i : Nat) : Nat :=
  if i = 0 then (d.extent 0 + d.tw - 1) / d.tw else if i = 1 then (d.extent 1 + d.th - 1) / d.th else d.extent i

def Desc.tiles (d : Desc) : Nat := d.grid 0 * d.grid 1 * d.grid 2 * d.grid 3

/-- The tile number of tile coordinates (R295). -/
def Desc.tileNum (d : Desc) (t : List Nat) : Nat :=
  t.getD 0 0 + d.grid 0 * (t.getD 1 0 + d.grid 1 * (t.getD 2 0 + d.grid 2 * t.getD 3 0))

/-- The tile coordinates of a tile number. -/
def Desc.tileAt (d : Desc) (n : Nat) : List Nat :=
  [n % d.grid 0, n / d.grid 0 % d.grid 1, n / (d.grid 0 * d.grid 1) % d.grid 2, n / (d.grid 0 * d.grid 1 * d.grid 2)]

/-- The tile of an element, and the element's place in it (R295). -/
def Desc.tileOf (d : Desc) (x : List Nat) : List Nat := [x.getD 0 0 / d.tw, x.getD 1 0 / d.th, x.getD 2 0, x.getD 3 0]
def Desc.elemOf (d : Desc) (x : List Nat) : Nat := d.tw * (x.getD 1 0 % d.th) + x.getD 0 0 % d.tw

/-- R292: a descriptor from its 64 bytes, if it is valid. -/
def Desc.of (n : Nat) (b : List Byte) : Option Desc :=
  let d : Desc :=
    { num := n, rank := fieldAt b 0 1, fmt := fieldAt b 1 1, policy := fieldAt b 2 1, tslot := fieldAt b 3 1,
      dims := (List.range 4).map (fun i => fieldAt b (4 + 4 * i) 4), index := leAddr (slice b 0x18 8),
      pool := leAddr (slice b 0x20 8), scale := fieldAt b 0x28 2 }
  let okDim (i : Nat) : Bool :=
    if i < d.rank then decide (1 ≤ d.extent i) && decide (d.extent i ≤ 2 ^ 31) else d.extent i == 1
  if decide (1 ≤ d.rank) && decide (d.rank ≤ 4) && decide (d.fmt ≤ 9) && decide (d.policy < 8) && decide (d.tslot < 8) &&
     (List.range 4).all okDim && fieldAt b 0x14 4 == 0 && d.index.toNat % 16 == 0 && decide (d.index.toNat < 2 ^ 57) &&
     d.pool.toNat % 64 == 0 && decide (d.pool.toNat < 2 ^ 57) && decide (d.scale < 4096) && fieldAt b 0x2A 22 == 0 &&
     decide (d.tiles ≤ 2 ^ 32) && decide (d.index.toNat + 16 * d.tiles ≤ 2 ^ 57)
  then some d else none

def TileRef.num (t : TileRef) : Nat := t.desc.tileNum t.coords

def TileRef.tag (ctx : Nat) (t : TileRef) : Tag := .tile ctx t.desc.num t.num

/-! ### Faults of the tensor path (R309) -/

structure TFault where
  cause : Nat
  vaddr : Addr
  detail : BitVec 64
  bitoff : Nat
  deriving DecidableEq, Repr

/-- INDEX_INVALID with its number. -/
def TFault.index (n : Nat) (va : Addr) : TFault := ⟨0x28, va, BitVec.ofNat 64 n, 0⟩
def TFault.ofX (e : XFault) : TFault := ⟨e.cause, e.vaddr, e.detail, 0⟩

/-- The address that a fault of translation or memory reports off the entry of a tile: none (R309), but that of a page to be
mapped (R318) or behind a failed link (R358). -/
def offVa (cause : Nat) (va : Addr) : Addr := if cause = 0x10 ∨ cause = 0x31 then va else 0

/-- Such a fault. -/
def TFault.elsewhere (e : XFault) : TFault := ⟨e.cause, offVa e.cause e.vaddr, e.detail, 0⟩

/-- The tensor field of R309. -/
def tensorField (handle num : Nat) : Word := BitVec.ofNat 32 (handle * 65536 + num % 4096)

/-- Four 16-bit coordinates, dimension 0 lowest (R29). -/
def tileField (c : List Nat) : BitVec 64 :=
  BitVec.ofNat 64 ((List.range 4).foldl (fun n i => n + c.getD i 0 % 65536 * 65536 ^ i) 0)

/-- A record filled as R309 gives. -/
def TFault.fill (f : TFault) (t : TileRef) (r : FaultRec) : FaultRec :=
  { r with cause := f.cause, vaddr := f.vaddr, detail := f.detail, bitoff := BitVec.ofNat 32 f.bitoff,
           tensor := tensorField t.handle t.desc.num, tile := tileField t.coords }

/-! ### Block-index entries (R297, R299) -/

abbrev Entry := BitVec 128

def entryChk (e : Entry) : Nat := e.toNat / 2 ^ 112
def entryGen (e : Entry) : Nat := e.toNat / 2 ^ 96 % 65536
def entryClass (e : Entry) : Nat := e.toNat / 2 ^ 78 % 8
def entryTslot (e : Entry) : Nat := e.toNat / 2 ^ 75 % 8
def entryLen (e : Entry) : Nat := e.toNat / 2 ^ 64 % 512
def entrySlotField (e : Entry) : Nat := e.toNat % 2 ^ 52

/-- The mode; an all-zero entry is a zero-mode tile (R297). -/
def entryMode (e : Entry) : Nat := if e = 0 then 2 else e.toNat / 2 ^ 73 % 4

/-- The slot's virtual address. -/
def entrySlot (e : Entry) : Addr := BitVec.ofNat 64 (32 * entrySlotField e)

/-- An entry from its fields. -/
def mkEntry (chk gen cls tslot mode len slot : Nat) : Entry :=
  BitVec.ofNat 128 (chk * 2 ^ 112 + gen % 65536 * 2 ^ 96 + cls * 2 ^ 78 + tslot * 2 ^ 75 + mode * 2 ^ 73 + len * 2 ^ 64 + slot)

/-- Bytes of a size class (R297). -/
def classSize (c : Nat) : Nat := [0, 32, 64, 96, 128, 160, 256].getD c 0

/-- The entry has a slot. -/
def entryHasSlot (e : Entry) : Bool := decide (entryMode e < 2)

/-- R299 step 4. -/
def entryFormat (e : Entry) : Bool := e.toNat / 2 ^ 52 % 2 ^ 12 == 0 && e.toNat / 2 ^ 81 % 2 ^ 15 == 0 && entryClass e != 7

/-- R299 step 6. -/
def entryAgrees (w : Nat) (e : Entry) : Bool :=
  let bare := entryClass e == 0 && entryLen e == 0 && entryTslot e == 0 && entryChk e == 0
  match entryMode e with
  | 0 => entryClass e == 6 && entryLen e == 256
  | 1 => decide (1 ≤ entryClass e) && decide (entryClass e ≤ 5) && decide (1 ≤ entryLen e) &&
         decide (entryLen e ≤ classSize (entryClass e))
  | 2 => bare && entrySlotField e == 0
  | _ => bare && decide (entrySlotField e < 2 ^ w)

/-- R299 step 7, R300. -/
def slotPlaced (a cls : Nat) : Bool := a % 32 == 0 && decide (a % 256 + classSize cls ≤ 256)

/-- R299 steps 4 to 7 on an entry read from `ea`. -/
def entryCheck (w : Nat) (ea : Addr) (e : Entry) : Option TFault :=
  if e = 0 then none
  else if !entryFormat e then some (TFault.index 3 ea)
  else if entryMode e = 1 ∧ 160 < entryLen e then some ⟨0x22, entrySlot e, 0, 0⟩
  else if !entryAgrees w e then some (TFault.index 4 ea)
  else if entryHasSlot e && !slotPlaced (entrySlot e).toNat (entryClass e) then some (TFault.index 5 (entrySlot e))
  else none

/-! ### Reading a tile (R299) -/

/-- The address of a tile's entry (R297). -/
def TileRef.entryVa (t : TileRef) : Addr := t.desc.index + BitVec.ofNat 64 (16 * t.num)

/-- The index unit takes units for the stored form of a tile (R249, R311). -/
def State.index (s : State) (tag : Option Tag) (pa n : Nat) : State :=
  match tag with
  | none => s
  | some t => { s with indexed := ((unitsOf pa n).filter (fun u => !s.indexed.contains (t, u))).map (fun u => (t, u)) ++ s.indexed }

/-- Bytes that the index unit reads for a core and context at home: of a tile's stored form, in the view of its context, else
of linear memory (R249). -/
def State.indexRead (s : State) (core ctx : Nat) (tag : Option Tag) (va : Addr) (n : Nat) : Except XFault (List Byte) × State :=
  match s.translate core ctx va .read with
  | (.error e, s) => (.error { e with vaddr := va }, s)
  | (.ok (_, pa), s) =>
    match s.homeReadable core va pa n with
    | .error e => (.error { e with detail := 0 }, s)
    | .ok () =>
      let (b, s) := (s.index tag pa n).homeAt (tag.map (fun _ => ctx)) core pa n
      (.ok b, s)

/-- R299 step 3, with the checks of steps 4 to 7. -/
def State.readEntry (s : State) (core ctx : Nat) (t : TileRef) : Except TFault Entry × State :=
  match s.indexRead core ctx (some (t.tag ctx)) t.entryVa 16 with
  | (.error e, s) => (.error (.ofX e), s)
  | (.ok b, s) => (.ok (BitVec.ofNat 128 (leNat b)), s)

/-- R299 step 8: the slot's page translates and carries the mark; where the slot is read, the page needs Rd, and no write of
the index unit to it needs W (R305). -/
def State.slotPage (s : State) (core ctx : Nat) (va : Addr) (read : Bool) : Except TFault Nat × State :=
  match s.translate core ctx va .indexWrite with
  | (.error e, s) => (.error (if e.cause = 0x11 && e.detail == 0 then TFault.index 6 va else .elsewhere { e with vaddr := va }), s)
  | (.ok (l, pa), s) =>
    if !pteBit l.entry 5 then (.error (TFault.index 6 va), s)
    else if read && !pteBit l.entry 2 then (.error ⟨0x11, 0, 0, 0⟩, s)
    else (.ok pa, s)

/-- Bytes a stored form keeps in its slot. -/
def storedLen (e : Entry) : Nat := if entryMode e = 0 then 256 else if entryMode e = 1 then entryLen e else 0

/-- R299 steps 3 to 8: the stored form of a tile, read at its home, after what the cluster sent there (R216, R296). -/
def State.readStored (s : State) (core ctx : Nat) (t : TileRef) : Except TFault Stored × State :=
  match (s.flushSlice (clusterOf core) (t.tag ctx)).readEntry core ctx t with
  | (.error e, s) => (.error e, s)
  | (.ok e, s) =>
    match entryCheck t.desc.width t.entryVa e with
    | some f => (.error f, s)
    | none =>
      if !entryHasSlot e then (.ok ⟨e, [], false⟩, s)
      else
        match s.slotPage core ctx (entrySlot e) true with
        | (.error f, s) => (.error f, s)
        | (.ok _, s) =>
          match s.indexRead core ctx (some (t.tag ctx)) (entrySlot e) (storedLen e) with
          | (.error f, s) => (.error (.elsewhere f), s)
          | (.ok b, s) => (.ok ⟨e, b, false⟩, s)

/-- R299 step 9: the 256 expanded bytes, with a team's tables. -/
def Stored.expand (x : Stored) (d : Desc) (tables : List (Option (List Byte))) : Except TFault (List Byte) :=
  let int3 := d.fmt == 6
  let e := x.entry
  let r := match entryMode e with
    | 0 => decodeRaw int3 x.bytes (entryChk e)
    | 1 => decodeCoded (tables.getD (entryTslot e) none) int3 x.bytes (entryLen e) (entryChk e)
    | 2 => checkInt3 int3 (List.replicate 256 0)
    | _ => checkInt3 int3 (patternTile d.width (entrySlotField e))
  match r with
  | .ok b => .ok b
  | .error f => .error ⟨f.cause, if entryHasSlot e then entrySlot e else 0, 0, f.bitoff⟩

/-- Cached copies of a tile: of a core's L1, then of its cluster (R142, R296). -/
def State.tileCached (s : State) (core : Nat) (tag : Tag) : Option Stored :=
  match (s.coreAt core).l1Line tag with
  | some l => l.stored
  | none => ((s.cluster (clusterOf core)).tiles.find? (fun x => x.1 == tag)).map Prod.snd

/-- Holds a stored form under its tag. -/
def State.holdTile (s : State) (core : Nat) (tag : Tag) (x : Stored) (inL1 : Bool) (issue : Nat) : State :=
  let l : L1Line := { tag := tag, bytes := [], stored := some x, count := 0, policy := 0, seen := [issue], patches := [] }
  let s := if inL1 && ((s.coreAt core).l1Line tag).isNone then s.l1Put core l else s
  if (s.cluster (clusterOf core)).tiles.any (fun y => y.1 == tag) then s
  else
    let s := s.makeRoom (clusterOf core) tag
    let q := s.cluster (clusterOf core)
    s.setCluster { q with tiles := (tag, x) :: q.tiles }

/-- The tables of an operation's team. -/
def State.tablesOf (s : State) (u : Nat) : List (Option (List Byte)) := ((s.team? u).map Team.ctabs).getD []

/-- A tile's stored form, from a cache or from home; a cluster's copy may hold an uncorrectable error (R231). -/
def State.fetchStored (s : State) (o : Op) (t : TileRef) : Except TFault Stored × State :=
  match s.tileCached o.core (t.tag o.ctx) with
  | some x => if x.bad then (.error ⟨0x30, 0, 0, 0⟩, s) else (.ok x, s)
  | none => s.readStored o.core o.ctx t

/-- R299, R333: a tile read and expanded; a tile that expands is held in its stored form. -/
def State.fetchTile (s : State) (o : Op) (t : TileRef) (inL1 : Bool) : Except TFault (List Byte) × State :=
  match s.fetchStored o t with
  | (.error f, s) => (.error f, s)
  | (.ok x, s) =>
    match x.expand t.desc (s.tablesOf o.key.team) with
    | .error f => (.error f, s)
    | .ok b => (.ok b, s.holdTile o.core (t.tag o.ctx) x inL1 o.issue)

/-! ### Slot pools (R300 to R302) -/

/-- The address of a class's list head. -/
def poolHead (pool : Addr) (c : Nat) : Addr := pool + BitVec.ofNat 64 (8 * (c - 1))

/-- A write by the index unit at home (R305): of a tile's stored form, through the view of its context, else of linear
memory (R249). -/
def State.indexWrite (s : State) (core ctx : Nat) (tag : Option Tag) (va : Addr) (b : List Byte) : Except TFault Unit × State :=
  match s.translate core ctx va .indexWrite with
  | (.error e, s) => (.error (.elsewhere { e with vaddr := va }), s)
  | (.ok (_, pa), s) =>
    (.ok (), (s.index tag pa b.length).deviceWriteAs (tag.map (fun _ => ctx)) core pa b)

/-- A page the index unit will write translates for it. -/
def State.indexWritable (s : State) (core ctx : Nat) (va : Addr) : Except TFault Unit × State :=
  match s.translate core ctx va .indexWrite with
  | (.error e, s) => (.error (.elsewhere { e with vaddr := va }), s)
  | (.ok _, s) => (.ok (), s)

/-- A pool record is read and checked: the head of a class and the reserved bytes, not the other classes' heads (R301; DESIGN
CHOICE, log entry 116). -/
def State.readHead (s : State) (core ctx : Nat) (pool : Addr) (c : Nat) : Except TFault Addr × State :=
  match s.indexRead core ctx none pool 64 with
  | (.error f, s) => (.error (.elsewhere f), s)
  | (.ok b, s) =>
    let h := leAddr (slice b (8 * (c - 1)) 8)
    if fieldAt b 0x30 16 ≠ 0 ∨ 2 ^ 57 ≤ h.toNat then (.error (TFault.index 8 (poolHead pool c)), s) else (.ok h, s)

/-- R300: alignment and page of a slot of a class, which a pop also reads; a translation that fails for any reason but the
mark is itself. -/
def State.slotRule (s : State) (core ctx : Nat) (pool slot : Addr) (c : Nat) (read : Bool) : Except TFault Unit × State :=
  if 2 ^ 57 ≤ slot.toNat ∨ !slotPlaced slot.toNat c then (.error (TFault.index 8 (poolHead pool c)), s)
  else
    match s.slotPage core ctx slot read with
    | (.error f, s) => (.error (if f = TFault.index 6 slot then TFault.index 8 (poolHead pool c) else f), s)
    | (.ok _, s) => (.ok (), s)

/-- R302: a pop of a slot of class `c`. -/
def State.popSlot (s : State) (core ctx : Nat) (pool : Addr) (c : Nat) : Except TFault Addr × State :=
  match s.readHead core ctx pool c with
  | (.error f, s) => (.error f, s)
  | (.ok h, s) =>
    if h = 0 then (.error ⟨0x27, poolHead pool c, BitVec.ofNat 64 c, 0⟩, s)
    else
      match s.slotRule core ctx pool h c true with
      | (.error f, s) => (.error f, s)
      | (.ok (), s) =>
        match s.indexRead core ctx none h 8 with
        | (.error f, s) => (.error (.elsewhere f), s)
        | (.ok nx, s) =>
          match s.indexWrite core ctx none (poolHead pool c) nx with
          | (.error f, s) => (.error f, s)
          | (.ok (), s) => (.ok h, s)

/-- R302: a push of a slot of class `c`. -/
def State.pushSlot (s : State) (core ctx : Nat) (pool : Addr) (c : Nat) (slot : Addr) : Except TFault Unit × State :=
  match s.readHead core ctx pool c with
  | (.error f, s) => (.error f, s)
  | (.ok h, s) =>
    match s.slotRule core ctx pool slot c false with
    | (.error f, s) => (.error f, s)
    | (.ok (), s) =>
      match s.indexWritable core ctx (poolHead pool c) with
      | (.error f, s) => (.error f, s)
      | (.ok (), s) =>
        match s.indexWrite core ctx none slot (leBytes 8 h.toNat) with
        | (.error f, s) => (.error f, s)
        | (.ok (), s) => s.indexWrite core ctx none (poolHead pool c) (leBytes 8 slot.toNat)

/-! ### Updates (R303, R304) -/

/-- The stored form chosen: mode, class, length, slot bytes, table slot, and the pattern of a constant tile. -/
structure Chosen where
  mode : Nat
  cls : Nat
  len : Nat
  bytes : List Byte
  tslot : Nat
  pattern : Nat
  deriving DecidableEq, Repr

/-- All elements are equal: the pattern, where they are (R304). -/
def constPattern (w : Nat) (b : List Byte) : Option Nat :=
  let p := if w = 4 then (b.getD 0 0).toNat % 16 else leNat (b.take (w / 8))
  if patternTile w p = b then some p else none

/-- The smallest class that holds a length. -/
def smallestClass (n : Nat) : Nat := ((List.range 7).find? (fun c => decide (1 ≤ c) && decide (n ≤ classSize c))).getD 6

/-- R304. `old` is the current entry, `tenc` whether the update is one of `tenc`. An empty table slot is reported with the old
slot's address, 0 where there is none (DESIGN CHOICE, log entry 118). -/
def chooseForm (d : Desc) (table : Option (List Byte)) (old : Entry) (tenc : Bool) (b : List Byte) : Except TFault Chosen :=
  let raw : Chosen := ⟨0, 6, 256, b, 0, 0⟩
  if d.policy / 2 % 2 = 1 ∧ b.all (· == 0) then .ok ⟨2, 0, 0, [], 0, 0⟩
  else
    match if d.policy / 4 % 2 = 1 then constPattern d.width b else none with
    | some p => .ok ⟨3, 0, 0, [], 0, p⟩
    | none =>
      if d.policy % 2 = 0 then .ok raw
      else
        match table with
        | none => .error ⟨0x24, if entryHasSlot old then entrySlot old else 0, 0, 0⟩
        | some r =>
          match mint r b with
          | none => .ok raw
          | some c =>
            if 160 < c.length then .ok raw
            else
              let keep := tenc && entryMode old == 1 && decide (c.length ≤ classSize (entryClass old))
              .ok ⟨1, if keep then entryClass old else smallestClass c.length, c.length, c, d.tslot, 0⟩

/-- R303 step 7: every cached copy under a tag goes. -/
def State.dropTag (s : State) (tag : Tag) : State :=
  { s with clusters := s.clusters.map (fun k => { k with tiles := k.tiles.filter (fun x => x.1 != tag) }),
           cores := s.cores.map (fun k => { k with l1 := k.l1.filter (fun l => l.tag != tag) }) }

/-- A slot may be popped or pushed: not where a raw tile stays raw, the descriptor naming no other form (R303, R304). -/
def mayMove (d : Desc) (e : Entry) : Bool := d.policy != 0 || entryClass e != 6

/-- The current stored form and, for `tenc`, its expansion: step 2 of R303. The current slot's page is tested for Rd, of a `tst`
too (DESIGN CHOICE, log entry 117). -/
def State.updateRead (s : State) (o : Op) (t : TileRef) (tenc : Bool) : Except TFault (Entry × List Byte) × State :=
  match s.readEntry o.core o.ctx t with
  | (.error f, s) => (.error f, s)
  | (.ok e, s) =>
    match entryCheck t.desc.width t.entryVa e with
    | some f => (.error f, s)
    | none =>
      let page : Except TFault Unit × State :=
        if entryHasSlot e then
          match s.slotPage o.core o.ctx (entrySlot e) true with
          | (.error f, s) => (.error f, s)
          | (.ok _, s) => (.ok (), s)
        else (.ok (), s)
      match page with
      | (.error f, s) => (.error f, s)
      | (.ok (), s) =>
        match s.indexWritable o.core o.ctx t.entryVa with
        | (.error f, s) => (.error f, s)
        | (.ok (), s) =>
          match if mayMove t.desc e then s.indexWritable o.core o.ctx t.desc.pool else (.ok (), s) with
          | (.error f, s) => (.error f, s)
          | (.ok (), s) =>
            if !tenc then (.ok (e, []), s)
            else
              match s.readStored o.core o.ctx t with
              | (.error f, s) => (.error f, s)
              | (.ok x, s) =>
                match x.expand t.desc (s.tablesOf o.key.team) with
                | .error f => (.error f, s)
                | .ok b => (.ok (e, b), s)

/-- Steps 6 to 9 of R303: the new form is written, cached copies go, the old slot is to be pushed. -/
def State.updateWrite (s : State) (o : Op) (t : TileRef) (old : Entry) (c : Chosen) (slot : Addr) : Except TFault Unit × State :=
  let wrote : Except TFault Unit × State :=
    if c.cls = 0 then (.ok (), s) else s.indexWrite o.core o.ctx (some (t.tag o.ctx)) slot c.bytes
  match wrote with
  | (.error f, s) => (.error f, s)
  | (.ok (), s) =>
    let chk := if c.cls = 0 then 0 else crc16 c.bytes
    let field := if c.cls = 0 then c.pattern else slot.toNat / 32
    let e := mkEntry chk (entryGen old + 1) c.cls c.tslot c.mode c.len field
    match s.indexWrite o.core o.ctx (some (t.tag o.ctx)) t.entryVa (leBytes 16 e.toNat) with
    | (.error f, s) => (.error f, s)
    | (.ok (), s) =>
      let s := s.dropTag (t.tag o.ctx)
      if entryHasSlot old && entryClass old != c.cls then
        let r : FaultRec := { o.base with engine := true, tensor := tensorField t.handle t.desc.num, tile := tileField t.coords }
        let p : Push :=
          { idx := s.nextIdx, core := o.core, cluster := o.cluster, ctx := o.ctx, pool := t.desc.pool,
            cls := entryClass old, slot := entrySlot old, base := r, op := none, wait := none }
        (.ok (), { s with pushes := s.pushes ++ [p], nextIdx := s.nextIdx + 1 })
      else (.ok (), s)

/-- R303: one update; `form` gives the new bytes from the old ones. The whole update is one step, which is the lock. -/
def State.tileUpdate (s : State) (o : Op) (t : TileRef) (tenc : Bool) (form : List Byte → List Byte) : Except TFault Unit × State :=
  match s.updateRead o t tenc with
  | (.error f, s) => (.error f, s)
  | (.ok (old, b), s) =>
    match chooseForm t.desc ((s.tablesOf o.key.team).getD t.desc.tslot none) old tenc (form b) with
    | .error f => (.error f, s)
    | .ok c =>
      let moves := c.cls != entryClass old
      if moves && c.cls != 0 then
        match s.popSlot o.core o.ctx t.desc.pool c.cls with
        | (.error f, s) => (.error f, s)
        | (.ok slot, s) => s.updateWrite o t old c slot
      else s.updateWrite o t old c (entrySlot old)

end Sys2Proof.Machine
end

