-- ==== Sys2Proof/Machine/Tiles.lean ====
section
/-! DEFINITION. The tensor and translation instructions of majors 0x6C and 0x6D, and their events (17_die_instr; 15_die_tensors
R303, R307, R308; 16_die_control R316). -/

namespace Sys2Proof.Machine

/-! ### The checks at issue (R328) -/

/-- A precise fault on the tensor path. -/
def State.tileFault (s : State) (f : TFault) (t : TileRef) : Out := .next (s.trap (f.fill t s.here))

/-- A precise INDEX_INVALID with a handle and tensor number and no tile. -/
def State.handleFault (s : State) (n handle num : Nat) : Out :=
  .next (s.trap { s.here with cause := 0x28, detail := BitVec.ofNat 64 n, tensor := tensorField handle num })

/-- The descriptor copy of a bound handle (R293). -/
def Team.descOf (m : Team) (h : Nat) : Option Desc := if (m.handles.getD h none).isSome then m.descs.getD h none else none

/-- The coordinate block, read unsigned. -/
def Thread.coords (t : Thread) (a rank : Nat) : List Nat := (blockRegs a rank).map (fun r => (t.reg r).toNat)

def Desc.inside (d : Desc) (x : List Nat) : Bool := (List.range d.rank).all (fun i => decide (x.getD i 0 < d.extent i))

/-- The tile that coordinates name. -/
def Desc.refAt (d : Desc) (h : Nat) (x : List Nat) : TileRef := { handle := h, desc := d, coords := d.tileOf x }

/-- A tile word: the checks of R49, then checks 1 to 3 of R328 with the hazards of its registers, then its own. -/
def State.tileWord (s : State) (e : Bool) (role : Option Role) (reads writes : List Nat) (a h : Nat)
    (body : State → Desc → List Nat → Out) : Out :=
  match s.checkWord { cls := 5, role := role, reads := reads, writes := writes } with
  | some c => s.fault c
  | none =>
    s.waitFor Op.isAcq (fun s => s.tracked e (fun s =>
      match s.tm.descOf h with
      | none => s.handleFault 1 h 0
      | some d =>
        if !(blockRegs a d.rank).all (fun r => decide (r < s.th.window)) then s.fault 0x08
        else s.withRegs (blockRegs a d.rank ++ reads) writes (fun s =>
          let x := s.th.coords a d.rank
          if !d.inside x then s.tileFault (TFault.index 2 0) (d.refAt h x) else body s d x)))

/-! ### `tdesc` (R332) -/

/-- `tdesc` (R332). -/
def execTdesc (a h : Nat) (s : State) : Out :=
  s.memWord { cls := 5, reads := [a], writes := [] } (fun s =>
    let n := (s.th.reg a).toNat
    if n = 0 then .next ({ s with tm := { s.tm with handles := s.tm.handles.set h none } } : State).advance
    else if 4095 < n then
      .next (s.trap { s.here with cause := 0x28, detail := BitVec.ofNat 64 (11 + n * 2 ^ 32), tensor := tensorField h 0 })
    else s.ownWrites (fun s =>
      let dtab := ((s.ctxOf s.tm.ctx).map Ctx.dtab).getD 0
      match s.deviceBytes (dtab + BitVec.ofNat 64 (64 * n)) 2 with
      | (.error e, s) =>
        if e.cause = 0x10 then .next (s.pageFaultAs { s.here with tensor := tensorField h n } e.vaddr)
        else .next (s.trap { s.here with cause := e.cause, vaddr := offVa e.cause e.vaddr, detail := e.detail,
                                         tensor := tensorField h n })
      | (.ok b, s) =>
        match Desc.of n b with
        | none => s.handleFault 7 h n
        | some d =>
          .next ({ s with tm := { s.tm with handles := s.tm.handles.set h (some n),
                                            descs := s.tm.descs.set h (some d) } } : State).advance))

/-! ### Element reads (R333, R334) -/

/-- `tld` of a width. -/
def State.tldWord (s : State) (w : Nat) (e : Bool) (d a h : Nat) : Out :=
  s.tileWord e none [] [d] a h (fun s t x =>
    let r := t.refAt h x
    if w < t.width then s.tileFault (TFault.index 12 0) r
    else if x.getD 0 0 % (w / t.width) ≠ 0 then s.tileFault ⟨0x09, BitVec.ofNat 64 (x.getD 0 0), 0, 0⟩ r
    else .next (s.addOp e [d] none (.tld r d w (t.elemOf x))))

/-- `tld.b8` (R333). -/
def execTldB8 (e : Bool) (d a h : Nat) (s : State) : Out := s.tldWord 8 e d a h

/-- `tld.b16` (R333). -/
def execTldB16 (e : Bool) (d a h : Nat) (s : State) : Out := s.tldWord 16 e d a h

/-- `tld.b32` (R333). -/
def execTldB32 (e : Bool) (d a h : Nat) (s : State) : Out := s.tldWord 32 e d a h

/-- `tq` (R334). -/
def execTq (e : Bool) (d a h : Nat) (s : State) : Out :=
  s.tileWord e none [] (pairRegs d) a h (fun s t x => .next (s.addOp e (pairRegs d) none (.tq (t.refAt h x) d)))

/-- A later fault of a tile form: the record of R309 with the engine bit, with which the work stalls on a page or fails
(R318, R330). -/
def State.tileOpFault (s : State) (o : Op) (t : TileRef) (f : TFault) : State :=
  let r : FaultRec := { f.fill t o.base with engine := true }
  if f.cause = 0x10 then s.pageWait o r f.vaddr else s.failOp o r

/-- The `tld` and `tq` lanes of one issue that fault now (R176). -/
def State.badTiles (s : State) (o : Op) : List (Op × FaultRec) :=
  s.ops.filterMap (fun p =>
    if p.issue == o.issue && p.fault.isNone && p.waitPage.isNone then
      let rec_ (t : TileRef) (f : TFault) : Option (Op × FaultRec) :=
        if f.cause = 0x10 then none else some (p, { f.fill t p.base with engine := true })
      match p.kind with
      | .tld t _ _ _ => (match (s.fetchTile p t true).1 with | .error f => rec_ t f | .ok _ => none)
      | .tq t _ =>
        (match (s.readEntry p.core p.ctx t).1 with
         | .error f => rec_ t f
         | .ok e => if e == 0 || entryFormat e then none else rec_ t (TFault.index 3 t.entryVa))
      | _ => none
    else none)

/-- The `tld` lanes of one gang issue that name a tile, which share one fetch (R145, R333). -/
def State.tldLanes (s : State) (o : Op) (t : TileRef) : List Op :=
  s.ops.filter (fun p => p.issue == o.issue && p.fault.isNone && p.waitPage.isNone &&
    (match p.kind with | .tld u _ _ _ => u.tag p.ctx == t.tag o.ctx | _ => false))

/-- A lane takes its unit's bits of the expanded tile, zero-extended. -/
def State.tldLane (s : State) (b : List Byte) (o : Op) : State :=
  match o.kind with
  | .tld t d w elem =>
    (s.writeRegs o.key d [BitVec.ofNat 32 (fieldAt b (elem * t.desc.width / 8) (w / 8))]).joinOp o
  | _ => s

/-- LOAD_RETURN for `tld` (R333). -/
def State.tldReturn (s : State) (o : Op) (t : TileRef) : Ev :=
  let lanes := s.tldLanes o t
  if !lanes.all s.forked then none
  else
    s.withWalks o (fun s o => s.withFork o (fun s o =>
      match s.fetchTile o t true with
      | (.error f, s') => some (if f.cause = 0x10 then s'.tileOpFault o t f else s.failTogether (s.badTiles o))
      | (.ok b, s) => some (lanes.foldl (fun s p => s.tldLane b p) s)))

/-- LOAD_RETURN for `tq` (R334). -/
def State.tqReturn (s : State) (o : Op) (t : TileRef) (d : Nat) : Ev :=
  s.withWalks o (fun s o => s.withFork o (fun s o =>
    match s.readEntry o.core o.ctx t with
    | (.error f, s') => some (if f.cause = 0x10 then s'.tileOpFault o t f else s.failTogether (s.badTiles o))
    | (.ok e, s) =>
      if !(e == 0 || entryFormat e) then some (s.failTogether (s.badTiles o))
      else
        let hi := e.toNat / 2 ^ 64
        some ((s.writeRegs o.key d [BitVec.ofNat 32 hi, BitVec.ofNat 32 (hi / 2 ^ 32)]).joinOp o)))

/-! ### Whole tiles (R335) -/

/-- Operations that use the mint's queue (R126). -/
def OpKind.isMint (k : OpKind) : Bool :=
  match k with
  | .tst _ _ | .tenc _ _ _ _ _ _ => true
  | _ => false

/-- A scratchpad range of a tile form: R136, then the stash test (R170). -/
def State.tileRange (s : State) (o n align : Nat) (body : State → Out) : Out :=
  match s.tm.scratchCheck o n align with
  | some c => s.faultAt c (BitVec.ofNat 64 o) 0
  | none => s.copyStash o n body

/-- `tst` (R335). -/
def execTst (e : Bool) (d a h : Nat) (s : State) : Out :=
  s.tileWord e none [d] [] a h (fun s t x => s.queued OpKind.isMint 16 (fun s =>
    let o := (s.th.reg d).toNat
    s.tileRange o 256 256 (fun s => .next (s.addOp e [] none (.tst (t.refAt h x) o)))))

/-- The tiles an outstanding update writes. -/
def OpKind.updates (k : OpKind) : List TileRef :=
  match k with
  | .tst t _ => [t]
  | .tenc t _ _ sc _ second => if second then [sc] else [t, sc]
  | _ => []

/-- R135, R331: a core's mint codes tiles in queue order, so its updates take the locks of their tiles in that order. -/
def State.mintTurn (s : State) (o : Op) : Bool :=
  match s.engineQueue o.core OpKind.isMint with
  | p :: _ => p.id == o.id
  | [] => false

/-- The end of an update: its operation goes on, or takes its fault. -/
def State.updated (s : State) (o : Op) (t : TileRef) (r : Except TFault Unit × State) (done : State → State) : Ev :=
  match r with
  | (.error f, s') => some (if f.cause = 0x10 then s'.tileOpFault o t f else s.tileOpFault o t f)
  | (.ok (), s') => some (done s')

/-- TILE_UPDATE for `tst`: the bytes are read once, when their lines are present. -/
def State.tstUpdate (s : State) (o : Op) (t : TileRef) (off : Nat) : Ev :=
  match s.team? o.key.team with
  | none => some (s.dropOp o.id)
  | some m =>
    if !s.linesPresent (m.uid, off, 256) (some o.id) then none
    else if m.badIn off 256 then some (s.tileOpFault o t ⟨0x30, BitVec.ofNat 64 off, 0, 0⟩)
    else
      let b := m.scratchBytes off 256
      match if t.desc.fmt = 6 then badElement b else none with
      | some e => some (s.tileOpFault o t ⟨0x25, 0, 0, 4 * e⟩)
      | none => s.updated o t (s.tileUpdate o t false (fun _ => b)) (fun s => s.joinOp o)

/-! ### `tenc` (R307, R308, R336) -/

/-- σ as E4M3 bits (R308). -/
def encScale (xs : List (BitVec 16)) : Nat :=
  let vs := xs.map b16
  if vs.any Val.isNan then 0x7F
  else if vs.any (fun v => match v with | .inf _ => true | _ => false) then e4m3.maxCode
  else
    let amax := vs.foldl (fun m v => max m v.abs.real) 0
    e4m3.enc .up .sat (.fin false (amax / 7))

/-- `quant_int4` (R76) of one element, as a nibble. -/
def quantInt4 (x : Val) (sigma : Rat) : Nat :=
  match x with
  | .nan => 0
  | .inf n => if n then 8 else 7
  | .fin n m =>
    if sigma = 0 then 0
    else
      let q := roundNat .rne (m / sigma)
      if n then (16 - min q 8) % 16 else min q 7

/-- The 32 codes of an entry (R308). -/
def encCodes (xs : List (BitVec 16)) : List Nat :=
  let sc := encScale xs
  if sc = 0x7F then List.replicate 32 0 else xs.map (fun x => quantInt4 (b16 x) (e4m3.mag sc))

/-- The tile with one row of 32 codes replaced; elements past the extent are written 0 (R295). -/
def putRow (row valid : Nat) (codes : List Nat) (b : List Byte) : List Byte :=
  let code (s : Nat) : Nat := if s < valid then codes.getD s 0 else 0
  b.zipIdx.map (fun p =>
    if 16 * row ≤ p.2 ∧ p.2 < 16 * row + 16 then
      BitVec.ofNat 8 (code (2 * (p.2 - 16 * row)) + 16 * code (2 * (p.2 - 16 * row) + 1))
    else p.1)

/-- The companion scale tensor is suitable (R307). -/
def Desc.suits (sc t : Desc) : Bool :=
  sc.fmt == 2 && sc.policy == 0 && sc.rank == t.rank && sc.extent 0 == (t.extent 0 + 31) / 32 &&
  sc.extent 1 == t.extent 1 && sc.extent 2 == t.extent 2 && sc.extent 3 == t.extent 3

/-- Every thread of P takes the same fault (R336). -/
def State.allFault (s : State) (p : List Thread) (m : Team) (f : FaultRec → FaultRec) : State :=
  s.offIssue (fun s => p.foldl (fun s t => s.trapAtWord t m (fun r => { f r with lanes := seatsOf p })) s)

/-- Every thread of P waits at its word for the page that the check needs (R32, R336). -/
def State.allWait (s : State) (p : List Thread) (m : Team) (f : FaultRec → FaultRec) (va : Addr) : State :=
  s.offIssue (fun s => p.foldl (fun s t =>
    let h := t.clauseHdr
    let w := (t.clause.map ClauseCtx.word).getD t.startAt
    s.parkOnPage t { f (s.recFor t m h w) with lanes := seatsOf p } (addr57 (h + BitVec.ofNat 64 (4 * w))) va none) s)

/-- The operation of one thread of P, which moves on. -/
def State.addOpOf (s : State) (t : Thread) (m : Team) (e : Bool) (lanes : Word) (kind : OpKind) : State :=
  let f := match t.clause with
    | none => 15
    | some c => if e then c.setB else c.setA
  let h := (t.clause.map ClauseCtx.header).getD t.hdr
  let w := (t.clause.map ClauseCtx.word).getD t.startAt
  let o : Op :=
    { id := s.nextOp, issue := (s.issue.map Issue.num).getD s.nextIssue, key := t.key,
      flag := if f = 15 then none else some f, core := m.core, cluster := clusterOf m.core, ctx := m.ctx,
      base := { s.recFor t m h w with lanes := lanes }, fpc := addr57 (h + BitVec.ofNat 64 (4 * w)),
      count := (t.clause.map ClauseCtx.count).getD 0, regs := [], pa := none, kind := kind, fault := none, waitPage := none,
      handler := t.trapActive, due := s.tick + Config.writeDelay s.nextOp }
  let t' := t.advance
  let s := s.setThread { t' with status := if f = 15 then .sync s.nextOp else .ready }
  { s with ops := s.ops ++ [o], nextOp := s.nextOp + 1, pfx := none }

/-- The append of a complete group: one operation, of the lowest seat, that the others follow (R336). -/
def State.tencIssue (s : State) (p : List Thread) (m : Team) (e : Bool) (kind : OpKind) : State :=
  let leader := s.nextOp
  (p.zipIdx).foldl (fun s x => s.addOpOf x.1 m e (seatsOf p) (if x.2 = 0 then kind else .follow leader)) s

/-- R336 once P is complete and no register of it is pending: the coordinates are compared, checks 1, 3 and 4 are made
once, and the append goes out. A fault at the companion's descriptor that is no INDEX_INVALID names the appended tensor (DESIGN
CHOICE, log entry 119). `a` and `d` are the word's registers. -/
def State.tencGo (s : State) (p : List Thread) (m : Team) (e : Bool) (d a h rank : Nat) : State :=
  match p with
  | [] => s
  | t0 :: _ =>
    let x := t0.coords a rank
    let bad (n : Nat) (num : Nat) (c : List Nat) : State :=
      s.allFault p m (fun r => { r with cause := 0x28, detail := BitVec.ofNat 64 n, tensor := tensorField h num, tile := tileField c })
    if p.any (fun t => t.coords a rank != x) then s.allFault p m (fun r => { r with cause := 0x02, detail := 25 })
    else
      match m.descOf h with
      | none => bad 1 0 []
      | some t =>
        if !t.inside x then bad 2 t.num (t.tileOf x)
        else
          let r := t.refAt h x
          if t.fmt ≠ 5 ∨ t.rank < 2 ∨ x.getD 0 0 % 32 ≠ 0 then bad 10 t.num r.coords
          else
            let go (s : State) (sc : Desc) : State :=
              let y := (x.getD 0 0 / 32) :: x.drop 1
              let elem (i : Nat) : BitVec 16 := ((p.find? (fun u => u.key.seat == i)).map (fun u => loHalf (u.reg d))).getD 0
              s.tencIssue p m e
                (.tenc r (x.getD 1 0 % 16) ((List.range 32).map elem) (sc.refAt 0xFF y) (sc.elemOf y) false)
            if t.scale = 0 then bad 9 t.num r.coords
            else
              let dtab := ((s.ctxOf m.ctx).map Ctx.dtab).getD 0
              match s.deviceBytes (dtab + BitVec.ofNat 64 (64 * t.scale)) 2 with
              | (.error f, s) =>
                let named (q : FaultRec) : FaultRec :=
                  { q with cause := f.cause, vaddr := offVa f.cause f.vaddr, detail := f.detail, tensor := tensorField h t.num,
                           tile := tileField r.coords }
                if f.cause = 0x10 then s.allWait p m named f.vaddr else s.allFault p m named
              | (.ok b, s') =>
                match Desc.of t.scale b with
                | none => bad 9 t.num r.coords
                | some sc => if sc.suits t then go s' sc else bad 9 t.num r.coords

/-- `tenc` (R336): the group meets as with a mask of all ones. An unbound handle counts as one of rank 1 (DESIGN CHOICE, log
entry 119). -/
def execTenc (e : Bool) (d a h : Nat) (s : State) : Out :=
  let rank := ((s.tm.descOf h).map Desc.rank).getD 1
  match s.checkWord { cls := 5, reads := d :: blockRegs a rank, writes := [] } with
  | some c => s.fault c
  | none =>
    s.waitFor Op.isAcq (fun s => s.tracked e (fun s => s.queued OpKind.isMint 16 (fun s => s.ownWrites (fun s =>
      let s := s.withTh (fun t => { t with status := .xlane 0xFFFFFFFF })
      match s.complete? (s.waitingAt s.th.key s.th.pc), s.team? s.th.key.team with
      | some p, some m =>
        .next ((s.issueTogether p).meet (p.map (fun t => { t with age := 0 })) (d :: blockRegs a rank) []
          (fun s p => s.tencGo p m e d a h rank))
      | _, _ => .next s))))

/-- TILE_UPDATE for `tenc`: the codes first, then the scale (R308). -/
def State.tencUpdate (s : State) (o : Op) (t : TileRef) (row : Nat) (xs : List (BitVec 16)) (sc : TileRef) (elem : Nat)
    (second : Bool) : Ev :=
  if second then
    s.updated o sc (s.tileUpdate o sc true (fun b => b.set elem (BitVec.ofNat 8 (encScale xs)))) (fun s => s.joinOp o)
  else
    let valid := t.desc.extent 0 - 32 * t.coords.getD 0 0
    s.updated o t (s.tileUpdate o t true (putRow row valid (encCodes xs)))
      (fun s => s.setOp { o with kind := .tenc t row xs sc elem true })

/-- Event TILE_UPDATE (R303). -/
def execTileUpdate (op : Nat) (s : State) : Out :=
  s.onOp op (fun o =>
    if !s.mintTurn o then none
    else
      s.withWalks o (fun s o => s.withFork o (fun s o =>
        match o.kind with
        | .tst t off => s.tstUpdate o t off
        | .tenc t row xs sc elem second => s.tencUpdate o t row xs sc elem second
        | _ => none)))

/-! ### Tile copies (R337, R338) -/

/-- The checks of `cpt`'s control word, as a detail number. -/
def Team.cptCheck (m : Team) (d : Desc) (w : Word) : Option Nat :=
  let b := w.getLsbD 30
  let bar := w.toNat / 2 ^ 26 % 16
  if b && !(m.bar bar).valid then some 1
  else if (!b && bar != 0) || decide (d.rank ≤ w.toNat / 2 ^ 24 % 4) || w.toNat / 2 ^ 9 % 2 ^ 15 != 0 ||
    decide (w.toNat % 512 < 1) || decide (256 < w.toNat % 512) then some 6
  else none

/-- `cpt` (R337). -/
def execCpt (e : Bool) (d a h : Nat) (s : State) : Out :=
  s.tileWord e (some .copy) (blockRegs d 3) [] a h (fun s t x => s.queued OpKind.isCopy 32 (fun s =>
    let w := s.th.reg (d + 1)
    let dst := (s.th.reg d).toNat
    let md := (s.th.reg (d + 2)).toNat
    let n := w.toNat % 512
    let dim := w.toNat / 2 ^ 24 % 4
    let stored := w.getLsbD 31
    let r := t.refAt h x
    match s.tm.cptCheck t w with
    | some c => s.faultDetail 0x02 c
    | none =>
      if t.grid dim < r.coords.getD dim 0 + n then s.tileFault (TFault.index 2 0) r
      else s.tileRange dst (256 * n) 256 (fun s =>
        let bar := if w.getLsbD 30 then some (w.toNat / 2 ^ 26 % 16) else none
        let go (s : State) : Out := .next (s.addOp e [] none (.cpt r dim 0 n dst md stored bar))
        if stored then s.tileRange md (4 * n) 8 go
        else if md ≠ 0 then s.faultDetail 0x02 6
        else go s)))

/-- The tile `j` steps along a dimension. -/
def TileRef.step (t : TileRef) (dim j : Nat) : TileRef := { t with coords := t.coords.set dim (t.coords.getD dim 0 + j) }

/-- What stored delivery puts: the 256 bytes and the two halfwords (R338). -/
def Stored.deliver (x : Stored) (d : Desc) : List Byte × Nat × Nat :=
  let e := x.entry
  match entryMode e with
  | 0 => (x.bytes, 0, entryChk e)
  | 1 => (x.bytes ++ List.replicate (256 - x.bytes.length) 0, entryLen e + 512, entryChk e)
  | 2 => (List.replicate 256 0, 0x400, 0)
  | _ => (patternTile d.width (entrySlotField e), 0, crc16 (patternTile d.width (entrySlotField e)))

/-- R138: no earlier operation has still to write what the next tile of a `cpt` puts. -/
def State.cptClear (s : State) (o : Op) (next n dst md : Nat) (stored : Bool) : Bool :=
  !s.earlierWriter (o.key.team, dst + 256 * next, 256) o.id &&
  (!stored || (!s.earlierWriter (o.key.team, md + 2 * next, 2) o.id && !s.earlierWriter (o.key.team, md + 2 * n + 2 * next, 2) o.id))

/-- The bytes of a tile of a `cpt` land; after the last, the operation joins (R246, R338). -/
def State.cptPut (s : State) (o : Op) (puts : List (Nat × List Byte)) (last : Bool) : Ev :=
  match s.team? o.key.team with
  | none => some (s.dropOp o.id)
  | some m =>
    let s := (s.setTeam (puts.foldl (fun m p => m.scratchWrite p.1 p.2) m)).setOp o
    some (s.landed o (puts.foldl (fun k p => k + p.2.length) 0) last)

/-- COPY_LANDING for `cpt`: the next tile of the run is delivered (R338). -/
def State.cptLanding (s : State) (o : Op) (t : TileRef) (dim next n dst md : Nat) (stored : Bool) (bar : Option Nat) : Ev :=
  if !s.copyBegun o || !s.cptClear o next n dst md stored then none
  else
    s.withWalks o (fun s o => s.withFork o (fun s o =>
      let r := t.step dim next
      let went : Op := { o with kind := .cpt t dim (next + 1) n dst md stored bar }
      let fails (s : State) (f : TFault) : Ev :=
        some (if f.cause = 0x10 then s.tileOpFault o r f else s.engineFail o (f.fill r o.base))
      if stored then
        match s.fetchStored o r with
        | (.error f, s) => fails s f
        | (.ok x, s) =>
          let (b, l, c) := x.deliver t.desc
          s.cptPut went [(dst + 256 * next, b), (md + 2 * next, leBytes 2 l), (md + 2 * n + 2 * next, leBytes 2 c)] (next + 1 == n)
      else
        match s.fetchTile o r false with
        | (.error f, s) => fails s f
        | (.ok b, s) => s.cptPut went [(dst + 256 * next, b)] (next + 1 == n)))

/-! ### Clean, invalidate and pool (R339, R340) -/

/-- `tclean` and `tinval`: the range must lie in the tile count. -/
def State.tileRun (s : State) (e : Bool) (d a h : Nat) (mk : TileRef → Nat → Nat → OpKind) : Out :=
  s.tileWord e none [d] [] a h (fun s t x =>
    let r := t.refAt h x
    let n := (s.th.reg d).toNat
    if t.tiles < r.num + n then s.tileFault (TFault.index 2 0) r
    else .next (s.addOp e [] none (mk r r.num n)))

/-- `tclean` (R339). -/
def execTclean (e : Bool) (d a h : Nat) (s : State) : Out := s.tileRun e d a h .tclean

/-- `tinval` (R339). -/
def execTinval (e : Bool) (d a h : Nat) (s : State) : Out := s.tileRun e d a h .tinval

/-- The dirty bytes of a range at a virtual address go to memory (R282, R339), which is the writer's step of R249 for the tiles
of the context. Answers where they lie; a page that is not present is skipped. -/
def State.cleanVa (s : State) (o : Op) (va : Addr) (n : Nat) : Except XFault (Option Nat) × State :=
  match s.leafAt o.core o.ctx va with
  | (.error e, s) => if e.cause = 0x10 then (.ok none, s) else (.error { e with vaddr := va }, s)
  | (.ok l, s) =>
    let pa := l.pa va
    let s := s.flushRange pa n
    let s := (s.clusterNums.foldl (fun s c => s.writeBack c pa n) s).homeToMem pa n
    (.ok (some pa), s.cleanView (some o.ctx) pa n)

/-- The slot an entry names, if it names one. -/
def namedSlot (e : Entry) : Option (Addr × Nat) :=
  if e != 0 && entryFormat e && entryHasSlot e then some (entrySlot e, classSize (entryClass e)) else none

/-- `tclean` of tiles `i` to `i + n − 1`: entries, then slots; the first fault with its tile. -/
def State.cleanTiles (s : State) (o : Op) (t : TileRef) : Nat → Nat → Option (TileRef × TFault) × State
  | _, 0 => (none, s)
  | i, n + 1 =>
    let r := { t with coords := t.desc.tileAt i }
    match s.cleanVa o r.entryVa 16 with
    | (.error f, s) => (some (r, .ofX f), s)
    | (.ok none, s) => s.cleanTiles o t (i + 1) n
    | (.ok (some pa), s) =>
      match namedSlot (BitVec.ofNat 128 (leNat (s.performBytes pa 16))) with
      | none => s.cleanTiles o t (i + 1) n
      | some (va, len) =>
        match s.cleanVa o va len with
        | (.error f, s) => (some (r, .elsewhere f), s)
        | (.ok _, s) => s.cleanTiles o t (i + 1) n

/-- The units of a tile's entry and of the slot that it names. -/
def State.tileUnits (s : State) (o : Op) (r : TileRef) : List Nat × State :=
  match s.leafAt o.core o.ctx r.entryVa with
  | (.error _, s) => ([], s)
  | (.ok l, s) =>
    let pa := l.pa r.entryVa
    match namedSlot (BitVec.ofNat 128 (leNat (s.performBytes pa 16))) with
    | none => (unitsOf pa 16, s)
    | some (va, len) =>
      match s.leafAt o.core o.ctx va with
      | (.ok f, s) => (unitsOf pa 16 ++ unitsOf (f.pa va) len, s)
      | (.error _, s) => (unitsOf pa 16, s)

/-- A tag of a range of tiles. -/
def Tag.inTiles (ctx tensor first n : Nat) (t : Tag) : Bool :=
  match t with
  | .tile c k i => c == ctx && k == tensor && decide (first ≤ i) && decide (i < first + n)
  | .line _ => false

/-- Every copy held under the tags of a range goes (R339). -/
def State.dropTiles (s : State) (ctx tensor first n : Nat) : State :=
  { s with clusters := s.clusters.map (fun k => { k with tiles := k.tiles.filter (fun x => !x.1.inTiles ctx tensor first n) }),
           cores := s.cores.map (fun k => { k with l1 := k.l1.filter (fun l => !l.tag.inTiles ctx tensor first n) }) }

/-- `tinval` of tiles, which is the reader's step of R249 for the tiles of the context (R339). -/
def State.invalTiles (s : State) (o : Op) (t : TileRef) (first n : Nat) : State :=
  let (units, s) := (List.range n).foldl (fun (x : List Nat × State) i =>
    let (u, s) := x.2.tileUnits o { t with coords := t.desc.tileAt (first + i) }
    (x.1 ++ u, s)) ([], s)
  let s := s.dropTiles o.ctx t.desc.num first n
  s.seeView (some o.ctx) (fun u =>
    units.contains u || s.indexed.any (fun x => x.2 == u && x.1.inTiles o.ctx t.desc.num first n))

/-- R339: an update of the range issued earlier by the same core has not unlocked. -/
def State.updating (s : State) (o : Op) (t : TileRef) (first n : Nat) : Bool :=
  s.ops.any (fun p => decide (p.id < o.id) && p.core == o.core && p.ctx == o.ctx && p.fault.isNone &&
    p.kind.updates.any (fun u => u.desc.num == t.desc.num && decide (first ≤ u.num) && decide (u.num < first + n)))

/-- Event TILE_MAINTENANCE_COMPLETE (R339). -/
def execTileMaintenanceComplete (op : Nat) (s : State) : Out :=
  s.onOp op (fun o =>
    s.withWalks o (fun s o => s.withFork o (fun s o =>
      match o.kind with
      | .tclean t first n =>
        if s.updating o t first n then none
        else
          (match s.cleanTiles o t first n with
           | (some (r, f), s) => some (s.tileOpFault o r f)
           | (none, s) => some (s.finishOp o))
      | .tinval t first n => some ((s.invalTiles o t first n).finishOp o)
      | _ => none)))

/-- `spool` (R340). -/
def execSpool (e : Bool) (d a h : Nat) (s : State) : Out :=
  s.memWord { cls := 5, reads := pairRegs a ++ [d], writes := [] } (fun s => s.tracked e (fun s =>
    match s.tm.descOf h with
    | none => s.handleFault 1 h 0
    | some t =>
      let c := (s.th.reg d).toNat
      let r : TileRef := { handle := h, desc := t, coords := [] }
      if c < 1 ∨ 6 < c then s.handleFault 13 h t.num
      else
        let p : Push :=
          { idx := s.nextIdx, core := s.tm.core, cluster := clusterOf s.tm.core, ctx := s.tm.ctx, pool := t.pool, cls := c,
            slot := s.th.pair a, base := { s.here with engine := true, tensor := tensorField h t.num }, op := some s.nextOp,
            wait := none }
        let s : State := { s with pushes := s.pushes ++ [p], nextIdx := s.nextIdx + 1 }
        .next (s.addOp e [] none (.spool r c (s.th.pair a)))))

/-- A push that waits for a page joins its record (R303, R318). -/
def State.pushWaits (s : State) (p : Push) (va : Addr) : State :=
  let k : ThreadKey := { team := noTeam, group := 0, seat := 0 }
  let (n, s) := s.addAccess k none (some p.idx) p.base 0 va none
  { s with pushes := s.pushes.map (fun q => if q.idx = p.idx then { q with wait := some n } else q) }

/-- A push fails: `spool` takes the fault; after an update it is a record in the tenant's queue (R303). -/
def State.pushFails (s : State) (p : Push) (f : TFault) : State :=
  let s : State := { s with pushes := s.pushes.filter (fun q => q.idx != p.idx) }
  match p.op with
  | some id =>
    (match s.op? id with
     | some o => s.failOp o { o.base with cause := f.cause, vaddr := f.vaddr, detail := f.detail, engine := true, tensor := p.base.tensor }
     | none => s)
  | none =>
    let d := if f.cause = 0x28 then f.detail else BitVec.ofNat 64 p.cls
    (s.snapOnCause f.cause).pushFault p.base.tenant { p.base with cause := f.cause, vaddr := p.slot, detail := d } .none

/-- The push is made: `spool` joins and leaves its flag (R331, R340). -/
def State.pushNow (s : State) (p : Push) : Ev :=
  match s.pushSlot p.core p.ctx p.pool p.cls p.slot with
  | (.error f, s) =>
    if f.cause = 0x10 then
      (match p.op.bind s.op? with
       | some o => some (s.pageWait o p.base f.vaddr)
       | none => some (s.pushWaits p f.vaddr))
    else some (s.pushFails p f)
  | (.ok (), s) =>
    let s : State := { s with pushes := s.pushes.filter (fun q => q.idx != p.idx) }
    (match p.op.bind s.op? with
     | some o => some (s.joinOp o)
     | none => some s)

/-- Event SLOT_PUSH (R302, R303 step 9, R340). -/
def execSlotPush (idx : Nat) (s : State) : Out :=
  s.orStay <|
  match s.pushes.find? (fun p => p.idx == idx) with
  | none => none
  | some p =>
    match p.op.bind s.op? with
    | some o =>
      if o.waitPage.isSome || o.fault.isSome then none else s.withWalks o (fun s o => s.withFork o (fun s _ => s.pushNow p))
    | none => if p.wait.isSome then none else s.pushNow p

/-! ### Translation maintenance (R341) -/

/-- The virtual address an outstanding operation was translated at. -/
def Op.translatedAt (o : Op) : List Addr :=
  match o.kind, o.pa with
  | .ctst ps, _ => ps.map Prod.fst
  | .load va _ _ _ _ _ _, some _ => [va]
  | .store va _ _, some _ => [va]
  | .atom _ _ va _ _ _, some _ => [va]
  | .badd _ va _ _ _, some _ => [va]
  | .ldb va _ _, some _ => [va]
  | .bsettle va, some _ => [va]
  | _, _ => []

/-- The entries of a context that a form drops. -/
def TlbEntry.dropped (ctx : Nat) (va : Option Addr) (t : TlbEntry) : Bool :=
  match va with
  | some a => t.covers ctx a
  | none => t.ctx == ctx

/-- Step 2 of R341 in every core and cluster of every die, and in the tellers' (R359). -/
def State.dropTlb (s : State) (ctx : Nat) (va : Option Addr) : State :=
  { s with cores := s.cores.map (fun k => { k with tlb := k.tlb.filter (fun t => !t.dropped ctx va) }),
           clusters := s.clusters.map (fun k => { k with tlb := k.tlb.filter (fun t => !t.dropped ctx va) }),
           tellerTlb := s.tellerTlb.filter (fun t => !t.2.dropped ctx va),
           walkCache := s.walkCache.filter (fun w => w.ctx != ctx) }

/-- R341: an address lies on the page of the one whose entries go, by the size of its page. -/
def onPage (va : Option Addr) (big : Bool) (a : Addr) : Bool :=
  match va with
  | none => true
  | some v => if big then v.toNat / 2 ^ 29 == a.toNat / 2 ^ 29 else pageOf v == pageOf a

/-- Step 3 of R341: stash lines on the pages are written back and translate again at their next fill (R170). -/
def State.stashRetranslate (s : State) (ctx : Nat) (va : Option Addr) : State :=
  s.allTeams.foldl (fun s m =>
    if m.ctx ≠ ctx then s
    else m.stash.zipIdx.foldl (fun s x =>
      (List.range x.1.lines.length).foldl (fun s l =>
        if x.1.valid && onPage va (x.1.big.getD l false) (x.1.va + BitVec.ofNat 64 (256 * l)) then
          let s := s.stashLineBack m.uid x.2 l
          match s.team? m.uid with
          | some m => s.setTeam (m.setWindow x.2 { m.window x.2 with retranslate := (m.window x.2).retranslate.set l true })
          | none => s
        else s) s) s) s

/-- The common form, supervisor contexts only (R49): the wait and release of `fence.rel.device`, then steps 2 and 3; the
operation waits for the accesses that the dropped entries translated, which lie in the same 512 MiB. -/
def State.tlbinvWord (s : State) (e : Bool) (reads : List Nat) (d : Nat) (va : State → Option Addr) : Out :=
  if !s.isSup then s.fault 0x01
  else s.memWord { cls := 5, reads := reads ++ [d], writes := [] } (fun s => s.tracked e (fun s =>
    let ctx := (s.th.reg d).toNat
    if 63 < ctx then s.faultDetail 0x02 24
    else
      let v := va s
      if (v.map (fun a => addrOk a 1)).getD true = false then s.faultAt 0x09 (v.getD 0) 0
      else s.waitFor Op.inFlight (fun s =>
        let s := s.releaseAt s.tm.core s.tm.uid .device
        let waits := (s.ops.filter (fun o => o.ctx == ctx && o.fault.isNone && o.translatedAt.any (onPage v true))).map Op.id
        let s := (s.stashRetranslate ctx v).dropTlb ctx v
        .next (s.addOp e [] none (.tlbinv waits)))))

/-- `tlbinv.va` (R341). -/
def execTlbinvVa (e : Bool) (d a : Nat) (s : State) : Out := s.tlbinvWord e (pairRegs a) d (fun s => some (s.th.pair a))

/-- `tlbinv.ctx` (R341). -/
def execTlbinvCtx (e : Bool) (d : Nat) (s : State) : Out := s.tlbinvWord e [] d (fun _ => none)

/-- Event TLBINV_COMPLETE (R341): the accesses that the dropped entries translated have been performed. -/
def execTlbinvComplete (op : Nat) (s : State) : Out :=
  s.onOp op (fun o =>
    match o.kind with
    | .tlbinv waits =>
      if s.ops.any (fun p => waits.contains p.id && p.fault.isNone) then none else some (s.finishOp o)
    | _ => none)

end Sys2Proof.Machine
end

