-- ==== Sys2Proof/Machine/Teller.lean ====
section
/-! DEFINITION. The tellers: `gq`, `att`, `tstat`, the search, attention partials and their completion (19_package_memory R359
to R370; 21_package_instr R392 to R398). -/

namespace Sys2Proof.Machine

/-! ### Sequencing with a fault -/

/-- A fault of a teller, with the tile it concerns, if any (R394). -/
structure TellFault where
  f : TFault
  tile : Option TileRef
  deriving DecidableEq, Repr

/-- What a teller's work gives: a value or a fault, and the state with its TLB filled. -/
abbrev Tell (α : Type) := Except TellFault α × State

/-- Goes on after a step of a teller's work. -/
def tellThen {α β : Type} (r : Tell α) (k : α → State → Tell β) : Tell β :=
  match r with
  | (.error e, s) => (.error e, s)
  | (.ok a, s) => k a s

def tellFail {α : Type} (s : State) (cause : Nat) (va : Addr) (detail : Nat) : Tell α :=
  (.error ⟨⟨cause, va, BitVec.ofNat 64 detail, 0⟩, none⟩, s)

/-- TELLER_FAULT with its detail number and the high half of detail (R394). -/
def tellerFault {α : Type} (s : State) (n hi : Nat) (va : Addr) : Tell α := tellFail s 0x38 va (n + hi % 2 ^ 32 * 2 ^ 32)

/-! ### Memory below the shared cache (R248, R359) -/

/-- A teller's translation, through its own TLB of 64 entries and the walkers of its stack's die. -/
def State.tellerXlate (s : State) (tl ctx : Nat) (va : Addr) (k : Access) : Tell (Leaf × Nat) :=
  let done (s : State) (l : Leaf) : Tell (Leaf × Nat) :=
    match l.permits k va with
    | .error e => tellFail s e.cause va e.detail.toNat
    | .ok () => (.ok (l, l.pa va), s)
  match s.tellerTlb.find? (fun t => t.1 == tl && t.2.covers ctx va) with
  | some t => done s t.2.toLeaf
  | none =>
    if s.needsWalk (tl / 12, ctx, pageOf va) then
      let s := (s.miss (α := Unit) (tl / 12, ctx, pageOf va) va).2
      tellFail s 0x10 va 0
    else
      match s.dieWalk (tl / 12) ctx va with
      | (.error e, s) => tellFail s e.cause va e.detail.toNat
      | (.ok l, s) =>
        if !l.mayHold k then done s l
        else
          let mine := (s.tellerTlb.filter (fun t => t.1 == tl)).map Prod.snd
          let (mine, s) := s.tlbPut 64 (TlbEntry.of ctx va l) mine
          done { s with tellerTlb := mine.map (fun t => (tl, t)) ++ s.tellerTlb.filter (fun t => t.1 != tl) } l

/-- Whether bytes can be read from memory below the shared cache (R354, R358). -/
def State.memReadable (s : State) (va : Addr) (pa n : Nat) : Except XFault Unit :=
  if s.linkDown pa then .error ⟨0x31, 0, va⟩
  else if s.memPoisoned pa n then .error ⟨0x30, 0, va⟩
  else .ok ()

/-- Bytes inside one page, as memory holds them. -/
def State.tellerPage (s : State) (tl ctx : Nat) (va : Addr) (n : Nat) : Tell (List Byte) :=
  tellThen (s.tellerXlate tl ctx va .tellerRead) (fun x s =>
    match s.memReadable va x.2 n with
    | .error e => tellFail s e.cause va 0
    | .ok () => (.ok (s.memBytes x.2 n), s))

/-- Bytes that may run over pages; `fuel` bounds the pages. -/
def State.tellerRead (s : State) (tl ctx : Nat) : Nat → Addr → Nat → Tell (List Byte)
  | 0, _, _ => (.ok [], s)
  | fuel + 1, va, n =>
    if n = 0 then (.ok [], s)
    else
      let k := min n (65536 - va.toNat % 65536)
      tellThen (s.tellerPage tl ctx va k) (fun b s =>
        tellThen (s.tellerRead tl ctx fuel (va + BitVec.ofNat 64 k) (n - k)) (fun c s => (.ok (b ++ c), s)))

/-- The physical places of a range a teller will write, in parts inside one page. -/
def State.tellerPlaces (s : State) (tl ctx : Nat) : Nat → Addr → Nat → Tell (List (Nat × Nat))
  | 0, _, _ => (.ok [], s)
  | fuel + 1, va, n =>
    if n = 0 then (.ok [], s)
    else
      let k := min n (65536 - va.toNat % 65536)
      tellThen (s.tellerXlate tl ctx va .tellerWrite) (fun x s =>
        tellThen (s.tellerPlaces tl ctx fuel (va + BitVec.ofNat 64 k) (n - k)) (fun c s => (.ok ((x.2, k) :: c), s)))

/-- Bytes put into places, in order. -/
def State.tellerPut (s : State) : List (Nat × Nat) → List Byte → State
  | [], _ => s
  | (pa, k) :: t, b => State.tellerPut (s.tellerWrite pa (b.take k)) t (b.drop k)

/-! ### Packets (R363, R368) -/

/-- Offsets and alignments of a packet's address fields. -/
def gqAddrs : List (Nat × Nat) := [(0x20, 64), (0x28, 16), (0x30, 256), (0x38, 4), (0x40, 32)]
def attAddrs : List (Nat × Nat) := [(0x10, 4), (0x18, 32), (0x20, 16), (0x28, 4), (0x30, 32), (0x38, 32)]

/-- The first address field that is out of place. -/
def badAddr (p : List Byte) (l : List (Nat × Nat)) : Option Nat :=
  (l.find? (fun x => !(fieldAt p x.1 8 % x.2 == 0 && decide (fieldAt p x.1 8 < 2 ^ 57)))).map Prod.fst

/-- Checks 1 to 3 of R394 on a `gq` packet: the detail number and its high half. -/
def gqCheck (p : List Byte) : Option (Nat × Nat) :=
  let k := fieldAt p 2 2
  let l := fieldAt p 4 2
  let n := fieldAt p 9 1
  if fieldAt p 0 1 ≠ 1 ∨ 1 < fieldAt p 1 1 ∨ fieldAt p 0x0A 6 ≠ 0 ∨ fieldAt p 0x48 184 ≠ 0 then some (1, 0)
  else if k < 1 ∨ 64 < k ∨ l < k ∨ 256 < l ∨ fieldAt p 6 2 < 1 ∨ fieldAt p 8 1 < 2 ∨ 16 < fieldAt p 8 1 ∨ n < 1 ∨ 4 < n ∨
    (List.range 4).any (fun i => decide (n ≤ i) && fieldAt p (0x10 + 4 * i) 4 != 0) then some (2, 0)
  else (badAddr p gqAddrs).map (fun o => (3, o))

/-- Checks 1 and 3 on an `att` packet. -/
def attCheck (p : List Byte) : Option (Nat × Nat) :=
  if fieldAt p 0 1 ≠ 2 ∨ 1 < fieldAt p 1 1 ∨ 4096 ≤ fieldAt p 4 2 ∨ 4096 ≤ fieldAt p 6 2 ∨ fieldAt p 0x40 192 ≠ 0 then some (1, 0)
  else (badAddr p attAddrs).map (fun o => (3, o))

def Query.ordered (q : Query) : Bool := fieldAt q.packet 1 1 % 2 == 1

/-- The address in a packet field. -/
def Query.at_ (q : Query) (o : Nat) : Addr := leAddr (slice q.packet o 8)

/-- The result, cword fields of either packet. -/
def Query.isAtt (q : Query) : Bool := fieldAt q.packet 0 1 == 2
def Query.result (q : Query) : Addr := q.at_ (if q.isAtt then 0x20 else 0x28)
def Query.cword (q : Query) : Addr := q.at_ (if q.isAtt then 0x28 else 0x38)

/-! ### The graph (R360, R361) -/

def graphNodes (g : List Byte) : Nat := fieldAt g 0 4
def graphDim (g : List Byte) : Nat := fieldAt g 4 2
def graphFmt (g : List Byte) : Fmt := if fieldAt g 6 1 = 0 then bf16 else if fieldAt g 6 1 = 1 then e4m3 else e5m2
def graphEsize (g : List Byte) : Nat := if fieldAt g 6 1 = 0 then 2 else 1
def graphDeg (g : List Byte) : Nat := fieldAt g 8 1
def graphPb (g : List Byte) : Nat := fieldAt g 9 1
def graphRsize (g : List Byte) : Nat := fieldAt g 0x0C 4

/-- R360. -/
def graphValid (g : List Byte) : Bool :=
  decide (1 ≤ graphNodes g) && graphDim g % 32 == 0 && decide (32 ≤ graphDim g) && decide (graphDim g ≤ 1024) &&
  decide (fieldAt g 6 1 ≤ 2) && decide (fieldAt g 7 1 ≤ 1) && decide (1 ≤ graphDeg g) && decide (graphDeg g ≤ 64) &&
  decide (graphPb g ≤ 24) && fieldAt g 0x0A 2 == 0 && graphRsize g % 64 == 0 &&
  decide (graphDim g * graphEsize g + 4 + 4 * graphDeg g ≤ graphRsize g) && fieldAt g 0x10 8 % 16 == 0 &&
  decide (fieldAt g 0x10 8 < 2 ^ 57) && fieldAt g 0x18 40 == 0

/-- R361: a partition entry. -/
def partValid (e : List Byte) : Bool :=
  fieldAt e 0 8 % 64 == 0 && decide (fieldAt e 0 8 < 2 ^ 57) && decide (fieldAt e 8 1 ≤ 11) && fieldAt e 9 7 == 0

/-- The partition entry of a node, read once for its block. -/
def State.tellPart (s : State) (ctx : Nat) (q : Query) (node : Nat) : Tell (List Byte × Query) :=
  let b := node / 2 ^ graphPb q.graph
  match q.parts.find? (fun p => p.1 == b) with
  | some p => (.ok (p.2, q), s)
  | none =>
    let va := leAddr (slice q.graph 0x10 8) + BitVec.ofNat 64 (16 * b)
    tellThen (s.tellerRead q.teller ctx 2 va 16) (fun e s =>
      if partValid e then (.ok (e, { q with parts := (b, e) :: q.parts }), s) else tellerFault s 5 node va)

/-- Every byte of a range translates into a stack. -/
def State.inStack (s : State) (tl ctx stack : Nat) : Nat → Addr → Nat → Tell Bool
  | 0, _, _ => (.ok true, s)
  | fuel + 1, va, n =>
    if n = 0 then (.ok true, s)
    else
      let k := min n (65536 - va.toNat % 65536)
      tellThen (s.tellerXlate tl ctx va .tellerRead) (fun x s =>
        if stackOf x.2 = some stack then s.inStack tl ctx stack fuel (va + BitVec.ofNat 64 k) (n - k) else (.ok false, s))

/-- The partition entry of a node whose block's entry has been read, else zeros. -/
def Query.part (q : Query) (node : Nat) : List Byte :=
  ((q.parts.find? (fun p => p.1 == node / 2 ^ graphPb q.graph)).map Prod.snd).getD []

/-- The stack that owns such a node (R361). -/
def Query.owner (q : Query) (node : Nat) : Nat := fieldAt (q.part node) 8 1

/-- The teller that serves a stack's part of a query: the home teller for its own, else one of the stack's four, of free
choice (R363, R365). -/
def State.tellerOf (s : State) (q : Query) (stack : Nat) : Nat × State :=
  if q.teller / 4 = stack then (q.teller, s)
  else
    let (i, s) := s.pick 4
    (4 * stack + i, s)

/-- The address of the record of a node whose partition entry is known, which its owner stack holds whole. -/
def State.tellRecord (s : State) (ctx tl : Nat) (q : Query) (node : Nat) : Tell Addr :=
  let va := leAddr (slice (q.part node) 0 8) + BitVec.ofNat 64 (graphRsize q.graph * (node % 2 ^ graphPb q.graph))
  tellThen (s.inStack tl ctx (q.owner node) 65538 va (graphRsize q.graph)) (fun ok s =>
    if ok then (.ok va, s) else tellerFault s 5 node va)

/-- The neighbours of a node, in record order (R361), by a teller of the stack that owns it (R365). -/
def State.tellNeighbours (s : State) (ctx : Nat) (q : Query) (node : Nat) : Tell (List Nat) :=
  let (tl, s) := s.tellerOf q (q.owner node)
  tellThen (s.tellRecord ctx tl q node) (fun va s =>
    let o := graphDim q.graph * graphEsize q.graph
    tellThen (s.tellerRead tl ctx 2 (va + BitVec.ofNat 64 o) 4) (fun b s =>
      let deg := fieldAt b 0 4
      if graphDeg q.graph < deg then tellerFault s 6 node 0
      else
        tellThen (s.tellerRead tl ctx 3 (va + BitVec.ofNat 64 (o + 4)) (4 * deg)) (fun b s =>
          let ids := (List.range deg).map (fun i => fieldAt b (4 * i) 4)
          if ids.any (fun i => decide (graphNodes q.graph ≤ i)) then tellerFault s 6 node 0 else (.ok ids, s))))

/-! ### Distances (R362) -/

/-- Element `i` of a vector. -/
def vecElem (f : Fmt) (es : Nat) (b : List Byte) (i : Nat) : Val := f.val (fieldAt b (es * i) es)

/-- One term. -/
def distTerm (metric : Nat) (x y : Val) : Val :=
  if metric = 0 then Val.mul (x.add y.neg) (x.add y.neg) else (Val.mul x y).neg

/-- R362. -/
def distance (g q v : List Byte) : Word :=
  let el := vecElem (graphFmt g) (graphEsize g)
  (List.range (graphDim g / 32)).foldl (fun acc k =>
    let s := exactSum ((List.range 32).map (fun j => distTerm (fieldAt g 7 1) (el q (32 * k + j)) (el v (32 * k + j))))
    let r := toF32 .rne ((f32 acc).add s)
    if r = 0x80000000 then 0 else r) 0

/-- The order of candidates (R362): by distance, NaN last, then by identifier. -/
def candBefore (a b : Cand) : Bool :=
  match (f32 a.dist).isNan, (f32 b.dist).isNan with
  | true, true => decide (a.id < b.id)
  | true, false => false
  | false, true => true
  | false, false =>
    match (f32 a.dist).lt? (f32 b.dist), (f32 a.dist).eq? (f32 b.dist) with
    | some true, _ => true
    | _, some true => decide (a.id < b.id)
    | _, _ => false

def insertCand (c : Cand) : List Cand → List Cand
  | [] => [c]
  | d :: t => if candBefore c d then c :: d :: t else d :: insertCand c t

/-- The distances of the nodes of a batch, computed by a teller of the stack that owns them (R365). -/
def State.tellMeasure (s : State) (ctx tl : Nat) (q : Query) : List Nat → Tell (List Cand)
  | [] => (.ok [], s)
  | n :: t =>
    tellThen (s.tellRecord ctx tl q n) (fun va s =>
      tellThen (s.tellerRead tl ctx 3 va (graphDim q.graph * graphEsize q.graph)) (fun v s =>
        tellThen (s.tellMeasure ctx tl q t) (fun l s => (.ok (⟨n, distance q.graph q.vec v, false⟩ :: l), s))))

/-- The partition entries of nodes, by the home teller. -/
def State.tellParts (s : State) (ctx : Nat) (q : Query) : List Nat → Tell Query
  | [] => (.ok q, s)
  | n :: t => tellThen (s.tellPart ctx q n) (fun x s => s.tellParts ctx x.2 t)

/-- One batch for each stack that owns nodes of a list, its nodes in record order (R365). -/
def State.sendBatches (s : State) (q : Query) (nb : List Nat) : List Nat → List (Nat × List Nat) × State
  | [] => ([], s)
  | k :: t =>
    let (tl, s) := s.tellerOf q k
    let (l, s) := s.sendBatches q nb t
    ((tl, nb.filter (fun n => q.owner n == k)) :: l, s)

/-- The query waits for the distances of a list of nodes. -/
def State.tellAsk (s : State) (ctx : Nat) (q : Query) (nb : List Nat) : Tell Query :=
  tellThen (s.tellParts ctx q nb) (fun q s =>
    let (l, s) := s.sendBatches q nb ((nb.map q.owner).eraseDups)
    (.ok { q with waiting := some { left := l, back := [] } }, s))

/-- Every batch has returned: the distances are inserted, and the first L candidates kept (R364). -/
def Query.merge (q : Query) (l : List Cand) : Query :=
  { q with waiting := none, cands := (l.foldl (fun c x => insertCand x c) q.cands).take (fieldAt q.packet 4 2) }

/-! ### The search (R363, R364) -/

/-- First occurrences only, without those already seen. -/
def newNodes (seen : List Nat) : List Nat → List Nat
  | [] => []
  | n :: t => if seen.contains n then newNodes seen t else n :: newNodes (n :: seen) t

/-- The entry nodes of a packet. -/
def Query.entries (q : Query) : List Nat := (List.range (fieldAt q.packet 9 1)).map (fun i => fieldAt q.packet (0x10 + 4 * i) 4)

/-- Bytes of memory at an address of a context, zeros where it does not translate. -/
def State.memAtVa (s : State) (ctx : Nat) (va : Addr) (n : Nat) : List Byte :=
  match s.walk ctx va with
  | .ok l => s.memBytes (l.pa va) n
  | .error _ => []

/-- The stack that owns the first entry node of a query, as memory names it (R363). -/
def State.homeStack (s : State) (ctx : Nat) (q : Query) : Nat :=
  let g := s.memAtVa ctx (q.at_ 0x20) 64
  let e := s.memAtVa ctx (leAddr (slice g 0x10 8) + BitVec.ofNat 64 (16 * (q.entries.getD 0 0 / 2 ^ graphPb g))) 16
  fieldAt e 8 1 % 12

/-- A query comes to its home teller, one of the four of the stack that owns its first entry node (R363), which reads the
graph and that node's partition entry. -/
def State.gqRoute (s : State) (ctx id : Nat) (q : Query) : Tell Query :=
  let q := { q with teller := 4 * s.homeStack ctx q + Config.homeTeller id % 4 }
  match gqCheck q.packet with
  | some (d, h) => tellerFault s d h q.addr
  | none =>
    tellThen (s.tellerRead q.teller ctx 2 (q.at_ 0x20) 64) (fun g s =>
      if !graphValid g then tellerFault s 4 0 (q.at_ 0x20)
      else if q.entries.any (fun i => decide (graphNodes g ≤ i)) then tellerFault s 2 0 q.addr
      else tellThen (s.tellPart ctx { q with graph := g } (q.entries.getD 0 0)) (fun x s => (.ok { x.2 with routed := true }, s)))

/-- The start of a search in its home teller: the query vector, and the distances of the entry nodes. -/
def State.gqStart (s : State) (ctx : Nat) (q : Query) : Tell Query :=
  tellThen (s.tellerRead q.teller ctx 2 (q.at_ 0x40) (graphDim q.graph * graphEsize q.graph)) (fun v s =>
    let nb := newNodes [] q.entries
    s.tellAsk ctx { q with running := true, vec := v, visited := nb } nb)

/-- The result record (R366). -/
def Query.record (q : Query) (status : Nat) : List Byte :=
  let rs := q.cands.take (fieldAt q.packet 2 2)
  leBytes 1 status ++ leBytes 1 rs.length ++ leBytes 2 q.expansions ++ leBytes 4 q.visited.length ++ leBytes 8 0 ++
    rs.flatMap (fun c => leBytes 4 c.id ++ leBytes 4 c.dist.toNat)

/-- One turn of the loop of R364: an expansion begins, or one of its batches comes back, or the search ends. -/
def State.gqTurn (s : State) (ctx : Nat) (q : Query) : Tell Query :=
  match q.waiting with
  | some ⟨[], back⟩ => (.ok (q.merge back), s)
  | some ⟨(tl, ns) :: rest, back⟩ =>
    tellThen (s.tellMeasure ctx tl q ns) (fun l s =>
      (.ok (if rest.isEmpty then q.merge (back ++ l) else { q with waiting := some ⟨rest, back ++ l⟩ }), s))
  | none =>
    match q.cands.find? (fun c => !c.expanded) with
    | none => (.ok { q with out := some (q.record 1) }, s)
    | some c =>
      if q.expansions = fieldAt q.packet 6 2 then (.ok { q with out := some (q.record 2) }, s)
      else
        tellThen (s.tellNeighbours ctx q c.id) (fun ids s =>
          let mark (d : Cand) : Cand := if d.id = c.id then { d with expanded := true } else d
          let q : Query := { q with expansions := q.expansions + 1, cands := q.cands.map mark }
          let nb := newNodes q.visited ids
          if 2 ^ fieldAt q.packet 8 1 < q.visited.length + nb.length then (.ok { q with out := some (q.record 3) }, s)
          else s.tellAsk ctx { q with visited := q.visited ++ nb } nb)

/-! ### Attention partials (R368, R369) -/

/-- A descriptor of the context read below the shared cache; a fault of detail 7 where it is no valid one. -/
def State.tellDesc (s : State) (tl ctx num : Nat) (who : Nat) : Tell Desc :=
  let dtab := ((s.ctxOf ctx).map Ctx.dtab).getD 0
  if num = 0 then tellerFault s 7 who 0
  else
    tellThen (s.tellerRead tl ctx 2 (dtab + BitVec.ofNat 64 (64 * num)) 64) (fun b s =>
      match Desc.of num b with
      | some d => (.ok d, s)
      | none => tellerFault s 7 who (dtab + BitVec.ofNat 64 (64 * num)))

/-- A tensor and its companion, as `att` needs them (R368). -/
def State.tellTensor (s : State) (tl ctx num : Nat) : Tell (Desc × Desc) :=
  tellThen (s.tellDesc tl ctx num num) (fun d s =>
    let n := d.extent 0
    if d.fmt ≠ 5 ∨ n % 32 ≠ 0 ∨ n < 32 ∨ 256 < n ∨ d.scale = 0 then tellerFault s 7 num 0
    else
      tellThen (s.tellDesc tl ctx d.scale num) (fun c s => if c.suits d then (.ok (d, c), s) else tellerFault s 7 num 0))

/-- A code-table record, which must pass R146; the fields of its fault are R309's. -/
def State.tellTable (s : State) (tl ctx num : Nat) (va : Addr) : Tell (List Byte) :=
  tellThen (s.tellerRead tl ctx 2 va 288) (fun b s =>
    match tableFault b with
    | none => (.ok b, s)
    | some o =>
      let f : TFault := ⟨0x26, 0, BitVec.ofNat 64 o, 0⟩
      let d : Desc :=
        { num := num, rank := 1, fmt := 5, policy := 0, tslot := 0, dims := [], index := 0, pool := 0, scale := 0 }
      (.error ⟨f, some { handle := 0xFF, desc := d, coords := [] }⟩, s))

/-- Marks a fault with the tile it is of. -/
def atTile {α : Type} (t : TileRef) (r : Tell α) : Tell α :=
  match r with
  | (.error e, s) => (.error { e with tile := some t }, s)
  | r => r

/-- A fault of translation or memory on a slot (R309, R318, R358, R368). -/
def offEntry {α : Type} (r : Tell α) : Tell α :=
  match r with
  | (.error e, s) => (.error { e with f := { e.f with vaddr := offVa e.f.cause e.f.vaddr } }, s)
  | r => r

/-- A tile read below the shared cache by steps 2 to 9 of R299, with a packet's table. -/
def State.tellTile (s : State) (tl ctx : Nat) (t : TileRef) (table : List Byte) : Tell (List Byte) :=
  atTile t (tellThen (s.tellerRead tl ctx 2 t.entryVa 16) (fun b s =>
    let e : Entry := BitVec.ofNat 128 (leNat b)
    match entryCheck t.desc.width t.entryVa e with
    | some f => (.error ⟨f, none⟩, s)
    | none =>
      let bytes : Tell (List Byte) :=
        if !entryHasSlot e then (.ok [], s)
        else
          tellThen (offEntry (s.tellerXlate tl ctx (entrySlot e) .tellerRead)) (fun x s =>
            if pteBit x.1.entry 5 then offEntry (s.tellerRead tl ctx 2 (entrySlot e) (storedLen e))
            else (.error ⟨TFault.index 6 (entrySlot e), none⟩, s))
      tellThen bytes (fun b s =>
        match (Stored.mk e b false).expand t.desc (List.replicate 8 (some table)) with
        | .ok x => (.ok x, s)
        | .error f => (.error ⟨f, none⟩, s))))

/-- The 32 codes and the scale of one group of one position (R368). -/
def State.tellGroup (s : State) (tl ctx : Nat) (q : Query) (d sc : Desc) (table : List Byte) (p g : Nat) :
    Tell (List Val × Val) :=
  let x := [32 * g, p, fieldAt q.packet 8 4, fieldAt q.packet 0x0C 4]
  let y := [g, p, fieldAt q.packet 8 4, fieldAt q.packet 0x0C 4]
  tellThen (s.tellTile tl ctx (d.refAt 0xFF x) table) (fun b s =>
    tellThen (s.tellTile tl ctx (sc.refAt 0xFF y) table) (fun c s =>
      let codes := (List.range 32).map (fun j => Val.ofRat (int4 (nibbleAt b (d.elemOf x + j)) : Int))
      (.ok (codes, e4m3.val (fieldAt c (sc.elemOf y) 1)), s)))

/-- The groups of one position from `g` on, folded. -/
def State.tellGroups {β : Type} (s : State) (tl ctx : Nat) (q : Query) (d sc : Desc) (table : List Byte) (p : Nat)
    (f : β → Nat → List Val → Val → β) : Nat → Nat → β → Tell β
  | 0, _, acc => (.ok acc, s)
  | n + 1, g, acc =>
    tellThen (s.tellGroup tl ctx q d sc table p g) (fun x s => s.tellGroups tl ctx q d sc table p f n (g + 1) (f acc g x.1 x.2))

/-- The addition of one group to a score. -/
def scoreStep (vec : List Byte) (acc : Word) (g : Nat) (codes : List Val) (scale : Val) : Word :=
  let terms := codes.zipIdx.map (fun c => Val.mul (bf16.val (fieldAt vec (2 * (32 * g + c.2)) 2)) c.1)
  let r := toF32 .rne ((f32 acc).add (Val.mul (exactSum terms) scale))
  if r = 0x80000000 then 0 else r

/-- Position `i` of the list, in range of both tensors (detail 8). -/
def State.tellPos (s : State) (ctx : Nat) (q : Query) (k v : Desc) (i : Nat) : Tell Nat :=
  tellThen (s.tellerRead q.teller ctx 2 (q.at_ 0x10 + BitVec.ofNat 64 (4 * i)) 4) (fun b s =>
    let p := leNat b
    if k.extent 1 ≤ p ∨ v.extent 1 ≤ p then tellerFault s 8 i 0 else (.ok p, s))

/-- The scores of the list, with its positions. -/
def State.tellScores (s : State) (ctx : Nat) (q : Query) (k ks v : Desc) (table : List Byte) : Nat → Nat → Tell (List (Nat × Word))
  | 0, _ => (.ok [], s)
  | n + 1, i =>
    tellThen (s.tellPos ctx q k v i) (fun p s =>
      tellThen (s.tellGroups q.teller ctx q k ks table p (scoreStep q.vec) (k.extent 0 / 32) 0 0) (fun w s =>
        tellThen (s.tellScores ctx q k ks v table n (i + 1)) (fun t s => (.ok ((p, w) :: t), s))))

/-- The addition of one group of values, weighted, to the outputs. -/
def valueStep (w : Word) (o : List Word) (g : Nat) (codes : List Val) (scale : Val) : List Word :=
  o.zipIdx.map (fun x =>
    if 32 * g ≤ x.2 ∧ x.2 < 32 * g + 32 then
      toF32 .rne ((f32 x.1).add (Val.mul (Val.mul (f32 w) (codes.getD (x.2 - 32 * g) (.fin false 0))) scale))
    else x.1)

/-- The weighted sum over the list. -/
def State.tellSum (s : State) (ctx : Nat) (q : Query) (v vs : Desc) (table : List Byte) (m : Word) :
    List (Nat × Word) → Word → List Word → Tell (Word × List Word)
  | [], l, o => (.ok (l, o), s)
  | (p, sc) :: t, l, o =>
    let w := exp2a (toF32 .rne ((f32 sc).add (f32 m).neg))
    tellThen (s.tellGroups q.teller ctx q v vs table p (valueStep w) (v.extent 0 / 32) 0 o) (fun o s =>
      s.tellSum ctx q v vs table m t (toF32 .rne ((f32 l).add (f32 w))) o)

/-- The result record of a partial (R369). -/
def attRecord (m l : Word) (n : Nat) (o : List Word) : List Byte :=
  leBytes 4 m.toNat ++ leBytes 4 l.toNat ++ leBytes 4 n ++ leBytes 4 0 ++ o.flatMap (fun w => leBytes 4 w.toNat)

/-- R369. -/
def State.attRun (s : State) (ctx : Nat) (q : Query) : Tell Query :=
  match attCheck q.packet with
  | some (d, h) => tellerFault s d h q.addr
  | none =>
    let n := fieldAt q.packet 2 2
    let kt := fieldAt q.packet 4 2
    let vt := fieldAt q.packet 6 2
    tellThen (s.tellTensor q.teller ctx kt) (fun k s => tellThen (s.tellTensor q.teller ctx vt) (fun v s =>
      let out (d : Desc) : Bool := decide (d.extent 2 ≤ fieldAt q.packet 8 4) || decide (d.extent 3 ≤ fieldAt q.packet 0x0C 4)
      if out k.1 || out v.1 then tellerFault s 8 0 0
      else tellThen (s.tellTable q.teller ctx kt (q.at_ 0x30)) (fun ktab s =>
        tellThen (s.tellTable q.teller ctx vt (q.at_ 0x38)) (fun vtab s =>
          tellThen (s.tellerRead q.teller ctx 2 (q.at_ 0x18) (2 * k.1.extent 0)) (fun vec s =>
            let q := { q with running := true, vec := vec }
            let dv := v.1.extent 0
            let ends (m l : Word) (o : List Word) (s : State) : Tell Query := (.ok { q with out := some (attRecord m l n o) }, s)
            if n = 0 then ends 0xFF800000 0 (List.replicate dv 0) s
            else tellThen (s.tellScores ctx q k.1 k.2 v.1 ktab n 0) (fun sc s =>
              if sc.any (fun x => !finite32 x.2) then ends nan32 nan32 (List.replicate dv nan32) s
              else
                let m := sc.foldl (fun m x => if flt m x.2 then x.2 else m) ((sc.getD 0 (0, 0)).2)
                tellThen (s.tellSum ctx q v.1 v.2 vtab m sc 0 (List.replicate dv 0)) (fun r s => ends m r.1 r.2 s)))))))

/-! ### Issue (R392, R393) -/

def infoC6 (reads writes : List Nat) : WordInfo := { cls := 6, reads := reads, writes := writes }

/-- `gq` and `att`: the packet is read before the thread passes; a stash line of it that is not filled is touched first. -/
def State.tellerWord (s : State) (e att : Bool) (a : Nat) : Out :=
  s.memWord (infoC6 (pairRegs a) []) (fun s => s.withAddr (s.th.pair a) 64 (fun s => s.ownWrites (fun s =>
    s.withRecord (s.th.pair a) 8 (fun s =>
      match s.recordBytes (s.th.pair a) 8 with
      | (.error x, s) => .next (s.faultX x)
      | (.ok b, s) => s.tracked e (fun s =>
        let tl := Config.homeTeller s.nextOp % 48
        let q : Query :=
          { teller := tl, routed := att, addr := s.th.pair a, packet := b, running := false, graph := [], vec := [], parts := [], visited := [],
            cands := [], expansions := 0, waiting := none, out := none }
        .next (s.addOp e [] none (if att then .att q else .gq q)))))))

/-- `gq` (R392, R393). -/
def execGq (e : Bool) (a : Nat) (s : State) : Out := s.tellerWord e false a

/-- `att` (R392, R393). -/
def execAtt (e : Bool) (a : Nat) (s : State) : Out := s.tellerWord e true a

/-- `tstat` (R398). -/
def execTstat (e : Bool) (d a : Nat) (s : State) : Out :=
  s.memWord (infoC6 [a] [d]) (fun s => s.tracked e (fun s =>
    let n := (s.th.reg a).toNat
    if 47 < n then s.faultDetail 0x02 32 else .next (s.addOp e [d] none (.tstat d n))))

def OpKind.query? (k : OpKind) : Option Query :=
  match k with
  | .gq q => some q
  | .att q => some q
  | _ => none

/-- The operation with its query as it now stands. -/
def Op.withQuery (o : Op) (q : Query) : Op :=
  match o.kind with
  | .att _ => { o with kind := .att q }
  | _ => { o with kind := .gq q }

/-- Queries of a teller, by whether they run. -/
def State.queriesAt (s : State) (tl : Nat) (running : Bool) : List Op :=
  s.ops.filter (fun o => o.fault.isNone &&
    (match o.kind.query? with | some q => q.routed && q.teller == tl && q.running == running | none => false))

/-- LOAD_RETURN for `tstat` (R398). -/
def State.tstatReturn (s : State) (o : Op) (d n : Nat) : Ev :=
  let mine (l : List Op) : Nat := min 255 (l.filter (fun p => p.ctx == o.ctx)).length
  let lost := if s.links.stacksLost.contains (n / 4) then 2 ^ 24 else 0
  let w := mine (s.queriesAt n true) + 256 * mine (s.queriesAt n false) + lost
  some ((s.writeRegs o.key d [BitVec.ofNat 32 w]).finishOp o)

/-! ### Events -/

/-- The record of a teller's fault (R394). -/
def TellFault.record (e : TellFault) (o : Op) : FaultRec :=
  let r := match e.tile with
    | some t => e.f.fill t o.base
    | none => { o.base with cause := e.f.cause, vaddr := e.f.vaddr, detail := e.f.detail }
  { r with engine := true }

/-- A query that faults leaves its teller, and waits for no page any longer; a page that is not present stalls it (R394). -/
def State.tellFails (s : State) (o : Op) (q : Query) (e : TellFault) : State :=
  if e.f.cause = 0x10 then s.pageWait o (e.record o) e.f.vaddr
  else (s.dropAccesses (fun a => a.op == some o.id)).failOp (o.withQuery { q with running := false }) (e.record o)

/-- A turn of a query's work ends. -/
def State.tellTurn (o : Op) (q : Query) (r : Tell Query) : Ev :=
  match r with
  | (.error e, s) => some (s.tellFails o q e)
  | (.ok q, s) => some (s.setOp (o.withQuery q))

/-- R359: the teller has room, and no earlier query waits for it or is on its way to a teller still to be found. -/
def State.tellerFree (s : State) (o : Op) (q : Query) : Bool :=
  decide ((s.queriesAt q.teller true).length < 16 + Config.tellerExtra) &&
  s.ops.all (fun p => decide (o.id ≤ p.id) || p.fault.isSome || p.waitPage.isSome ||
    (match p.kind.query? with | some r => r.running || (r.routed && r.teller != q.teller) | none => true))

/-- Event TELLER_QUERY_START (R363, R364, R369): a `gq` comes to its home teller; a query that waits there starts. -/
def execTellerQueryStart (op : Nat) (s : State) : Out :=
  s.onOp op (fun o =>
    match o.kind.query? with
    | none => none
    | some q =>
      if q.running || q.out.isSome || (q.routed && !s.tellerFree o q) then none
      else
        s.withWalks o (fun s o => s.withFork o (fun s o =>
          if !q.routed then State.tellTurn o q (s.gqRoute o.ctx o.id q)
          else
            match o.kind with
            | .att _ => State.tellTurn o q (s.attRun o.ctx q)
            | _ => State.tellTurn o q (s.gqStart o.ctx q))))

/-- Event BATCH_RETURN (R364, R365). -/
def execBatchReturn (op : Nat) (s : State) : Out :=
  s.onOp op (fun o =>
    match o.kind with
    | .gq q =>
      if !q.running || q.out.isSome then none
      else s.withWalks o (fun s o => State.tellTurn o q (s.gqTurn o.ctx q))
    | _ => none)

/-- R367: an ordered query completes after the earlier ordered ones of its thread and flag. -/
def State.orderFree (s : State) (o : Op) (q : Query) : Bool :=
  !q.ordered || s.ops.all (fun p => !(decide (p.id < o.id) && p.key == o.key && p.flag == o.flag && p.fault.isNone &&
    (match p.kind.query? with | some r => r.ordered | none => false)))

/-- The places a completion writes: work area, result record and completion word. -/
def State.tellPlaces (s : State) (ctx : Nat) (q : Query) (b : List Byte) : Tell (List (Nat × Nat) × List (Nat × Nat) × Option Nat) :=
  let work : Tell (List (Nat × Nat)) :=
    if q.isAtt then (.ok [], s) else s.tellerPlaces q.teller ctx 6 (q.at_ 0x30) (4 * 2 ^ fieldAt q.packet 8 1)
  tellThen work (fun w s => tellThen (s.tellerPlaces q.teller ctx 3 q.result b.length) (fun r s =>
    if q.cword = 0 then (.ok (w, r, none), s)
    else tellThen (s.tellerXlate q.teller ctx q.cword .tellerWrite) (fun x s =>
      match s.readable q.cword x.2 4 with
      | .error e => tellFail s e.cause q.cword 0
      | .ok () => (.ok (w, r, some x.2), s))))

/-- R367 step 2: the completion word's add, at home. -/
def State.cwordAdd (s : State) (pa : Nat) : State :=
  let s := if s.hasEscrow (lineOf pa) then s.settleLine (lineOf pa) else s
  s.homeWrite pa (leBytes 4 (s.performWord pa + 1).toNat)

/-- Event TELLER_COMPLETION (R366, R367): work area, result, completion word, flag; the join acquires (R395). -/
def execTellerCompletion (op : Nat) (s : State) : Out :=
  s.onOp op (fun o =>
    match o.kind.query? with
    | none => none
    | some q =>
      match q.out with
      | none => none
      | some b =>
        if !s.orderFree o q then none
        else
          s.withWalks o (fun s o =>
            match s.tellPlaces o.ctx q b with
            | (.error e, s) => some (s.tellFails o q e)
            | (.ok (w, r, c), s) =>
              let n := w.foldl (fun n p => n + p.2) 0
              let s := s.tellerPut w ((List.range n).map (fun i => Config.workByte o.id i))
              let s := s.tellerPut r b
              let s := match c with
                | some pa => s.cwordAdd pa
                | none => s
              some (s.joinOp o)))

/-- Event TELLER_SRAM_ERROR (R372): the query, which a teller runs or holds in its queue, ends with TELLER_FAULT, also while
it is stalled on a page. -/
def execTellerSramError (op : Nat) (s : State) : Out :=
  s.orStay <|
  match (s.op? op).bind (fun o => o.kind.query?.map (fun q => (o, q))) with
  | none => none
  | some (o, q) =>
    if o.fault.isSome || (!q.running && !q.routed && o.waitPage.isNone && o.walk.isNone) then none
    else some (s.tellFails o q ⟨⟨0x38, 0, 9, 0⟩, none⟩)

end Sys2Proof.Machine
end

