-- ==== Sys2Proof/Machine/Progress.lean ====
section
/-! DEFINITION. The events of a core: the issue of clauses, tills, the watchdog, stops for pre-emption, the return of
tracked operations, the compactor and core reset (01_thread R17 to R39; 02_encoding R36 to R40; 06_core R131 to R133). -/

namespace Sys2Proof.Machine

/-! ### Clauses (R36 to R40) -/

/-- The header's fields hold values R36 allows. -/
def headerOk (w : Nat) : Bool :=
  let flagOk (f : Nat) : Bool := decide (f < 12) || f == 15
  bitsAt w 28 4 != 0 && flagOk (bitsAt w 9 4) && flagOk (bitsAt w 5 4) && bitsAt w 0 5 == 0

/-- A clause whose words are known, opened at a word. -/
def clauseOf (hdr : Addr) (h : Nat) (words : List Word) (at_ : Nat) : ClauseCtx :=
  { header := hdr, count := bitsAt h 28 4, cls := bitsAt h 25 3, wait := BitVec.ofNat 12 (bitsAt h 13 12),
    setA := bitsAt h 9 4, setB := bitsAt h 5 4, words := words, word := at_ }

/-- One word of the instruction stream, read where the word is performed. -/
def State.fetchWord (s : State) (m : Team) (va : Addr) : Except XFault Word × State :=
  match s.translate m.core m.ctx va .execute with
  | (.error e, s) => (.error { e with vaddr := va }, s)
  | (.ok (_, pa), s) =>
    match s.readable va pa 4 with
    | .error e => (.error e, s)
    | .ok () => (.ok (s.performWord pa), s)

/-- Consecutive words. -/
def State.fetchWords (s : State) (m : Team) : Nat → Addr → Except XFault (List Word) × State
  | 0, _ => (.ok [], s)
  | n + 1, va =>
    match s.fetchWord m va with
    | (.error e, s) => (.error e, s)
    | (.ok w, s) =>
      match State.fetchWords s m n (addr57 (va + 4)) with
      | (.error e, s) => (.error e, s)
      | (.ok ws, s) => (.ok (w :: ws), s)

/-- The count of the clause at a header, 0 where the header cannot be read; what `tret` asks of the recorded clause
(R106). -/
def State.countAt (s : State) (m : Team) (hdr : Addr) : Nat :=
  match (s.fetchWord m hdr).1 with
  | .ok h => bitsAt h.toNat 28 4
  | .error _ => 0

/-- A fault at the header of a thread's clause: word index 0, %fpc at the header (R24, R37), where `tret` goes on (R106). -/
def State.headerTrap (s : State) (t : Thread) (m : Team) (f : FaultRec → FaultRec) : State :=
  s.trapThread t m (f (s.recFor t m t.hdr 0)) t.hdr (t.hdr, t.startAt) (s.countAt m t.hdr) none

/-- A fault of the fetch (R37). -/
def State.fetchFault (s : State) (t : Thread) (m : Team) (e : XFault) : State :=
  if e.cause = 0x10 then s.parkOnPage t (s.recFor t m t.hdr 0) t.hdr e.vaddr none
  else s.headerTrap t m (fun r => { r with cause := e.cause, vaddr := e.vaddr, detail := e.detail })

/-- The words a check of R38 fails on: the word index and the cause. -/
def clauseCheck (words : List Word) : Option (Nat × Nat) :=
  let n := words.length
  let bad (p : Word × Nat) : Bool := isControlTransfer (majorOf p.1.toNat) (bitsAt p.1.toNat 0 8) && decide (p.2 + 1 < n)
  match words.zipIdx.find? bad with
  | some p => some (p.2 + 1, 0x04)
  | none =>
    let last := majorOf ((words.getD (n - 1) 0).toNat)
    if last = 0x7E ∨ last = 0x7F then some (n, 0x03) else none

/-- The wait of a header: what still has to be done before the first word, if anything (R36, R39). Before a class-7 clause
an operation that has recorded a fault, on a flag the mask does not name, counts as completed and keeps its fault on the
flag (DESIGN CHOICE, log entry 76), unless a later operation waits for it (log entry 84). -/
def State.headerWait (s : State) (t : Thread) (m : Team) (h : Nat) : Option Ev :=
  let mask := BitVec.ofNat 12 (bitsAt h 13 12)
  let all := if bitsAt h 25 3 = 7 then 0xFFF else mask
  if s.flagsBusy t all then some none
  else
    match s.firstFault t mask all with
    | none => none
    | some o =>
      if t.seenFaults.contains o.id then some (some (s.dropOp o.id))
      else some (some (s.deliver t m o (o.fault.getD o.base) (t.hdr, t.startAt)))

/-- The thread's clause is fetched and checked, its waits are over, and its next word may issue (R36 to R39). -/
def State.openClause (s : State) (t : Thread) (m : Team) : Ev :=
  match s.fetchWord m t.hdr with
  | (.error e, s) => some (s.fetchFault t m e)
  | (.ok h, s) =>
    if bitsAt h.toNat 28 4 = 0 then some (s.headerTrap t m (fun r => { r with cause := 0x04 }))
    else
      match s.fetchWords m (bitsAt h.toNat 28 4) (addr57 (t.hdr + 4)) with
      | (.error e, s) => some (s.fetchFault t m e)
      | (.ok ws, s) =>
        if !headerOk h.toNat then some (s.headerTrap t m (fun r => { r with cause := 0x04 }))
        else
          match clauseCheck ws with
          | some (i, c) =>
            let r := { s.recFor t m t.hdr i with cause := c }
            some (s.trapThread t m r (addr57 (t.hdr + BitVec.ofNat 64 (4 * i))) (t.hdr, t.startAt) ws.length none)
          | none =>
            match s.headerWait t m h.toNat with
            | some r => r
            | none =>
              let i := max t.startAt 1
              some (s.setThread { t with clause := some (clauseOf t.hdr h.toNat ws i),
                                          pc := addr57 (t.hdr + BitVec.ofNat 64 (4 * i)) })

/-- Event CLAUSE_ISSUE (R38). A thread that has to stop at a listed clause for a pre-emption stops there (R25). -/
def execClauseIssue (k : ThreadKey) (s : State) : Out :=
  s.orStay <|
  match s.thread? k, s.team? k.team with
  | some t, some m =>
    if !(t.live && t.status == .ready && t.clause.isNone && m.resident) then none
    else if m.preempt.isSome && t.startAt == 0 && (m.liveRec t.hdr).isSome then
      some (s.setThread { t with status := .saved false none })
    else
      match s.unflagged t with
      | some o =>
        (match o.fault with
         | none => some (s.setThread { t with status := .sync o.id })
         | some r => some (s.deliver t m o r (t.hdr, t.startAt)))
      | none => s.openClause t m
  | _, _ => none

/-! ### Tills (R18, R19) -/

/-- Event TILL_TIMER_EXPIRY (R18). -/
def execTillTimerExpiry (team till : Nat) (s : State) : Out :=
  s.orStay <|
  match s.team? team with
  | none => none
  | some m =>
    match m.till till with
    | none => none
    | some t =>
      if m.resident && t.timer == 0 && t.due.isNone && !t.args.isEmpty then some ((s.makeDue team till).releaseTills team)
      else none

/-- Event TILL_RELEASE (R19): the next due till of a team becomes a group. -/
def execTillRelease (team till : Nat) (s : State) : Out :=
  s.orStay <|
  match s.team? team with
  | none => none
  | some m =>
    if (s.canRelease m).map Prod.fst = some till then some (((s.releaseNext team).getD s).spawnDeadlock team)
    else none

/-! ### The watchdog (R24) -/

/-- A thread whose watchdog counts: live and not parked. One that has stopped for a pre-emption, that R31 stopped or whose
context was lost counts no longer (DESIGN CHOICE, log entry 91: R24 names only parking). -/
def Status.counts : Status → Bool
  | .ready | .sync _ | .replay _ | .yielded _ | .xlane _ => true
  | _ => false

/-- Event WATCHDOG (R24). -/
def execWatchdog (k : ThreadKey) (s : State) : Out :=
  s.orStay <|
  match s.thread? k, s.team? k.team with
  | some t, some m =>
    let budget := ((s.ctxOf m.ctx).map Ctx.wdog).getD (2 ^ 24)
    if !(t.live && t.status.counts && m.resident && decide (budget ≤ t.watchdog.toNat)) then none
    else if t.clause.isNone then some (s.headerTrap t m (fun r => { r with cause := 0x0A }))
    else some (s.trapAtWord t m (fun r => { r with cause := 0x0A }))
  | _, _ => none

/-! ### Stops for a pre-emption (R25, R26) -/

/-- R26: what the end of the grace budget does to one thread: it stops at its word, to be saved whole. A thread that
waits for an operation within a word stops once that has ended. -/
def Team.stopWhole (m : Team) (t : Thread) : Thread :=
  if t.key.team != m.uid then t
  else
    match t.status with
    | .parked p => { t with status := .saved true (some p) }
    | .ready | .yielded _ | .xlane _ => { t with status := .saved true none }
    | _ => t

/-- Some thread of the team is still to stop. -/
def State.unstopped (s : State) (m : Team) : Bool := (s.threadsOf m.uid).any (fun t => (m.stopWhole t).status != t.status)

/-- Event GRACE_BUDGET_EXPIRY (R26). -/
def execGraceBudgetExpiry (team : Nat) (s : State) : Out :=
  s.orStay <|
  match s.team? team with
  | none => none
  | some m =>
    match m.preempt with
    | none => none
    | some p =>
      if m.resident && p.grace == 0 && s.unstopped m then some (s.mapThreads m.stopWhole) else none

/-! ### The return of tracked operations -/

/-- Event LOAD_RETURN (R173), by the kind of read. -/
def execLoadReturn (op : Nat) (s : State) : Out :=
  s.onOp op (fun o =>
    match o.kind with
    | .load va n sg d c p a => s.loadReturn o va n sg d c p a
    | .written _ => if s.matesOut o then none else some (s.finishOp o)
    | .ctld slot r => s.ctldReturn o slot r
    | .tld t _ _ _ => s.tldReturn o t
    | .tq t d => s.tqReturn o t d
    | .tstat d n => s.tstatReturn o d n
    | _ => none)

/-- Event STORE_WRITTEN (R173, R199). -/
def execStoreWritten (op : Nat) (s : State) : Out :=
  s.onOp op (fun o =>
    match o.kind with
    | .store va b rel => s.storeWritten o va b rel
    | .ctst ps => s.ctstWritten o ps
    | _ => none)

/-- Event SPECIAL_FUNCTION_RESULT (R125). -/
def execSpecialFunctionResult (op : Nat) (s : State) : Out :=
  s.onOp op (fun o =>
    match o.kind with
    | .sfu d v => some ((s.writeRegs o.key d [v]).finishOp o)
    | _ => none)

/-! ### The compactor (R131 to R133) -/

/-- The granules a scratchpad allotment takes: the smallest power of two not below `n` (R132). -/
def granules (n : Nat) : Nat := if n = 0 then 0 else ((List.range 8).map (2 ^ ·)).find? (fun p => decide (n ≤ p)) |>.getD 128

/-- A range of granules is free on a core. -/
def State.granulesFree (s : State) (core a n : Nat) : Bool :=
  s.allTeams.all (fun t =>
    !(match t.res with | .resident c _ => c == core | _ => false) ||
      decide (t.srun + granules t.sgran ≤ a) || decide (a + n ≤ t.srun) || t.sgran == 0)

/-- R133: nothing in a group forbids the move of its registers. -/
def State.runStill (s : State) (m : Team) (g : Nat) : Bool :=
  (s.threadsOf m.uid).all (fun t => t.key.group != g || t.pend == 0) && s.issue.isNone

/-- R133: no engine operation targets a team's scratchpad and no stash fill or write-back is in progress. -/
def State.scratchStill (s : State) (m : Team) : Bool :=
  s.ops.all (fun o => !((s.toWrite o).any (fun r => r.1 == m.uid)) &&
    !(o.key.team == m.uid && (match o.kind with | .stashMap _ _ _ | .stashWb _ _ => true | _ => false))) &&
  m.stash.all (fun x => !x.lines.contains .filling)

/-- Event COMPACTOR_MOVE (R133): a register run, or the scratchpad run when no group is named, moves to a free place. -/
def execCompactorMove (team : Nat) (group : Option Nat) (dest : Nat) (s : State) : Out :=
  s.orStay <|
  match s.team? team with
  | none => none
  | some m =>
    if !m.resident then none
    else
      match group with
      | some n =>
        (match m.groups.find? (fun g => g.num == n) with
         | none => none
         | some g =>
           if s.runStill m n && dest % g.blocks == 0 && decide (dest + g.blocks ≤ 256) && s.blocksFree m.core dest g.blocks then
             some (s.setTeam { m with groups := m.groups.map (fun x => if x.num = n then { x with run := dest } else x) })
           else none)
      | none =>
        if m.sgran != 0 && s.scratchStill m && dest % granules m.sgran == 0 && decide (dest + granules m.sgran ≤ 128) &&
            s.granulesFree m.core dest (granules m.sgran) then some (s.setTeam { m with srun := dest })
        else none

/-! ### Core reset (R21, R108) -/

/-- Event CORE_RESET (R21): a core that holds no team leaves reset. -/
def execCoreReset (core : Nat) (s : State) : Out :=
  s.orStay <|
  if decide (core < 1536) && s.allTeams.all (fun m => !(m.resident && m.core == core)) then some (s.setCore (Core.reset core))
  else none

end Sys2Proof.Machine
end

