-- ==== Sys2Proof/Machine/Lost.lean ====
section
/-! DEFINITION. Status words, CONTROL_LOST, the ending of contexts, and the failures that take control: voted machines,
clusters, die links, stacks, CXL links, and the reset of the module (11_cluster R231; 16_die_control R326, R327;
19_package_memory R352 to R358, R372; 20_package_control R376, R384, R385, R391). -/

namespace Sys2Proof.Machine

/-! ### Words that the command processors write (R373, R376) -/

/-- A word put into host memory. -/
def State.hostPut (s : State) (a : Nat) (b : List Byte) : State := { s with hostMem := cellsPut a s.hostMem b }

/-- A word at a held address: space 1 is host memory, space 0 device memory, physical (R373). -/
def State.putWord (s : State) (host : Bool) (a : Nat) (v : Word) : State :=
  if host then s.hostPut a (leBytes 4 v.toNat) else s.homeWrite a (leBytes 4 v.toNat)

/-- A queue error is counted and vector 3 of the queue's tenant, or of the physical function, is raised (R373, R381). -/
def State.queueError (s : State) (q : Nat) : State :=
  let count (x : Queue) : Queue := if x.num = q then { x with errors := x.errors + 1 } else x
  let s := { s with queues := s.queues.map count }
  if q < 16 then
    let t := s.tenantOf q
    s.setTenant { t with irqs := t.irqs ++ [3] }
  else { s with sup := { s.sup with irqs := s.sup.irqs ++ [3] } }

/-- A status word written (R376): [7:0] status, [15:8] reason, [16] late. A cword of space 0 is translated in the
launch's context; one that does not translate is a queue error (R374). -/
def State.putStatus (s : State) (q ctx : Nat) (cword : BitVec 64) (status reason : Nat) (late : Bool) : State :=
  let v := BitVec.ofNat 32 (status + 256 * reason + (if late then 65536 else 0))
  let a := cword.toNat % 2 ^ 63
  if cword = 0 then s
  else if cword.getLsbD 63 then s.putWord true a v
  else
    match s.xlate ctx (BitVec.ofNat 64 a) .write with
    | .error _ => s.queueError q
    | .ok pa => s.putWord false pa v

/-- A tenant's vector is raised (R381). -/
def State.raise (s : State) (tenant v : Nat) : State :=
  let t := s.tenantOf tenant
  s.setTenant { t with irqs := t.irqs ++ [v] }

/-! ### The stopping of contexts (R385, R383) -/

/-- Teams of a context. -/
def State.ofCtx (s : State) (c : Nat) (u : Nat) : Bool :=
  match s.team? u with
  | some m => m.ctx == c
  | none => false

/-- Every thread of a context stops, what it has outstanding is dropped, no till of it forms threads, and its teams that wait
for a core or are swapped out are never placed (R385, R397). -/
def State.haltCtx (s : State) (c : Nat) : State :=
  let halt (t : Thread) : Thread := if s.ofCtx c t.key.team then { t with status := .halted } else t
  let still (m : Team) : Team := if m.ctx = c then { m with tills := List.replicate 8 none, lost := true } else m
  { s.mapThreads halt with
    tm := still s.tm,
    teams := (s.teams.filter (fun m => !(m.ctx == c && m.res == .waiting))).map still,
    ops := s.ops.filter (fun o => o.ctx != c),
    pushes := s.pushes.filter (fun p => p.ctx != c),
    imageUpdates := s.imageUpdates.filter (fun u => !s.ofCtx c u.team) }

/-- The grids of a context that are not complete end with a status (R385, R383). -/
def State.endGrids (s : State) (c status : Nat) : State :=
  let mine := s.grids.filter (fun g => g.ctx == c && !g.done)
  let s := mine.foldl (fun s g => s.putStatus g.queue g.ctx g.cword status 0 false) s
  let close (g : Grid) : Grid := if g.ctx = c then { g with done := true } else g
  { s with grids := s.grids.map close,
           monitors := s.monitors.filter (fun m => !(m.ctx == c && m.grid.isSome)) }

/-- The record of CONTROL_LOST (R385): cause, context, tenant and the source in detail. -/
def lostRecord (c tenant : Nat) (detail : Nat) : FaultRec :=
  { cause := 0x3F, ctx := c, tenant := tenant, detail := BitVec.ofNat 64 detail }

/-- CONTROL_LOST of one context (R385). -/
def State.loseControl (s : State) (detail : Nat) (c : Nat) : State :=
  match s.ctxOf c with
  | none => s
  | some x =>
    let s := (s.haltCtx c).endGrids c 3
    let s := s.snapOnCause 0x3F
    let s := s.pushFault x.tenant (lostRecord c x.tenant detail) .none
    let s := s.raise x.tenant 2
    { s with ctxs := s.ctxs.filter (fun y => y.num != c), fabric := { s.fabric with lost := s.fabric.lost ++ [c] } }

/-- CONTROL_LOST of every context that a test picks. -/
def State.loseAll (s : State) (detail : Nat) (hit : Ctx → Bool) : State :=
  ((s.ctxs.filter hit).map Ctx.num).foldl (fun s c => s.loseControl detail c) s

/-! ### Voted machines (R326, R327, R384) -/

/-- How many of a machine's copies agree. -/
def State.voteOf (s : State) (u : VotedUnit) : Nat := ((s.votes.find? (fun v => v.unit == u)).map Vote.agreeing).getD 3

def State.setVote (s : State) (u : VotedUnit) (n : Nat) : State :=
  { s with votes := upsert (fun v => v.unit == u) ⟨u, n⟩ s.votes }

/-- The machine exists: a die 0 to 3, or a command processor 0 to 3. -/
def votedUnitOk (u : VotedUnit) : Bool :=
  match u with
  | .walker d | .dispatcher d | .commandProcessor d => decide (d < 4)

/-- Event VOTE_DISSENT (R326): one copy of three is fenced off, and the dissent is counted. -/
def execVoteDissent (u : VotedUnit) (s : State) : Out :=
  s.orStay <|
  if !votedUnitOk u || s.voteOf u != 3 then none
  else some { s.setVote u 2 with sup := { s.sup with dissents := s.sup.dissents + 1 } }

/-- Event VOTE_READMISSION (R326). -/
def execVoteReadmission (u : VotedUnit) (s : State) : Out :=
  s.orStay <|
  if !votedUnitOk u || s.voteOf u != 2 then none
  else some { s.setVote u 3 with sup := { s.sup with readmissions := s.sup.readmissions + 1 } }

/-- R327: contexts with a walk in flight on a die, or with a fault record attached to one. -/
def State.walkers (s : State) (die : Nat) (c : Ctx) : Bool :=
  (s.walksOn die).any (fun w => w.2.1 == c.num) ||
  s.accesses.any (fun a => a.base.ctx == c.num && dieOf a.base.core == die)

/-- R327: a die's walker starts again from reset: it holds no pointer entry and no walk. -/
def State.resetWalker (s : State) (die : Nat) : State :=
  { s with walkCache := s.walkCache.filter (fun w => w.die != die), walks := s.walks.filter (fun w => w.1 != die) }

/-- R327: contexts with a team resident on a die, or one that waits there. -/
def State.dispatched (s : State) (die : Nat) (c : Ctx) : Bool :=
  s.allTeams.any (fun m => m.ctx == c.num && m.die == die && (match m.res with | .freed _ => false | _ => true))

/-- Event COMPARED_PAIR_DISAGREEMENT (R327): a walker or a dispatcher that runs as a pair stops and restarts. -/
def execComparedPairDisagreement (u : VotedUnit) (s : State) : Out :=
  s.orStay <|
  if !votedUnitOk u || s.voteOf u != 2 then none
  else
    match u with
    | .walker d => some (((s.loseAll (1 + 256 * d) (s.walkers d)).resetWalker d).setVote u 3)
    | .dispatcher d => some ((s.loseAll (2 + 256 * d) (s.dispatched d)).setVote u 3)
    | .commandProcessor _ => none

/-- R384: contexts with a grid that a command processor accepted. -/
def State.served (s : State) (cp : Nat) (c : Ctx) : Bool :=
  s.grids.any (fun g => g.ctx == c.num && g.queue % 4 == cp && !g.done)

/-- Event CP_VOTE_DISAGREEMENT (R384): the processor restarts and fetches again what it had not accepted. -/
def execCpVoteDisagreement (cp : Nat) (s : State) : Out :=
  s.orStay <|
  let u := VotedUnit.commandProcessor cp
  if !votedUnitOk u || s.voteOf u != 2 then none
  else
    let s := (s.loseAll (6 + 256 * cp) (s.served cp)).setVote u 3
    let again (q : Queue) : Queue := if q.num % 4 = cp then { q with fetched := none } else q
    some { s with queues := s.queues.map again }

/-! ### Clusters, links and stacks -/

/-- R231: contexts whose lines a cluster holds: those with a team in it, a tile of theirs in it, or a line in their
tenant's windows. -/
def State.holdsFor (s : State) (c : Nat) (x : Ctx) : Bool :=
  let k := s.cluster c
  s.allTeams.any (fun m => m.ctx == x.num && m.resident && clusterOf m.core == c) ||
  k.tags.any (fun t => match t with | .tile ctx _ _ => ctx == x.num | .line a => (s.tenantOf x.tenant).holds a 1)

/-- Event CLUSTER_UNRESPONSIVE (R231): what the cluster held is gone, and home forgets its words. -/
def execClusterUnresponsive (cluster : Nat) (s : State) : Out :=
  s.orStay <|
  if 96 ≤ cluster ∨ (s.cluster cluster).lost then none
  else
    let s := s.loseAll (3 + 256 * cluster) (s.holdsFor cluster)
    let s := s.setCluster { Cluster.reset cluster with lost := true }
    some { s with registry := s.registry.filter (fun e => e.2 != cluster),
                   registrations := s.registrations.filter (fun r => r.cluster != cluster) }

/-- Event DIE_LINK_FLIT_RETRY (R352): only timing changes. -/
def execDieLinkFlitRetry (a b : Nat) (s : State) : Out :=
  s.orStay <|
  if 4 ≤ a ∨ 4 ≤ b ∨ a = b ∨ s.links.dieLinksLost.contains (min a b, max a b) then none else some s

/-- Some leaf stands below a table at a level. -/
def State.hasLeaf (s : State) : Nat → Nat → Nat → Bool
  | 0, _, _ => false
  | fuel + 1, lv, t =>
    (List.range (tableSize lv / 8)).any (fun i =>
      let e := leAddr (s.performBytes (t + 8 * i) 8)
      pteBit e 0 && pteWellFormed lv e && (pteBit e 1 || s.hasLeaf fuel (lv + 1) (pteAddr e)))

/-- R352: a context with a team or a mapped page on the package. -/
def State.present (s : State) (c : Ctx) : Bool :=
  s.allTeams.any (fun m => m.ctx == c.num && (match m.res with | .freed _ => false | _ => true)) ||
  s.hasLeaf 4 0 c.root

/-- Event DIE_LINK_FAILURE (R352, R385, R391). -/
def execDieLinkFailure (a b : Nat) (s : State) : Out :=
  s.orStay <|
  let l := (min a b, max a b)
  if 4 ≤ a ∨ 4 ≤ b ∨ a = b ∨ s.links.dieLinksLost.contains l then none
  else
    let s := s.loseAll (4 + 256 * l.1 + 65536 * l.2) s.present
    some { s with links := { s.links with dieLinksLost := l :: s.links.dieLinksLost } }.report

/-- R372: a search that waits for batches ends when the stack that holds one of its neighbours' records stops. -/
def State.stackFails (s : State) (stack : Nat) (o : Op) : State :=
  match o.kind with
  | .gq q =>
    let awaits := q.running && (match q.waiting with
      | none => false
      | some l => l.left.any (fun b => b.1 / 4 == stack && q.teller / 4 != stack))
    if awaits && o.fault.isNone then s.tellFails o q ⟨⟨0x38, 0, BitVec.ofNat 64 (10 + stack * 2 ^ 32), 0⟩, none⟩ else s
  | _ => s

/-- Event STACK_UNRESPONSIVE (R372, R385, R391). -/
def execStackUnresponsive (stack : Nat) (s : State) : Out :=
  s.orStay <|
  if 12 ≤ stack ∨ s.links.stacksLost.contains stack then none
  else
    let s := s.ops.foldl (fun s o => s.stackFails stack o) s
    let s := s.loseAll (5 + 256 * stack) s.present
    some { s with links := { s.links with stacksLost := stack :: s.links.stacksLost } }.report

/-- Event CXL_LINK_FAILED (R358, R391). -/
def execCxlLinkFailed (link : Nat) (s : State) : Out :=
  s.orStay <|
  if 4 ≤ link ∨ s.links.cxlFailed.contains link then none
  else some { s with links := { s.links with cxlFailed := link :: s.links.cxlFailed } }.report

/-! ### Refresh (R356) -/

/-- Postponed refreshes a bank owes. -/
def State.debt (s : State) (b : Nat × Nat) : Nat := ((s.links.refreshDebt.find? (fun d => d.1 == b)).map Prod.snd).getD 0

def State.setDebt (s : State) (b : Nat × Nat) (n : Nat) : State :=
  { s with links := { s.links with refreshDebt := upsert (fun d => d.1 == b) (b, n) s.links.refreshDebt } }

/-- Event REFRESH (R356): a refresh that falls due is issued, or postponed while fewer than 8 are owed. -/
def execRefresh (stack bank : Nat) (postpone : Bool) (s : State) : Out :=
  s.orStay <|
  if 12 ≤ stack then none
  else if !postpone then some s
  else if 8 ≤ s.debt (stack, bank) then none
  else some (s.setDebt (stack, bank) (s.debt (stack, bank) + 1))

/-- Event ALERT_BACK_OFF (R356): 8 owed refreshes are issued before the two mitigation commands; fewer stay owed. -/
def execAlertBackOff (stack bank : Nat) (s : State) : Out :=
  s.orStay <|
  if 12 ≤ stack then none
  else if s.debt (stack, bank) = 8 then some (s.setDebt (stack, bank) 0)
  else some s

/-! ### Reset by management (R358) -/

/-- Event MODULE_RESET (R358): the module as after reset. Management keeps its own supply (R388), and what is outside the
module stays as it is. -/
def execModuleReset (s : State) : Out :=
  .next { State.reset with mgmt := { s.mgmt with stopped := false }, hostMem := s.hostMem, inputs := s.inputs, tick := s.tick }

end Sys2Proof.Machine
end

