-- ==== Sys2Proof/Machine/Dispatcher.lean ====
section
/-! DEFINITION. The team dispatcher and the context-image engine of a die: placement, swap-out, resumption and updates
aimed at images (16_die_control R319 to R325; 01_thread R25 to R27; 12_memory_model R251). -/

namespace Sys2Proof.Machine

/-! ### What a core can take (R319) -/

/-- Teams resident on a core. -/
def State.teamsOn (s : State) (core : Nat) : List Team := s.allTeams.filter (fun m => m.resident && m.core == core)

/-- Register blocks of the groups of teams. -/
def blocksOf (l : List Team) : Nat := l.foldl (fun n m => m.groups.foldl (fun n g => n + g.blocks) n) 0

/-- What a placement asks for: blocks and granules, and the windows of the groups to be allotted. -/
structure Need where
  windows : List Nat
  sgran : Nat
  deriving DecidableEq, Repr

def Need.blocks (n : Need) : Nat := n.windows.foldl (fun t w => t + w / 8) 0

/-- The free slots of a core, lowest first. -/
def State.freeSlots (s : State) (core : Nat) : List Nat :=
  (List.range 16).filter (fun k => (s.teamsOn core).all (fun m => m.slot != k))

/-- R319: a core is eligible; it holds 64 groups (R126). -/
def State.eligible (s : State) (m : Team) (n : Need) (core : Nat) : Bool :=
  let on := s.teamsOn core
  !(s.freeSlots core).isEmpty && decide (blocksOf on + n.blocks ≤ 256) &&
  decide (s.groupsOn core + n.windows.length ≤ 64) &&
  decide (on.foldl (fun t x => t + granules x.sgran) 0 + granules n.sgran ≤ 128) &&
  decide ((on.filter (fun x => x.ctx == m.ctx)).length < 16)

/-- The keys by which the dispatcher chooses among eligible cores, smaller first (R319). -/
def State.placeKeys (s : State) (m : Team) (core : Nat) : List Nat :=
  [(s.allTeams.filter (fun x => x.resident && x.grid == m.grid && clusterOf x.core == clusterOf core)).length,
   (s.teamsOn core).length, blocksOf (s.teamsOn core), core]

/-- Lexicographic order of keys. -/
def keysBefore : List Nat → List Nat → Bool
  | a :: as, b :: bs => decide (a < b) || (a == b && keysBefore as bs)
  | _, _ => false

/-- The eligible core of a die that R319 prefers. -/
def State.chooseCore (s : State) (m : Team) (n : Need) : Option Nat :=
  ((List.range 384).map (· + 384 * m.die)).foldl (fun best c =>
    if !s.eligible m n c then best
    else
      match best with
      | none => some c
      | some b => if keysBefore (s.placeKeys m c) (s.placeKeys m b) then some c else some b) none

/-- R132: the scratchpad run for a team, from the smallest free range that holds one; of several equally small the lowest
(DESIGN CHOICE, log entry 93). -/
def State.allocGranules (s : State) (core n : Nat) : Option Nat :=
  let k := granules n
  if k = 0 then some 0
  else
    let free (a w : Nat) : Bool := decide (w ≤ 128) && s.granulesFree core (a / w * w) w
    let size (a : Nat) : Nat := (List.range 8).foldl (fun w _ => if free a (2 * w) then 2 * w else w) k
    let cands := ((List.range (128 / k)).map (· * k)).filter (fun a => s.granulesFree core a k)
    (cands.foldl (fun best a =>
      match best with
      | none => some (size a, a)
      | some b => if size a < b.1 then some (size a, a) else some b) none).map Prod.snd

/-- The state in which a team stands in a slot with its scratchpad run, or none while no run is free. -/
def State.takeSlot (s : State) (m : Team) (core slot : Nat) : Option State :=
  (s.allocGranules core m.sgran).map (fun run =>
    { s.setTeam { m with res := .resident core slot, srun := run, rolePtr := .vector, placed := s.placeOrder } with
        placeOrder := s.placeOrder + 1 })

/-! ### New teams (R319, R14, R132) -/

/-- The groups a launch makes in each team: role, entry, window, one for each group. -/
def Team.launchGroups (m : Team) (g : Grid) : List (Role × Addr × Nat) :=
  [Role.copy, Role.matrix, Role.vector].flatMap (fun r =>
    let l := g.roles.getD (roleNum r) ⟨0, 0, 0⟩
    let a := codeAt m.text l.entry
    let w := ((m.entryRec a r).map (fun e => 2 ^ e.lgregs)).getD 8
    List.replicate l.groups (r, a, w))

/-- Forms launch groups one after another. -/
def State.formLaunch (s : State) (u : Nat) : List (Role × Addr × Nat) → Option State
  | [] => some s
  | (r, a, w) :: rest =>
    match s.team? u with
    | none => none
    | some m =>
      match m.freeGroup, s.allocRun m.core (w / 8) with
      | some n, some run => (s.formGroup m n run a r w (List.replicate 32 0)).formLaunch u rest
      | _, _ => none

/-- No team of a grid has been placed. -/
def State.unplaced (s : State) (g : Grid) : Bool := s.allTeams.all (fun x => x.grid != g.id || x.res == .waiting)

/-- R375: the escrow regions of a launch are in its context's record once its first team is placed. -/
def State.putRegions (s : State) (g : Grid) : State :=
  let put (c : Ctx) : Ctx := if c.num = g.ctx then { c with regions := g.regions } else c
  { s with ctxs := s.ctxs.map put }

/-- A team waits in its die for a core. -/
def Team.waiting (m : Team) : Bool := m.res = .waiting

/-- The windows and granules a team that is not resident asks for. -/
def State.needOf (s : State) (m : Team) : Need :=
  match m.res with
  | .waiting =>
    { windows := ((s.grids.find? (fun g => g.id == m.grid)).map (fun g => (m.launchGroups g).map (fun x => x.2.2))).getD [],
      sgran := m.sgran }
  | _ => { windows := m.groups.map Group.window, sgran := m.sgran }

/-- R320: the core the team left if it is eligible, in the slot it left if that is free; else where R319 places it. -/
def State.resumePlace (s : State) (m : Team) (core slot : Nat) : Option (Nat × Nat) :=
  let n := s.needOf m
  if s.eligible m n core then some (core, if (s.freeSlots core).contains slot then slot else (s.freeSlots core).headD 0)
  else (s.chooseCore m n).map (fun c => (c, (s.freeSlots c).headD 0))

/-- A thread saved in a spawn that waits for room. -/
def Thread.awaitsRoom (t : Thread) : Bool :=
  match t.status with
  | .saved _ (some (.spawn _ _ _ _)) => true
  | _ => false

/-- R323: room exists for a spawn of a team that is swapped out: the team's next due till could release on the core where
the team would come back. -/
def State.spawnRoom (s : State) (m : Team) : Bool :=
  match m.res, m.nextDue with
  | .swapped core slot _ _ _ _, some (_, t) =>
    (s.threadsOf m.uid).any Thread.awaitsRoom && !m.tillHeld t &&
    (match s.resumePlace m core slot, m.entryRec t.entry t.role with
     | some (c, _), some e => s.eligible m { s.needOf m with windows := 2 ^ e.lgregs :: (s.needOf m).windows } c
     | _, _ => false)
  | _, _ => false

/-- A swapped-out team, of a context that has not been lost since, is runnable and so wants a core (R323, R385). -/
def State.returning (s : State) (m : Team) : Bool :=
  (s.ctxOf m.ctx).isSome && !m.lost &&
  (match m.res with
   | .swapped _ _ _ _ .place _ => true
   | .swapped _ _ _ _ .wake _ => s.spawnRoom m
   | _ => false)

/-- The order of a swapped-out team. -/
def Team.outOrder (m : Team) : Nat :=
  match m.res with
  | .swapped _ _ _ _ _ o => o
  | _ => 0

/-- R319: teams returning to the die go first, then new teams in the order of their grids and indices. -/
def State.nextToPlace (s : State) (m : Team) : Bool :=
  s.allTeams.all (fun x => x.die != m.die ||
    (!s.returning x && (!x.waiting || decide (m.grid < x.grid) || (m.grid == x.grid && decide (m.index ≤ x.index)))))

/-- Event TEAM_PLACEMENT (R319): the team takes the chosen core; its launch groups are formed; the acquire of R377. -/
def execTeamPlacement (team : Nat) (s : State) : Out :=
  s.orStay <|
  match s.team? team with
  | none => none
  | some m =>
    match s.grids.find? (fun g => g.id == m.grid) with
    | none => none
    | some g =>
      let l := m.launchGroups g
      let n : Need := { windows := l.map (fun x => x.2.2), sgran := m.sgran }
      if !m.waiting || !s.nextToPlace m then none
      else
        match s.chooseCore m n with
        | none => none
        | some core =>
          match (s.takeSlot { m with scratch := [] } core ((s.freeSlots core).headD 0)).bind (fun t => t.formLaunch team l) with
          | none => none
          | some t => some ((if s.unplaced g then t.putRegions g else t).acquireAt core .device)

/-! ### The context image (R322) -/

/-- Bytes padded with zeros, or cut, to a length. -/
def padTo (n : Nat) (b : List Byte) : List Byte := (b ++ List.replicate n 0).take n

def flagByte (b : Bool) : List Byte := leBytes 1 (if b then 1 else 0)

/-- A list of a fixed number of entries of a fixed size. -/
def padEach {α : Type} (size n : Nat) (f : α → List Byte) (l : List α) : List Byte := padTo (size * n) (l.flatMap (fun x => padTo size (f x)))

def Bar.bytes (b : Bar) : List Byte :=
  leBytes 2 b.expected ++ leBytes 2 b.arrived ++ leBytes 2 b.phase ++ leBytes 5 (b.pending % 2 ^ 40).toNat ++
    leBytes 4 b.waiters.toNat ++ flagByte b.valid

def Ring.bytes (r : Ring) : List Byte :=
  leBytes 1 r.slots ++ leBytes 1 r.full ++ leBytes 1 r.empty ++ leBytes 1 r.head ++ leBytes 1 r.tail ++ flagByte r.valid

def Stash.bytes (x : Stash) : List Byte :=
  padTo 8 (flagByte x.valid) ++ leBytes 8 x.off ++ leBytes 8 x.len ++ leBytes 8 x.va.toNat

def Desc.bytes (d : Desc) : List Byte :=
  leBytes 1 d.rank ++ leBytes 1 d.fmt ++ leBytes 1 d.policy ++ leBytes 1 d.tslot ++ padEach 4 4 (leBytes 4) d.dims ++
    leBytes 4 0 ++ leBytes 8 d.index.toNat ++ leBytes 8 d.pool.toNat ++ leBytes 2 d.scale

def Till.bytes (t : Till) : List Byte :=
  leBytes 8 t.entry.toNat ++ leBytes 4 (roleNum t.role) ++ leBytes 4 t.args.length ++ leBytes 4 (if t.due.isSome then 1 else 0) ++
    leBytes 4 (t.due.getD 0) ++ padTo 40 (leBytes 4 t.timer) ++ padEach 4 32 (fun w => leBytes 4 (BitVec.toNat w)) t.args

def Group.bytes (g : Group) : List Byte :=
  leBytes 8 g.entry.toNat ++ leBytes 4 (roleNum g.role) ++ leBytes 4 g.window.log2 ++ leBytes 4 g.live.toNat ++
    leBytes 4 (g.members &&& ~~~g.live).toNat

def parkCode (p : Option Park) : Nat :=
  match p with
  | none => 0
  | some (.bar _ _) => 1
  | some (.ringAcq _ _) => 2
  | some (.ringGet _ _) => 3
  | some (.mwait _ _ _) | some (.mwaitOverflow _ _ _) => 4
  | some (.line _) | some (.stash _ _ _ _) => 5
  | some (.spawn _ _ _ _) => 6
  | some (.page _) => 7

def parkBytes (p : Option Park) : List Byte :=
  match p with
  | some (.bar b q) => leBytes 4 b ++ leBytes 4 q
  | some (.ringAcq r n) | some (.ringGet r n) => leBytes 4 r ++ leBytes 4 n
  | some (.mwait va _ v) | some (.mwaitOverflow va _ v) => leBytes 8 va.toNat ++ leBytes 4 v.toNat
  | some (.spawn e _ a _) => leBytes 8 e.toNat ++ leBytes 4 a.toNat
  | _ => []

/-- How a stopped thread is saved: whole or at a listed clause, and the park it stood in. -/
def Thread.savedAs (t : Thread) : Bool × Option Park :=
  match t.status with
  | .saved w p => (w, p)
  | _ => (true, none)

/-- Pending faults of a thread in the order of delivery (R33, R322). -/
def State.pendingFaults (s : State) (k : ThreadKey) : List (Nat × FaultRec) :=
  (List.range 12).flatMap (fun f =>
    s.ops.filterMap (fun o =>
      if o.key == k && o.flag == some f then o.fault.map (fun r => (f, r)) else none))

/-- The register ranges of a live-state record that a window holds (R62). -/
def LiveRec.regs (l : LiveRec) (window : Nat) : List Nat :=
  (l.ranges.flatMap (fun r => (List.range (r.2 + 1 - r.1)).map (· + r.1))).filter (fun i => decide (i < window))

/-- The resume address of a thread record: the word that faulted where the thread waits for a page (R318), else where it
stands. -/
def State.resumeAt (s : State) (t : Thread) : Addr :=
  match t.savedAs.2 with
  | some (.page n) => ((s.accesses.find? (fun a => a.num == n)).map PageAccess.fpc).getD t.pc
  | _ => t.pc

/-- A thread record of R322. -/
def State.threadRecord (s : State) (m : Team) (t : Thread) : List Byte :=
  let (whole, park) := t.savedAs
  let fs := s.pendingFaults t.key
  let regs := if whole then t.regs else (((m.liveRec t.clauseHdr).map (fun l => l.regs t.window)).getD []).map t.reg
  let mask := fs.foldl (fun n f => n ||| 2 ^ f.1) 0
  leBytes 8 (s.resumeAt t).toNat ++ leBytes 1 (if whole then 1 else 0) ++ leBytes 1 (parkCode park) ++ leBytes 2 mask ++
    leBytes 1 t.preds.toNat ++ leBytes 1 ((if t.trapActive then 1 else 0) + (if fs.isEmpty then 0 else 2)) ++
    leBytes 2 regs.length ++ padEach 2 4 (fun x => leBytes 2 (BitVec.toNat x)) t.xs ++ leBytes 8 t.fpc.toNat ++
    leBytes 4 t.cause.toNat ++ padTo 12 (parkBytes park) ++ leBytes 32 t.pend.toNat ++
    padTo 64 ((fs.take 1).flatMap (fun f => f.2.toBytes)) ++ padTo 16 (leBytes 1 fs.length) ++
    (fs.drop 1).flatMap (fun f => f.2.toBytes) ++ regs.flatMap (fun w => leBytes 4 w.toNat)

/-- The live threads of a team in (group, seat) order. -/
def State.threadsInOrder (s : State) (u : Nat) : List Thread :=
  (List.range 32).flatMap (fun g => (List.range 32).filterMap (fun k => s.thread? ⟨u, g, k⟩))

/-- The presence bits of a team's scratchpad, bit i for line i. -/
def State.presenceBytes (s : State) (m : Team) : List Byte :=
  padTo 256 ((List.range (2 * m.sgran)).map (fun i =>
    BitVec.ofNat 8 ((List.range 8).foldl (fun n j => if s.absent m.uid (8 * i + j) then n else n + 2 ^ j) 0)))

/-- The image of one team (R322). -/
def State.image (s : State) (m : Team) : List Byte :=
  let recs := (s.threadsInOrder m.uid).flatMap (s.threadRecord m)
  let mask := m.groups.foldl (fun n g => n ||| 2 ^ g.num) 0
  let header := leBytes 2 (m.uid % 65536) ++ leBytes 2 0 ++ leBytes 1 m.ctx ++ leBytes 1 m.sgran ++ leBytes 2 m.tillp ++
    leBytes 8 m.farea.toNat ++ padEach 2 3 (leBytes 2) m.budgets ++ padEach 2 3 (leBytes 2) m.used ++ leBytes 4 mask ++
    leBytes 4 (0x2100 + 4096 * m.sgran + recs.length) ++ leBytes 4 m.index ++ leBytes 1 m.fgroups
  let handle (h : Option Nat) : List Byte := match h with
    | none => []
    | some n => padTo 4 (leBytes 1 1) ++ leBytes 4 n
  let table (c : Option (List Byte)) : List Byte := match c with
    | none => []
    | some r => padTo 32 (leBytes 1 1) ++ r
  let till (t : Option Till) : List Byte := (t.map Till.bytes).getD []
  let group (n : Nat) : List Byte := ((m.groups.find? (fun g => g.num == n)).map Group.bytes).getD []
  padTo 256 header ++ padEach 16 16 Bar.bytes m.bars ++ padEach 8 8 Ring.bytes m.rings ++ padEach 48 4 Stash.bytes m.stash ++
    padEach 16 16 handle m.handles ++ padEach 64 16 (fun d => ((d.map Desc.bytes).getD [])) m.descs ++
    padEach 320 8 table m.ctabs ++ padEach 192 8 till m.tills ++ s.presenceBytes m ++
    padEach 64 32 group (List.range 32) ++ m.scratchBytes 0 (4096 * m.sgran) ++ recs

/-! ### Swap-out (R321) -/

/-- Images of a context's other teams that hold a run of its save area, as base and length. -/
def State.images (s : State) (ctx u : Nat) : List (Nat × Nat) :=
  s.allTeams.filterMap (fun m =>
    match m.res with
    | .swapped _ _ b n _ _ => if m.ctx = ctx ∧ m.uid ≠ u then some (b, n) else none
    | _ => none)

/-- R321: the lowest multiple of 256 in the save area at which a free run of a length begins for a team. -/
def State.imageBase (s : State) (c : Ctx) (u n : Nat) : Option Nat :=
  let used := s.images c.num u
  let cands := c.save :: used.map (fun p => (p.1 + p.2 + 255) / 256 * 256)
  let ok (b : Nat) : Bool := decide (b + n ≤ c.save + c.savelen) && used.all (fun p => decide (b + n ≤ p.1) || decide (p.1 + p.2 ≤ b))
  (cands.filter ok).foldl (fun best b => some (match best with | none => b | some a => min a b)) none

/-- R27: what a thread stopped at a listed clause keeps. -/
def Thread.keepLive (t : Thread) (l : LiveRec) : Thread :=
  { t with regs := t.regs.zipIdx.map (fun p => if (l.regs t.window).contains p.2 then p.1 else 0),
           badRegs := t.badRegs.filter (fun i => (l.regs t.window).contains i),
           preds := t.preds &&& l.preds,
           xs := t.xs.zipIdx.map (fun p => if l.xs.getLsbD p.2 then p.1 else 0) }

/-- A thread as it goes into the image. -/
def Team.saveThread (m : Team) (t : Thread) : Thread :=
  if t.key.team != m.uid then t
  else
    let t := match t.status with
      | .parked p => { t with status := .saved (m.liveRec t.clauseHdr).isNone (some p) }
      | _ => t
    match t.status, m.liveRec t.clauseHdr with
    | .saved false _, some l => t.keepLive l
    | _, _ => t

/-- An operation does not hold up the swap-out of its team: it has faulted, or its thread is parked on the page that it
waits for (R318). -/
def State.savedWith (s : State) (o : Op) : Bool :=
  o.fault.isSome || s.accesses.any (fun a => a.op == some o.id && o.waitPage == some a.num && !a.base.engine)

/-- R321 step 2: every operation outstanding on a flag completes, so those that wait for one saved as faulted or parked wait
no longer (DEDUCED, log entry 84). -/
def State.letGo (s : State) (u : Nat) : State :=
  { s with ops := s.ops.map (fun o => if o.key.team = u then { o with letGo := true } else o) }

/-- R321 step 2: nothing else of the team is outstanding, and no line of its windows is being filled. -/
def State.drained (s : State) (m : Team) : Bool :=
  s.ops.all (fun o => o.key.team != m.uid || s.savedWith o) && m.stash.all (fun x => !x.lines.contains .filling)

/-- A thread that has stopped for its pre-emption (R25, R26), or for good. -/
def Status.stoppedFor : Status → Bool
  | .saved _ _ | .stopped | .halted => true
  | _ => false

/-- The priority class of a team's grid. -/
def State.classOf (s : State) (m : Team) : Nat := ((s.grids.find? (fun g => g.id == m.grid)).map Grid.cls).getD 0

/-- R321: another team of the same class or a higher one waits for a slot that this team's leaving could give. -/
def State.wantedBy (s : State) (m : Team) : Bool :=
  s.allTeams.any (fun x => (x.waiting || s.returning x) && x.die == m.die && decide (s.classOf m ≤ s.classOf x) &&
    (s.chooseCore x (s.needOf x)).isNone)

/-- R321, R23: every live thread of the team is parked at a progress point. -/
def State.allParked (s : State) (m : Team) : Bool :=
  !(s.threadsOf m.uid).isEmpty &&
  (s.threadsOf m.uid).all (fun t => match t.status with | .parked p => p.progress | _ => false)

/-- What a team waits for once it is out (R323). A wait in overflow mode has nothing that would wake it outside (R225). -/
def State.wantedAfter (s : State) (m : Team) : Wanted :=
  if m.preempt.isSome then .schedule
  else if (s.threadsOf m.uid).any (fun t => match t.status with | .parked (.mwaitOverflow _ _ _) => true | _ => false) then .place
  else .wake

/-- R321: a write of the save area faults: outside the map, or behind a failed link. -/
def State.saveFaults (s : State) (b n : Nat) : Bool :=
  !(inMap b && inMap (b + n - 1)) || s.linkDown b || s.linkDown (b + n - 1)

/-- R321: the team has stopped: for its pre-emption, which leaves something to save, or with every thread parked. -/
def State.readyToLeave (s : State) (m : Team) : Bool :=
  if m.preempt.isSome then
    (s.threadsOf m.uid).all (fun t => t.status.stoppedFor) &&
    (!(s.threadsOf m.uid).isEmpty || (List.range 8).any (fun i => (m.till i).isSome))
  else s.allParked m && s.wantedBy m

/-- Event TEAM_SWAP_OUT (R321, R251). A save area that is too small, or cannot be written, loses control. -/
def execTeamSwapOut (team : Nat) (s : State) : Out :=
  s.orStay <|
  match s.team? team with
  | none => none
  | some m =>
    match m.res, s.ctxOf m.ctx with
    | .resident core slot, some c =>
      if !s.readyToLeave m then none
      else if !s.drained m then some (s.letGo team)
      else
        let want := s.wantedAfter m
        let s := s.releaseAt core team .device
        let s := s.mapThreads m.saveThread
        let m := (s.team? team).getD m
        let img := s.image m
        (match s.imageBase c team img.length with
         | none => some (s.loseControl (2 + 256 * m.die) m.ctx)
         | some b =>
           if s.saveFaults b img.length then some (s.loseControl (2 + 256 * m.die) m.ctx)
           else
             let s := s.homeWrite b img
             let m := { m with res := .swapped core slot b img.length want s.placeOrder, preempt := none }
             some { s.setTeam m with placeOrder := s.placeOrder + 1 })
    | _, _ => none

/-! ### Reading an image (R322, R323; log entry 32) -/

def partOf (b : List Byte) (o n : Nat) : List Byte := (b.drop o).take n

/-- The entries of a table. -/
def rowsOf (size n : Nat) (b : List Byte) : List (List Byte) := (List.range n).map (fun i => partOf b (size * i) size)

def Bar.ofBytes (b : List Byte) : Bar :=
  let p := fieldAt b 6 5
  { expected := fieldAt b 0 2, arrived := fieldAt b 2 2, phase := fieldAt b 4 2,
    pending := if 2 ^ 39 ≤ p then (p : Int) - 2 ^ 40 else p, waiters := BitVec.ofNat 32 (fieldAt b 11 4),
    valid := fieldAt b 15 1 % 2 == 1 }

def Ring.ofBytes (b : List Byte) : Ring :=
  { slots := fieldAt b 0 1, full := fieldAt b 1 1, empty := fieldAt b 2 1, head := fieldAt b 3 1, tail := fieldAt b 4 1,
    valid := fieldAt b 5 1 % 2 == 1 }

/-- A stash window, with every line unfilled; its pages translate again where the image names another range. -/
def Stash.reload (x : Stash) (room : Nat) (b : List Byte) : Stash :=
  let off := fieldAt b 8 8
  let len := fieldAt b 16 8
  let va := leAddr (slice b 24 8)
  let n := len / 256
  if fieldAt b 0 1 % 2 = 0 ∨ room < off + len then Stash.unset
  else if x.valid && x.off == off && x.len == len && x.va == va then { x with lines := List.replicate n .unfilled }
  else
    { valid := true, off := off, len := len, va := va, lines := List.replicate n .unfilled, pas := List.replicate n 0,
      big := List.replicate n false, coded := List.replicate n false, writable := List.replicate n false,
      retranslate := List.replicate n true }

/-- A till; one in use holds an argument. -/
def Till.ofBytes (b : List Byte) : Option Till :=
  let n := fieldAt b 12 4
  if n = 0 then none
  else
    some { entry := leAddr (slice b 0 8), role := roleOf (fieldAt b 8 4),
           args := (List.range (min n 32)).map (fun i => leWord (slice b (64 + 4 * i) 4)),
           due := if fieldAt b 16 4 = 0 then none else some (fieldAt b 20 4), timer := fieldAt b 24 4 }

/-- A group from its record, beside what the image does not hold of it (R322). -/
def Team.reloadGroup (m : Team) (n : Nat) (b : List Byte) : Group :=
  let live := BitVec.ofNat 32 (fieldAt b 16 4)
  let window := 2 ^ (fieldAt b 12 4 % 9)
  let g : Group := (m.groups.find? (fun g => g.num == n)).getD
    { num := n, entry := 0, role := .vector, window := window, live := 0, members := 0, run := 0, dead := [] }
  { g with entry := leAddr (slice b 0 8), role := roleOf (fieldAt b 8 4), window := window, live := live,
           members := live ||| BitVec.ofNat 32 (fieldAt b 20 4) }

/-- The parts of a team that its image gives. -/
def Team.reload (m : Team) (b : List Byte) : Team :=
  let hs := (rowsOf 16 16 (partOf b 0x300 256)).map (fun r => if fieldAt r 0 1 % 2 = 1 then some (fieldAt r 4 4) else none)
  let desc (p : Option Nat × List Byte) : Option Desc := p.1.bind (fun n => Desc.of n p.2)
  let table (r : List Byte) : Option (List Byte) := if fieldAt r 0 1 % 2 = 1 then some (partOf r 32 288) else none
  { m with
    tillp := fieldAt b 6 2, farea := leAddr (slice b 8 8), budgets := (List.range 3).map (fun i => fieldAt b (16 + 2 * i) 2),
    used := (List.range 3).map (fun i => fieldAt b (22 + 2 * i) 2), index := fieldAt b 36 4, fgroups := fieldAt b 40 1,
    bars := (rowsOf 16 16 (partOf b 0x100 256)).map Bar.ofBytes,
    rings := (rowsOf 8 8 (partOf b 0x200 64)).map Ring.ofBytes,
    stash := (rowsOf 48 4 (partOf b 0x240 192)).zipIdx.map (fun p => (m.window p.2).reload (4096 * m.sgran) p.1),
    handles := hs, descs := (hs.zip (rowsOf 64 16 (partOf b 0x400 1024))).map desc,
    ctabs := (rowsOf 320 8 (partOf b 0x800 2560)).map table,
    tills := (rowsOf 192 8 (partOf b 0x1200 1536)).map Till.ofBytes,
    groups := (List.range 32).filterMap (fun n =>
      if fieldAt b 28 4 / 2 ^ n % 2 = 1 then some (m.reloadGroup n (partOf b (0x1900 + 64 * n) 64)) else none),
    scratch := cellsPut 0 [] (partOf b 0x2100 (4096 * m.sgran)) }

/-- R29: a record from its 64 bytes. -/
def FaultRec.ofBytes (b : List Byte) : FaultRec :=
  let attr := fieldAt b 1 1
  { cause := fieldAt b 0 1, deferred := attr % 2 == 1, replayable := attr / 2 % 2 == 1, engine := attr / 4 % 2 == 1,
    nested := attr / 8 % 2 == 1, seat := fieldAt b 2 1, word := fieldAt b 3 1, group := fieldAt b 4 1, tslot := fieldAt b 5 1,
    role := fieldAt b 6 1, ctx := fieldAt b 7 1, core := fieldAt b 8 2, tenant := fieldAt b 10 1, clause := leAddr (slice b 16 8),
    vaddr := leAddr (slice b 24 8), lanes := leWord (slice b 32 4), tensor := leWord (slice b 36 4),
    bitoff := leWord (slice b 40 4), tile := leAddr (slice b 48 8), detail := leAddr (slice b 56 8) }

/-- Pending faults, registers and length of a thread record. -/
def recFaults (b : List Byte) : Nat := fieldAt b 0x90 1
def recWords (b : List Byte) : Nat := fieldAt b 0x0E 2
def recRegsAt (b : List Byte) : Nat := 0xA0 + 64 * (recFaults b - 1)
def recLength (b : List Byte) : Nat := recRegsAt b + 4 * recWords b

/-- What a thread was parked in, with the operands of its record. -/
def reloadPark (p : Option Park) (code : Nat) (b : List Byte) : Option Park :=
  if parkCode p ≠ code then none
  else
    match p with
    | some (.bar _ _) => some (.bar (fieldAt b 0 4) (fieldAt b 4 4))
    | some (.ringAcq _ _) => some (.ringAcq (fieldAt b 0 4) (fieldAt b 4 4))
    | some (.ringGet _ _) => some (.ringGet (fieldAt b 0 4) (fieldAt b 4 4))
    | some (.mwait _ c _) => some (.mwait (leAddr (slice b 0 8)) c (leWord (slice b 8 4)))
    | some (.mwaitOverflow _ c _) => some (.mwaitOverflow (leAddr (slice b 0 8)) c (leWord (slice b 8 4)))
    | some (.spawn _ r _ f) => some (.spawn (leAddr (slice b 0 8)) r (leWord (slice b 8 4)) f)
    | p => p

/-- A thread from its record; a resume address that stands for where it is leaves it there. -/
def Thread.reload (m : Team) (t : Thread) (stays : Addr → Bool) (b : List Byte) : Thread :=
  let whole := fieldAt b 8 1 == 1
  let places := if whole then List.range t.window else ((m.liveRec t.clauseHdr).map (fun l => l.regs t.window)).getD []
  let ws := rowsOf 4 (recWords b) (b.drop (recRegsAt b))
  let put (l : List Word) (p : Nat × List Byte) : List Word := l.set p.1 (leWord p.2)
  let t' : Thread :=
    { t with
      regs := (places.zip ws).foldl put (if whole then t.regs else List.replicate t.window 0),
      preds := BitVec.ofNat 8 (fieldAt b 0x0C 1 % 128), trapActive := fieldAt b 0x0D 1 % 2 == 1,
      xs := (List.range 4).map (fun i => BitVec.ofNat 16 (fieldAt b (0x10 + 2 * i) 2)), fpc := leAddr (slice b 0x18 8),
      cause := leWord (slice b 0x20 4), pend := BitVec.ofNat 256 (fieldAt b 0x30 32),
      status := match t.status with
        | .saved _ p => .saved whole (reloadPark p (fieldAt b 9 1) (slice b 0x24 12))
        | x => x }
  let a := addr57 (leAddr (slice b 0 8))
  if stays a then t' else t'.goto a

/-- Operations of a thread with a pending fault, in the order of delivery (R33, R322). -/
def State.faultOps (s : State) (k : ThreadKey) : List Op :=
  (List.range 12).flatMap (fun f => s.ops.filter (fun o => o.key == k && o.flag == some f && o.fault.isSome))

/-- The pending faults of a thread from its record. -/
def State.reloadFaults (s : State) (k : ThreadKey) (b : List Byte) : State :=
  ((s.faultOps k).zipIdx.filter (fun p => decide (p.2 < recFaults b))).foldl (fun s p =>
    s.setOp { p.1 with fault := some (FaultRec.ofBytes (partOf b (if p.2 = 0 then 0x50 else 0xA0 + 64 * (p.2 - 1)) 64)) }) s

/-- The threads of a team from their records. -/
def State.reloadThreads (s : State) (m : Team) : List Thread → List Byte → State
  | [], _ => s
  | t :: ts, b =>
    let stays (a : Addr) : Bool :=
      a == t.pc || s.accesses.any (fun x => x.key == t.key && x.fpc == a) || s.ops.any (fun o => o.key == t.key && o.fpc == a)
    ((s.setThread (t.reload m stays b)).reloadFaults t.key b).reloadThreads m ts (b.drop (recLength b))

/-- The threads of the groups of a team that an image gives, in (group, seat) order: a live seat that had none has one that is
saved whole. -/
def State.imageThreads (s : State) (m : Team) : List Thread :=
  m.groups.flatMap (fun g =>
    (List.range 32).filterMap (fun k =>
      if g.live.getLsbD k then
        some ((s.thread? ⟨m.uid, g.num, k⟩).getD
          { Thread.born ⟨m.uid, g.num, k⟩ g.role g.entry g.window 0 with status := .saved true none })
      else none))

/-- Exactly these threads are a team's. -/
def State.replaceThreads (s : State) (u : Nat) (ts : List Thread) : State :=
  { s with threads := s.threads.filter (fun t => t.key.team != u) ++ ts }

/-- The presence bits that an image gives otherwise than the state does. -/
def State.editedLines (s : State) (m : Team) (b : List Byte) : List (Nat × Option Nat) :=
  (List.range (16 * m.sgran)).filterMap (fun l =>
    let here := fieldAt b (l / 8) 1 / 2 ^ (l % 8) % 2 == 1
    if here == !s.absent m.uid l then none else some (l, if here then some s.nextOp else none))

/-- R323: a swapped-out team as its image in the save area gives it; none where the image cannot be read. -/
def State.reload (s : State) (m : Team) (base len : Nat) : Option State :=
  if s.poisoned base len || s.linkDown base || s.linkDown (base + len - 1) then none
  else
    let b := s.performBytes base len
    let r := m.reload b
    let s := s.setTeam { r with lineBits := [] }
    let s := s.setTeam { r with lineBits := s.editedLines r (partOf b 0x1800 256) }
    let ts := s.imageThreads r
    some ((s.replaceThreads m.uid ts).reloadThreads r ts (b.drop (0x2100 + 4096 * m.sgran)))

/-- The image in memory follows the team's saved state, in another run where it has grown past its own (R321). -/
def State.rewriteImage (s : State) (u : Nat) : State :=
  match s.team? u with
  | none => s
  | some m =>
    match m.res with
    | .swapped c k b n w o =>
      let img := s.image m
      let put (b : Nat) : State := (s.setTeam { m with res := .swapped c k b img.length w o }).homeWrite b img
      if img.length ≤ n then put b
      else
        (match (s.ctxOf m.ctx).bind (fun x => s.imageBase x u img.length) with
         | some b => put b
         | none => s.loseControl (2 + 256 * m.die) m.ctx)
    | _ => s

/-- A change of a team that is swapped out is a change of its image (R324); one that cannot be read loses control (log entry
32). -/
def State.onImage (s : State) (u : Nat) (f : State → State) : State :=
  match s.team? u with
  | none => f s
  | some m =>
    match m.res with
    | .swapped _ _ b n _ _ =>
      (match s.reload m b n with
       | none => s.loseControl (2 + 256 * m.die) m.ctx
       | some s => (f s).rewriteImage u)
    | _ => f s

/-! ### Resumption (R320, R323) -/

/-- R318: on resumption an access that waited for a page is performed again: it waits no longer where the page is present
now, else it stays with its record. -/
def State.accessAgain (s : State) (a : PageAccess) : State :=
  match s.walk a.base.ctx a.base.vaddr with
  | .error e => if e.cause = 0x10 then s else (s.dropAccesses (fun b => b.num == a.num)).waitOn a none
  | .ok _ => (s.dropAccesses (fun b => b.num == a.num)).waitOn a none

/-- The accesses of a resumed team, at the core and slot it has now. -/
def State.accessesAgain (s : State) (u core slot : Nat) : State :=
  let mine (a : PageAccess) : Bool := a.key.team == u && !a.base.engine
  let move (a : PageAccess) : PageAccess := if mine a then { a with base := { a.base with core := core, tslot := slot } } else a
  let s := { s with accesses := s.accesses.map move }
  (s.accesses.filter mine).foldl State.accessAgain s

/-- A wait on a barrier register goes on at resumption: its phase has not completed, and no fault of an engine is there for the
thread (R323, R180, R186). -/
def Team.waitsStill (m : Team) (t : Thread) (p : Park) : Bool :=
  let fault (b q : Nat) : Bool := m.barFaults.any (fun f => f.bar == b && f.phase == q % 65536 && !t.seenFaults.contains f.op)
  match p with
  | .bar b q => !(m.bar b).doneAt q && !fault b q
  | .ringAcq r n => let x := m.rings.getD r Ring.unset; !(m.bar x.empty).doneAt ((n + 65536 - x.slots) % 65536)
  | .ringGet r n => let x := m.rings.getD r Ring.unset; !(m.bar x.full).doneAt n && !fault x.full n
  | _ => false

/-- A thread of a team that comes back: at its listed clause, at its word, or at the word of its wait, which it evaluates
again with the operands saved (R27, R323), and where it stays parked while its phase has not completed. One that waits for
room stays at its `spawn`, and one whose page is still absent stays parked on it (R318). -/
def State.restore (s : State) (m : Team) (t : Thread) : Thread :=
  if t.key.team != m.uid then t
  else
    match t.status with
    | .saved _ p =>
      let w := match t.clause with
        | some c => c.word
        | none => t.startAt
      let back : Thread :=
        { t.goto t.clauseHdr with pc := addr57 (t.clauseHdr + BitVec.ofNat 64 (4 * w)), startAt := w, watchdog := 0, status := .ready }
      (match p with
       | some (.spawn e r a f) => { t with status := .parked (.spawn e r a f), watchdog := 0 }
       | some (.page n) =>
         { back with status := if s.accesses.any (fun a => a.num == n) then .parked (.page n) else s.unparked t }
       | none => { back with status := s.unparked t }
       | some p => { back with held := some p, status := if m.waitsStill t p then .parked p else .ready })
    | _ => t

/-- Allots runs to the groups of a resumed team, one after another. -/
def State.allotGroups (s : State) (u : Nat) : List Group → Option State
  | [] => some s
  | g :: rest =>
    match s.team? u with
    | none => none
    | some m =>
      match s.allocRun m.core g.blocks with
      | none => none
      | some run => (s.setTeam { m with groups := m.groups ++ [{ g with run := run }] }).allotGroups u rest

/-- An urgent grid still has a team for a die (R379). -/
def State.urgentFor (s : State) (die cls : Nat) : Bool :=
  s.grids.any (fun g => g.urgent && !g.done && decide (g.next < g.teams) && g.next % 4 == die && decide (cls < g.cls))

/-- R375: a launch whose valid regions differ from those of a running grid of its context is held. -/
def State.regionsHold (s : State) (g : Grid) : Bool :=
  g.next == 0 && s.grids.any (fun x => x.id != g.id && x.ctx == g.ctx && !x.done && decide (0 < x.next) &&
    x.regions.filter Region.valid != g.regions.filter Region.valid)

/-- R377: pending, its conditions met, its context valid, and not held. -/
def State.gridReady (s : State) (g : Grid) : Bool :=
  !g.done && decide (g.next < g.teams) && g.waits.all WaitCond.met && (s.ctxOf g.ctx).isSome && !s.regionsHold g

/-- R379: a grid of another tenant of equal class is eligible and unplaced. -/
def State.rival (s : State) (tenant : Nat) (g : Grid) : Bool :=
  s.grids.any (fun x => x.queue != tenant && x.cls == g.cls && s.gridReady x && s.unplaced x)

/-- A team gave way to a tenant that still waits for its slots (R379). -/
def State.outvoted (s : State) (m : Team) : Bool :=
  s.grids.any (fun g => g.id == m.grid && g.bmark == 0 && (s.tenantOf g.queue).quantum != 0 && s.rival g.queue g)

/-- R319, R320: the team is the one the die resumes next: runnable teams in the order of their swap-out. -/
def State.nextToResume (s : State) (m : Team) : Bool :=
  s.returning m && s.allTeams.all (fun x => x.die != m.die || !s.returning x || decide (m.outOrder ≤ x.outOrder))

/-- R323: the command processor may schedule a pre-empted team again: no urgent grid of a higher class waits for its die,
and no grid of another tenant to which its tenant's quantum gave way is still unplaced (DEDUCED, log entry 33). From then on the team waits for a core ahead of every new team (R320). -/
def State.canSchedule (s : State) (m : Team) : Bool :=
  match m.res with
  | .swapped _ _ _ _ .schedule _ => !s.urgentFor m.die (s.classOf m) && !s.outvoted m
  | _ => false

/-- A team that was pre-empted is scheduled again (R323). -/
def State.schedule (s : State) (u : Nat) : State :=
  match s.team? u with
  | none => s
  | some m =>
    match m.res with
    | .swapped c k b n .schedule o => s.setTeam { m with res := .swapped c k b n .place o }
    | _ => s

/-- The operations of a resumed team, at the core it has now. -/
def State.moveOps (s : State) (u core : Nat) : State :=
  let move (o : Op) : Op := if o.key.team = u then { o with core := core, cluster := clusterOf core } else o
  { s with ops := s.ops.map move }

/-- R323 steps 1 and 2: the team takes a slot and its groups their runs. -/
def State.takePlace (s : State) (m : Team) (core slot : Nat) : Option State :=
  (s.takeSlot { m with groups := [] } core slot).bind
    (fun t => t.allotGroups m.uid m.groups)

/-- The waiters bits of a resumed team's registers: as saved, but for groups whose threads have all gone on, with those of
threads that are parked again (R152, R251, R323). -/
def State.waitersBack (s : State) (u : Nat) : State :=
  match s.team? u with
  | none => s
  | some m =>
    let ts := s.threadsOf u
    let bits (b : Nat) (x : Bar) : Bar :=
      { x with waiters := (x.waiters &&& ~~~(m.groupsOn b Thread.held ts)) ||| m.groupsOn b Thread.park? ts }
    s.setTeam { m with bars := m.bars.zipIdx.map (fun p => bits p.2 p.1) }

/-- R323 steps 4 and 5: a device-scope acquire, then the threads. -/
def State.comeBack (s : State) (m : Team) (core slot : Nat) : State :=
  let s := ((s.moveOps m.uid core).accessesAgain m.uid core slot).acquireAt core .device
  (((s.mapThreads (s.restore m)).waitersBack m.uid).wakeSpawners m.uid).spawnDeadlock m.uid

/-- Event TEAM_RESUME (R323): place, allotments, the image, a device-scope acquire, then the threads. An image that cannot be
read loses control (DESIGN CHOICE, log entry 32). -/
def execTeamResume (team : Nat) (s : State) : Out :=
  s.orStay <|
  match s.team? team with
  | none => none
  | some m =>
    match m.res with
    | .swapped core slot b n _ _ =>
      if !s.nextToResume m || s.imageUpdates.any (fun u => u.team == team) then none
      else
        (match s.resumePlace m core slot, s.reload m b n with
         | none, _ => none
         | some _, none => some (s.loseControl (2 + 256 * m.die) m.ctx)
         | some (core, slot), some s =>
           let m := (s.team? team).getD m
           match s.takePlace m core slot with
           | none => none
           | some s => some (s.comeBack m core slot))
    | _ => none

/-! ### Updates of images (R324) -/

/-- A saved thread waits for a line that is present now. -/
def State.lineNow (s : State) (u : Nat) : Bool :=
  (s.threadsOf u).any (fun t => match t.status with | .saved _ (some (.line l)) => !s.absent u l | _ => false)

/-- One update applied to a saved team: whether it ended a wait, or the detail of its fault (R179). -/
def State.applyUpdate (s : State) (m : Team) (w : ImageWrite) : Except Nat (Bool × State) :=
  match w with
  | .scratch off b => .ok (false, s.setTeam (m.scratchWrite off b))
  | .bar b n bytes =>
    match (m.bar b).update n bytes with
    | .error e => .error e
    | .ok (x, g) => .ok (g != 0, s.setTeam (m.setBar b x))

/-- R186: bytes of an operation that has ended with a fault, or that is gone, do not land. -/
def State.updateDead (s : State) (u : ImageUpd) : Bool :=
  match u.what, s.op? u.op with
  | .scratch _ _, some o => o.fault.isSome
  | .scratch _ _, none => true
  | .bar _ _ _, _ => false

/-- One update is applied to a team, and its operation goes on or takes the fault. -/
def State.imageUpdate (s : State) (u : ImageUpd) : State :=
  match s.team? u.team with
  | none => s
  | some m =>
    match s.applyUpdate m u.what, s.op? u.op with
    | .error e, some o => s.engineField o 0x02 e
    | .error _, none => s
    | .ok (woke, s), o =>
      let s := match o, u.what with
        | some o, .scratch _ b =>
          let last := (match o.kind with | .copy ps _ => ps.isEmpty | _ => false) && !s.updatesOf o.id
          s.landed o b.length last
        | _, _ => s
      if woke || s.lineNow u.team then s.setTeam ((s.team? u.team).getD m).runnable else s

/-- Event IMAGE_UPDATE (R324): the oldest update aimed at a swapped-out team is applied. -/
def execImageUpdate (idx : Nat) (s : State) : Out :=
  s.orStay <|
  match s.imageUpdates.find? (fun u => u.idx == idx) with
  | none => none
  | some u =>
    if !s.outside u.team || s.imageUpdates.any (fun v => v.team == u.team && decide (v.idx < idx)) then none
    else
      let t := { s with imageUpdates := s.imageUpdates.filter (fun v => v.idx != idx) }
      some (if s.updateDead u then t else t.onImage u.team (fun t => t.imageUpdate u))

end Sys2Proof.Machine
end

