-- ==== Sys2Proof/Machine/Launch.lean ====
section
/-! DEFINITION. Queues, launch records, waiting for conditions, the choice and handing out of teams, pre-emption requests and
the completion of grids (20_package_control R373 to R380; 02_encoding R61, R62). -/

namespace Sys2Proof.Machine

/-! ### Queues (R373) -/

def State.queue? (s : State) (n : Nat) : Option Queue := s.queues.find? (fun q => q.num == n)

def State.setQueue (s : State) (q : Queue) : State := { s with queues := s.queues.map (fun x => if x.num = q.num then q else x) }

/-- Event DOORBELL (R373): a tail that leaves the submitted records submitted is taken; any other counts as a queue
error. -/
def execDoorbell (queue : Nat) (tail : Word) (s : State) : Out :=
  s.orStay <|
  match s.queue? queue with
  | none => none
  | some q =>
    let n := 2 ^ q.lg
    let v := tail.toNat
    if v < n ∧ (q.tail + n - q.head) % n ≤ (v + n - q.head) % n then some (s.setQueue { q with tail := v })
    else some (s.queueError queue)

/-- The bytes of the record at a queue's head, and whether they arrived clean: the fetch met no poison, no link that does
not answer, and no error of the host link. -/
def State.recordAt (s : State) (q : Queue) : List Byte × Bool :=
  let a := q.base + 1024 * q.head
  if q.host then ((List.range 1024).map (fun i => Memory.read s.hostMem (a + i)), !s.fabric.hostBad)
  else (s.performBytes a 1024, !(s.poisoned a 1024 || s.linkDown a))

/-- A cword field of R374. -/
def cwordOk (c : BitVec 64) : Bool :=
  decide (c.toNat % 4 = 0) && (c.getLsbD 63 || decide (c.toNat < 2 ^ 57))

/-- The head passes a record, and the head word follows by a system-scope store (R373). -/
def State.passHead (s : State) (q : Queue) : State :=
  let h := (q.head + 1) % 2 ^ q.lg
  (s.setQueue { q with head := h, fetched := none }).putWord q.headHost q.headWord (BitVec.ofNat 32 h)

/-- Event RECORD_FETCH (R373): the next record of a queue is fetched. One that is poisoned, or whose fetch from the host
ends with an error, is counted as a queue error, gets status 2 with reason 9 where its cword arrived clean, and is
passed. The address must be well formed, and for space 0 the context that translates it clean as well (log entry 47).
Whether the cword of a fetch that ends with an error had arrived is a free choice. -/
def execRecordFetch (queue : Nat) (s : State) : Out :=
  s.orStay <|
  match s.queue? queue with
  | none => none
  | some q =>
    if q.fetched.isSome || q.head == q.tail || (q.host && s.fabric.host == .down) then none
    else
      match s.recordAt q with
      | (b, true) => some (s.setQueue { q with fetched := some b })
      | (b, false) =>
        let s := s.queueError queue
        let c := leAddr (slice b 0x48 8)
        let a := q.base + 1024 * q.head
        let (came, s) := if q.host then s.pick 2 else (0, s)
        let arrived :=
          if q.host then came == 1
          else !s.poisoned (a + 0x48) 8 && !s.linkDown a && (c.getLsbD 63 || !s.poisoned a 8)
        let clean := arrived && cwordOk c
        let s := if q.host then { s with fabric := { s.fabric with hostBad := false } } else s
        let s := if clean then s.putStatus queue (fieldAt b 2 1) c 2 9 false else s
        match s.queue? queue with
        | some q => some (s.passHead q)
        | none => some s

/-! ### The sections of a code object (R61, R62) -/

/-- Consecutive 16-byte records of a section, after its header; none where a byte cannot be read. -/
def State.section (s : State) (ctx : Nat) (va : Addr) : Option (List (List Byte)) :=
  match s.readRange ctx .read 1 va with
  | .error _ => none
  | .ok h =>
    if (slice h 4 12).any (· != 0) then none
    else
      match s.readRange ctx .read (fieldAt h 0 4) (va + 16) with
      | .error _ => none
      | .ok b => some ((List.range (fieldAt h 0 4)).map (fun i => slice b (16 * i) 16))

/-- Strictly ascending first words. -/
def ascending : List (List Byte) → Bool
  | a :: b :: t => decide (fieldAt a 0 4 < fieldAt b 0 4) && ascending (b :: t)
  | _ => true

/-- The entry records of a launch, if the section is valid (R61). One whose reserved bytes are not 0 makes it invalid
(DESIGN CHOICE, log entry 77). -/
def entriesOf (text : Addr) (l : List (List Byte)) : Option (List EntryRec) :=
  let ok (r : List Byte) : Bool :=
    decide (3 ≤ fieldAt r 4 1) && decide (fieldAt r 4 1 ≤ 8) && decide (fieldAt r 5 1 ≤ 2) && (slice r 6 10).all (· == 0)
  if l.all ok && ascending l then
    some (l.map (fun r => { addr := codeAt text (fieldAt r 0 4), lgregs := fieldAt r 4 1, role := fieldAt r 5 1 }))
  else none

/-- One live-state record (R62). -/
def liveOf (text : Addr) (r : List Byte) : LiveRec :=
  { addr := codeAt text (fieldAt r 0 4), flags := BitVec.ofNat 16 (fieldAt r 4 2), preds := BitVec.ofNat 8 (fieldAt r 6 1),
    xs := BitVec.ofNat 4 (fieldAt r 7 1 % 16),
    ranges := (List.range (fieldAt r 7 1 / 16 % 8)).map (fun j => (fieldAt r (8 + 2 * j) 1, fieldAt r (9 + 2 * j) 1)) }

/-- The live-state records of a launch, if the section is valid (R62). -/
def livesOf (text : Addr) (l : List (List Byte)) : Option (List LiveRec) :=
  let ok (r : List Byte) : Bool :=
    let n := fieldAt r 7 1 / 16 % 8
    decide (fieldAt r 4 2 < 4096) && decide (fieldAt r 6 1 < 128) && decide (fieldAt r 7 1 < 128) && decide (n ≤ 4) &&
    (List.range n).all (fun j => decide (fieldAt r (8 + 2 * j) 1 ≤ fieldAt r (9 + 2 * j) 1)) &&
    (List.range 4).all (fun j => decide (j < n) || fieldAt r (8 + 2 * j) 2 == 0)
  if l.all ok && ascending l then some (l.map (liveOf text)) else none

/-! ### The launch record (R374, R375) -/

/-- A range of bytes is zero. -/
def zeros (r : List Byte) (o n : Nat) : Bool := (slice r o n).all (· == 0)

/-- The escrow regions of a record (R226, R312), invalid descriptors among them as regions that are not valid. -/
def regionsOf (r : List Byte) : List Region :=
  (List.range 16).map (fun j =>
    let b := fieldAt r (0x100 + 16 * j) 8
    { valid := b / 2 ^ 63 % 2 == 1, base := BitVec.ofNat 64 (b % 2 ^ 57), bf16 := b / 2 ^ 62 % 2 == 1,
      length := fieldAt r (0x108 + 16 * j) 4, limit := BitVec.ofNat 32 (fieldAt r (0x10C + 16 * j) 4) })

/-- R226: what a valid descriptor must satisfy. The limit is compared as a value, so -0 passes. DEDUCED (log entry 68). -/
def Region.ok (r : Region) : Bool :=
  r.base.toNat % 256 == 0 && r.length % 256 == 0 && decide (256 ≤ r.length) &&
  decide (r.limit.toNat < 0x7F800000 ∨ r.limit.toNat = 0x80000000)

/-- R226: valid regions are sound and do not overlap. -/
def regionsOk (l : List Region) : Bool :=
  let v := (l.filter Region.valid).zipIdx
  v.all (fun p => p.1.ok) &&
  v.all (fun p => v.all (fun q => p.2 == q.2 || decide (p.1.base.toNat + p.1.length ≤ q.1.base.toNat) ||
    decide (q.1.base.toNat + q.1.length ≤ p.1.base.toNat)))

/-- A team configuration's rings (R375, R153). -/
def ringAt (t : List Byte) (j : Nat) : Ring :=
  let v := fieldAt t (0x28 + 2 * j) 2
  { slots := v % 16, full := v / 16 % 16, empty := v / 256 % 16, head := 0, tail := 0, valid := fieldAt t 6 1 / 2 ^ j % 2 == 1 }

/-- R375, R153: the team configuration is valid. -/
def tcfgOk (t : List Byte) : Bool :=
  let rings := ((List.range 8).map (ringAt t)).filter Ring.valid
  let regs := rings.flatMap (fun r => [r.full, r.empty])
  decide (fieldAt t 0 1 ≤ 128) && zeros t 1 1 && decide (64 ≤ fieldAt t 2 2) && zeros t 7 1 &&
  (List.range 16).all (fun i => (fieldAt t 4 2 / 2 ^ i % 2 == 1) == (fieldAt t (8 + 2 * i) 2 != 0)) &&
  (List.range 8).all (fun j => (ringAt t j).valid || fieldAt t (0x28 + 2 * j) 2 == 0) &&
  (List.range 8).all (fun j => decide (fieldAt t (0x28 + 2 * j) 2 < 4096)) &&
  rings.all (fun r => decide (1 ≤ r.slots) && decide (r.slots ≤ 8) && fieldAt t 4 2 / 2 ^ r.full % 2 == 1 &&
    fieldAt t 4 2 / 2 ^ r.empty % 2 == 1) &&
  decide (regs.length = regs.eraseDups.length) && zeros t 0x38 8

/-- The role fields of a record (R374). -/
def rolesOf (r : List Byte) : List LaunchRole :=
  (List.range 3).map (fun i =>
    { entry := fieldAt r (0x30 + 8 * i) 4, groups := fieldAt r (0x34 + 8 * i) 1, budget := fieldAt r (0x36 + 8 * i) 2 })

/-- R374, R129: the reason one role field is refused. -/
def roleReason (r : List Byte) (text : Addr) (es : List EntryRec) (i : Nat) : Option Nat :=
  let x := (rolesOf r).getD i ⟨0, 0, 0⟩
  let e := es.find? (fun e => e.addr == codeAt text x.entry && e.role == i)
  if x.entry % 4 ≠ 0 then some 3
  else if fieldAt r (0x35 + 8 * i) 1 ≠ 0 ∨ 32 < x.groups then some 4
  else if x.groups = 0 then none
  else
    match e with
    | none => some 8
    | some e => if x.budget < x.groups * (2 ^ e.lgregs / 8) then some 4 else none

/-- The reason the three role fields are refused (R374). -/
def rolesReason (r : List Byte) (text : Addr) (es : List EntryRec) : Option Nat :=
  match (List.range 3).findSome? (roleReason r text es) with
  | some n => some n
  | none =>
    let l := rolesOf r
    if 256 < l.foldl (fun n x => n + x.budget) 0 ∨ 32 < l.foldl (fun n x => n + x.groups) 0 then some 4 else none

/-- The fault-group count of a record; 0 is read as 32. -/
def fgroupsOf (r : List Byte) : Nat := if fieldAt r 0x0E 2 = 0 then 32 else fieldAt r 0x0E 2

/-- A wait condition of a record. -/
def waitAt (r : List Byte) (w : Nat) : WaitCond :=
  { va := leAddr (slice r (0x50 + 16 * w) 8), cmp := fieldAt r (0x5C + 16 * w) 1,
    value := BitVec.ofNat 32 (fieldAt r (0x58 + 16 * w) 4), armed := false, met := false, poll := 0 }

/-- R374: a wait condition in use. -/
def waitOk (r : List Byte) (w : Nat) : Bool :=
  let x := waitAt r w
  decide (x.va.toNat % 4 = 0) && decide (x.va.toNat < 2 ^ 57) && decide (x.cmp ≤ 5) && zeros r (0x5D + 16 * w) 3

/-- R374: the context a record of a queue may name. -/
def State.ctxAllowed (s : State) (q ctx : Nat) : Bool :=
  match s.ctxOf ctx with
  | none => false
  | some c => q == 16 || (c.tenant == q && !c.supervisor)

/-- What a record gives once it has passed every check. -/
structure Checked where
  entries : List EntryRec
  live : List LiveRec
  deriving DecidableEq, Repr

/-- Which of a list of tests fails first, as its reason. -/
def firstReason : List (Bool × Nat) → Option Nat
  | [] => none
  | (ok, n) :: t => if ok then firstReason t else some n

/-- R374: the checks of a launch record in the order of its offsets; the reason of the first that fails. -/
def State.checkLaunch (s : State) (q : Nat) (r : List Byte) : Except Nat Checked :=
  let ctx := fieldAt r 2 1
  let text := leAddr (slice r 0x10 8)
  let groups := (rolesOf r).foldl (fun n x => n + x.groups) 0
  match firstReason [
      (fieldAt r 0 1 == 1, 1), (decide (fieldAt r 1 1 < 8), 1), (s.ctxAllowed q ctx, 2), (decide (fieldAt r 3 1 ≤ 4), 7),
      (decide (1 ≤ fieldAt r 4 4) && decide (fieldAt r 4 4 ≤ 2 ^ 24), 1),
      (decide (fgroupsOf r ≤ 32) && decide (groups ≤ fgroupsOf r), 1), (decide (text.toNat % 256 = 0), 3)] with
  | some n => .error n
  | none =>
    match (s.section ctx (leAddr (slice r 0x18 8))).bind (entriesOf text),
        (s.section ctx (leAddr (slice r 0x20 8))).bind (livesOf text) with
    | some es, some ls =>
      if fieldAt r 0x28 8 % 64 ≠ 0 then .error 1
      else
        match rolesReason r text es with
        | some n => .error n
        | none =>
          match firstReason [
              (cwordOk (leAddr (slice r 0x48 8)), 1), ((List.range (fieldAt r 3 1)).all (waitOk r), 7),
              (tcfgOk (slice r 0x90 64), 5), (zeros r 0xD8 0x28, 1), (regionsOk (regionsOf r), 6), (zeros r 0x300 0x100, 1)] with
          | some n => .error n
          | none => .ok ⟨es, ls⟩
    | _, _ => .error 3

/-- The grid of an accepted record (R374). -/
def State.gridOf (s : State) (q : Nat) (r : List Byte) (k : Checked) : Grid :=
  { id := s.nextGrid, queue := q, ctx := fieldAt r 2 1, cls := fieldAt r 1 1 % 4, irq := fieldAt r 1 1 / 4 % 2 == 1,
    teams := fieldAt r 4 4, next := 0,
    deadline := if fieldAt r 8 4 = 0 then 0 else s.clocks.getD (q % 4) 0 + fieldAt r 8 4,
    deadlineHit := false, urgent := false, bmark := fieldAt r 0x0C 2, heldFor := [], fgroups := fgroupsOf r, text := leAddr (slice r 0x10 8),
    entries := k.entries, live := k.live, farea := leAddr (slice r 0x28 8), roles := rolesOf r,
    cword := leAddr (slice r 0x48 8), waits := (List.range (fieldAt r 3 1)).map (fun w => { waitAt r w with poll := s.clocks.getD (q % 4) 0 + 4096 }), tcfg := slice r 0x90 64,
    regions := regionsOf r, consts := (List.range 64).map (fun i => BitVec.ofNat 32 (fieldAt r (0x200 + 4 * i) 4)), done := false }

/-! ### Wait conditions (R377) -/

/-- Whether a wait condition holds now: its word, read at home, clean and comparing true. None where the word does not
translate. -/
def State.waitHolds (s : State) (ctx : Nat) (w : WaitCond) : Option (Nat × Bool) :=
  match s.xlate ctx w.va .read with
  | .error _ => none
  | .ok pa => some (pa, !s.poisoned pa 4 && !s.linkDown pa && cmpHolds w.cmp (s.performWord pa) w.value)

/-- R223, R377: a wait condition armed as a monitor entry, where its slice has room; else it is read again later (R225). -/
def State.armWait (s : State) (g : Grid) (i : Nat) (w : WaitCond) (pa : Nat) : State :=
  if 256 ≤ (s.monitors.filter (fun m => sliceOf m.word == sliceOf pa)).length then s
  else
    let s := s.revokeRange (lineOf pa) 256
    { s with monitors := s.monitors ++ [⟨s.nextMonitor, pa, w.cmp, w.value, g.ctx, none, 0, some (g.id, i), false, none⟩],
             nextMonitor := s.nextMonitor + 1 }

def State.setGrid (s : State) (g : Grid) : State := { s with grids := s.grids.map (fun x => if x.id = g.id then g else x) }

def Grid.setWait (g : Grid) (i : Nat) (w : WaitCond) : Grid := { g with waits := g.waits.set i w }

/-- Each condition of a new grid is evaluated, and armed where it does not hold (R377). -/
def State.armWaits (s : State) (g : Grid) : State :=
  g.waits.zipIdx.foldl (fun s p =>
    let g := (s.grids.find? (fun x => x.id == g.id)).getD g
    match s.waitHolds g.ctx p.1 with
    | none => s
    | some (_, true) => s.setGrid (g.setWait p.2 { p.1 with met := true })
    | some (pa, false) => (s.setGrid (g.setWait p.2 { p.1 with armed := true })).armWait g p.2 p.1 pa) s

/-- Event WAIT_CONDITION_MET (R377): a condition is evaluated when its monitor entry has fired, or, where it has none, when
4096 command-processor cycles have passed since its word was last read (R225). Once it has held it is not evaluated again,
else its entry stays armed. -/
def execWaitConditionMet (grid w : Nat) (s : State) : Out :=
  s.orStay <|
  match s.grids.find? (fun g => g.id == grid && !g.done) with
  | none => none
  | some g =>
    match g.waits[w]? with
    | none => none
    | some c =>
      let mine (m : Monitor) : Bool := m.grid == some (grid, w)
      if c.met then none
      else
        let watched := s.monitors.any mine
        let now := s.clocks.getD (g.queue % 4) 0
        if if watched then !s.monitors.any (fun m => mine m && m.fired) else decide (now < c.poll) then none
        else
          match s.waitHolds g.ctx c with
          | some (_, true) =>
            some (({ s with monitors := s.monitors.filter (fun m => !mine m) } : State).setGrid (g.setWait w { c with met := true }))
          | _ =>
            let s := { s with monitors := s.monitors.map (fun m => if mine m then { m with fired := false } else m) }
            some (if watched then s else s.setGrid (g.setWait w { c with poll := now + 4096 }))

/-- A fetched record of a queue that is no supervisor command (R374, R383). -/
def State.launchRecord (s : State) (queue : Nat) : Option (Queue × List Byte) :=
  match s.queue? queue with
  | none => none
  | some q =>
    match q.fetched with
    | none => none
    | some r => if queue = 16 ∧ 0x80 ≤ fieldAt r 0 1 ∧ fieldAt r 0 1 ≤ 0x82 then none else some (q, r)

/-- Event LAUNCH (R374): the fetched record is checked; it becomes a pending grid, or gets status 2 with its reason. -/
def execLaunch (queue : Nat) (s : State) : Out :=
  s.orStay <|
  match s.launchRecord queue with
  | none => none
  | some (q, r) =>
    match s.checkLaunch queue r with
    | .error n =>
      let c := leAddr (slice r 0x48 8)
      let s := s.passHead q
      some (if cwordOk c then s.putStatus queue (fieldAt r 2 1) c 2 n false else s)
    | .ok k =>
      let g := s.gridOf queue r k
      let s := { s.passHead q with grids := s.grids ++ [g], nextGrid := s.nextGrid + 1 }
      some (s.armWaits g)

/-! ### Choosing the next launch (R377 to R379) -/

/-- R379: held at the end of its wave while a grid of a higher class for which a team of it was chosen remains urgent. -/
def State.waveHold (s : State) (g : Grid) : Bool :=
  g.bmark != 0 && g.next != 0 && g.next % g.bmark == 0 &&
  s.grids.any (fun x => g.heldFor.contains x.id && x.urgent && !x.done && decide (x.next < x.teams))

/-- R378: the order of one command processor's grids: highest class, least remaining deadline with none last, earliest
accepted. -/
def Grid.before (a b : Grid) : Bool :=
  if a.cls ≠ b.cls then decide (b.cls < a.cls)
  else
    let none_ (g : Grid) : Nat := if g.deadline = 0 then 1 else 0
    if none_ a ≠ none_ b then decide (none_ a < none_ b)
    else if a.deadline ≠ b.deadline then decide (a.deadline < b.deadline)
    else decide (a.id < b.id)

/-- The best of a list of grids. -/
def bestGrid (l : List Grid) : Option Grid :=
  l.foldl (fun best g =>
    match best with
    | none => some g
    | some b => if g.before b then some g else some b) none

/-- R378: the grid whose next team a die gets: one offer from each command processor, the highest class, then
round-robin. -/
def State.chooseGrid (s : State) (die : Nat) : Option Grid :=
  let offer (i : Nat) : Option Grid :=
    bestGrid (s.grids.filter (fun g => g.queue % 4 == i && g.next % 4 == die && s.gridReady g && !s.waveHold g))
  ((List.range 4).map (fun j => (s.cpRobin + 1 + j) % 4)).foldl (fun best i =>
    match best, offer i with
    | none, o => o
    | some b, none => some b
    | some b, some g => if b.cls < g.cls then some g else some b) none

/-- A team of a grid as it is handed to its die (R319, R374, R375). -/
def State.newTeam (s : State) (g : Grid) : Team :=
  let die := g.next % 4
  let used (i : Nat) : Bool := s.allTeams.any (fun m => m.uid == 65536 * die + i)
  let ident := (((List.range 65536).map (fun i => (s.nextTeam + i) % 65536)).find? (fun i => !used i)).getD 0
  let bar (i : Nat) : Bar :=
    { Bar.unset with expected := fieldAt g.tcfg (8 + 2 * i) 2, valid := fieldAt g.tcfg 4 2 / 2 ^ i % 2 == 1 }
  let ring (j : Nat) : Ring := if (ringAt g.tcfg j).valid then ringAt g.tcfg j else Ring.unset
  { Team.inert with
    uid := 65536 * die + ident, index := g.next, grid := g.id, die := die, ctx := g.ctx,
    farea := g.farea + BitVec.ofNat 64 (2048 * g.fgroups * g.next), fgroups := g.fgroups, sgran := fieldAt g.tcfg 0 1,
    budgets := g.roles.map LaunchRole.budget, tillp := fieldAt g.tcfg 2 2, consts := g.consts, text := g.text,
    entries := g.entries, live := g.live, bars := (List.range 16).map bar, rings := (List.range 8).map ring, res := .waiting }

/-- R378: a die can take a team: none waits there, and a core is eligible or a parked team of no higher class could make
room (R321). -/
def State.canTake (s : State) (die : Nat) (g : Grid) : Bool :=
  let m := s.newTeam g
  let need : Need := { windows := (m.launchGroups g).map (fun x => x.2.2), sgran := m.sgran }
  s.allTeams.all (fun x => x.die != die || (!x.waiting && !s.returning x)) &&
  ((s.chooseCore m need).isSome ||
    s.allTeams.any (fun x => x.resident && x.die == die && s.allParked x && decide (s.classOf x ≤ g.cls)))

/-- Event TEAM_HANDOUT (R378). -/
def execTeamHandout (die : Nat) (s : State) : Out :=
  s.orStay <|
  if 4 ≤ die then none
  else
    match s.chooseGrid die with
    | none => none
    | some g =>
      if !s.canTake die g then none
      else
        let m := s.newTeam g
        some { s.setGrid { g with next := g.next + 1 } with
          teams := s.teams ++ [m], nextTeam := (m.uid + 1) % 65536, cpRobin := g.queue % 4 }

/-! ### Deadlines, quanta and pre-emption (R379) -/

/-- R379: a grid whose deadline has run out waits for a die that cannot take its next team. -/
def State.urgentNow (s : State) (g : Grid) : Bool :=
  !g.done && decide (g.next < g.teams) && !s.canTake (g.next % 4) g

/-- Event DEADLINE_EXPIRY (R379): a grid's remaining deadline is 0; it is urgent while its die cannot take its team. -/
def execDeadlineExpiry (grid : Nat) (s : State) : Out :=
  s.orStay <|
  match s.grids.find? (fun g => g.id == grid && !g.done) with
  | none => none
  | some g =>
    if g.deadline = 0 ∨ s.clocks.getD (g.queue % 4) 0 < g.deadline then none
    else if g.deadlineHit && (g.urgent || !s.urgentNow g) then none
    else some (s.setGrid { g with deadlineHit := true, urgent := g.urgent || s.urgentNow g })

/-- Teams of a grid still to be handed out to a die. -/
def Grid.left (g : Grid) (die : Nat) : Nat :=
  let upTo (n : Nat) : Nat := (n + 3 - die) / 4
  upTo g.teams - upTo g.next

/-- R379: grids whose next team goes to a die that cannot take it. -/
def State.stuck (s : State) (die : Nat) (p : Grid → Bool) : List Grid :=
  s.grids.filter (fun g => p g && !g.done && decide (g.next < g.teams) && g.next % 4 == die && !s.canTake die g)

/-- The grid of a team. -/
def State.gridOfTeam (s : State) (m : Team) : Option Grid := s.grids.find? (fun g => g.id == m.grid)

/-- The remaining deadline of a grid on its own command processor's clock (R5, R379); none is later than any. -/
def State.remaining (s : State) (g : Grid) : Option Nat :=
  if g.deadline = 0 then none else some (g.deadline - s.clocks.getD (g.queue % 4) 0)

/-- One remaining deadline is later than another. -/
def laterDeadline (a b : Option Nat) : Bool :=
  match a, b with
  | _, none => false
  | none, some _ => true
  | some x, some y => decide (y < x)

/-- R379: which of two teams gives up its slot first: lowest class, latest remaining deadline, most recently placed. -/
def State.victimBefore (s : State) (a b : Team) : Bool :=
  match s.gridOfTeam a, s.gridOfTeam b with
  | some x, some y =>
    if x.cls ≠ y.cls then decide (x.cls < y.cls)
    else if s.remaining x ≠ s.remaining y then laterDeadline (s.remaining x) (s.remaining y)
    else decide (b.placed < a.placed)
  | _, _ => false

/-- The first of a list of teams to give up its slot. -/
def State.firstVictim (s : State) (l : List Team) : Option Team :=
  l.foldl (fun best m =>
    match best with
    | none => some m
    | some b => if s.victimBefore m b then some m else some b) none

/-- A team that is giving up its slot for one of some grids: stopped for its pre-emption, or running to exit (R379). -/
def State.leaving (s : State) (m : Team) (l : List Grid) : Bool :=
  m.preempt.isSome ||
  (m.toExit && (match s.gridOfTeam m with | some g => l.any (fun x => g.heldFor.contains x.id) | none => false))

/-- A team in a slot, of a grid to choose from, that is not giving it up yet (R379). -/
def State.choosable (s : State) (m : Team) (l : List Grid) (p : Grid → Bool) : Bool :=
  m.resident && !s.leaving m l && (match s.gridOfTeam m with | some g => p g | none => false)

/-- R379: one team is taken for each team that waits: fewer are on their way out of a die than grids wait to place there. -/
def State.moreToTake (s : State) (die : Nat) (l : List Grid) : Bool :=
  decide ((s.allTeams.filter (fun x => x.resident && x.die == die && s.leaving x l)).length < l.foldl (fun n g => n + g.left die) 0)

/-- The urgent grids that wait for a die (R379). -/
def State.urgentOn (s : State) (die : Nat) : List Grid := s.stuck die Grid.urgent

/-- R379: the team of a die that is chosen next to give up its slot to an urgent grid, which is of a higher class. -/
def State.victim (s : State) (die : Nat) : Option Team :=
  if !s.moreToTake die (s.urgentOn die) then none
  else
    s.firstVictim (s.allTeams.filter (fun m =>
      m.die == die && s.choosable m (s.urgentOn die) (fun g => (s.urgentOn die).any (fun x => decide (g.cls < x.cls)))))

/-- R25: a team is asked to stop its threads at save points under the grace budget. -/
def State.preemptTeam (s : State) (m : Team) : State :=
  let grace := ((s.ctxOf m.ctx).map Ctx.grace).getD 8192
  (s.setTeam { m with preempt := some ⟨grace⟩ }).mapThreads m.stopNow

/-- R379: a chosen team gives up its slot: by pre-emption, or by running to exit while its grid is held at the end of its wave
for the urgent grids of a higher class. -/
def State.giveUp (s : State) (m : Team) : State :=
  match s.gridOfTeam m with
  | none => s
  | some g =>
    if g.bmark = 0 then s.preemptTeam m
    else
      let l := (s.urgentOn m.die).filter (fun x => decide (g.cls < x.cls))
      (s.setTeam { m with toExit := true }).setGrid { g with heldFor := g.heldFor ++ l.map Grid.id }

/-- Event PREEMPTION_REQUEST (R25, R379): the next team that an urgent grid takes on its die. -/
def execPreemptionRequest (team : Nat) (s : State) : Out :=
  s.orStay <|
  match s.team? team with
  | none => none
  | some m =>
    match s.victim m.die with
    | some v => if v.uid = team then some (s.giveUp v) else none
    | none => none

/-- The eligible, unplaced grids of other tenants and of a class that wait for a die (R379). -/
def State.rivalsOn (s : State) (tenant cls die : Nat) : List Grid :=
  s.stuck die (fun x => x.queue != tenant && x.cls == cls && s.gridReady x && s.unplaced x)

/-- R379: the team that a tenant whose quantum has run out gives up next, along the path of the urgent grids (DEDUCED, log
entry 45). -/
def State.quantumVictim (s : State) (tenant : Nat) : Option Team :=
  s.firstVictim (s.allTeams.filter (fun m =>
    s.choosable m [] (fun g => g.bmark == 0 && g.queue == tenant && s.moreToTake m.die (s.rivalsOn tenant g.cls m.die))))

/-- Event QUANTUM_EXPIRY (R379): a tenant has held slots longer than its quantum while an equal grid of another tenant
waits: its next bmark-0 team is pre-empted. -/
def execQuantumExpiry (tenant : Nat) (s : State) : Out :=
  s.orStay <|
  let t := s.tenantOf tenant
  if 16 ≤ tenant ∨ t.quantum = 0 ∨ t.slotTime ≤ t.quantum then none
  else
    match s.quantumVictim tenant with
    | some m => some (s.preemptTeam m)
    | none => none

/-! ### Completion (R380) -/

/-- Event GRID_COMPLETE (R380): stash write-backs, a release of every access of the grid, then status 1 and the tenant's
completion vector. -/
def execGridComplete (grid : Nat) (s : State) : Out :=
  s.orStay <|
  match s.grids.find? (fun g => g.id == grid && !g.done) with
  | none => none
  | some g =>
    let ts := s.allTeams.filter (fun m => m.grid == grid)
    if g.next ≠ g.teams ∨ !ts.all (fun m => match m.res with | .freed _ => true | _ => false) then none
    else
      let s := ts.foldl (fun s m => s.releaseAt m.core m.uid .system) s
      let s := { s with teams := s.teams.filter (fun m => m.grid != grid), grids := s.grids.filter (fun x => x.id != grid) }
      let late := g.deadline != 0 && decide (g.deadline < s.clocks.getD (g.queue % 4) 0)
      let s := s.putStatus g.queue g.ctx g.cword 1 0 late
      some (if !g.irq then s
        else if g.queue < 16 then s.raise g.queue 0
        else { s with sup := { s.sup with irqs := s.sup.irqs ++ [0] } })

end Sys2Proof.Machine
end

