-- ==== Sys2Proof/Machine/Supervise.lean ====
section
/-! DEFINITION. Supervisor commands, the resolution of fault records, supervisor registers, snapshots, management,
firmware, attestation and power (20_package_control R381 to R383, R387 to R391; 16_die_control R312, R318). -/

namespace Sys2Proof.Machine

/-! ### Supervisor commands (R383) -/

/-- The fetched record of the supervisor's queue, if it is a command of a version. -/
def State.command (s : State) (ver : Nat) : Option (Queue × List Byte) :=
  match s.queue? 16 with
  | none => none
  | some q =>
    match q.fetched with
    | none => none
    | some r => if fieldAt r 0 1 = ver then some (q, r) else none

/-- A command ends: status 1, or status 2 with a reason; the head passes it. -/
def State.commandDone (s : State) (q : Queue) (r : List Byte) (reason : Nat) : State :=
  let c := leAddr (slice r 0x48 8)
  let s := if cwordOk c then s.putStatus 16 (fieldAt r 2 1) c (if reason = 0 then 1 else 2) reason false else s
  s.passHead q

/-- The context record in 512 bytes (R312). -/
def ctxRecord (num : Nat) (b : List Byte) : Ctx :=
  { num := num, root := fieldAt b 0 8, dtab := leAddr (slice b 8 8), tvec := leAddr (slice b 0x10 8), save := fieldAt b 0x18 8,
    savelen := fieldAt b 0x20 8, wdog := fieldAt b 0x28 4, grace := fieldAt b 0x2C 4, tenant := fieldAt b 0x30 1,
    supervisor := fieldAt b 0x31 1 / 2 % 2 == 1, regions := regionsOf b }

/-- R312: the record is valid; the save area of a tenant context lies in the tenant's windows. -/
def State.ctxRecordOk (s : State) (c : Ctx) (b : List Byte) : Bool :=
  decide (c.root % 32 = 0) && decide (c.root < 2 ^ 52) && decide (c.dtab.toNat % 64 = 0) && decide (c.dtab.toNat < 2 ^ 57) &&
  decide (c.tvec.toNat % 4 = 0) && decide (c.tvec.toNat < 2 ^ 57) && decide (c.save % 256 = 0) &&
  decide (2 ^ 12 ≤ c.wdog) && decide (c.wdog < 2 ^ 25) && decide (256 ≤ c.grace) && decide (c.grace ≤ 2 ^ 20) &&
  decide (c.tenant ≤ 15) && decide (fieldAt b 0x31 1 < 4) && fieldAt b 0x31 1 % 2 == 1 && zeros b 0x32 206 &&
  (c.supervisor || (s.tenantOf c.tenant).covers c.save c.savelen)

/-- Event CREATE_CONTEXT (R383). -/
def execCreateContext (s : State) : Out :=
  s.orStay <|
  match s.command 0x80 with
  | none => none
  | some (q, r) =>
    let num := fieldAt r 2 1
    let at_ := fieldAt r 0x10 8
    let b := s.performBytes at_ 512
    let c := ctxRecord num b
    let readable := inMap at_ && inMap (at_ + 511) && !s.poisoned at_ 512 && !s.linkDown at_
    if 64 ≤ num ∨ (s.ctxOf num).isSome ∨ !readable ∨ !s.ctxRecordOk c b then some (s.commandDone q r 2)
    else
      let s : State := { s with ctxs := s.ctxs ++ [c], fabric := { s.fabric with lost := s.fabric.lost.filter (fun x => x != num) } }
      some (s.commandDone q r 0)

/-- The threads and teams of a context are gone, with their slots (R383, R325). -/
def State.removeCtx (s : State) (c : Nat) : State :=
  let gone (u : Nat) : Bool := s.ofCtx c u
  let empty (t : Tenant) : Tenant :=
    { t with fq := t.fq.filter (fun e => e.record.ctx != c), held := t.held.filter (fun e => e.record.ctx != c) }
  let out : State :=
    { s with threads := s.threads.filter (fun t => !gone t.key.team),
             teams := s.teams.filter (fun m => m.ctx != c),
             accesses := s.accesses.filter (fun a => a.base.ctx != c),
             monitors := s.monitors.filter (fun m => m.ctx != c),
             tenants := s.tenants.map empty,
             ctxs := s.ctxs.filter (fun x => x.num != c) }
  if s.tm.ctx = c ∧ s.tm.uid ≠ noTeam then { out with th := Thread.inert, tm := Team.inert } else out

/-- Event END_CONTEXT (R383): its threads stop, its grids get status 4, its monitors and fault records are dropped. A
record whose context is not valid is refused with reason 2, R374's answer for that field. DEDUCED (log entry 37). -/
def execEndContext (s : State) : Out :=
  s.orStay <|
  match s.command 0x81 with
  | none => none
  | some (q, r) =>
    let c := fieldAt r 2 1
    if (s.ctxOf c).isNone then some (s.commandDone q r 2)
    else
      let s := (s.haltCtx c).endGrids c 4
      some ((s.commandDone q r 0).removeCtx c)

/-! ### Resolving fault records (R318, R383) -/

/-- A resolve command: its queue, record, tenant and action. -/
def State.resolving (s : State) (action : Nat → Bool) : Option (Queue × List Byte × Nat) :=
  match s.command 0x82 with
  | some (q, r) => if action (fieldAt r 0x0C 4) then some (q, r, fieldAt r 4 4) else none
  | none => none

/-- The entry of a tenant's fault queue with an index, if it is unresolved. -/
def State.fqEntry (s : State) (tenant index : Nat) : Option FqEntry :=
  if 16 ≤ tenant then none else (s.tenantOf tenant).fq.find? (fun e => e.index == index && e.wait != .none)

/-- The entry waits for nothing any longer; if it was consumed already, it is gone. -/
def State.settleEntry (s : State) (tenant index : Nat) : State :=
  let t := s.tenantOf tenant
  let clear (e : FqEntry) : FqEntry := if e.index = index ∧ e.wait ≠ .none then { e with wait := .none } else e
  s.setTenant { t with fq := (t.fq.map clear).filter (fun e => e.wait != .none || t.inRing e.index) }

/-- The accesses an entry holds, in attach order. -/
def State.waitersOf (s : State) (e : FqEntry) : List PageAccess :=
  match e.wait with
  | .page _ _ l => l.filterMap (fun n => s.accesses.find? (fun a => a.num == n))
  | _ => []

/-- A thread that was parked for an access goes on (R318). -/
def State.unpark (s : State) (a : PageAccess) : State :=
  match s.thread? a.key with
  | none => s
  | some t =>
    match t.status with
    | .parked (.page n) => if n = a.num then s.setThread { t with status := s.unparked t } else s
    | .saved w (some (.page n)) => if n = a.num then s.setThread { t with status := .saved w none } else s
    | _ => s

/-- The park of a thread moved to the new number of its access. -/
def State.repark (s : State) (a : PageAccess) (n : Nat) : State :=
  match s.thread? a.key with
  | none => s
  | some t =>
    match t.status with
    | .parked (.page k) => if k = a.num then s.setThread { t with status := .parked (.page n) } else s
    | .saved w (some (.page k)) => if k = a.num then s.setThread { t with status := .saved w (some (.page n)) } else s
    | _ => s

/-- The operation of an access is a teller's, which has a TLB of its own (R359). -/
def State.byTeller (s : State) (a : PageAccess) : Bool :=
  match a.op.bind s.op? with
  | some o => (match o.kind with | .gq _ | .att _ => true | _ => false)
  | none => false

/-- R318: one access tries its translation again. Where the page is still not present it makes, or joins, a new record;
else its TLBs hold the leaf and what waited goes on. -/
def State.retry (s : State) (a : PageAccess) : State :=
  let s := { s with accesses := s.accesses.filter (fun b => b.num != a.num) }
  let go (s : State) : State := (s.waitOn a none).unpark a
  match s.coreWalk a.base.core a.base.ctx a.base.vaddr with
  | (.error e, s) =>
    if e.cause = 0x10 then
      let (n, s) := s.addAccess a.key a.op a.push a.base a.fpc a.base.vaddr (a.issue.map (fun n => (n, a.key)))
      (s.waitOn a (some n)).repark a n
    else go s
  | (.ok l, s) => go (if s.byTeller a then s else s.tlbFill a.base.core a.base.ctx a.base.vaddr l)

/-- R32: the fault of an operation of a thread that is parked on it, given to the thread's handler: that of a load whose thread
had moved on, or which `tret` was performing again, as a deferred one (R30, R177), any other as a precise one at its word
(DEDUCED, log entry 103). -/
def State.deliverParked (s : State) (a : PageAccess) (t : Thread) (m : Team) (o : Op) : State :=
  if o.kind.replays && (o.flag.isSome || t.replay == some o.id) then
    let hdr := if t.replay = some o.id then t.resume.hdr else t.clauseHdr
    let r := { a.base with deferred := true, detail := hdr }
    (s.setOp { o with flag := none, fault := some r }).trapThread t m r a.fpc (hdr, 0) o.count (some o.id)
  else (s.dropOp o.id).trapThread (t.clearPendings o.regs) m a.base a.fpc (a.base.clause, a.base.word) o.count none

/-- The thread of an access is parked on it, or saved so. -/
def Status.onPage (n : Nat) : Status → Bool
  | .parked (.page k) => k == n
  | .saved _ (some (.page k)) => k == n
  | _ => false

/-- A thread that was saved stays saved, whole, where it now stands (R318). -/
def State.stillSaved (s : State) (was : Thread) : State :=
  match was.status, s.thread? was.key with
  | .saved _ _, some t => if t.status = .ready then s.setThread { t with status := .saved true none } else s
  | _, _ => s

/-- R32: the fault of an access is given to its thread: in its handler where it is parked on the access, which a thread that
is saved enters when it goes on; else as the fault of the operation (R33). -/
def State.deliverThread (s : State) (a : PageAccess) (t : Thread) (m : Team) : State :=
  match a.op.bind s.op? with
  | some o =>
    let o := { o with waitPage := none }
    if t.status.onPage a.num then (s.deliverParked a t m o).stillSaved t else (s.setOp o).failOp o a.base
  | none =>
    if t.status.onPage a.num then
      (s.trapThread t m a.base a.fpc (a.base.clause, a.base.word) ((t.clause.map ClauseCtx.count).getD 0) none).stillSaved t
    else s

/-- R32, R186: the fault is delivered: to the handler of the thread that is parked on it, also in the image of a team that is
swapped out (R318), or as the end of an engine operation; a slot's push fails. -/
def State.deliverPage (s : State) (a : PageAccess) : State :=
  let s := { s with accesses := s.accesses.filter (fun b => b.num != a.num),
                    pushes := s.pushes.filter (fun p => some p.idx != a.push) }
  if a.base.engine then
    match a.op.bind s.op? with
    | some o => (s.setOp { o with waitPage := none }).engineFail { o with waitPage := none } a.base
    | none => s
  else
    s.onImage a.key.team (fun s =>
      match s.thread? a.key, s.team? a.key.team with
      | some t, some m => s.deliverThread a t m
      | _, _ => s)

/-- R325: a team that is swapped out and has no thread left needs no slot again, unless its tills hold threads: it is
runnable then, as its tills' timers have to go on (DESIGN CHOICE, log entry 32). -/
def State.endSaved (s : State) (u : Nat) : State :=
  match s.team? u with
  | none => s
  | some m =>
    match m.res with
    | .swapped c k b n w o =>
      if !(s.threadsOf u).isEmpty then s
      else if (List.range 8).any (fun i => (m.till i).isSome) then
        s.setTeam { m with res := .swapped c k b n (if w = .wake then .place else w) o }
      else
        { s.setTeam { m with res := .freed c, groups := [] } with monitors := s.monitors.filter (fun x => x.team != some u) }
    | _ => s

/-- R34, R383: a thread is stopped and removed, from the image of a team that is swapped out too. -/
def State.removeThread (s : State) (k : ThreadKey) : State :=
  s.onImage k.team (fun s =>
    match s.focus k with
    | none => s
    | some s =>
      ({ s with ops := s.ops.filter (fun o => o.key != k) } : State).dropAccesses (fun a => a.key == k)
        |>.leave.unfocus.endSaved k.team)

/-- Event RESOLVE_REPLAY (R383): every attached access tries again, in attach order (R318). An action above 2, an index
that names nothing unresolved, or a record that waits for no page gives reason 1. -/
def execResolveReplay (s : State) : Out :=
  s.orStay <|
  match s.resolving (fun a => a == 0 || decide (2 < a)) with
  | none => none
  | some (q, r, tenant) =>
    match s.fqEntry tenant (fieldAt r 8 4) with
    | some e =>
      (match e.wait with
       | .page _ _ _ =>
         if fieldAt r 0x0C 4 ≠ 0 then some (s.commandDone q r 1)
         else if (s.waitersOf e).isEmpty then some (s.commandDone q r 1)
         else
           let l := s.waitersOf e
           let s := s.settleEntry tenant e.index
           some ((l.foldl State.retry s).commandDone q r 0)
       | _ => some (s.commandDone q r 1))
    | none => some (s.commandDone q r 1)

/-- Event RESOLVE_DELIVER (R383). -/
def execResolveDeliver (s : State) : Out :=
  s.orStay <|
  match s.resolving (fun a => a == 1) with
  | none => none
  | some (q, r, tenant) =>
    match s.fqEntry tenant (fieldAt r 8 4) with
    | none => some (s.commandDone q r 1)
    | some e =>
      let l := s.waitersOf e
      if l.isEmpty then some (s.commandDone q r 1)
      else
        let s := s.settleEntry tenant e.index
        some ((l.foldl State.deliverPage s).commandDone q r 0)

/-- Event RESOLVE_END_THREAD (R383): the thread that is parked on the record, or that R31 stopped, is removed; other
accesses that had joined the record try again. -/
def execResolveEndThread (s : State) : Out :=
  s.orStay <|
  match s.resolving (fun a => a == 2) with
  | none => none
  | some (q, r, tenant) =>
    match s.fqEntry tenant (fieldAt r 8 4) with
    | none => some (s.commandDone q r 1)
    | some e =>
      match e.wait with
      | .stopped k =>
        some (((s.settleEntry tenant e.index).removeThread k).commandDone q r 0)
      | .page _ _ _ =>
        (match s.waitersOf e with
         | [] => some (s.commandDone q r 1)
         | a :: rest =>
           let parked := ((s.thread? a.key).map (fun t => t.status.onPage a.num)).getD false
           if !parked then some (s.commandDone q r 1)
           else
             let s := (s.settleEntry tenant e.index).removeThread a.key
             let others := rest.filter (fun b => b.key != a.key)
             some ((others.foldl State.retry s).commandDone q r 0))
      | .none => some (s.commandDone q r 1)

/-! ### Supervisor registers (R381, R382) -/

/-- Event FQHEAD_WRITE (R382): a host write of the management window consumes records, and held ones come in (R387). -/
def execFqheadWrite (tenant : Nat) (v : Word) (s : State) : Out :=
  s.orStay <|
  if 16 ≤ tenant then none else some ((s.snapshot 0).writeFqhead tenant v.toNat)

/-- Registers of the management window to which the spec gives no number: the set-up of queues, fault queues and queue
pairs (R373, R381, R420; log entry 3). A queue pair uses the Ethernet port of its number modulo 6 until register 6 names
another, modulo 6 (DESIGN CHOICE, log entry 89: the spec binds no queue pair to a port). -/
def State.setUp (s : State) (n : Nat) (v : BitVec 64) : State :=
  let a := v.toNat % 2 ^ 63
  let host := v.getLsbD 63
  if 0x100 ≤ n ∧ n < 0x100 + 3 * 17 then
    match s.queue? ((n - 0x100) / 3) with
    | none => s
    | some q =>
      match (n - 0x100) % 3 with
      | 0 => if a % 1024 = 0 then s.setQueue { q with base := a, host := host, head := 0, tail := 0, fetched := none } else s
      | 1 => if 4 ≤ a ∧ a ≤ 12 then s.setQueue { q with lg := a, head := 0, tail := 0, fetched := none } else s
      | _ => s.setQueue { q with headWord := a, headHost := host }
  else if 0x200 ≤ n ∧ n < 0x210 then
    if 6 ≤ a ∧ a ≤ 12 then s.setTenant { s.tenantOf (n - 0x200) with lgfq := a } else s
  else if 0x1000 ≤ n ∧ n < 0x1000 + 8 * 4096 then
    let k := (n - 0x1000) / 8
    let q := (s.roce.find? (fun x => x.num == k)).getD
      { num := k, ctx := 0, workBase := 0, slots := 1, producer := 0, fetched := 0, cqBase := 0, countWord := 0, entries := [],
        rate := 0, port := k % 6, answers := [] }
    let q : RoceQp :=
      match (n - 0x1000) % 8 with
      | 0 => { q with ctx := a % 64 }
      | 1 => { q with workBase := v }
      | 2 => { q with slots := max 1 a }
      | 3 => { q with producer := v }
      | 4 => { q with cqBase := v }
      | 5 => { q with countWord := v }
      | 6 => { q with port := a % 6 }
      | _ => q
    { s with roce := upsert (fun x => x.num == k) q s.roce }
  else s

/-- Event SUPERVISOR_REGISTER_WRITE (R382): through the management window; a value the register refuses is ignored. -/
def execSupervisorRegisterWrite (num : Nat) (v : BitVec 64) (s : State) : Out :=
  let s := s.snapshot 0
  if num < 0x100 then .next ((s.supWrite num v).getD s) else .next (s.setUp num v)

/-! ### Snapshots (R387) -/

/-- Event SNAPSHOT_TRIGGER (R387). -/
def execSnapshotTrigger (src : SnapSource) (s : State) : Out :=
  match src with
  | .hostWrite => .next (s.snapshot 0)
  | .mctp => .next (s.snapshot 1)
  | .brk => .next (s.snapshot 2)
  | .fault => .next (s.snapshot 3)

/-- Event SNAPSHOT_REARM (R387). -/
def execSnapshotRearm (s : State) : Out := .next { s with sup := { s.sup with latched := false, snapDue := [] } }

/-! ### Attestation (R388; log entry 40 for the form of the messages) -/

/-- A response: version, code, two parameters, body. -/
def spdmMessage (ver code p1 p2 : Nat) (body : List Byte) : List Byte :=
  leBytes 1 ver ++ leBytes 1 code ++ leBytes 1 p1 ++ leBytes 1 p2 ++ body

/-- A response is sent and joins the transcript. The request was an MCTP management command, which may latch a snapshot
(R387). -/
def State.respond (s : State) (b : List Byte) (f : Mgmt → Mgmt) : State :=
  let m := f s.mgmt
  { s.snapshot 1 with mgmt := { m with responses := m.responses ++ [b], transcript := m.transcript ++ b } }

/-- ERROR with its code. -/
def State.spdmError (s : State) (code : Nat) : State := s.respond (spdmMessage 0x13 0x7F code 0 []) id

/-- A request that needs the negotiation to have reached a point. -/
def State.afterNegotiation (s : State) (ok : Bool) (b : List Byte) (f : Mgmt → Mgmt) : Out :=
  .next (if ok then s.respond b f else s.spdmError 4)

/-- Event GET_VERSION (R388): version 1.3; the negotiation starts again. -/
def execGetVersion (s : State) : Out :=
  let fresh (m : Mgmt) : Mgmt := { m with spdmVersion := true, spdmCaps := false, spdmAlg := false, transcript := [] }
  .next (s.respond (spdmMessage 0x10 0x04 0 0 (leBytes 1 0 ++ leBytes 1 1 ++ leBytes 2 0x1300)) fresh)

/-- Event GET_CAPABILITIES (R388): certificates, challenge and signed measurements; no session, no key exchange. -/
def execGetCapabilities (s : State) : Out :=
  s.afterNegotiation s.mgmt.spdmVersion (spdmMessage 0x13 0x61 0 0 (leBytes 4 0 ++ leBytes 4 0x16))
    (fun m => { m with spdmCaps := true })

/-- Event NEGOTIATE_ALGORITHMS (R388): EdDSA Ed25519 and SHA-384, where the requester offers them. -/
def execNegotiateAlgorithms (offer : SpdmOffer) (s : State) : Out :=
  let sel (b : Bool) (n : Nat) : List Byte := leBytes 4 (if b then n else 0)
  s.afterNegotiation s.mgmt.spdmCaps (spdmMessage 0x13 0x63 0 0 (sel offer.ed25519 0x200 ++ sel offer.sha384 0x2))
    (fun m => { m with spdmAlg := offer.ed25519 && offer.sha384 })

/-- Event GET_DIGESTS (R388). -/
def execGetDigests (s : State) : Out :=
  s.afterNegotiation s.mgmt.spdmAlg (spdmMessage 0x13 0x01 0 1 (leBytes 48 (Config.sha384 (Config.certificate 0)).toNat)) id

/-- Event GET_CERTIFICATE (R388): a part of a slot's chain. -/
def execGetCertificate (slot offset length : Nat) (s : State) : Out :=
  let c := Config.certificate slot
  let part := (c.drop offset).take length
  s.afterNegotiation s.mgmt.spdmAlg
    (spdmMessage 0x13 0x02 slot 0 (leBytes 2 part.length ++ leBytes 2 (c.length - offset - part.length) ++ part)) id

/-- Event CHALLENGE (R388): signed with Ed25519 over the transcript. -/
def execChallenge (slot : Nat) (nonce : BitVec 256) (s : State) : Out :=
  let body := spdmMessage 0x13 0x03 slot 1 (leBytes 48 (Config.sha384 (Config.certificate slot)).toNat ++ leBytes 32 nonce.toNat)
  let sig := leBytes 64 (Config.spdmSign (s.mgmt.transcript ++ body)).toNat
  s.afterNegotiation s.mgmt.spdmAlg (body ++ sig) id

/-- The contents of a measurement block (R388). -/
def Mgmt.block (m : Mgmt) (i : Nat) : List Byte :=
  match i with
  | 1 => leBytes 8 (((m.versions.find? (fun v => v.1 == 1)).map Prod.snd).getD 0)
  | 6 => m.fuse.flatMap (fun f => leBytes 4 f.2)
  | i => leBytes 48 (((m.measurements.find? (fun v => v.1 == i)).map Prod.snd).getD 0).toNat

/-- Event GET_MEASUREMENTS (R388): the number of blocks, one of them, or all six; signed. -/
def execGetMeasurements (index : Nat) (s : State) : Out :=
  let m := s.mgmt
  let one (i : Nat) : List Byte := leBytes 1 i ++ leBytes 2 (m.block i).length ++ m.block i
  let known := index == 0 || decide (index ≤ 6) || index == 0xFF
  let body :=
    if index = 0 then spdmMessage 0x13 0x60 6 0 []
    else if index = 0xFF then spdmMessage 0x13 0x60 0 6 ([1, 2, 3, 4, 5, 6].flatMap one)
    else spdmMessage 0x13 0x60 0 1 (one index)
  if !known then .next (s.spdmError 1)
  else s.afterNegotiation m.spdmAlg (body ++ leBytes 64 (Config.spdmSign (m.transcript ++ body)).toNat) id

/-! ### Firmware (R389) -/

/-- R389: the SHA-384 digest of an image with its header and security version, in that order of bytes (PRESUMED, log entry
101: the layout is not in the spec). -/
def firmwareDigest (i : FirmwareImage) : BitVec 384 := Config.sha384 (i.header ++ leBytes 8 i.version ++ i.image)

/-- R389: both signatures verify and the security version is at least the fused value. -/
def Mgmt.accepts (m : Mgmt) (unit : Nat) (i : FirmwareImage) : Bool :=
  Config.ed25519Verify (firmwareDigest i) i.edSig i.version && Config.mldsaVerify (firmwareDigest i) i.mlSig i.version &&
  decide (((m.fuse.find? (fun f => f.1 == unit)).map Prod.snd).getD 0 ≤ i.version)

/-- An accepted image's digest is its unit's measurement before it runs. -/
def Mgmt.run (m : Mgmt) (unit : Nat) (i : FirmwareImage) : Mgmt :=
  { m with measurements := upsert (fun v => v.1 == unit) (unit, firmwareDigest i) m.measurements,
           versions := upsert (fun v => v.1 == unit) (unit, i.version) m.versions }

/-- A failed image is reported to management. -/
def Mgmt.failed (m : Mgmt) (unit : Nat) : Mgmt := { m with failures := m.failures ++ [unit], events := m.events + 1 }

/-- Event FIRMWARE_LOAD (R389): the first slot, else the other; a failed image is not run. -/
def execFirmwareLoad (unit : Nat) (images : FirmwareSlots) (s : State) : Out :=
  s.orStay <|
  if unit < 2 ∨ 5 < unit then none
  else
    let m := s.mgmt
    let m :=
      if m.accepts unit images.first then m.run unit images.first
      else
        let m := m.failed unit
        if m.accepts unit images.second then m.run unit images.second else m.failed unit
    some { s with mgmt := m }

/-! ### Power and errors (R390, R391) -/

/-- Event POWER_LIMIT_SET (R390): a limit from 1.5 to 3.4 kW; any other is not taken. It is an MCTP management command
(R387; DEDUCED, log entry 53). -/
def execPowerLimitSet (watts : Nat) (s : State) : Out :=
  let s := s.snapshot 1
  if 1500 ≤ watts ∧ watts ≤ 3400 then .next { s with mgmt := { s.mgmt with powerLimit := watts } } else .next s

/-- Event THERMAL_THROTTLE (R390): clocks lowered by a number of steps of 1/64. -/
def execThermalThrottle (steps : Nat) (s : State) : Out :=
  s.orStay <|
  if 64 ≤ steps then none else some { s with mgmt := { s.mgmt with clockStep := steps } }

/-- Event THERMAL_TRIP (R390): the module stops, the host link goes down, and management reports it. -/
def execThermalTrip (s : State) : Out :=
  .next { s with mgmt := { s.mgmt with stopped := true, events := s.mgmt.events + 1 }, fabric := { s.fabric with host := .down } }

/-- Event HOST_LINK_ERROR (R391): reported through Advanced Error Reporting; a fetch of a record over the link that comes
next ends with the error (R373). -/
def execHostLinkError (s : State) : Out :=
  .next { s with fabric := { s.fabric with hostErrors := s.fabric.hostErrors + 1, hostBad := true } }

end Sys2Proof.Machine
end

