-- ==== Sys2Proof/Machine/Fabric.lean ====
section
/-! DEFINITION. The fabric: remote operations, their arrival, acknowledgement and failure, fabric registers, ports, test
injection, the host link and the RoCE engine (23_fabric). -/

namespace Sys2Proof.Machine

/-! ### Fabric registers (R409) -/

/-- The module's number, while it has one. -/
def State.moduleNum (s : State) : Option Nat := if s.fabric.modid.getLsbD 31 then some (s.fabric.modid.toNat % 512) else none

/-- The fabric register of a context: enable bit and domain key. -/
def State.fabOf (s : State) (c : Nat) : Bool × BitVec 16 :=
  let v := ((s.fabric.fab.find? (fun f => f.1 == c)).map Prod.snd).getD 0
  (v.getLsbD 0, (v >>> 16).setWidth 16)

/-- Event MODID_WRITE (R409): a host write to the management window (R387). -/
def execModidWrite (v : Word) (s : State) : Out := .next { s.snapshot 0 with fabric := { s.fabric with modid := v &&& 0x800001FF } }

/-- Event FAB_CONTEXT_WRITE (R409): a host write to the management window (R387). -/
def execFabContextWrite (ctx : Nat) (v : BitVec 64) (s : State) : Out :=
  s.orStay <|
  if 64 ≤ ctx then none
  else some { s.snapshot 0 with fabric := { s.fabric with fab := upsert (fun f => f.1 == ctx) (ctx, v &&& 0xFFFF0001) s.fabric.fab } }

/-- Event INJECT_ARM (R419): the register is written; arm 0 disarms. A count outside 1 to 65,535 names no copy, and nothing
is armed. -/
def execInjectArm (arg : InjectArg) (s : State) : Out :=
  let ok := arg.arm && decide (1 ≤ arg.nth) && decide (arg.nth ≤ 65535) && decide (arg.bit < 8)
  .next { s.snapshot 0 with fabric := { s.fabric with
    inject := { armed := ok, afterCrc := arg.afterCrc, ctx := arg.ctx, nth := arg.nth, byte := arg.byte, bit := arg.bit,
                left := arg.nth } } }

/-! ### Ports and links (R407, R408, R417) -/

def State.setPorts (s : State) (p : BitVec 32) : State := { s with fabric := { s.fabric with ports := p } }

/-- Event PORT_TRAINED (R409). -/
def execPortTrained (port : Nat) (s : State) : Out :=
  s.orStay <|
  if 32 ≤ port ∨ s.fabric.ports.getLsbD port then none
  else some (s.setPorts (s.fabric.ports ||| (1#32 <<< port)))

/-- Event WACON_FLIT_RETRY (R408): every flit is acted on once whatever the retries; only the counter changes. -/
def execWaconFlitRetry (port : Nat) (s : State) : Out :=
  s.orStay <|
  if 32 ≤ port ∨ !s.fabric.ports.getLsbD port then none
  else some { s with fabric := { s.fabric with retries := s.fabric.retries + 1 } }

/-- Event HOST_LINK_TRAINING (R407): x16 at 64 GT/s, or x8, x4 or a lower rate of PCI Express after training down. -/
def execHostLinkTraining (st : HostLink) (s : State) : Out :=
  s.orStay <|
  let ok := match st with
    | .down => true
    | .up lanes rate => [4, 8, 16].contains lanes && [2500, 5000, 8000, 16000, 32000, 64000].contains rate
  if !ok || s.fabric.host == st then none else some { s with fabric := { s.fabric with host := st } }

/-- What the host reads in the page of a virtual function: the queue-error count of its tenant at 0x008, zero elsewhere
(R407). -/
def State.vfRead (s : State) (tenant off : Nat) : Nat := if off = 8 then ((s.queue? tenant).map Queue.errors).getD 0 else 0

/-! ### The running check (R412) -/

/-- Adler-32 as RFC 1950 defines it, from a value and bytes. -/
def adler (c : Word) (b : List Byte) : Word :=
  let r := b.foldl (fun (p : Nat × Nat) y =>
    let s1 := (p.1 + y.toNat) % 65521
    (s1, (p.2 + s1) % 65521)) (c.toNat % 65536, c.toNat / 65536)
  BitVec.ofNat 32 (r.2 * 65536 + r.1)

/-! ### Failures at the issuer (R418) -/

/-- The remote address a fault of an operation names. -/
def remoteAddr (b : RemoteBody) : Addr :=
  match b with
  | .copy dst _ _ _ _ => dst
  | .signal a => a
  | .add a _ => a

/-- A remote operation fails: its registers keep their values at issue and are pending no longer. -/
def State.remoteFail (s : State) (o : Op) (cause : Nat) (va detail : BitVec 64) : State :=
  let s := match s.thread? o.key with
    | some t => s.setThread (t.clearPendings o.regs)
    | none => s
  s.failOp { o with regs := [] } { o.base with cause := cause, vaddr := va, detail := detail, engine := true }

/-- R408, R418: why an operation cannot leave: the module has no number, or no port works. -/
def State.cannotSend (s : State) : Option Nat :=
  if s.moduleNum.isNone then some 4 else if s.fabric.ports = 0 then some 1 else none

/-! ### Sending (R413, R419) -/

/-- What goes to the target, with the issuing module's number and the context's register. -/
def State.sendTo (s : State) (o : Op) (target : Nat) (body : RemoteBody) : State :=
  let f := s.fabOf o.ctx
  let q : RemoteReq :=
    { source := s.moduleNum.getD 0, tag := o.id, ctx := o.ctx, key := f.2, enabled := f.1, body := body }
  { s with fabric := { s.fabric with outbox := s.fabric.outbox ++ [(target, q)] } }

/-- The operation is on its way. -/
def State.sendRemote (s : State) (o : Op) (r : RemoteOp) (body : RemoteBody) : State :=
  (s.setOp { o with kind := .remote { r with body := body, sent := true, sentAt := s.clocks.getD 4 0 } }).sendTo o r.target body

/-- R419: the bit of an armed injection, inverted in what is sent; after the CRC the link detects and retries it. -/
def flipBit (b : List Byte) (byte bit : Nat) : List Byte :=
  match b[byte]? with
  | some x => b.set byte (x ^^^ (1#8 <<< bit))
  | none => b

/-- Bytes that leave under an injection: with its bit inverted before the CRC; after the CRC the link retries (R419). -/
def State.injected (s : State) (f : Option (Bool × Nat × Nat)) (b : List Byte) : List Byte × State :=
  match f with
  | none => (b, s)
  | some (after, byte, bit) =>
    if after then
      (b, { s with fabric := { s.fabric with retries := s.fabric.retries + (if byte < b.length then 1 else 0) } })
    else (flipBit b byte bit, s)

/-- A copy whose source has been read whole: S is taken from the source, then the bytes leave (R413, R419). -/
def State.sendCopy (s : State) (o : Op) (r : RemoteOp) (dst : Addr) (b : List Byte) (arr : Addr) (chain rec_ : Option Word) :
    State :=
  let sum := adler r.sum b
  let (sent, s) := s.injected r.flip b
  s.sendRemote o { r with sum := sum, flip := none } (.copy dst sent arr chain (rec_.map (fun _ => sum)))

/-- COPY_LANDING for a remote copy: after the fork (R415) the next piece of its source is read as `cpy` reads memory; after
the last the copy leaves. A fault of the source ends it, and what had been read is sent without its arrival (R418). -/
def State.remoteLanding (s : State) (o : Op) (r : RemoteOp) : Ev :=
  match r.body with
  | .copy dst b arr chain rec_ =>
    if r.sent || !s.copyBegun o then none
    else s.withWalks o (fun s o => s.withFork o (fun s o =>
      let n := min r.srcLeft (256 - r.srcVa.toNat % 256)
      (match s.engineRead o r.srcVa n with
       | (.error e, s) =>
         if e.cause = 0x10 then some (s.pageFaultOp o true e.vaddr)
         else
           let (sent, s) := s.injected r.flip b
           let s := if b.isEmpty then s else s.sendTo o r.target (.copy dst sent 0 none none)
           some (s.remoteFail o e.cause e.vaddr e.detail)
       | (.ok x, s) =>
         let b := b ++ x
         if n = r.srcLeft then some (s.sendCopy o { r with srcLeft := 0 } dst b arr chain rec_)
         else
           some (s.setOp { o with kind := .remote { r with
             body := .copy dst b arr chain rec_, srcVa := r.srcVa + BitVec.ofNat 64 n, srcLeft := r.srcLeft - n } }))))
  | _ => none

/-- Event COPY_LANDING (R185); a slot that only waited for a copy aimed at it is freed (R325). -/
def execCopyLanding (op : Nat) (s : State) : Out :=
  s.onOp op (fun o =>
    let r := match o.kind with
      | .cpt t dim next n dst md stored bar => s.cptLanding o t dim next n dst md stored bar
      | .remote r => s.remoteLanding o r
      | _ => s.copyLanding o
    match r with
    | some s => some ((s.allTeams.map Team.uid).foldl State.freeSlot s)
    | r => r)

/-! ### The words (R410, R411) -/

/-- R411: an address of the block, a multiple of a size with bits [63:57] zero. -/
def State.blockAddr (s : State) (a : Addr) (size : Nat) (body : State → Out) : Out :=
  if addrOk a size then body s else s.faultAt 0x09 a 0

/-- The common front: the checks of R49 on the block and the operand registers, room, and the target field. -/
def State.remoteWord (s : State) (e : Bool) (role : Option Role) (n a : Nat) (own : List Nat) (body : State → Nat → Out) : Out :=
  s.memWord { cls := 6, role := role, reads := blockRegs a n ++ own, writes := own } (fun s =>
    s.tracked e (fun s =>
      let c := (s.th.reg a).toNat
      if 512 ≤ c then s.faultDetail 0x02 40 else body s c))

/-- A remote operation is issued; one that cannot leave fails at once at its flag (R409, R418). -/
def State.issueRemote (s : State) (e : Bool) (regs : List Nat) (r : RemoteOp) (go : State → Op → State) : Out :=
  let id := s.nextOp
  let s := s.addOp e regs none (.remote r)
  match s.op? id, s.cannotSend with
  | some o, some d => .next (s.remoteFail o 0x31 (remoteAddr r.body) (BitVec.ofNat 64 d))
  | some o, none => .next (go s o)
  | none, _ => .next s

/-- R419: a copy of the counted context lowers the count; the injection fires at the one it names, whatever becomes of that
copy. -/
def State.countCopy (s : State) : Option (Bool × Nat × Nat) × State :=
  let j := s.fabric.inject
  if j.armed && j.ctx == s.tm.ctx then
    (if j.left = 1 then some (j.afterCrc, j.byte, j.bit) else none,
     { s with fabric := { s.fabric with inject := { j with left := j.left - 1, armed := j.left != 1 } } })
  else (none, s)

/-- The three copy forms (R411, R413). -/
def State.remoteCopy (s : State) (e : Bool) (d : Option Nat) (rec_ : Bool) (a : Nat) : Out :=
  let own := (d.map pairRegs).getD []
  s.remoteWord e (some .copy) 8 a own (fun s c => s.queued OpKind.isCopy 32 (fun s =>
    let dst := s.th.pair (a + 1)
    let src := s.th.pair (a + 3)
    let len := (s.th.reg (a + 5)).toNat
    let arr := s.th.pair (a + 6)
    s.blockAddr dst 16 (fun s => s.blockAddr src 16 (fun s =>
      if len = 0 ∨ 65536 < len then s.faultDetail 0x02 41
      else if rec_ ∧ arr = 0 then s.faultDetail 0x02 42
      else s.blockAddr arr (if rec_ then 16 else 4) (fun s =>
        let (flip, s) := s.countCopy
        let seed (i : Nat) : Word := (d.map (fun d => s.th.reg (d + i))).getD 0
        let body : RemoteBody := .copy dst [] arr (d.map (fun _ => seed 1)) (if rec_ then some 0 else none)
        let r : RemoteOp :=
          { target := c, body := body, d := d, srcVa := src, srcLeft := 16 * len, sent := false, sentAt := 0, sum := seed 0,
            flip := flip }
        s.issueRemote e own r (fun s _ => s))))))

/-- `rcpy` (R413). -/
def execRcpy (e : Bool) (a : Nat) (s : State) : Out := s.remoteCopy e none false a

/-- `rcpy.ck` (R413). -/
def execRcpyCk (e : Bool) (d a : Nat) (s : State) : Out := s.remoteCopy e (some d) false a

/-- `rcpy.ckv` (R413). -/
def execRcpyCkv (e : Bool) (d a : Nat) (s : State) : Out := s.remoteCopy e (some d) true a

/-- A remote word's operation, sent when it issues. -/
def remoteNow (target : Nat) (body : RemoteBody) (d : Option Nat) : RemoteOp :=
  { target := target, body := body, d := d, srcVa := 0, srcLeft := 0, sent := false, sentAt := 0, sum := 0, flip := none }

/-- R246, R415: the release at system scope that a remote word's fork makes. -/
def State.systemFork (s : State) : State := s.releaseAt s.tm.core s.th.key.team .system

/-- A remote operation. -/
def Op.isRemote (o : Op) : Bool :=
  match o.kind with
  | .remote _ => true
  | _ => false

/-- R414: `rsig` waits for the thread's earlier reads and writes and for its earlier remote operations to leave their flags.
One that has faulted leaves its flag with the delivery of its fault, which takes place here, as its flag is waited for;
the handler does not wait for it (DEDUCED, log entry 84). -/
def State.beforeSignal (s : State) (body : State → Out) : Out :=
  s.waitFor (fun o => o.accesses || o.isRemote) (fun s =>
    match s.ops.find? (fun o => o.key == s.th.key && o.isRemote && o.fault.isSome) with
    | some o =>
      if s.th.trapActive then body s
      else .next { s.deliver s.th s.tm o (o.fault.getD s.here) (s.header, s.wordIdx) with pfx := none }
    | none => body s)

/-- `rsig` (R414). -/
def execRsig (e : Bool) (a : Nat) (s : State) : Out :=
  s.remoteWord e none 3 a [] (fun s c =>
    let w := s.th.pair (a + 1)
    s.blockAddr w 4 (fun s =>
      s.beforeSignal (fun s =>
        let r := remoteNow c (.signal w) none
        s.systemFork.issueRemote e [] r (fun s o => s.sendRemote o r r.body))))

/-- `ratom.add` (R414), sent after its fork (R246, R415; log entry 82). -/
def execRatomAdd (e : Bool) (d a : Nat) (s : State) : Out :=
  s.remoteWord e none 3 a [d] (fun s c =>
    let w := s.th.pair (a + 1)
    s.blockAddr w 4 (fun s =>
      s.waitFor Op.accesses (fun s =>
        let r := remoteNow c (.add w (s.th.reg d)) (some d)
        s.systemFork.issueRemote e [d] r (fun s o => s.sendRemote o r r.body))))

/-! ### At the target (R409, R413, R414) -/

/-- Bytes written at home as device-scope writes of a context, line by line; a fault names the first byte not written. -/
def State.remotePut (s : State) (ctx : Nat) : Nat → Addr → List Byte → Except XFault Unit × State
  | 0, _, _ => (.ok (), s)
  | fuel + 1, va, b =>
    if b.isEmpty then (.ok (), s)
    else
      let n := min b.length (256 - va.toNat % 256)
      match s.xlate ctx va .write with
      | .error e => (.error { e with vaddr := va }, s)
      | .ok pa => (s.homeWrite pa (b.take n)).remotePut ctx fuel (va + BitVec.ofNat 64 n) (b.drop n)

/-- Where an add of a context is performed, on a state in which escrow on its line is settled (R230), or why it cannot be. -/
def State.addPlace (s : State) (ctx : Nat) (va : Addr) : Except XFault Nat × State :=
  match s.xlate ctx va .write, s.xlate ctx va .read with
  | .error e, _ => (.error e, s)
  | _, .error e => (.error e, s)
  | .ok pa, .ok _ =>
    let s := if s.hasEscrow (lineOf pa) then s.settleLine (lineOf pa) else s
    match s.readable va pa 4 with
    | .error e => (.error e, s)
    | .ok () => (.ok pa, s)

/-- An add to a word at home, as a device-scope atomic of a context (R414); answers the old value. -/
def State.remoteAdd (s : State) (ctx : Nat) (va : Addr) (v : Word) : Except XFault Word × State :=
  match s.addPlace ctx va with
  | (.error e, s) => (.error e, s)
  | (.ok pa, s) => (.ok (s.performWord pa), s.homeWrite pa (leBytes 4 (s.performWord pa + v).toNat))

/-- The answer for a fault at the target (R418). -/
def faultReply (e : XFault) : RemoteReply := .remoteFault 2 e.cause e.vaddr

/-- The check record at its place: S and D as two 32-bit words, in the block of the arrival word (R411, R413). -/
def State.putRecord (s : State) (ctx : Nat) (arr : Addr) (rec_ : Option Word) (d : Word) : State :=
  match rec_ with
  | none => s
  | some x => ((s.remotePut ctx 2 (arr + 8) (leBytes 4 x.toNat)).2.remotePut ctx 2 (arr + 12) (leBytes 4 d.toNat)).2

/-- A copy performed at its target: bytes, check record, arrival (R413). Where the arrival's add faults no record is written
(R418). -/
def State.performCopy (s : State) (ctx : Nat) (dst : Addr) (b : List Byte) (arr : Addr) (chain rec_ : Option Word) :
    RemoteReply × State :=
  match s.remotePut ctx (b.length + 1) dst b with
  | (.error e, s) => (faultReply e, s)
  | (.ok (), s) =>
    let d := (chain.map (fun c => adler c b)).getD 0
    if arr = 0 then (.done d, s)
    else
      match s.addPlace ctx arr with
      | (.error e, s) => (faultReply e, s)
      | (.ok _, s) => (.done d, ((s.putRecord ctx arr rec_ d).remoteAdd ctx arr 1).2)

/-- An accepted operation is performed here in its context. -/
def State.performRemote (s : State) (q : RemoteReq) : RemoteReply × State :=
  match q.body with
  | .copy dst b arr chain rec_ => s.performCopy q.ctx dst b arr chain rec_
  | .signal a =>
    (match s.remoteAdd q.ctx a 1 with
     | (.error e, s) => (faultReply e, s)
     | (.ok _, s) => (.done 0, s))
  | .add a v =>
    (match s.remoteAdd q.ctx a v with
     | (.error e, s) => (faultReply e, s)
     | (.ok x, s) => (.done x, s))

/-- R409: the four conditions on which an operation is accepted. -/
def State.accepts (s : State) (q : RemoteReq) : Bool :=
  (s.fabOf q.ctx).1 && q.enabled && (s.fabOf q.ctx).2 == q.key && (s.ctxOf q.ctx).isSome

/-- R409, R418: how an operation that is not accepted is answered: 4 where this module has lost its context and the context
has not been created again, else 1 (DEDUCED, log entry 110). -/
def State.refusal (s : State) (q : RemoteReq) : RemoteReply :=
  .remoteFault (if (s.ctxOf q.ctx).isNone && s.fabric.lost.contains q.ctx then 4 else 1) 0 (remoteAddr q.body)

/-- A request of this module to itself has left the outbox. -/
def State.takeOut (s : State) (q : RemoteReq) : State :=
  { s with fabric := { s.fabric with outbox := s.fabric.outbox.erase (s.moduleNum.getD 0, q) } }

/-- Event REMOTE_OP_ARRIVAL (R408, R409, R413): where a port works, the operation is performed here, or not accepted, and
answered. -/
def execRemoteOpArrival (req : RemoteReq) (s : State) : Out :=
  s.orStay <|
  if s.moduleNum.isNone || s.fabric.ports == 0 then none
  else
    let s := s.takeOut req
    let (r, s) := if s.accepts req then s.performRemote req else (s.refusal req, s)
    some { s with fabric := { s.fabric with replies := s.fabric.replies ++ [⟨req.source, req.tag, r⟩] } }

/-! ### Back at the issuer (R413, R415, R418) -/

/-- The values an operation's registers take. -/
def RemoteOp.results (r : RemoteOp) (v : Word) : List Word :=
  match r.body with
  | .copy _ _ _ _ _ => [r.sum, v]
  | .signal _ => []
  | .add _ _ => [v]

/-- Event REMOTE_ACK (R413, R418): the registers are written and the flag is left, with the join of R415, or the fault. -/
def execRemoteAck (op : Nat) (reply : RemoteReply) (s : State) : Out :=
  s.onOp op (fun o =>
    match o.kind with
    | .remote r =>
      if !r.sent then none
      else
        let me := s.moduleNum.getD 0
        let answer : OutReply := ⟨me, op, reply⟩
        if r.target = me ∧ !s.fabric.replies.contains answer then none
        else
          let s := if r.target = me then { s with fabric := { s.fabric with replies := s.fabric.replies.erase answer } } else s
          (match reply with
           | .done v =>
             let s := match r.d with
               | some d => s.writeRegs o.key d (r.results v)
               | none => s
             some ((s.acquireStep o.core o.key.team .device).finishOp o)
           | .linkFailed d va => some (s.remoteFail o 0x31 va (BitVec.ofNat 64 d))
           | .remoteFault d code va => some (s.remoteFail o 0x32 va (BitVec.ofNat 64 (d + 256 * code))))
    | _ => none)

/-- Event REMOTE_TIMEOUT (R418): no answer within 2^24 fabric cycles. -/
def execRemoteTimeout (op : Nat) (s : State) : Out :=
  s.onOp op (fun o =>
    match o.kind with
    | .remote r =>
      if r.sent && decide (r.sentAt + 2 ^ 24 ≤ s.clocks.getD 4 0) then some (s.remoteFail o 0x32 (remoteAddr r.body) 3)
      else none
    | _ => none)

/-- The answer to a remote operation of this module on itself has come back already. -/
def State.answered (s : State) (o : Op) : Bool :=
  s.fabric.replies.any (fun a => a.source == s.moduleNum.getD 0 && a.tag == o.id)

/-- What this module had sent to itself never comes back in (R418; log entry 87). -/
def State.dropLoop (s : State) : State :=
  let me := s.moduleNum.getD 0
  { s with fabric := { s.fabric with outbox := s.fabric.outbox.filter (fun q => !(q.1 == me && q.2.source == me)) } }

/-- Event PORT_FAILURE (R417, R418): other planes carry on; with the last port reachability is lost. -/
def execPortFailure (port : Nat) (s : State) : Out :=
  s.orStay <|
  if 32 ≤ port ∨ !s.fabric.ports.getLsbD port then none
  else
    let s := s.setPorts (s.fabric.ports &&& ~~~(1#32 <<< port))
    if s.fabric.ports ≠ 0 then some s
    else
      some (s.ops.foldl (fun s o =>
        match o.kind with
        | .remote r => if o.fault.isNone && !s.answered o then s.remoteFail o 0x31 (remoteAddr r.body) 3 else s
        | _ => s) s.dropLoop)

/-! ### RoCE (R420) -/

def State.setQp (s : State) (q : RoceQp) : State := { s with roce := s.roce.map (fun x => if x.num = q.num then q else x) }

/-- R223, R420: the network engine's monitor on a producer word, for a value other than the count it has fetched; none where
the slice's entries are taken. -/
def State.watchProducer (s : State) (q : RoceQp) (pa : Nat) : Option State :=
  if 256 ≤ (s.monitors.filter (fun m => sliceOf m.word == sliceOf pa)).length then none
  else
    let m : Monitor :=
      { idx := s.nextMonitor, word := pa, cmp := 1, value := BitVec.ofNat 32 q.fetched, ctx := q.ctx, team := none, groups := 0,
        grid := none, fired := false, qp := some q.num }
    let s := s.revokeRange (lineOf pa) 256
    some { s with monitors := s.monitors ++ [m], nextMonitor := s.nextMonitor + 1 }

/-- Event ROCE_WORK_FETCH (R420): the producer word, read where no monitor entry waits on it, has moved on and the next entry
is fetched; else the engine watches the word. -/
def execRoceWorkFetch (qp : Nat) (s : State) : Out :=
  s.orStay <|
  match s.roce.find? (fun q => q.num == qp) with
  | none => none
  | some q =>
    if s.monitors.any (fun m => m.qp == some qp && !m.fired) then none
    else
      let s : State := { s with monitors := s.monitors.filter (fun m => m.qp != some qp) }
      match s.readVa q.ctx q.producer 4 .read, s.xlate q.ctx q.producer .read with
      | .ok p, .ok pa =>
        if leNat p = q.fetched % 2 ^ 32 then
          (match s.watchProducer q pa with
           | some s => some s
           | none => none)
        else
          (match s.readVa q.ctx (q.workBase + BitVec.ofNat 64 (64 * (q.fetched % q.slots))) 64 .read with
           | .ok b => some (s.setQp { q with fetched := q.fetched + 1, entries := q.entries ++ [b] })
           | .error _ => none)
      | _, _ => none

/-- R420: a completion: its entry at the completion queue's next place, then the count word's add, which releases it. -/
def State.completeQp (s : State) (q : RoceQp) (n : Nat) (entry : List Byte) : State :=
  let e := padEach 1 64 (fun b => [b]) entry
  let s := (s.remotePut q.ctx 2 (q.cqBase + BitVec.ofNat 64 (64 * (n % q.slots))) e).2
  (s.remoteAdd q.ctx q.countWord 1).2

/-- Event ROCE_COMPLETION (R420): the data it delivers, the completion entry, then the count word's add. -/
def execRoceCompletion (qp : Nat) (s : State) : Out :=
  s.orStay <|
  match s.roce.find? (fun q => q.num == qp) with
  | none => none
  | some q =>
    match q.entries, s.readVa q.ctx q.countWord 4 .read with
    | w :: rest, .ok n =>
      let (put, va, len) := Config.roceEntry w
      let s := if put = 0 then s else (s.remotePut q.ctx (len + 1) va ((List.range len).map (Config.roceData w))).2
      some ((s.completeQp q (leNat n) (Config.roceCompletionEntry w)).setQp { q with entries := rest })
    | _, _ => none

/-- Event RDMA_INBOUND (R420): incoming WRITE or SEND data are written at home as device-scope writes. A SEND, and a WRITE
with immediate, also completes a request here: the queue pair gets a completion entry for it (DEDUCED, log entry 102). -/
def execRdmaInbound (qp : Nat) (request : RdmaRequest) (bytes : List Byte) (s : State) : Out :=
  s.orStay <|
  match s.roce.find? (fun q => q.num == qp) with
  | none => none
  | some q =>
    let s := (s.remotePut q.ctx (bytes.length + 1) request.va bytes).2
    if request.kind = .write then some s
    else
      match s.readVa q.ctx q.countWord 4 .read with
      | .ok n => some (s.completeQp q (leNat n) (Config.roceCompletionEntry bytes))
      | .error _ => some s

/-- Bytes of home memory as plain loads read them, line by line: escrow is settled first, and poisoned bytes and those
behind a failed link are not read (R231, R358). -/
def State.remoteGet (s : State) (ctx : Nat) : Nat → Addr → Nat → Except XFault (List Byte) × State
  | 0, _, _ => (.ok [], s)
  | fuel + 1, va, n =>
    if n = 0 then (.ok [], s)
    else
      let k := min n (256 - va.toNat % 256)
      match s.xlate ctx va .read with
      | .error e => (.error e, s)
      | .ok pa =>
        let s := if s.hasEscrow (lineOf pa) then s.settleLine (lineOf pa) else s
        match s.readable va pa k with
        | .error e => (.error e, s)
        | .ok () =>
          let b := s.performBytes pa k
          match s.remoteGet ctx fuel (va + BitVec.ofNat 64 k) (n - k) with
          | (.error e, s) => (.error e, s)
          | (.ok t, s) => (.ok (b ++ t), s)

/-- Event RDMA_READ_REQUEST (R420): answered with the bytes read, or with an error where they cannot be. -/
def execRdmaReadRequest (qp : Nat) (va : Addr) (length : Nat) (s : State) : Out :=
  s.orStay <|
  match s.roce.find? (fun q => q.num == qp) with
  | none => none
  | some q =>
    let (b, s) := s.remoteGet q.ctx (length + 1) va length
    some (s.setQp { q with answers := q.answers ++ [b.toOption] })

/-- Event CNP_RECEIVED (R420): the engine's rate response. -/
def execCnpReceived (qp : Nat) (s : State) : Out :=
  s.orStay <|
  match s.roce.find? (fun q => q.num == qp) with
  | none => none
  | some q => some (s.setQp { q with rate := Config.roceRate q.rate })

end Sys2Proof.Machine
end

