-- ==== Sys2Proof/Machine/Dispatch.lean ====
section
/-! DEFINITION. One arm per instruction and event: a direct call of its meaning. -/

namespace Sys2Proof.Machine

def exec (i : Instr) (s : State) : Host.Outcome State Fault Refusal :=
  match i with
  | .add d a b => Sys2Proof.Machine.execAdd d a b s
  | .sub d a b => Sys2Proof.Machine.execSub d a b s
  | .mul d a b => Sys2Proof.Machine.execMul d a b s
  | .mulhI32 d a b => Sys2Proof.Machine.execMulhI32 d a b s
  | .mulhN32 d a b => Sys2Proof.Machine.execMulhN32 d a b s
  | .mad d a b => Sys2Proof.Machine.execMad d a b s
  | .divI32 d a b => Sys2Proof.Machine.execDivI32 d a b s
  | .divN32 d a b => Sys2Proof.Machine.execDivN32 d a b s
  | .remI32 d a b => Sys2Proof.Machine.execRemI32 d a b s
  | .remN32 d a b => Sys2Proof.Machine.execRemN32 d a b s
  | .minI32 d a b => Sys2Proof.Machine.execMinI32 d a b s
  | .minN32 d a b => Sys2Proof.Machine.execMinN32 d a b s
  | .maxI32 d a b => Sys2Proof.Machine.execMaxI32 d a b s
  | .maxN32 d a b => Sys2Proof.Machine.execMaxN32 d a b s
  | .and d a b => Sys2Proof.Machine.execAnd d a b s
  | .or d a b => Sys2Proof.Machine.execOr d a b s
  | .xor d a b => Sys2Proof.Machine.execXor d a b s
  | .andn d a b => Sys2Proof.Machine.execAndn d a b s
  | .shl d a b => Sys2Proof.Machine.execShl d a b s
  | .shr d a b => Sys2Proof.Machine.execShr d a b s
  | .sar d a b => Sys2Proof.Machine.execSar d a b s
  | .rotl d a b => Sys2Proof.Machine.execRotl d a b s
  | .fsh d a b => Sys2Proof.Machine.execFsh d a b s
  | .bfxI32 d a b => Sys2Proof.Machine.execBfxI32 d a b s
  | .bfxN32 d a b => Sys2Proof.Machine.execBfxN32 d a b s
  | .bfi d a b => Sys2Proof.Machine.execBfi d a b s
  | .sel d a b => Sys2Proof.Machine.execSel d a b s
  | .lea1 d a b => Sys2Proof.Machine.execLea1 d a b s
  | .lea2 d a b => Sys2Proof.Machine.execLea2 d a b s
  | .lea4 d a b => Sys2Proof.Machine.execLea4 d a b s
  | .lea8 d a b => Sys2Proof.Machine.execLea8 d a b s
  | .lea16 d a b => Sys2Proof.Machine.execLea16 d a b s
  | .addi d a imm => Sys2Proof.Machine.execAddi d a imm s
  | .shli d a n => Sys2Proof.Machine.execShli d a n s
  | .shri d a n => Sys2Proof.Machine.execShri d a n s
  | .sari d a n => Sys2Proof.Machine.execSari d a n s
  | .movi d imm => Sys2Proof.Machine.execMovi d imm s
  | .movhi d imm => Sys2Proof.Machine.execMovhi d imm s
  | .add64 d a b => Sys2Proof.Machine.execAdd64 d a b s
  | .sub64 d a b => Sys2Proof.Machine.execSub64 d a b s
  | .mul64 d a b => Sys2Proof.Machine.execMul64 d a b s
  | .shl64 d a b => Sys2Proof.Machine.execShl64 d a b s
  | .shr64 d a b => Sys2Proof.Machine.execShr64 d a b s
  | .sar64 d a b => Sys2Proof.Machine.execSar64 d a b s
  | .cmpEq p a b => Sys2Proof.Machine.execCmpEq p a b s
  | .cmpNe p a b => Sys2Proof.Machine.execCmpNe p a b s
  | .cmpLtI32 p a b => Sys2Proof.Machine.execCmpLtI32 p a b s
  | .cmpLtN32 p a b => Sys2Proof.Machine.execCmpLtN32 p a b s
  | .cmpLeI32 p a b => Sys2Proof.Machine.execCmpLeI32 p a b s
  | .cmpLeN32 p a b => Sys2Proof.Machine.execCmpLeN32 p a b s
  | .cmp64Eq p a b => Sys2Proof.Machine.execCmp64Eq p a b s
  | .cmp64LtI64 p a b => Sys2Proof.Machine.execCmp64LtI64 p a b s
  | .cmp64LtN64 p a b => Sys2Proof.Machine.execCmp64LtN64 p a b s
  | .cmpiEq p a imm => Sys2Proof.Machine.execCmpiEq p a imm s
  | .cmpiLtI32 p a imm => Sys2Proof.Machine.execCmpiLtI32 p a imm s
  | .pand p a b => Sys2Proof.Machine.execPand p a b s
  | .por p a b => Sys2Proof.Machine.execPor p a b s
  | .pxor p a b => Sys2Proof.Machine.execPxor p a b s
  | .pandn p a b => Sys2Proof.Machine.execPandn p a b s
  | .pnot p a => Sys2Proof.Machine.execPnot p a s
  | .pmov p a => Sys2Proof.Machine.execPmov p a s
  | .mov d a => Sys2Proof.Machine.execMov d a s
  | .not d a => Sys2Proof.Machine.execNot d a s
  | .abs d a => Sys2Proof.Machine.execAbs d a s
  | .neg d a => Sys2Proof.Machine.execNeg d a s
  | .clz d a => Sys2Proof.Machine.execClz d a s
  | .ctz d a => Sys2Proof.Machine.execCtz d a s
  | .popc d a => Sys2Proof.Machine.execPopc d a s
  | .brev d a => Sys2Proof.Machine.execBrev d a s
  | .pget d => Sys2Proof.Machine.execPget d s
  | .rdk d k => Sys2Proof.Machine.execRdk d k s
  | .setx x imm => Sys2Proof.Machine.execSetx x imm s
  | .incx x imm => Sys2Proof.Machine.execIncx x imm s
  | .rdx d x imm => Sys2Proof.Machine.execRdx d x imm s
  | .wrx src x imm => Sys2Proof.Machine.execWrx src x imm s
  | .bp p o => Sys2Proof.Machine.execBp p o s
  | .bnp p o => Sys2Proof.Machine.execBnp p o s
  | .br o => Sys2Proof.Machine.execBr o s
  | .call j o => Sys2Proof.Machine.execCall j o s
  | .nop => Sys2Proof.Machine.execNop s
  | .exit => Sys2Proof.Machine.execExit s
  | .yield => Sys2Proof.Machine.execYield s
  | .trap n => Sys2Proof.Machine.execTrap n s
  | .brk n => Sys2Proof.Machine.execBrk n s
  | .ret a => Sys2Proof.Machine.execRet a s
  | .jr a => Sys2Proof.Machine.execJr a s
  | .tret => Sys2Proof.Machine.execTret s
  | .rdsr d n => Sys2Proof.Machine.execRdsr d n s
  | .wrsr src n => Sys2Proof.Machine.execWrsr src n s
  | .rdcyc d => Sys2Proof.Machine.execRdcyc d s
  | .prng d a imm => Sys2Proof.Machine.execPrng d a imm s
  | .spawn r src o => Sys2Proof.Machine.execSpawn r src o s
  | .spawnf r src o => Sys2Proof.Machine.execSpawnf r src o s
  | .fadd d a b => Sys2Proof.Machine.execFadd d a b s
  | .faddRz d a b => Sys2Proof.Machine.execFaddRz d a b s
  | .fsub d a b => Sys2Proof.Machine.execFsub d a b s
  | .fsubRz d a b => Sys2Proof.Machine.execFsubRz d a b s
  | .fmul d a b => Sys2Proof.Machine.execFmul d a b s
  | .fmulRz d a b => Sys2Proof.Machine.execFmulRz d a b s
  | .ffma d a b => Sys2Proof.Machine.execFfma d a b s
  | .ffmaRz d a b => Sys2Proof.Machine.execFfmaRz d a b s
  | .fmin d a b => Sys2Proof.Machine.execFmin d a b s
  | .fminNan d a b => Sys2Proof.Machine.execFminNan d a b s
  | .fmax d a b => Sys2Proof.Machine.execFmax d a b s
  | .fmaxNan d a b => Sys2Proof.Machine.execFmaxNan d a b s
  | .hadd2Bf16 d a b => Sys2Proof.Machine.execHadd2Bf16 d a b s
  | .hmul2Bf16 d a b => Sys2Proof.Machine.execHmul2Bf16 d a b s
  | .hfma2Bf16 d a b => Sys2Proof.Machine.execHfma2Bf16 d a b s
  | .hmax2Bf16 d a b => Sys2Proof.Machine.execHmax2Bf16 d a b s
  | .fcmpEq p a b => Sys2Proof.Machine.execFcmpEq p a b s
  | .fcmpLt p a b => Sys2Proof.Machine.execFcmpLt p a b s
  | .fcmpLe p a b => Sys2Proof.Machine.execFcmpLe p a b s
  | .fcmpUn p a b => Sys2Proof.Machine.execFcmpUn p a b s
  | .fabs d a => Sys2Proof.Machine.execFabs d a s
  | .fneg d a => Sys2Proof.Machine.execFneg d a s
  | .fclass d a => Sys2Proof.Machine.execFclass d a s
  | .cvtF32I32 d a => Sys2Proof.Machine.execCvtF32I32 d a s
  | .cvtF32N32 d a => Sys2Proof.Machine.execCvtF32N32 d a s
  | .cvtI32F32Rz d a => Sys2Proof.Machine.execCvtI32F32Rz d a s
  | .cvtI32F32Rne d a => Sys2Proof.Machine.execCvtI32F32Rne d a s
  | .cvtN32F32Rz d a => Sys2Proof.Machine.execCvtN32F32Rz d a s
  | .cvtBf16x2F32 d a => Sys2Proof.Machine.execCvtBf16x2F32 d a s
  | .cvtF32Bf16Lo d a => Sys2Proof.Machine.execCvtF32Bf16Lo d a s
  | .cvtF32Bf16Hi d a => Sys2Proof.Machine.execCvtF32Bf16Hi d a s
  | .cvtE4m3x4F32Sat d a => Sys2Proof.Machine.execCvtE4m3x4F32Sat d a s
  | .cvtE4m3x4F32Nan d a => Sys2Proof.Machine.execCvtE4m3x4F32Nan d a s
  | .cvtE5m2x4F32Sat d a => Sys2Proof.Machine.execCvtE5m2x4F32Sat d a s
  | .cvtE5m2x4F32Inf d a => Sys2Proof.Machine.execCvtE5m2x4F32Inf d a s
  | .cvtF32E4m3 d a imm => Sys2Proof.Machine.execCvtF32E4m3 d a imm s
  | .cvtF32E5m2 d a imm => Sys2Proof.Machine.execCvtF32E5m2 d a imm s
  | .cvtF32E2m1 d a imm => Sys2Proof.Machine.execCvtF32E2m1 d a imm s
  | .rcp e d a => Sys2Proof.Machine.execRcp e d a s
  | .rsqrt e d a => Sys2Proof.Machine.execRsqrt e d a s
  | .sqrt e d a => Sys2Proof.Machine.execSqrt e d a s
  | .exp2 e d a => Sys2Proof.Machine.execExp2 e d a s
  | .log2 e d a => Sys2Proof.Machine.execLog2 e d a s
  | .sinpi e d a => Sys2Proof.Machine.execSinpi e d a s
  | .cospi e d a => Sys2Proof.Machine.execCospi e d a s
  | .tanh e d a => Sys2Proof.Machine.execTanh e d a s
  | .cvtE2m1x8F32 d a b => Sys2Proof.Machine.execCvtE2m1x8F32 d a b s
  | .ldsB32 d b imm => Sys2Proof.Machine.execLdsB32 d b imm s
  | .stsB32 d b imm => Sys2Proof.Machine.execStsB32 d b imm s
  | .ldB32 e d b imm => Sys2Proof.Machine.execLdB32 e d b imm s
  | .stB32 e d b imm => Sys2Proof.Machine.execStB32 e d b imm s
  | .ldsB128 d b imm => Sys2Proof.Machine.execLdsB128 d b imm s
  | .stsB128 d b imm => Sys2Proof.Machine.execStsB128 d b imm s
  | .ldsN8 d b => Sys2Proof.Machine.execLdsN8 d b s
  | .ldsI8 d b => Sys2Proof.Machine.execLdsI8 d b s
  | .ldsN16 d b => Sys2Proof.Machine.execLdsN16 d b s
  | .ldsI16 d b => Sys2Proof.Machine.execLdsI16 d b s
  | .ldsB64 d b => Sys2Proof.Machine.execLdsB64 d b s
  | .stsB8 d b => Sys2Proof.Machine.execStsB8 d b s
  | .stsB16 d b => Sys2Proof.Machine.execStsB16 d b s
  | .stsB64 d b => Sys2Proof.Machine.execStsB64 d b s
  | .prsTest p b => Sys2Proof.Machine.execPrsTest p b s
  | .stashMap e d b => Sys2Proof.Machine.execStashMap e d b s
  | .stashUnmap e d => Sys2Proof.Machine.execStashUnmap e d s
  | .stashWb e d => Sys2Proof.Machine.execStashWb e d s
  | .ldN8 e d b => Sys2Proof.Machine.execLdN8 e d b s
  | .ldI8 e d b => Sys2Proof.Machine.execLdI8 e d b s
  | .ldN16 e d b => Sys2Proof.Machine.execLdN16 e d b s
  | .ldI16 e d b => Sys2Proof.Machine.execLdI16 e d b s
  | .ldB64 e d b => Sys2Proof.Machine.execLdB64 e d b s
  | .ldB128 e d b => Sys2Proof.Machine.execLdB128 e d b s
  | .stB8 e d b => Sys2Proof.Machine.execStB8 e d b s
  | .stB16 e d b => Sys2Proof.Machine.execStB16 e d b s
  | .stB64 e d b => Sys2Proof.Machine.execStB64 e d b s
  | .stB128 e d b => Sys2Proof.Machine.execStB128 e d b s
  | .sgetAt d a m => Sys2Proof.Machine.execSgetAt d a m s
  | .sgetXor d a m => Sys2Proof.Machine.execSgetXor d a m s
  | .sgetBelow d a m => Sys2Proof.Machine.execSgetBelow d a m s
  | .sgetAbove d a m => Sys2Proof.Machine.execSgetAbove d a m s
  | .reduxAddI32 d a m => Sys2Proof.Machine.execReduxAddI32 d a m s
  | .reduxAddF32 d a m => Sys2Proof.Machine.execReduxAddF32 d a m s
  | .reduxMinI32 d a m => Sys2Proof.Machine.execReduxMinI32 d a m s
  | .reduxMaxI32 d a m => Sys2Proof.Machine.execReduxMaxI32 d a m s
  | .scanAddI32 d a m => Sys2Proof.Machine.execScanAddI32 d a m s
  | .sample d a m => Sys2Proof.Machine.execSample d a m s
  | .matchSeats d a m => Sys2Proof.Machine.execMatchSeats d a m s
  | .ballot d p m => Sys2Proof.Machine.execBallot d p m s
  | .seat d m => Sys2Proof.Machine.execSeat d m s
  | .voteAny p q m => Sys2Proof.Machine.execVoteAny p q m s
  | .voteAll p q m => Sys2Proof.Machine.execVoteAll p q m s
  | .voteEq p q m => Sys2Proof.Machine.execVoteEq p q m s
  | .barInit a n => Sys2Proof.Machine.execBarInit a n s
  | .barArr a n => Sys2Proof.Machine.execBarArr a n s
  | .barExp a n => Sys2Proof.Machine.execBarExp a n s
  | .barArx d a n => Sys2Proof.Machine.execBarArx d a n s
  | .barWait a n => Sys2Proof.Machine.execBarWait a n s
  | .barTry p a n => Sys2Proof.Machine.execBarTry p a n s
  | .barPar p a n => Sys2Proof.Machine.execBarPar p a n s
  | .barInv n => Sys2Proof.Machine.execBarInv n s
  | .ringAcq d a src => Sys2Proof.Machine.execRingAcq d a src s
  | .ringCom a src => Sys2Proof.Machine.execRingCom a src s
  | .ringGet d a src => Sys2Proof.Machine.execRingGet d a src s
  | .ringRel a src => Sys2Proof.Machine.execRingRel a src s
  | .cpy e d a b => Sys2Proof.Machine.execCpy e d a b s
  | .cpyPeer e d a b => Sys2Proof.Machine.execCpyPeer e d a b s
  | .cpw e d a b => Sys2Proof.Machine.execCpw e d a b s
  | .cpl e a b => Sys2Proof.Machine.execCpl e a b s
  | .mmqI4E4m3 e a p src => Sys2Proof.Machine.execMmqI4E4m3 e a p src s
  | .mmqI4E5m2 e a p src => Sys2Proof.Machine.execMmqI4E5m2 e a p src s
  | .mmqI4Bf16 e a p src => Sys2Proof.Machine.execMmqI4Bf16 e a p src s
  | .mmqI3E4m3 e a p src => Sys2Proof.Machine.execMmqI3E4m3 e a p src s
  | .mmqI3Bf16 e a p src => Sys2Proof.Machine.execMmqI3Bf16 e a p src s
  | .mmqF4E4m3 e a p src => Sys2Proof.Machine.execMmqF4E4m3 e a p src s
  | .mmqF4Bf16 e a p src => Sys2Proof.Machine.execMmqF4Bf16 e a p src s
  | .mmfE4m3 e a p => Sys2Proof.Machine.execMmfE4m3 e a p s
  | .mmfE5m2 e a p => Sys2Proof.Machine.execMmfE5m2 e a p s
  | .mmfBf16 e a p => Sys2Proof.Machine.execMmfBf16 e a p s
  | .accClr e p => Sys2Proof.Machine.execAccClr e p s
  | .ctld e a src => Sys2Proof.Machine.execCtld e a src s
  | .ctst e a src => Sys2Proof.Machine.execCtst e a src s
  | .ctinv src => Sys2Proof.Machine.execCtinv src s
  | .atomAddB32 e d a c => Sys2Proof.Machine.execAtomAddB32 e d a c s
  | .atomAddB64 e d a c => Sys2Proof.Machine.execAtomAddB64 e d a c s
  | .atomAddF32 e d a c => Sys2Proof.Machine.execAtomAddF32 e d a c s
  | .atomAddBf16x2 e d a c => Sys2Proof.Machine.execAtomAddBf16x2 e d a c s
  | .atomMinI32 e d a c => Sys2Proof.Machine.execAtomMinI32 e d a c s
  | .atomMinN32 e d a c => Sys2Proof.Machine.execAtomMinN32 e d a c s
  | .atomMaxI32 e d a c => Sys2Proof.Machine.execAtomMaxI32 e d a c s
  | .atomMaxN32 e d a c => Sys2Proof.Machine.execAtomMaxN32 e d a c s
  | .atomAnd e d a c => Sys2Proof.Machine.execAtomAnd e d a c s
  | .atomOr e d a c => Sys2Proof.Machine.execAtomOr e d a c s
  | .atomXor e d a c => Sys2Proof.Machine.execAtomXor e d a c s
  | .atomXchg e d a c => Sys2Proof.Machine.execAtomXchg e d a c s
  | .atomCas e d a c => Sys2Proof.Machine.execAtomCas e d a c s
  | .atomCasB64 e d a c => Sys2Proof.Machine.execAtomCasB64 e d a c s
  | .redAddB32 e d a c => Sys2Proof.Machine.execRedAddB32 e d a c s
  | .redAddF32 e d a c => Sys2Proof.Machine.execRedAddF32 e d a c s
  | .redMinI32 e d a c => Sys2Proof.Machine.execRedMinI32 e d a c s
  | .redMaxI32 e d a c => Sys2Proof.Machine.execRedMaxI32 e d a c s
  | .redOr e d a c => Sys2Proof.Machine.execRedOr e d a c s
  | .baddF32 e d a => Sys2Proof.Machine.execBaddF32 e d a s
  | .baddBf16x2 e d a => Sys2Proof.Machine.execBaddBf16x2 e d a s
  | .ldbF32 e d a => Sys2Proof.Machine.execLdbF32 e d a s
  | .bsettle e a => Sys2Proof.Machine.execBsettle e a s
  | .mwaitEq d a => Sys2Proof.Machine.execMwaitEq d a s
  | .mwaitNe d a => Sys2Proof.Machine.execMwaitNe d a s
  | .mwaitGeI32 d a => Sys2Proof.Machine.execMwaitGeI32 d a s
  | .mwaitLtI32 d a => Sys2Proof.Machine.execMwaitLtI32 d a s
  | .mwaitGeN32 d a => Sys2Proof.Machine.execMwaitGeN32 d a s
  | .mwaitLtN32 d a => Sys2Proof.Machine.execMwaitLtN32 d a s
  | .ldAcqB32 e d a c => Sys2Proof.Machine.execLdAcqB32 e d a c s
  | .ldAcqB64 e d a c => Sys2Proof.Machine.execLdAcqB64 e d a c s
  | .stRelB32 e d a c => Sys2Proof.Machine.execStRelB32 e d a c s
  | .stRelB64 e d a c => Sys2Proof.Machine.execStRelB64 e d a c s
  | .fenceAcq c => Sys2Proof.Machine.execFenceAcq c s
  | .fenceRel c => Sys2Proof.Machine.execFenceRel c s
  | .fenceAr c => Sys2Proof.Machine.execFenceAr c s
  | .cclean e d a c => Sys2Proof.Machine.execCclean e d a c s
  | .cinval e d a c => Sys2Proof.Machine.execCinval e d a c s
  | .cflush e d a c => Sys2Proof.Machine.execCflush e d a c s
  | .tldB8 e d a h => Sys2Proof.Machine.execTldB8 e d a h s
  | .tldB16 e d a h => Sys2Proof.Machine.execTldB16 e d a h s
  | .tldB32 e d a h => Sys2Proof.Machine.execTldB32 e d a h s
  | .tst e d a h => Sys2Proof.Machine.execTst e d a h s
  | .tenc e d a h => Sys2Proof.Machine.execTenc e d a h s
  | .tq e d a h => Sys2Proof.Machine.execTq e d a h s
  | .tclean e d a h => Sys2Proof.Machine.execTclean e d a h s
  | .tinval e d a h => Sys2Proof.Machine.execTinval e d a h s
  | .cpt e d a h => Sys2Proof.Machine.execCpt e d a h s
  | .tdesc a h => Sys2Proof.Machine.execTdesc a h s
  | .spool e d a h => Sys2Proof.Machine.execSpool e d a h s
  | .tlbinvVa e d a => Sys2Proof.Machine.execTlbinvVa e d a s
  | .tlbinvCtx e d => Sys2Proof.Machine.execTlbinvCtx e d s
  | .gq e a => Sys2Proof.Machine.execGq e a s
  | .att e a => Sys2Proof.Machine.execAtt e a s
  | .tstat e d a => Sys2Proof.Machine.execTstat e d a s
  | .rcpy e a => Sys2Proof.Machine.execRcpy e a s
  | .rcpyCk e d a => Sys2Proof.Machine.execRcpyCk e d a s
  | .rcpyCkv e d a => Sys2Proof.Machine.execRcpyCkv e d a s
  | .rsig e a => Sys2Proof.Machine.execRsig e a s
  | .ratomAdd e d a => Sys2Proof.Machine.execRatomAdd e d a s
  | .operandPrefix p z c => Sys2Proof.Machine.execOperandPrefix p z c s
  | .hintPrefix n l x => Sys2Proof.Machine.execHintPrefix n l x s
  | .clauseIssue k => Sys2Proof.Machine.execClauseIssue k s
  | .tillTimerExpiry team till => Sys2Proof.Machine.execTillTimerExpiry team till s
  | .tillRelease team till => Sys2Proof.Machine.execTillRelease team till s
  | .watchdog k => Sys2Proof.Machine.execWatchdog k s
  | .preemptionRequest team => Sys2Proof.Machine.execPreemptionRequest team s
  | .graceBudgetExpiry team => Sys2Proof.Machine.execGraceBudgetExpiry team s
  | .loadReturn op => Sys2Proof.Machine.execLoadReturn op s
  | .storeWritten op => Sys2Proof.Machine.execStoreWritten op s
  | .atomicReturn op => Sys2Proof.Machine.execAtomicReturn op s
  | .specialFunctionResult op => Sys2Proof.Machine.execSpecialFunctionResult op s
  | .compactorMove team group dest => Sys2Proof.Machine.execCompactorMove team group dest s
  | .stashFill team window line => Sys2Proof.Machine.execStashFill team window line s
  | .copyLanding op => Sys2Proof.Machine.execCopyLanding op s
  | .matrixExecute op => Sys2Proof.Machine.execMatrixExecute op s
  | .accClrExecute op => Sys2Proof.Machine.execAccClrExecute op s
  | .homeRegistration cluster => Sys2Proof.Machine.execHomeRegistration cluster s
  | .homeReadForward cluster word => Sys2Proof.Machine.execHomeReadForward cluster word s
  | .lineEviction cluster line => Sys2Proof.Machine.execLineEviction cluster line s
  | .monitorWake idx => Sys2Proof.Machine.execMonitorWake idx s
  | .mwaitOverflowPoll k => Sys2Proof.Machine.execMwaitOverflowPoll k s
  | .allowanceRequest op => Sys2Proof.Machine.execAllowanceRequest op s
  | .cacheUncorrectableError err => Sys2Proof.Machine.execCacheUncorrectableError err s
  | .clusterUnresponsive cluster => Sys2Proof.Machine.execClusterUnresponsive cluster s
  | .pageWalk op => Sys2Proof.Machine.execPageWalk op s
  | .teamPlacement team => Sys2Proof.Machine.execTeamPlacement team s
  | .teamSwapOut team => Sys2Proof.Machine.execTeamSwapOut team s
  | .teamResume team => Sys2Proof.Machine.execTeamResume team s
  | .imageUpdate idx => Sys2Proof.Machine.execImageUpdate idx s
  | .voteDissent unit => Sys2Proof.Machine.execVoteDissent unit s
  | .voteReadmission unit => Sys2Proof.Machine.execVoteReadmission unit s
  | .comparedPairDisagreement unit => Sys2Proof.Machine.execComparedPairDisagreement unit s
  | .tileUpdate op => Sys2Proof.Machine.execTileUpdate op s
  | .slotPush idx => Sys2Proof.Machine.execSlotPush idx s
  | .dieLinkFlitRetry a b => Sys2Proof.Machine.execDieLinkFlitRetry a b s
  | .dieLinkFailure a b => Sys2Proof.Machine.execDieLinkFailure a b s
  | .alertBackOff stack bank => Sys2Proof.Machine.execAlertBackOff stack bank s
  | .refresh stack bank postpone => Sys2Proof.Machine.execRefresh stack bank postpone s
  | .cxlLinkFailed link => Sys2Proof.Machine.execCxlLinkFailed link s
  | .tellerQueryStart op => Sys2Proof.Machine.execTellerQueryStart op s
  | .batchReturn op => Sys2Proof.Machine.execBatchReturn op s
  | .tellerCompletion op => Sys2Proof.Machine.execTellerCompletion op s
  | .tellerSramError op => Sys2Proof.Machine.execTellerSramError op s
  | .stackUnresponsive stack => Sys2Proof.Machine.execStackUnresponsive stack s
  | .doorbell queue tail => Sys2Proof.Machine.execDoorbell queue tail s
  | .recordFetch queue => Sys2Proof.Machine.execRecordFetch queue s
  | .launch queue => Sys2Proof.Machine.execLaunch queue s
  | .createContext => Sys2Proof.Machine.execCreateContext s
  | .endContext => Sys2Proof.Machine.execEndContext s
  | .resolveReplay => Sys2Proof.Machine.execResolveReplay s
  | .resolveDeliver => Sys2Proof.Machine.execResolveDeliver s
  | .resolveEndThread => Sys2Proof.Machine.execResolveEndThread s
  | .waitConditionMet grid w => Sys2Proof.Machine.execWaitConditionMet grid w s
  | .teamHandout die => Sys2Proof.Machine.execTeamHandout die s
  | .deadlineExpiry grid => Sys2Proof.Machine.execDeadlineExpiry grid s
  | .quantumExpiry tenant => Sys2Proof.Machine.execQuantumExpiry tenant s
  | .gridComplete grid => Sys2Proof.Machine.execGridComplete grid s
  | .fqheadWrite tenant v => Sys2Proof.Machine.execFqheadWrite tenant v s
  | .supervisorRegisterWrite num v => Sys2Proof.Machine.execSupervisorRegisterWrite num v s
  | .cpVoteDisagreement cp => Sys2Proof.Machine.execCpVoteDisagreement cp s
  | .snapshotTrigger src => Sys2Proof.Machine.execSnapshotTrigger src s
  | .snapshotRearm => Sys2Proof.Machine.execSnapshotRearm s
  | .getVersion => Sys2Proof.Machine.execGetVersion s
  | .getCapabilities => Sys2Proof.Machine.execGetCapabilities s
  | .negotiateAlgorithms offer => Sys2Proof.Machine.execNegotiateAlgorithms offer s
  | .getDigests => Sys2Proof.Machine.execGetDigests s
  | .getCertificate slot offset length => Sys2Proof.Machine.execGetCertificate slot offset length s
  | .challenge slot nonce => Sys2Proof.Machine.execChallenge slot nonce s
  | .getMeasurements index => Sys2Proof.Machine.execGetMeasurements index s
  | .firmwareLoad unit images => Sys2Proof.Machine.execFirmwareLoad unit images s
  | .powerLimitSet watts => Sys2Proof.Machine.execPowerLimitSet watts s
  | .thermalThrottle steps => Sys2Proof.Machine.execThermalThrottle steps s
  | .thermalTrip => Sys2Proof.Machine.execThermalTrip s
  | .hostLinkError => Sys2Proof.Machine.execHostLinkError s
  | .moduleReset => Sys2Proof.Machine.execModuleReset s
  | .modidWrite v => Sys2Proof.Machine.execModidWrite v s
  | .fabContextWrite ctx v => Sys2Proof.Machine.execFabContextWrite ctx v s
  | .injectArm arg => Sys2Proof.Machine.execInjectArm arg s
  | .waconFlitRetry port => Sys2Proof.Machine.execWaconFlitRetry port s
  | .portFailure port => Sys2Proof.Machine.execPortFailure port s
  | .remoteOpArrival req => Sys2Proof.Machine.execRemoteOpArrival req s
  | .remoteAck op reply => Sys2Proof.Machine.execRemoteAck op reply s
  | .remoteTimeout op => Sys2Proof.Machine.execRemoteTimeout op s
  | .roceWorkFetch qp => Sys2Proof.Machine.execRoceWorkFetch qp s
  | .roceCompletion qp => Sys2Proof.Machine.execRoceCompletion qp s
  | .rdmaInbound qp request bytes => Sys2Proof.Machine.execRdmaInbound qp request bytes s
  | .coreReset core => Sys2Proof.Machine.execCoreReset core s
  | .cacheMaintenanceComplete op => Sys2Proof.Machine.execCacheMaintenanceComplete op s
  | .tileMaintenanceComplete op => Sys2Proof.Machine.execTileMaintenanceComplete op s
  | .tlbinvComplete op => Sys2Proof.Machine.execTlbinvComplete op s
  | .stashMapComplete op => Sys2Proof.Machine.execStashMapComplete op s
  | .stashWbComplete op => Sys2Proof.Machine.execStashWbComplete op s
  | .portTrained port => Sys2Proof.Machine.execPortTrained port s
  | .hostLinkTraining state => Sys2Proof.Machine.execHostLinkTraining state s
  | .rdmaReadRequest qp va length => Sys2Proof.Machine.execRdmaReadRequest qp va length s
  | .cnpReceived qp => Sys2Proof.Machine.execCnpReceived qp s

end Sys2Proof.Machine
end

