-- ==== Sys2Proof/Machine/Issue.lean ====
section
/-! DEFINITION. The issue of gangs: readiness, the choice of R21, the words of a gang one lane at a time, and the end of
a core cycle (01_thread R21, R24; 02_encoding R49; 06_core R134; 07_core_access R176). -/

namespace Sys2Proof.Machine

/-- Applies a function to a next state. -/
def mapNext (f : State → State) (o : Out) : Out :=
  match o with
  | .next s => .next (f s)
  | .fault r => .fault r
  | .refused r => .refused r

def Status.isReady : Status → Bool
  | .ready => true
  | _ => false

/-- A thread that performs its word: one that is ready, or one that evaluates its cross-lane wait again as a seat of its
group has left (R22). -/
def Thread.acts (t : Thread) : Bool := t.status.isReady || t.waitMask.isSome

/-! ### A word of the acting thread (R49) -/

/-- The word the acting thread stands at. -/
def State.wordNow (s : State) : Option Nat :=
  match s.th.clause with
  | none => none
  | some c => if c.word = 0 then none else (c.words[c.word - 1]?).map BitVec.toNat

/-- A word that is no instruction: the first of R49's checks that fails. -/
def State.illegal (s : State) (w : Nat) (e : DecodeError) : Out :=
  match e with
  | .opcode => s.fault 0x01
  | .badPrefix => s.prefixWord (fun _ => false) (.operand 7 false 0)
  | .field => if !s.opcodeOk w then s.fault 0x01 else if !s.classOk w then s.fault 0x05 else s.fault 0x02

/-- Decodes the word of the acting thread and performs it. -/
noncomputable def State.runWord (s : State) (w : Nat) : Out :=
  match decodeNat w with
  | .ok i => exec i s
  | .error e => s.illegal w e

/-! ### The lanes of a gang issue (R134) -/

/-- The first lane of the issue has been served. -/
def State.popLane (s : State) : State :=
  { s with pfx := none, issue := s.issue.map (fun i => { i with lanes := i.lanes.tail }) }

/-- After a word: a prefix keeps its lane for the word it prefixes (R48). -/
def State.laneDone (s : State) : State := if s.pfx.isSome then s else s.popLane

/-- R29, R176: the seats of a thread's group that faulted in the issue. -/
def Issue.seats (i : Issue) (k : ThreadKey) : Word := seatMaskOf k (i.faulted.map Prod.fst)

/-- A thread waits since a gang issue for a stash line. -/
def Thread.onFill (n : Nat) (t : Thread) : Bool :=
  t.lastIssue == n && (match t.status with | .parked (.stash _ _ _ _) => true | _ => false)

/-- The issue ends: its faults' records in the fault area take their lanes fields, at 0x20 in the record; what it leaves
outstanding may add lanes to the records not yet delivered. -/
def State.closeIssue (s : State) (i : Issue) : State :=
  let write (s : State) (f : ThreadKey × Option Nat) : State :=
    match f.2 with
    | some pa => s.deviceWrite i.core (pa + 0x20) (leBytes 4 (i.seats f.1).toNat)
    | none => s
  let s := i.faulted.foldl write s
  { s.unfocus with issue := none, pfx := none, 
                      laneFaults := s.laneFaults.filter (fun f =>
                        s.ops.any (fun o => o.issue == f.1) || s.allThreads.any (Thread.onFill f.1)) }

/-- One lane of an issue: its thread becomes the acting one, then performs its word, and its prefixed word after it. -/
noncomputable def State.stepLane (s : State) (k : ThreadKey) : Out :=
  if s.th.key = k then
    match s.th.acts, s.wordNow with
    | true, some w => mapNext State.laneDone (s.runWord w)
    | _, _ => .next s.popLane
  else
    match s.unfocus.focus k with
    | some t => .next t
    | none => .next s.popLane

/-- A step while a gang issue is in progress. -/
noncomputable def State.stepIssue (s : State) (i : Issue) : Out :=
  match i.lanes with
  | [] => .next (s.closeIssue i)
  | k :: _ => s.stepLane k

/-! ### A parked access whose line has become present (R166) -/

/-- A cross-lane wait whose set is complete waited for the lanes of a faulted load (R176), and they have settled now. -/
def State.meetSettled (s : State) (t : Thread) : Bool :=
  t.waitMask.isSome &&
  (match s.completeAt t (s.waitingAt t.key t.pc) with
   | some p => p.all (fun u => s.ops.all (fun o => o.key != u.key || o.fault.isNone || o.regs.isEmpty || s.faultReady o))
   | none => false)

/-- A thread of a resident team whose parked access is to be performed, or whose cross-lane wait is to be evaluated again. -/
def State.redoes (s : State) (t : Thread) : Bool :=
  (t.redo || s.meetSettled t) && t.acts && t.clause.isSome && ((s.team? t.key.team).map Team.resident).getD false

/-- Parked accesses are performed the moment their lines are present, as an issue of their own that belongs to no pipe: the
threads of a team at one word together, in (group, seat) order (R166). So is a cross-lane wait evaluated again, one thread
at a time, after a seat has left (R22). -/
def State.redoIssue (s : State) : Option State :=
  (s.allThreads.find? s.redoes).map (fun t =>
    let same (u : Thread) : Bool :=
      if t.waitMask.isSome then u.key == t.key
      else s.redoes u && u.waitMask.isNone && u.key.team == t.key.team && u.role == t.role && u.pc == t.pc
    let lanes := ((s.allThreads.filter same).map Thread.key).insertionSort (fun a b => keyBefore a b = true)
    { (s.mapThreads (fun u => if lanes.contains u.key then { u with redo := false, lastIssue := s.nextIssue } else u)) with
        issue := some { num := s.nextIssue, core := ((s.team? t.key.team).map Team.core).getD 0, lanes := lanes, faulted := [] },
        nextIssue := s.nextIssue + 1 })

/-! ### The choice of a gang (R21) -/

/-- A team that has run out of grace issues nothing more (R26). -/
def Team.mayIssue (m : Team) : Bool :=
  m.resident && (match m.preempt with | some p => p.grace != 0 | none => true)

/-- A ready thread of a core that has not issued in the cycle, with its team. A thread at a header whose wait is over has
its clause open: that is the first thing to happen (`State.dueEvents`). -/
def State.readyOn (s : State) (c : Core) : List (Thread × Team) :=
  s.allThreads.filterMap (fun t =>
    if t.status.isReady && t.clause.isSome && !c.issued.contains t.key then
      (match s.team? t.key.team with
       | some m => if m.mayIssue && m.core == c.num then some (t, m) else none
       | none => none)
    else none)

/-- Lexicographic order of keys of one length. -/
def lexLt : List Nat → List Nat → Bool
  | a :: as, b :: bs => decide (a < b) || (a == b && lexLt as bs)
  | _, _ => false

/-- The first of a list in an order. -/
def firstBy {α : Type} (lt : α → α → Bool) : List α → Option α
  | [] => none
  | a :: l =>
    match firstBy lt l with
    | none => some a
    | some b => if lt b a then some b else some a

def aged (t : Thread) : Bool := decide (1024 ≤ t.age)

/-- Greatest age, then lowest team slot, role and (group, seat). -/
def agedBefore (a b : Thread × Team) : Bool :=
  if a.1.age = b.1.age then
    lexLt [a.2.slot, roleNum a.1.role, a.1.key.group, a.1.key.seat] [b.2.slot, roleNum b.1.role, b.1.key.group, b.1.key.seat]
  else decide (b.1.age < a.1.age)

/-- Next team after the pipe's pointer, next role after the team's pointer, lowest program counter. -/
def turnKey (ptr : Nat) (x : Thread × Team) : List Nat :=
  [(x.2.slot + 15 - ptr) % 16, (roleNum x.1.role + 2 - roleNum x.2.rolePtr) % 3, x.1.pc.toNat]

/-- The thread whose team, role and program counter the pipe chooses, and whether it was chosen for its age. -/
def State.pickGang (s : State) (c : Core) (ptr : Nat) : Option ((Thread × Team) × Bool) :=
  match firstBy agedBefore ((s.readyOn c).filter (fun x => aged x.1)) with
  | some x => some (x, true)
  | none => (firstBy (fun a b => lexLt (turnKey ptr a) (turnKey ptr b)) (s.readyOn c)).map (fun x => (x, false))

/-- Aged threads first by greatest age, then ascending (group, seat). -/
def gangBefore (a b : Thread) : Bool :=
  let x := if aged a then a.age else 0
  let y := if aged b then b.age else 0
  if x = y then keyBefore a.key b.key else decide (y < x)

/-- Up to 32 ready threads of a team and role at a program counter, in (group, seat) order (R134). -/
def State.gang (s : State) (c : Core) (t : Thread) : List ThreadKey :=
  let same := ((s.readyOn c).map Prod.fst).filter (fun u => u.key.team == t.key.team && u.role = t.role && u.pc == t.pc)
  let chosen := (same.insertionSort (fun a b => gangBefore a b = true)).take 32
  (chosen.map Thread.key).insertionSort (fun a b => keyBefore a b = true)

/-- A pipe forms its gang; the issue's lanes act in the steps that follow. -/
def State.pipe (s : State) (c : Core) (second : Bool) : State :=
  let ptr := if second then c.ptr1 else c.ptr0
  let after : Phase := if second then .tick else .pipe1
  match s.pickGang c ptr with
  | none => s.setCore { c with phase := after }
  | some ((t, m), old) =>
    let g := s.gang c t
    let p := if old then ptr else m.slot
    let c := { c with issued := c.issued ++ g, phase := after, ptr0 := if second then c.ptr0 else p,
                      ptr1 := if second then p else c.ptr1 }
    let s := if old then s else s.setTeam { m with rolePtr := t.role }
    let young (u : Thread) : Thread := if g.contains u.key then { u with age := 0, lastIssue := s.nextIssue } else u
    { (s.setCore c).mapThreads young with
        issue := some { num := s.nextIssue, core := c.num, lanes := g, faulted := [] }, nextIssue := s.nextIssue + 1 }

/-! ### The end of a core cycle (R18, R21, R24, R26, R102) -/

/-- What a core cycle does to a thread of the core; `waited` where it was ready and in neither gang. -/
def Thread.cycleEnd (t : Thread) (waited : Bool) : Thread :=
  let t := if waited then { t with age := t.age + 1 } else t
  let t := if t.status.counts then { t with watchdog := t.watchdog + 1 } else t
  match t.status with
  | .yielded n => { t with status := if n ≤ 1 then .ready else .yielded (n - 1) }
  | .parked (.mwaitOverflow _ _ _) => { t with poll := t.poll - 1 }
  | _ => t

/-- What a core cycle does to a team of the core. -/
def Team.cycleEnd (m : Team) : Team :=
  { m with tills := m.tills.map (fun o => o.map (fun t => { t with timer := t.timer - 1 })),
           preempt := m.preempt.map (fun p => { p with grace := p.grace - 1 }) }

/-- The core cycle ends. -/
def State.cycleEnd (s : State) (c : Core) : State :=
  let waiting := (s.readyOn c).map (fun x => x.1.key)
  let here (m : Team) : Bool := m.resident && m.core == c.num
  let mine (t : Thread) : Bool := ((s.team? t.key.team).map here).getD false
  let s' := s.mapThreads (fun t => if mine t then t.cycleEnd (waiting.contains t.key) else t)
  let ends (m : Team) : Team := if here m then m.cycleEnd else m
  { (s'.setCore { c with cycle := c.cycle + 1, phase := .pipe0, issued := [] }) with
      tm := ends s.tm, teams := s.teams.map ends }

/-- A core's next half of its cycle. -/
def State.coreMove (s : State) (n : Nat) : State :=
  let c := s.coreAt n
  match c.phase with
  | .pipe0 => s.pipe c false
  | .pipe1 => s.pipe c true
  | .tick => s.cycleEnd c

end Sys2Proof.Machine
end

