-- ==== Sys2Proof/Machine/Moves.lean ====
section
/-! DEFINITION. What may happen next while no gang issue is in progress: halves of core cycles, clocks, the events whose
condition holds, what comes from outside, and the free eviction of cached copies (25_index R427; 95_what_each_step_holds; log entries 4, 5);
and the placing of one instruction where the machine performs its next word. -/

namespace Sys2Proof.Machine

/-! ### Events (95_what_each_step_holds) -/

/-- Events that may befall an operation, by any of which it goes on. -/
noncomputable def opEvents (n : Nat) : List Instr :=
  [.loadReturn n, .storeWritten n, .atomicReturn n, .specialFunctionResult n, .copyLanding n, .matrixExecute n,
   .accClrExecute n, .allowanceRequest n, .pageWalk n, .tileUpdate n, .tellerQueryStart n, .batchReturn n,
   .tellerCompletion n, .cacheMaintenanceComplete n, .tileMaintenanceComplete n, .tlbinvComplete n,
   .stashMapComplete n, .stashWbComplete n]

/-- Events of a thread that the spec leaves free in time. -/
noncomputable def threadEvents (k : ThreadKey) : List Instr := [.mwaitOverflowPoll k]

/-- Events of a team's tills, windows, runs and residency. -/
noncomputable def teamEvents (m : Team) : List Instr :=
  let u := m.uid
  let fills : List Instr := m.stash.zipIdx.flatMap (fun w => (List.range w.1.lines.length).map (fun l => .stashFill u w.2 l))
  let compacts : List Instr :=
    (List.range 256).flatMap (fun d => .compactorMove u none d :: m.groups.map (fun g => .compactorMove u (some g.num) d))
  .teamPlacement u :: .teamSwapOut u :: .teamResume u :: (fills ++ compacts)

/-- Events of a cluster cache and of home towards it. -/
noncomputable def State.clusterEvents (s : State) (k : Cluster) : List Instr :=
  let reads : List Instr := s.registry.map (fun e => .homeReadForward k.num e.1)
  let lines := k.bytes.map (fun b => lineOf b.1) ++ k.escrow.map Escrow.line
  .homeRegistration k.num :: (reads ++ lines.map (.lineEviction k.num))

/-- Events of a queue's command processor. -/
noncomputable def queueEvents (n : Nat) : List Instr := [.recordFetch n, .launch n]

/-- Events of a grid. -/
noncomputable def gridEvents (g : Grid) : List Instr :=
  [.gridComplete g.id]

/-- The next request of this module to itself, in the order in which they left (R414), and the answers to its own operations
(R409, R413). -/
noncomputable def State.selfEvents (s : State) : List Instr :=
  match s.moduleNum with
  | none => []
  | some me =>
    let arrivals : List Instr := ((s.fabric.outbox.find? (fun q => q.1 == me)).toList).map (fun q => .remoteOpArrival q.2)
    let acks : List Instr := (s.fabric.replies.filter (fun r => r.source == me)).map (fun r => .remoteAck r.tag r.reply)
    arrivals ++ acks

/-- Every event that the machine itself may bring about. -/
noncomputable def State.events (s : State) : List Instr :=
  ([s.ops.flatMap (fun o => opEvents o.id), s.allThreads.flatMap (fun t => threadEvents t.key),
    s.allTeams.flatMap teamEvents, s.clusters.flatMap s.clusterEvents,
    s.registrations.map (fun r => .homeRegistration r.cluster), s.monitors.map (fun m => .monitorWake m.idx),
    s.imageUpdates.map (fun u => .imageUpdate u.idx), s.pushes.map (fun p => .slotPush p.idx),
    s.queues.flatMap (fun q => queueEvents q.num),
    [.createContext, .endContext, .resolveReplay, .resolveDeliver, .resolveEndThread],
    s.grids.flatMap gridEvents, (List.range 4).map .teamHandout,
    s.votes.map (fun v => .voteReadmission v.unit), s.selfEvents,
    s.roce.flatMap (fun q => [.roceWorkFetch q.num, .roceCompletion q.num])] : List (List Instr)).flatten

/-! ### Events whose moment the spec fixes -/

/-- The tills that go next in their teams, in the order in which they became due (R19). -/
noncomputable def State.releaseEvents (s : State) : List Instr :=
  let due := s.allTeams.filterMap (fun m => m.nextDue.map (fun x => (x.2.due.getD 0, Instr.tillRelease m.uid x.1)))
  (due.insertionSort (fun a b => a.1 ≤ b.1)).map Prod.snd

/-- A thread in overflow mode that has to read its condition again (R225). -/
def Thread.mustPoll (t : Thread) : Bool :=
  t.poll == 0 && (match t.status with | .parked (.mwaitOverflow _ _ _) => true | _ => false)

/-- Events that take place as soon as their conditions hold: the end of a grace budget (R26), a till's timer (R18), the
release of a due till (R19), the watchdog (R24), the opening of a clause whose wait is over (R21), the reading of a
condition in overflow mode (R225), the end of a deadline and what follows from it, the end of a quantum (R379), the
reading of a wait condition (R377), the end of the time a remote operation waits (R413), and, as every write is performed at
last (R242), the leaving of a flag with the last lane of a load (R173), the handling of a registration whose delay is over and the next event of an operation whose delay is over (log
entry 81). -/
noncomputable def State.dueEvents (s : State) : List Instr :=
  ([s.allTeams.map (fun m => .graceBudgetExpiry m.uid),
    s.allTeams.flatMap (fun m => (List.range 8).map (.tillTimerExpiry m.uid)), s.releaseEvents,
    s.allThreads.map (fun t => .watchdog t.key), s.allThreads.map (fun t => .clauseIssue t.key),
    (s.allThreads.filter Thread.mustPoll).map (fun t => .mwaitOverflowPoll t.key),
    s.grids.map (fun g => .deadlineExpiry g.id), s.allTeams.map (fun m => .preemptionRequest m.uid),
    s.tenants.map (fun t => .quantumExpiry t.num), s.ops.map (fun o => .remoteTimeout o.id),
    s.grids.flatMap (fun g => (List.range g.waits.length).map (.waitConditionMet g.id)),
    (s.ops.filter (fun o => o.kind = .written false || o.kind = .written true)).map (fun o => .loadReturn o.id),
    (s.registrations.filter (fun r => decide (r.due ≤ s.tick))).map (fun r => .homeRegistration r.cluster),
    (s.ops.filter (fun o => decide (o.due ≤ s.tick))).flatMap (fun o => opEvents o.id)] : List (List Instr)).flatten

/-- Something that may happen next. -/
inductive Move where
  | event (i : Instr)
  | input
  | core (n : Nat)
  | commandClock (cp : Nat)
  | fabricClock
  /-- Translations leave at any time (R316, R317): entry `i` of a core's list, or of a die's. -/
  | dropTlb (core i : Nat)
  | dropClusterTlb (cluster i : Nat)
  | dropTellerTlb (i : Nat)
  | dropWalk (i : Nat)
  /-- The shared cache evicts a line to memory (R248). -/
  | dropHome (line : Nat)
  /-- The command processor schedules a pre-empted team again (R323). -/
  | schedule (team : Nat)
  /-- The broadcast of a snapshot reaches a block (R387). -/
  | latch (n : Nat)
  deriving DecidableEq, Repr

/-- Whether an event would change the machine now: one whose condition does not hold leaves it as it is (log entry 5). -/
def State.occurs (s : State) (i : Instr) : Bool :=
  match exec i s with
  | .next t => decide (t ≠ s)
  | _ => false

/-- Evictions. -/
def State.evictions (s : State) : List Move :=
  s.cores.flatMap (fun c => (List.range c.tlb.length).map (.dropTlb c.num)) ++
  s.clusters.flatMap (fun k => (List.range k.tlb.length).map (.dropClusterTlb k.num)) ++
  (List.range s.tellerTlb.length).map .dropTellerTlb ++ (List.range s.walkCache.length).map .dropWalk ++
  s.homeLines.map .dropHome

/-- R390: a module that has tripped does nothing but answer its management. -/
def ofManagement (i : Instr) : Bool :=
  match i with
  | .snapshotRearm | .getVersion | .getCapabilities | .negotiateAlgorithms _ | .getDigests | .getCertificate _ _ _
  | .challenge _ _ | .getMeasurements _ | .firmwareLoad _ _ | .powerLimitSet _ | .thermalThrottle _ | .thermalTrip
  | .moduleReset | .modidWrite _ | .fabContextWrite _ _ | .injectArm _ => true
  | _ => false

/-- What may happen next. -/
noncomputable def State.moves (s : State) : List Move :=
  let input : List Move := if s.inputs.isEmpty then [] else [.input]
  if s.mgmt.stopped then input
  else
    input ++ (s.events.filter s.occurs).map .event ++ (List.range 1536).map .core ++
    (List.range 4).map .commandClock ++ [.fabricClock] ++
    ((s.allTeams.filter s.canSchedule).map (fun m => .schedule m.uid)) ++ s.evictions ++ s.sup.snapDue.map .latch

/-- A command processor's cycle (R5): its clock, and the time for which its tenants' grids have held slots (R379). -/
def State.commandCycle (s : State) (cp : Nat) : State :=
  let holds (t : Tenant) : Bool :=
    s.allTeams.any (fun m => m.resident && s.grids.any (fun g => g.id == m.grid && g.queue == t.num))
  let count (t : Tenant) : Tenant :=
    if t.num % 4 = cp then { t with slotTime := if holds t then t.slotTime + 1 else 0 } else t
  { s with clocks := s.clocks.set cp (s.clocks.getD cp 0 + 1), tenants := s.tenants.map count }

/-- The first event from outside: an event that finds nothing to act on passes without effect (log entry 5). -/
def State.takeInput (s : State) : Out :=
  match s.inputs with
  | [] => .next s
  | i :: rest =>
    let t := { s with inputs := rest }
    if (encodeNat i).isSome || (s.mgmt.stopped && !ofManagement i) then .next t
    else exec i t

/-- Performs a move. -/
def State.makeMove (s : State) (m : Move) : Out :=
  match m with
  | .event i => exec i s
  | .input => s.takeInput
  | .core n => .next (s.coreMove n)
  | .commandClock cp => .next (s.commandCycle cp)
  | .fabricClock => .next { s with clocks := s.clocks.set 4 (s.clocks.getD 4 0 + 1) }
  | .dropTlb n i =>
    let c := s.coreAt n
    .next (s.setCore { c with tlb := c.tlb.eraseIdx i })
  | .dropClusterTlb n i =>
    let k := s.cluster n
    .next (s.setCluster { k with tlb := k.tlb.eraseIdx i })
  | .dropTellerTlb i => .next { s with tellerTlb := s.tellerTlb.eraseIdx i }
  | .dropWalk i => .next { s with walkCache := s.walkCache.eraseIdx i }
  | .dropHome line => .next (s.homeToMem line 256)
  | .schedule u => .next (s.schedule u)
  | .latch n => .next (s.snapBlock n)

/-- The first event that is due now, if the module has not tripped. -/
noncomputable def State.dueNow (s : State) : Option Instr :=
  if s.mgmt.stopped then none else s.dueEvents.find? s.occurs

/-- A slot that may be freed is freed (R325); an access whose line has become present is performed (R166); a fault that has
waited for the lanes of its issue is taken (R176); then what is due happens, else one of the things that may happen next,
by free choice (log entry 4). A module that has tripped and is asked nothing stays as it is. -/
noncomputable def State.stepMove (s : State) : Out :=
  let t := { s with tick := s.tick + 1 }
  match t.allTeams.find? t.slotDone with
  | some m => .next (t.freeSlot m.uid)
  | none =>
    match t.redoIssue, t.heldFault with
    | some u, _ => .next u
    | none, some (o, r) => .next (t.failOp1 o r)
    | none, none =>
      match t.dueNow with
      | some i => exec i t
      | none =>
        match t.moves[Config.choice s.tick % t.moves.length]? with
        | some m => t.makeMove m
        | none => .next t

/-! ### Placing an instruction -/

/-- A role that may issue the words of a major opcode (R130). -/
def roleForMajor (m : Nat) : Role :=
  if 0x56 ≤ m ∧ m ≤ 0x58 then .matrix else if (0x52 ≤ m ∧ m ≤ 0x55) ∨ m = 0x6C ∨ m = 0x76 then .copy else .vector

/-- The team of a placed instruction: slot 0 of core 0, one group with one seat. -/
def placedTeam (r : Role) : Team :=
  { Team.inert with uid := 0, budgets := [256, 256, 256], used := listAdd [0, 0, 0] (roleNum r) 32,
                    res := .resident 0 0,
                    groups := [{ num := 0, entry := 0, role := r, window := 256, live := 1, members := 1, run := 0, dead := [] }] }

/-- The clause of a placed instruction: the word, and after a prefix a word of zeros (R48). -/
def placedClause (w : Nat) : ClauseCtx :=
  let two := majorOf w == 0x7E || majorOf w == 0x7F
  { header := 0, count := if two then 2 else 1, cls := classOfMajor (majorOf w), wait := 0, setA := 0, setB := 1,
    words := BitVec.ofNat 32 w :: (if two then [0] else []), word := 1 }

/-- The thread of a placed instruction, with a window of 256 registers. -/
def placedThread (w : Nat) : Thread :=
  { Thread.born ⟨0, 0, 0⟩ (roleForMajor (majorOf w)) 0 256 0 with pc := 4, clause := some (placedClause w) }

/-- The instruction `w` stands as the next word of a thread alone in its gang, of a team of a supervisor context. -/
def State.placeWord (s : State) (w : Nat) : State :=
  let c : Ctx :=
    { num := 0, root := 0, dtab := 0, tvec := 0, save := 0, savelen := 0, wdog := 2 ^ 24, grace := 8192, tenant := 0,
      supervisor := true, regions := [] }
  let issue : Issue := { num := s.nextIssue, core := 0, lanes := [⟨0, 0, 0⟩], faulted := [] }
  { s with th := placedThread w, tm := placedTeam (roleForMajor (majorOf w)), ctxs := c :: s.ctxs.filter (fun x => x.num != 0),
           threads := s.threads.filter (fun t => t.key.team != 0), teams := s.teams.filter (fun m => m.uid != 0),
           issue := some issue, pfx := none, nextIssue := s.nextIssue + 1 }

end Sys2Proof.Machine
end

