-- ==== Sys2Proof/Machine/Step.lean ====
section
/-! DEFINITION. One step of the machine, and the placing of an instruction as the next one that a step performs. -/

namespace Sys2Proof.Machine

/-- One step: the next lane's word while a gang issue is in progress (R21, R134), else one of the things that may happen
next (R427). -/
noncomputable def step (s : State) : Host.Outcome State Fault Refusal :=
  match s.issue with
  | some i => s.stepIssue i
  | none => s.stepMove

/-- The instruction whose bits are `w` stands where the next step takes its word (log entry 10). -/
def State.withFetchWord (s : State) (nbits w : Nat) : State := s.placeWord (w % 2 ^ nbits % 2 ^ 32)

end Sys2Proof.Machine
end

