-- ==== Sys2Proof/Safety.lean ====
section
/-! DEFINITION. What counts as a safe run, in the terms the statements use: the canonical form of memory and of the
shared cache, and the conditions under which a word performs its own effect (01_thread R11, R13; 02_encoding R39, R45,
R49). -/

namespace Sys2Proof.Machine

/-! ### The invariant of every step -/

/-- Memory below the shared cache and the bytes the shared cache holds are in canonical form (log entry 1): equal contents
are equal data. -/
def State.memOk (s : State) : Bool := Memory.wf s.mem && Cells.wf s.home

/-! ### When a word performs its own effect -/

/-- The word stands in a clause of its class (R39), its thread has the role it needs (R130), every register it names lies
in the window (R11) and is not pending (R13), and no register it reads holds an error (R154). -/
def State.canRun (s : State) (cls : Nat) (role : Option Role) (reads writes : List Nat) : Bool :=
  (cls == 0 || cls == s.clsNow) && (match role with | none => true | some r => decide (r = s.th.role)) &&
  (reads ++ writes).all (fun r => decide (r < s.th.window) && !s.th.pending r) &&
  reads.all (fun r => !s.th.badRegs.contains r)

/-- The word has no prefix. -/
def State.bare (s : State) : Bool := s.pfx.isNone

/-- The word has no prefix, or an operand prefix whose predicate is true of the acting thread (R45). -/
def State.unmasked (s : State) : Bool :=
  match s.pfx with
  | none => true
  | some (.operand p _ _) => s.th.pred p
  | some (.hint _ _ _) => false

/-- The word has an operand prefix whose predicate is false of the acting thread, with this `zero` bit (R45). -/
def State.maskedBy (s : State) (zero : Bool) : Bool :=
  match s.pfx with
  | some (.operand p z _) => !s.th.pred p && z == zero
  | _ => false

/-- The word has no prefix or a hint prefix (R46). -/
def State.hinted (s : State) : Bool :=
  match s.pfx with
  | some (.operand _ _ _) => false
  | _ => true

/-- The state after a word that only changes its thread, by `f`: the thread at its next word, nothing else changed. -/
def State.after (s : State) (f : Thread → Thread) : State := { s with th := (f s.th).advance, pfx := none }

/-- A tracked word may issue now: its flag has room (R12), and no `ld.acq` of its thread is outstanding (R278). -/
def State.free (s : State) (e : Bool) : Bool := s.flagRoom e && !s.acqPending

/-- The word's class, its thread's role, and every register it names inside the window: what is checked of a masked-off
thread too (R45). -/
def State.fits (s : State) (cls : Nat) (role : Option Role) (regs : List Nat) : Bool :=
  (cls == 0 || cls == s.clsNow) && (match role with | none => true | some r => decide (r = s.th.role)) &&
  regs.all (fun r => decide (r < s.th.window))

/-- What a word that the operand prefix may mask names: class, role, the registers it reads and its destinations (R45). -/
structure MaskForm where
  cls : Nat
  role : Option Role
  reads : List Nat
  dests : List Nat
  deriving DecidableEq, Repr

/-- The words that the operand prefix masks (R45, R84, R111); `sel` is not among them. -/
def State.maskForm (s : State) (i : Instr) : Option MaskForm :=
  match i with
  | .add d a b | .sub d a b | .mul d a b | .mulhI32 d a b | .mulhN32 d a b | .divI32 d a b | .divN32 d a b
  | .remI32 d a b | .remN32 d a b | .minI32 d a b | .minN32 d a b | .maxI32 d a b | .maxN32 d a b | .and d a b
  | .or d a b | .xor d a b | .andn d a b | .shl d a b | .shr d a b | .sar d a b | .rotl d a b | .bfxI32 d a b
  | .bfxN32 d a b => some ⟨0, none, [a, b], [d]⟩
  | .mad d a b => some ⟨0, none, [a, b, s.addend d], [d]⟩
  | .fsh d a b | .bfi d a b => some ⟨0, none, [a, b, d], [d]⟩
  | .lea1 d a b | .lea2 d a b | .lea4 d a b | .lea8 d a b | .lea16 d a b =>
    some ⟨0, none, pairRegs a ++ [b], pairRegs d⟩
  | .addi d a _ | .shli d a _ | .shri d a _ | .sari d a _ | .mov d a | .not d a | .abs d a | .neg d a | .clz d a
  | .ctz d a | .popc d a | .brev d a => some ⟨0, none, [a], [d]⟩
  | .pget d | .rdk d _ => some ⟨0, none, [], [d]⟩
  | .fadd d a b | .faddRz d a b | .fsub d a b | .fsubRz d a b | .fmul d a b | .fmulRz d a b | .fmin d a b
  | .fminNan d a b | .fmax d a b | .fmaxNan d a b | .hadd2Bf16 d a b | .hmul2Bf16 d a b | .hmax2Bf16 d a b =>
    some ⟨1, some .vector, [a, b], [d]⟩
  | .ffma d a b | .ffmaRz d a b | .hfma2Bf16 d a b => some ⟨1, some .vector, [a, b, s.addend d], [d]⟩
  | .fabs d a | .fneg d a | .fclass d a | .cvtF32I32 d a | .cvtF32N32 d a | .cvtI32F32Rz d a | .cvtI32F32Rne d a
  | .cvtN32F32Rz d a | .cvtF32Bf16Lo d a | .cvtF32Bf16Hi d a | .cvtF32E4m3 d a _ | .cvtF32E5m2 d a _
  | .cvtF32E2m1 d a _ => some ⟨1, some .vector, [a], [d]⟩
  | .cvtBf16x2F32 d a => some ⟨1, some .vector, blockRegs a 2 ++ [], [d]⟩
  | .cvtE4m3x4F32Sat d a | .cvtE4m3x4F32Nan d a | .cvtE5m2x4F32Sat d a | .cvtE5m2x4F32Inf d a =>
    some ⟨1, some .vector, blockRegs a 4 ++ [], [d]⟩
  | .rcp _ d a | .rsqrt _ d a | .sqrt _ d a | .exp2 _ d a | .log2 _ d a | .sinpi _ d a | .cospi _ d a | .tanh _ d a =>
    some ⟨1, some .vector, [a], [d]⟩
  | .cvtE2m1x8F32 d a b => some ⟨1, some .vector, blockRegs a 8 ++ [b], [d]⟩
  | _ => none

/-! ### Where a word meets no wait and no fault of its operands -/

/-- The state once the acting thread waits at a meeting word with the mask it reads there, or has read there before (R156). -/
def State.arrived (s : State) (m : Nat) : State :=
  if s.th.waitMask.isSome then s else s.withTh (fun t => { t with status := .xlane (t.reg m ||| (1#32 <<< t.key.seat)) })

/-- With the acting thread's arrival the set `p` is complete, its threads agree on it, and no register of theirs is
pending or in error (R156, R157, R154). -/
def State.meets (s : State) (m : Nat) (reads writes : List Nat) (p : List Thread) : Bool :=
  let u := s.arrived m
  decide (u.complete? (u.waitingAt u.th.key u.th.pc) = some p) && decide (u.team? u.th.key.team = some u.tm) &&
  u.setsDiffer p == 0 && p.all (fun t => (u.meetFault t u.tm reads writes).isNone)

/-- A scratchpad access of `n` bytes lies in bounds and aligned, outside every stash window, and its line is present (R136,
R137). -/
def State.scratchFree (s : State) (o : Int) (n : Nat) : Bool :=
  (s.tm.scratchCheck o n n).isNone && (s.tm.stashAt o.toNat).isNone && !s.absent s.tm.uid (o.toNat / 256)

/-- A global address is well formed and outside every stash window (R171, R268). -/
def State.wordOk (s : State) (va : Addr) (size : Nat) : Bool := addrOk va size && (s.tm.stashVa va).isNone

/-- No earlier access of the acting thread to memory is outstanding, none that `tret` is to perform again among them: what an
arrival waits for (R184, R237; in the handler as log entry 84 has it). -/
def State.settled (s : State) : Bool :=
  (s.awaited Op.accesses).isEmpty

/-- No earlier write of the acting thread is outstanding (R235). -/
def State.written (s : State) : Bool :=
  (s.awaited (fun o => o.kind.isWrite)).isEmpty

/-- The queue of the acting core's engine has room (R135). -/
def State.room (s : State) (which : OpKind → Bool) (size : Nat) : Bool :=
  decide ((s.engineQueue s.tm.core which).length < size)

/-- A scratchpad range of a copy: in bounds, aligned to 16, and outside the acting team's windows (R136, R170). -/
def State.rangeOk (s : State) (o n : Nat) : Bool := (s.tm.scratchCheck o n 16).isNone && !s.tm.overlapsStash o n

/-- A tile word's handle is bound to the descriptor `t`, its coordinates are inside, and its registers are ready (R328). -/
def State.tileOk (s : State) (role : Option Role) (reads writes : List Nat) (a h : Nat) (t : Desc) : Bool :=
  decide (s.tm.descOf h = some t) && s.canRun 5 role (blockRegs a t.rank ++ reads) writes &&
  t.inside (s.th.coords a t.rank)

/-! ### Where an event applies (R426) -/

/-- The operation with this number is outstanding without a fault, waits for no page, and its team is not swapped out. -/
def State.opReady (s : State) (n : Nat) (o : Op) : Bool :=
  decide (s.op? n = some o) && o.fault.isNone && o.waitPage.isNone && !s.outside o.key.team

end Sys2Proof.Machine
end

