-- ==== Sys2Proof/Certificates/Slice0/Obligations.lean ====
section
/-! DEFINITION. The statements for the provers. Each docstring names the rules of spec/ it formalises. A statement about a
word ends in the next state where the word may run; `Frames` says what those states leave alone. -/

open Sys2Proof Sys2Proof.Machine

/-! ### The machine as a whole -/

/-- R49, R39, R45, R130, R11, R13, R154: the checks of a word that the operand prefix may mask, in the order of R49: the
clause's class, the prefix, the role, the bounds of every register the word names; then its registers in operand order,
sources before destinations (R83): the first that is pending, or that is read and holds an error. Each raises its own cause
at the word. Where the check for an error (R154) stands among the pending checks, in operand order with the pending bit of one
register first, no rule says: that clause is the model's choice (DESIGN CHOICE, log entry 92). -/
def Obligations.IssueChecks : Prop :=
  ∀ (s : State) (i : Instr) (m : MaskForm), s.maskForm i = some m →
    let bad (c : Nat) : Out := .next (s.trap { s.here with cause := c })
    let clsOk : Prop := m.cls = 0 ∨ m.cls = s.clsNow
    let hinted : Prop := ∃ n l x, s.pfx = some (.hint n l x)
    let roleOk : Prop := ∀ r, m.role = some r → r = s.th.role
    let inside : Prop := ∀ r ∈ m.reads ++ m.dests, r < s.th.window
    (¬ clsOk → exec i s = bad 0x05) ∧ (clsOk → hinted → exec i s = bad 0x03) ∧
    (clsOk → ¬ hinted → ¬ roleOk → exec i s = bad 0x06) ∧
    (clsOk → ¬ hinted → roleOk → ¬ inside → exec i s = bad 0x08) ∧
    (clsOk → roleOk → inside → s.unmasked = true →
      let sound (r : Nat) : Prop := s.th.pending r = false ∧ s.th.badRegs.contains r = false
      let noFaults : Prop := ∀ o ∈ s.ops, o.key = s.th.key → o.fault = none
      (∀ l r rest, m.reads = l ++ r :: rest → (∀ x ∈ l, sound x) →
        (s.th.pending r = true → noFaults → exec i s = bad 0x07) ∧
        (s.th.pending r = false → s.th.badRegs.contains r = true →
          exec i s = .next (s.trap { s.here with cause := 0x30, vaddr := BitVec.ofNat 64 r }))) ∧
      ((∀ r ∈ m.reads, sound r) → (∃ r ∈ m.dests, s.th.pending r = true) → noFaults → exec i s = bad 0x07))

/-- What the states of the other statements leave alone. A word that only changes its thread, and the issue of an
operation, leave every byte of memory, the team with its scratchpad, every other thread and the special registers as they
were; a register, predicate or index-register write changes that one alone (R10); the store of bytes into a cluster cache
that has room changes only its own bytes, and those only where the issuing cluster owns their words (R215, R218), where it
owns both words of an 8-byte unit it writes or neither (else the registration takes place with the store, R234), no
registration of the cluster is on its way and the core's L1 does not hold the bytes (else what the cluster sent first may
arrive, R216), and no update of the index unit is hidden from linear readers (R249). -/
def Obligations.Frames : Prop :=
  let same (s u : State) : Prop :=
    u.tm = s.tm ∧ u.threads = s.threads ∧ u.teams = s.teams ∧ u.sup = s.sup ∧ u.ctxs = s.ctxs ∧ u.tenants = s.tenants ∧
    u.cores = s.cores ∧ ∀ a, u.performByte a = s.performByte a
  let sameRegs (t u : Thread) : Prop := u.regs = t.regs ∧ u.preds = t.preds ∧ u.xs = t.xs
  let sameRest (t u : Thread) : Prop :=
    u.key = t.key ∧ u.role = t.role ∧ u.trapActive = t.trapActive ∧ u.cause = t.cause ∧ u.fpc = t.fpc
  (∀ (s : State) (f : Thread → Thread), same s (s.after f) ∧ (s.after f).ops = s.ops) ∧
  (∀ (s : State) (e : Bool) (rs : List Nat) (pa : Option Nat) (k : OpKind) (c : Scope),
    let u := s.addOp e rs pa k c
    same s u ∧ sameRegs s.th u.th ∧ sameRest s.th u.th ∧
    ∃ o, u.ops = s.ops ++ [o] ∧ o.id = s.nextOp ∧ o.kind = k ∧ o.pa = pa ∧ o.key = s.th.key ∧ o.regs = rs ∧ o.scope = c ∧ o.fault = none ∧
      o.flag = if s.chosen e = 15 then none else some (s.chosen e)) ∧
  (∀ (t : Thread), sameRegs t t.advance ∧ sameRest t t.advance ∧ t.advance.pend = t.pend ∧ t.advance.watchdog = t.watchdog) ∧
  (∀ (t : Thread) (i j : Nat) (v : Word),
    (t.setReg i v).reg j = (if j = i ∧ i < t.window then v else t.reg j) ∧ sameRest t (t.setReg i v) ∧
    (t.setReg i v).preds = t.preds ∧ (t.setReg i v).xs = t.xs ∧ (t.setReg i v).pend = t.pend) ∧
  (∀ (t : Thread) (i j : Nat) (b : Bool),
    (t.setPred i b).pred j = (if j = i ∧ i < 7 then b else t.pred j) ∧ sameRest t (t.setPred i b) ∧
    (t.setPred i b).regs = t.regs ∧ (t.setPred i b).xs = t.xs ∧ (t.setPred i b).pend = t.pend) ∧
  (∀ (t : Thread) (i j : Nat) (v : BitVec 16),
    (t.setX i v).x j = (if j = i ∧ i < t.xs.length then v else t.x j) ∧ sameRest t (t.setX i v) ∧
    (t.setX i v).regs = t.regs ∧ (t.setX i v).preds = t.preds ∧ (t.setX i v).pend = t.pend) ∧
  (∀ (m : Team) (o a : Nat) (b : List Byte), Memory.wf m.scratch = true →
    (m.scratchWrite o b).scratchByte a = (if o ≤ a ∧ a < o + b.length then b.getD (a - o) 0 else m.scratchByte a) ∧
    Memory.wf (m.scratchWrite o b).scratch = true) ∧
  (∀ (s : State) (n : Nat) (o : Op) (va : Addr) (b : List Byte) (pa : Nat), s.opReady n o = true →
    o.kind = .store va b none → o.pa = some pa → s.writeReady o pa b.length = true → s.hasEscrow (lineOf pa) = false →
    (s.cluster (o.core / 16)).crowd (.line (lineOf pa)) = [] → s.viewMarks = [] → (∀ m ∈ s.allTeams, ∀ x ∈ m.stash, x.valid = false) →
    (∀ r ∈ s.registrations, r.cluster ≠ o.core / 16) →
    (∀ u ∈ unitsOf pa b.length, (s.coreAt o.core).l1Line (.line (lineOf (8 * u))) = none) →
    (∀ w ∈ wordsOf pa b.length, ∀ x ∈ wordsOf pa b.length, w / 2 = x / 2 →
      (s.ownerOf w = some (o.core / 16) ↔ s.ownerOf x = some (o.core / 16))) →
    ∃ t, exec (.storeWritten n) s = .next t ∧ t.mem = s.mem ∧ t.home = s.home ∧
      ∀ a, t.performByte a =
        if pa ≤ a ∧ a < pa + b.length ∧ s.ownerOf (a / 4) = some (o.core / 16) then b.getD (a - pa) 0 else s.performByte a)

/-- R41, R49, R50 to R55: the decoder reads back every well-formed instruction from the word that encodes it, with every
operand at every value its field admits. -/
def Obligations.DecodeOfEncode : Prop :=
  ∀ (i : Instr) (w : Word), i.wf = true → encode i = some w →
    decodeWord w = .ok i ∧ decodeBytes (wordBytes w) = some (.ok i, [])

/-- R49, R50 to R55: a word that the decoder accepts is the encoding of the instruction it gives, and that instruction is
well formed: no bit of an accepted word is dropped. -/
def Obligations.EncodeOfDecode : Prop :=
  ∀ (i : Instr) (w : Word), decodeWord w = .ok i → i.wf = true ∧ encode i = some w

/-- R41, R50 to R55: words written out from the encoding tables decode to the instructions they stand for. -/
def Obligations.DecodedWords : Prop :=
  decodeWord 0x0E010203 = .ok (.divI32 1 2 3) ∧ decodeWord 0x44020325 = .ok (.shri 2 3 5) ∧
  decodeWord 0x4A040C20 = .ok (.add64 2 3 4) ∧ decodeWord 0x4C120304 = .ok (.cmpLtI32 2 3 4) ∧
  decodeWord 0x5002FFFB = .ok (.setx 2 0xFFFB) ∧ decodeWord 0x52090103 = .ok (.rdx 9 1 3) ∧
  decodeWord 0x59E00028 = .ok (.call 15 0x28) ∧ decodeWord 0x5A010008 = .ok (.rdsr 1 0) ∧
  decodeWord 0x5A050A0E = .ok (.prng 5 10 2) ∧ decodeWord 0x5A000000 = .ok .nop ∧
  decodeBytes [0x03, 0x02, 0x01, 0x0E] = some (.ok (.divI32 1 2 3), []) ∧ decodeWord 0 = .error .opcode

/-- R21, R49, R134: a step while a gang issue is in progress performs the word of its next lane: where the lane's thread
acts, is ready and stands at a word that decodes to `i`, the step is `exec i`, after which the lane has been served (a prefix
keeps its lane for the word it prefixes, R48). A word is the four bytes at its address, little-endian, at their performing
point (R4, R37). While no issue is in progress a step is one of the things that may happen next, and an event's step is its
meaning: a slot that may be freed is freed (R325), else a parked access whose line is present is performed (R166), else a
fault that has waited for its lanes is taken (R176), else an event that is due takes place, else one of the moves. The
spec orders none of these: that order is the model's own (DESIGN CHOICE, log entry 83), and the interleaving of the moves a
free choice (log entry 4). -/
def Obligations.StepRunsDecodedInstruction : Prop :=
  (∀ (s : State) (g : Issue) (k : ThreadKey) (rest : List ThreadKey) (w : Nat), s.issue = some g → g.lanes = k :: rest →
    s.th.key = k → s.th.status = .ready → s.wordNow = some w →
    (∀ i, decodeNat w = .ok i →
      step s = (match exec i s with
        | .next t => .next (if t.pfx.isSome then t else { t with issue := t.issue.map (fun x => { x with lanes := x.lanes.tail }) })
        | r => r)) ∧
    (decodeNat w = .error .opcode →
      ∃ t, step s = .next t ∧ t = (s.trap { s.here with cause := 0x01 }).laneDone)) ∧
  (∀ (s s' : State) (m : Team) (va : Addr) (l : Leaf) (pa : Nat),
    s.translate m.core m.ctx va .execute = (.ok (l, pa), s') → s'.readable va pa 4 = .ok () →
    s.fetchWord m va =
      (.ok (s'.performByte (pa + 3) ++ s'.performByte (pa + 2) ++ s'.performByte (pa + 1) ++ s'.performByte pa), s')) ∧
  (∀ (s : State), s.issue = none →
    let t := { s with tick := s.tick + 1 }
    (∀ m, t.allTeams.find? t.slotDone = some m → step s = .next (t.freeSlot m.uid)) ∧
    (t.allTeams.find? t.slotDone = none →
      (∀ u, t.redoIssue = some u → step s = .next u) ∧
      (t.redoIssue = none →
        (∀ o r, t.heldFault = some (o, r) → step s = .next (t.failOp1 o r)) ∧
        (t.heldFault = none →
          (∀ i, t.dueNow = some i → i ∈ t.dueEvents ∧ step s = exec i t) ∧
          (t.dueNow = none →
            (t.moves = [] → step s = .next t) ∧ (t.moves ≠ [] → ∃ m ∈ t.moves, step s = t.makeMove m)))))) ∧
  (∀ (s : State) (i : Instr), s.makeMove (.event i) = exec i s)

/-- R21, R382, R390 and the reset values of the state: after reset no thread, team, context, operation or grid exists,
nothing is cached or registered, memory lists nothing, every queue is empty, the power limit is 3.4 kW, and a core's team
pointers stand at slot 15. The values that the spec does not give are the model's (log entries 1 to 3). -/
def Obligations.ResetState : Prop :=
  let s := State.reset
  s.allThreads = [] ∧ s.allTeams = [] ∧ s.ctxs = [] ∧ s.ops = [] ∧ s.grids = [] ∧ s.issue = none ∧ s.pfx = none ∧
  s.registry = [] ∧ s.registrations = [] ∧ s.monitors = [] ∧ s.poison = [] ∧ s.homePoison = [] ∧
  s.viewMarks = [] ∧ s.walks = [] ∧ s.laneFaults = [] ∧ s.revoking = [] ∧ s.mem = [] ∧ s.home = [] ∧ s.memOk = true ∧
  (∀ n, s.coreAt n = { num := n, cycle := 0, ptr0 := 15, ptr1 := 15, phase := .pipe0, issued := [], l1 := [], tlb := [] }) ∧
  (∀ n, (s.cluster n).bytes = [] ∧ (s.cluster n).owned = [] ∧ (s.cluster n).escrow = [] ∧ (s.cluster n).lost = false) ∧
  (∀ q ∈ s.queues, q.head = q.tail ∧ q.fetched = none) ∧ (∀ u, s.voteOf u = 3) ∧ s.mgmt.powerLimit = 3400 ∧
  s.fabric.modid = 0 ∧ ∀ n, (s.tenantOf n).fq = []

/-- Every step keeps the canonical form of memory and of the bytes that the shared cache holds newer than it (the two of
R1's table and R216): addresses strictly rising, and no listed byte of memory equal to what an unlisted address reads as. No
rule gives the form: it, and what an unlisted address reads as, are the model's choice (log entry 1). -/
def Obligations.StepKeepsMemOk : Prop := ∀ (s t : State), s.memOk = true → step s = .next t → t.memOk = true

/-- Every state has a next one: no word and no event ends a run. That an event whose condition does not hold, or that names
nothing, leaves the machine as it is, and that what is due comes in one order, is the model's choice (log entries 5 and 83). -/
def Obligations.EveryStepAnswers : Prop := ∀ (s : State), ∃ t, step s = .next t

/-! ### Integer words (R85 to R96) -/

/-- R85, R86: the integer arithmetic of majors 0x01 to 0x0E without the fourth operand writes its result to v[d] and
changes nothing else, wherever the word may run unmasked. -/
def Obligations.IntegerArithmetic : Prop :=
  ∀ (s : State) (d a b : Nat), s.canRun 0 none [a, b] [d] = true → s.unmasked = true →
    let x := s.th.reg a
    let y := s.th.reg b
    let wrote (v : Word) : Out := .next (s.after (fun t => t.setReg d v))
    exec (.add d a b) s = wrote (x + y) ∧ exec (.sub d a b) s = wrote (x - y) ∧ exec (.mul d a b) s = wrote (x * y) ∧
    exec (.mulhI32 d a b) s = wrote (BitVec.ofInt 32 (x.toInt * y.toInt / 2 ^ 32)) ∧
    exec (.mulhN32 d a b) s = wrote (BitVec.ofNat 32 (x.toNat * y.toNat / 2 ^ 32)) ∧
    exec (.divI32 d a b) s = wrote (if y = 0 then 0xFFFFFFFF else BitVec.ofInt 32 (x.toInt.tdiv y.toInt)) ∧
    exec (.divN32 d a b) s = wrote (if y = 0 then 0xFFFFFFFF else BitVec.ofNat 32 (x.toNat / y.toNat)) ∧
    exec (.remI32 d a b) s = wrote (if y = 0 then x else BitVec.ofInt 32 (x.toInt.tmod y.toInt)) ∧
    exec (.remN32 d a b) s = wrote (if y = 0 then x else BitVec.ofNat 32 (x.toNat % y.toNat)) ∧
    exec (.minI32 d a b) s = wrote (if x.toInt ≤ y.toInt then x else y) ∧
    exec (.minN32 d a b) s = wrote (if x.toNat ≤ y.toNat then x else y) ∧
    exec (.maxI32 d a b) s = wrote (if y.toInt ≤ x.toInt then x else y) ∧
    exec (.maxN32 d a b) s = wrote (if y.toNat ≤ x.toNat then x else y)

/-- R85, R45, R90, R113, R115: `mad`, `ffma`, `ffma.rz` and `hfma2.bf16` add v[c] under the operand prefix and the old v[d]
without one; `sel` takes v[a] where the prefix's predicate is true, and without a prefix, else v[b]. -/
def Obligations.PrefixedOperands : Prop :=
  (∀ (s : State) (d a b : Nat), s.unmasked = true →
    let c := match s.pfx with
      | some (.operand _ _ c) => c
      | _ => d
    let x := s.th.reg a
    let y := s.th.reg b
    let z := s.th.reg c
    let wrote (v : Word) : Out := .next (s.after (fun t => t.setReg d v))
    (s.canRun 0 none [a, b, c] [d] = true → exec (.mad d a b) s = wrote (x * y + z)) ∧
    (s.canRun 1 (some .vector) [a, b, c] [d] = true →
      exec (.ffma d a b) s = wrote (toF32 .rne (((f32 x).mul (f32 y)).add (f32 z))) ∧
      exec (.ffmaRz d a b) s = wrote (toF32 .rz (((f32 x).mul (f32 y)).add (f32 z))) ∧
      exec (.hfma2Bf16 d a b) s = wrote (packHalves
        (toB16 (((b16 (loHalf x)).mul (b16 (loHalf y))).add (b16 (loHalf z))))
        (toB16 (((b16 (hiHalf x)).mul (b16 (hiHalf y))).add (b16 (hiHalf z))))))) ∧
  (∀ (s : State) (d a b : Nat), s.canRun 0 none [a, b] [d] = true → s.hinted = false ∨ s.bare = true →
    let p := match s.pfx with
      | some (.operand p _ _) => s.th.pred p
      | _ => true
    exec (.sel d a b) s = .next (s.after (fun t => t.setReg d (if p then s.th.reg a else s.th.reg b))))

/-- R87: logic, shifts by a register, the rotate and the funnel shift; counts of 32 or more empty or fill the word. -/
def Obligations.LogicAndShifts : Prop :=
  ∀ (s : State) (d a b : Nat), s.unmasked = true →
    let x := s.th.reg a
    let y := s.th.reg b
    let n := y.toNat
    let wrote (v : Word) : Out := .next (s.after (fun t => t.setReg d v))
    (s.canRun 0 none [a, b] [d] = true →
      exec (.and d a b) s = wrote (x &&& y) ∧ exec (.or d a b) s = wrote (x ||| y) ∧ exec (.xor d a b) s = wrote (x ^^^ y) ∧
      exec (.andn d a b) s = wrote (x &&& ~~~y) ∧
      exec (.shl d a b) s = wrote (if 32 ≤ n then 0 else BitVec.ofNat 32 (x.toNat * 2 ^ n)) ∧
      exec (.shr d a b) s = wrote (if 32 ≤ n then 0 else BitVec.ofNat 32 (x.toNat / 2 ^ n)) ∧
      exec (.sar d a b) s = wrote (x.sshiftRight n) ∧
      exec (.rotl d a b) s = wrote (x.rotateLeft (n % 32))) ∧
    (s.canRun 0 none [a, b, d] [d] = true →
      exec (.fsh d a b) s = wrote (BitVec.ofNat 32 ((x.toNat * 2 ^ 32 + y.toNat) / 2 ^ ((s.th.reg d).toNat % 64))))

/-- R88: bit-field extraction and insertion, bit by bit: the field runs from `pos` for `len` bits, cut at bit 31. -/
def Obligations.BitFields : Prop :=
  ∀ (s : State) (d a b : Nat), s.unmasked = true →
    let x := s.th.reg a
    let old := s.th.reg d
    let pos := (s.th.reg b).toNat % 256
    let len := (s.th.reg b).toNat / 256 % 256
    let w := min (pos + len) 32 - pos
    let wrote (v : Word) : Out := .next (s.after (fun t => t.setReg d v))
    (s.canRun 0 none [a, b] [d] = true →
      (∃ v, exec (.bfxN32 d a b) s = wrote v ∧ ∀ i, i < 32 → v.getLsbD i = (decide (i < w) && x.getLsbD (pos + i))) ∧
      (∃ v, exec (.bfxI32 d a b) s = wrote v ∧
        ∀ i, i < 32 → v.getLsbD i = (decide (0 < w) && x.getLsbD (pos + min i (w - 1))))) ∧
    (s.canRun 0 none [a, b, d] [d] = true →
      ∃ v, exec (.bfi d a b) s = wrote v ∧
        ∀ i, i < 32 → v.getLsbD i = if pos ≤ i ∧ i < pos + w then x.getLsbD (i - pos) else old.getLsbD i)

/-- R85, R87, R91, R92: immediates, address generation and moves. -/
def Obligations.ImmediatesAndAddresses : Prop :=
  ∀ (s : State) (d a b n : Nat) (i : BitVec 8) (j : BitVec 16),
    let x := s.th.reg a
    let at_ (k : Nat) : BitVec 64 := s.th.pair a + (s.th.reg b).setWidth 64 * BitVec.ofNat 64 k
    let wrote (v : Word) : Out := .next (s.after (fun t => t.setReg d v))
    let wrote2 (v : BitVec 64) : Out := .next (s.after (fun t => t.setPair d v))
    (s.canRun 0 none [a] [d] = true → s.unmasked = true →
      exec (.addi d a i) s = wrote (x + i.signExtend 32) ∧ exec (.shli d a n) s = wrote (x <<< n) ∧
      exec (.shri d a n) s = wrote (x >>> n) ∧ exec (.sari d a n) s = wrote (x.sshiftRight n)) ∧
    (s.canRun 0 none [a, a + 1, b] [d, d + 1] = true → s.unmasked = true →
      exec (.lea1 d a b) s = wrote2 (at_ 1) ∧ exec (.lea2 d a b) s = wrote2 (at_ 2) ∧ exec (.lea4 d a b) s = wrote2 (at_ 4) ∧
      exec (.lea8 d a b) s = wrote2 (at_ 8) ∧ exec (.lea16 d a b) s = wrote2 (at_ 16)) ∧
    (s.canRun 0 none [] [d] = true → s.bare = true → exec (.movi d j) s = wrote (j.setWidth 32)) ∧
    (s.canRun 0 none [d] [d] = true → s.bare = true → exec (.movhi d j) s = wrote (j ++ (s.th.reg d).setWidth 16))

/-- R93, R41: 64-bit integers on the pairs v(2j), v(2j+1); a shift count is the low word of pair b. -/
def Obligations.PairArithmetic : Prop :=
  ∀ (s : State) (d a b : Nat),
    s.canRun 0 none [2 * a, 2 * a + 1, 2 * b, 2 * b + 1] [2 * d, 2 * d + 1] = true → s.bare = true →
    let x := s.th.pair (2 * a)
    let y := s.th.pair (2 * b)
    let n := (s.th.reg (2 * b)).toNat
    let wrote (v : BitVec 64) : Out := .next (s.after (fun t => t.setPair (2 * d) v))
    exec (.add64 d a b) s = wrote (x + y) ∧ exec (.sub64 d a b) s = wrote (x - y) ∧ exec (.mul64 d a b) s = wrote (x * y) ∧
    exec (.shl64 d a b) s = wrote (x <<< n) ∧ exec (.shr64 d a b) s = wrote (x >>> n) ∧
    exec (.sar64 d a b) s = wrote (x.sshiftRight n)

/-- R94: compares of words, pairs and immediates, and the logic of predicates, write predicate p; R10: a write of p7 is
discarded. -/
def Obligations.ComparesAndPredicates : Prop :=
  ∀ (s : State) (p a b : Nat) (i : BitVec 8), s.bare = true →
    let x := s.th.reg a
    let y := s.th.reg b
    let k := i.signExtend 32
    let wrote (v : Bool) : Out := .next (s.after (fun t => t.setPred p v))
    (s.canRun 0 none [a, b] [] = true →
      exec (.cmpEq p a b) s = wrote (decide (x = y)) ∧ exec (.cmpNe p a b) s = wrote (decide (x ≠ y)) ∧
      exec (.cmpLtI32 p a b) s = wrote (decide (x.toInt < y.toInt)) ∧ exec (.cmpLtN32 p a b) s = wrote (decide (x.toNat < y.toNat)) ∧
      exec (.cmpLeI32 p a b) s = wrote (decide (x.toInt ≤ y.toInt)) ∧ exec (.cmpLeN32 p a b) s = wrote (decide (x.toNat ≤ y.toNat))) ∧
    (s.canRun 0 none [a, a + 1, b, b + 1] [] = true →
      exec (.cmp64Eq p a b) s = wrote (decide (s.th.pair a = s.th.pair b)) ∧
      exec (.cmp64LtI64 p a b) s = wrote (decide ((s.th.pair a).toInt < (s.th.pair b).toInt)) ∧
      exec (.cmp64LtN64 p a b) s = wrote (decide ((s.th.pair a).toNat < (s.th.pair b).toNat))) ∧
    (s.canRun 0 none [a] [] = true →
      exec (.cmpiEq p a i) s = wrote (decide (x = k)) ∧ exec (.cmpiLtI32 p a i) s = wrote (decide (x.toInt < i.toInt))) ∧
    (s.canRun 0 none [] [] = true →
      exec (.pand p a b) s = wrote (s.th.pred a && s.th.pred b) ∧ exec (.por p a b) s = wrote (s.th.pred a || s.th.pred b) ∧
      exec (.pxor p a b) s = wrote (xor (s.th.pred a) (s.th.pred b)) ∧
      exec (.pandn p a b) s = wrote (s.th.pred a && !s.th.pred b) ∧ exec (.pnot p a) s = wrote (!s.th.pred a) ∧
      exec (.pmov p a) s = wrote (s.th.pred a)) ∧
    (∀ (t : Thread) (v : Bool), t.setPred 7 v = t ∧ t.pred 7 = true)

/-- R89: the single-source forms; the counts are characterised by the bits around them. -/
def Obligations.SingleSource : Prop :=
  ∀ (s : State) (d a k : Nat), s.unmasked = true →
    let x := s.th.reg a
    let wrote (v : Word) : Out := .next (s.after (fun t => t.setReg d v))
    (s.canRun 0 none [a] [d] = true →
      exec (.mov d a) s = wrote x ∧ exec (.not d a) s = wrote (~~~x) ∧
      exec (.abs d a) s = wrote (BitVec.ofInt 32 x.toInt.natAbs) ∧ exec (.neg d a) s = wrote (0 - x) ∧
      (∃ n, exec (.clz d a) s = wrote (BitVec.ofNat 32 n) ∧ n ≤ 32 ∧ (∀ i, i < n → x.getLsbD (31 - i) = false) ∧
        (n < 32 → x.getLsbD (31 - n) = true)) ∧
      (∃ n, exec (.ctz d a) s = wrote (BitVec.ofNat 32 n) ∧ n ≤ 32 ∧ (∀ i, i < n → x.getLsbD i = false) ∧
        (n < 32 → x.getLsbD n = true)) ∧
      exec (.popc d a) s = wrote (BitVec.ofNat 32 ((List.range 32).countP (fun i => x.getLsbD i))) ∧
      (∃ v, exec (.brev d a) s = wrote v ∧ ∀ i, i < 32 → v.getLsbD i = x.getLsbD (31 - i))) ∧
    (s.canRun 0 none [] [d] = true →
      (∃ v, exec (.pget d) s = wrote v ∧ ∀ i, i < 32 → v.getLsbD i = (decide (i < 8) && (s.th.pred i))) ∧
      exec (.rdk d k) s = wrote (s.tm.consts.getD k 0))

/-- R95, R96: index registers, and the indirect reads and writes whose index xN + imm lies in the window; outside it
REG_BOUNDS with the index in the detail field, whatever registers are pending. -/
def Obligations.IndexRegisters : Prop :=
  ∀ (s : State) (x d : Nat) (i : BitVec 16) (j : BitVec 8), s.bare = true →
    let n : Int := (s.th.x x).toInt + j.toNat
    (s.canRun 0 none [] [] = true →
      exec (.setx x i) s = .next (s.after (fun t => t.setX x i)) ∧
      exec (.incx x i) s = .next (s.after (fun t => t.setX x (s.th.x x + i)))) ∧
    (0 ≤ n → s.canRun 0 none [n.toNat] [d] = true →
      exec (.rdx d x j) s = .next (s.after (fun t => t.setReg d (s.th.reg n.toNat)))) ∧
    (0 ≤ n → s.canRun 0 none [d] [n.toNat] = true →
      exec (.wrx d x j) s = .next (s.after (fun t => t.setReg n.toNat (s.th.reg d)))) ∧
    (n < 0 ∨ (s.th.window : Int) ≤ n →
      let bound := s.trap { s.here with cause := 0x08, detail := (BitVec.ofInt 32 n).setWidth 64 }
      s.fits 0 none [d] = true → exec (.rdx d x j) s = .next bound ∧ exec (.wrx d x j) s = .next bound)

/-- R45, R84: a word that the operand prefix masks off leaves the thread's registers alone, or writes 0 to its destination
(both registers of a pair) where the prefix's zero bit is 1; it reads no operand and takes no execution fault. -/
def Obligations.MaskedOff : Prop :=
  ∀ (s : State) (i : Instr) (m : MaskForm), s.maskForm i = some m → s.fits m.cls m.role (m.reads ++ m.dests) = true →
    (s.maskedBy false = true → exec i s = .next (s.after id)) ∧
    (s.maskedBy true = true → (∀ r ∈ m.dests, s.th.pending r = false) →
      exec i s = .next (s.after (fun t => m.dests.foldl (fun t r => t.setReg r 0) t)))

/-! ### Floating-point words (R110 to R125) -/

/-- R113, R115 to R117: FP32 and packed BF16 arithmetic rounded once, compares into a predicate, absolute value and
negation, wherever a VECTOR thread's class-1 word may run; nothing else changes. `fclass` sets exactly one bit, by the
encoding's class. -/
def Obligations.FloatArithmetic : Prop :=
  ∀ (s : State) (d a b : Nat),
    let x := s.th.reg a
    let y := s.th.reg b
    let wrote (v : Word) : Out := .next (s.after (fun t => t.setReg d v))
    let tested (v : Bool) : Out := .next (s.after (fun t => t.setPred d v))
    let halves (f : Val → Val → Val) : Out :=
      wrote (packHalves (toB16 (f (b16 (loHalf x)) (b16 (loHalf y)))) (toB16 (f (b16 (hiHalf x)) (b16 (hiHalf y)))))
    (s.canRun 1 (some .vector) [a, b] [d] = true → s.unmasked = true →
      exec (.fadd d a b) s = wrote (toF32 .rne ((f32 x).add (f32 y))) ∧
      exec (.faddRz d a b) s = wrote (toF32 .rz ((f32 x).add (f32 y))) ∧
      exec (.fsub d a b) s = wrote (toF32 .rne ((f32 x).add (f32 y).neg)) ∧
      exec (.fsubRz d a b) s = wrote (toF32 .rz ((f32 x).add (f32 y).neg)) ∧
      exec (.fmul d a b) s = wrote (toF32 .rne ((f32 x).mul (f32 y))) ∧
      exec (.fmulRz d a b) s = wrote (toF32 .rz ((f32 x).mul (f32 y))) ∧
      exec (.hadd2Bf16 d a b) s = halves Val.add ∧ exec (.hmul2Bf16 d a b) s = halves Val.mul) ∧
    (s.canRun 1 (some .vector) [a, b] [] = true → s.bare = true →
      exec (.fcmpEq d a b) s = tested (decide ((f32 x).eq? (f32 y) = some true)) ∧
      exec (.fcmpLt d a b) s = tested (decide ((f32 x).lt? (f32 y) = some true)) ∧
      exec (.fcmpLe d a b) s =
        tested (decide ((f32 x).lt? (f32 y) = some true) || decide ((f32 x).eq? (f32 y) = some true)) ∧
      exec (.fcmpUn d a b) s = tested ((f32 x).isNan || (f32 y).isNan)) ∧
    (s.canRun 1 (some .vector) [a] [d] = true → s.unmasked = true →
      exec (.fabs d a) s = wrote (if (f32 x).isNan then 0x7FC00000 else x &&& 0x7FFFFFFF) ∧
      exec (.fneg d a) s = wrote (if (f32 x).isNan then 0x7FC00000 else x ^^^ 0x80000000) ∧
      let e := x.toNat / 2 ^ 23 % 256
      let m := x.toNat % 2 ^ 23
      ∃ k, exec (.fclass d a) s = wrote (BitVec.ofNat 32 (2 ^ k)) ∧ k ≤ 9 ∧
        (k = 0 ↔ x = 0xFF800000) ∧ (k = 1 ↔ x.msb = true ∧ e ≠ 0 ∧ e ≠ 255) ∧ (k = 2 ↔ x.msb = true ∧ e = 0 ∧ m ≠ 0) ∧
        (k = 3 ↔ x = 0x80000000) ∧ (k = 4 ↔ x = 0) ∧ (k = 5 ↔ x.msb = false ∧ e = 0 ∧ m ≠ 0) ∧
        (k = 6 ↔ x.msb = false ∧ e ≠ 0 ∧ e ≠ 255) ∧ (k = 7 ↔ x = 0x7F800000) ∧
        (k = 8 ↔ e = 255 ∧ x.getLsbD 22 = true) ∧ (k = 9 ↔ e = 255 ∧ x.getLsbD 22 = false ∧ m ≠ 0))

/-- R114, R115: minimum and maximum. Two NaNs give the canonical NaN; one NaN gives the other operand, or the canonical
NaN in the `.nan` forms; otherwise the result is one of the operands, no operand lies beyond it, and of two zeros −0 is
the lesser. -/
def Obligations.MinimumMaximum : Prop :=
  ∀ (s : State) (d a b : Nat), s.canRun 1 (some .vector) [a, b] [d] = true → s.unmasked = true →
    let x := s.th.reg a
    let y := s.th.reg b
    let wrote (v : Word) : Out := .next (s.after (fun t => t.setReg d v))
    let oneNan := xor (f32 x).isNan (f32 y).isNan
    let number := if (f32 x).isNan then y else x
    let beyond (u v : Word) : Prop :=
      (f32 u).lt? (f32 v) = some true ∨ ((f32 u).isZero = true ∧ (f32 v).isZero = true ∧ u.msb = true ∧ v.msb = false)
    let rule (v lone : Word) (worse : Word → Word → Prop) : Prop :=
      ((f32 x).isNan = true → (f32 y).isNan = true → v = 0x7FC00000) ∧ (oneNan = true → v = lone) ∧
      ((f32 x).isNan = false → (f32 y).isNan = false → (v = x ∨ v = y) ∧ ¬ worse x v ∧ ¬ worse y v)
    (∃ v, exec (.fmin d a b) s = wrote v ∧ rule v number beyond) ∧
    (∃ v, exec (.fmax d a b) s = wrote v ∧ rule v number (fun p q => beyond q p)) ∧
    (∃ v, exec (.fminNan d a b) s = wrote v ∧ rule v 0x7FC00000 beyond) ∧
    (∃ v, exec (.fmaxNan d a b) s = wrote v ∧ rule v 0x7FC00000 (fun p q => beyond q p)) ∧
    exec (.hmax2Bf16 d a b) s = wrote (packHalves (maxB16 (loHalf x) (loHalf y)) (maxB16 (hiHalf x) (hiHalf y)))

/-- R118 to R122, R74, R75: conversions between FP32, integers, BF16, FP8 and E2M1. -/
def Obligations.Conversions : Prop :=
  ∀ (s : State) (d a b i : Nat), s.unmasked = true →
    let x := s.th.reg a
    let at_ (k : Nat) : Val := f32 (s.th.reg (a + k))
    let wrote (v : Word) : Out := .next (s.after (fun t => t.setReg d v))
    let clamp (rm : Rm) (lo hi : Int) : Word :=
      match f32 x with
      | .nan => 0
      | .inf n => BitVec.ofInt 32 (if n then lo else hi)
      | .fin n m =>
        let v : Int := if n then -(roundNat rm m : Int) else (roundNat rm m : Int)
        BitVec.ofInt 32 (max lo (min hi v))
    let widened (h : BitVec 16) : Word := if (b16 h).isNan then 0x7FC00000 else h ++ 0#16
    let bytes (f : Fmt) (ov : Ovf) : Word :=
      BitVec.ofNat 32 (f.enc .rne ov (at_ 0) % 256 + f.enc .rne ov (at_ 1) % 256 * 2 ^ 8 + f.enc .rne ov (at_ 2) % 256 * 2 ^ 16
        + f.enc .rne ov (at_ 3) % 256 * 2 ^ 24)
    (s.canRun 1 (some .vector) [a] [d] = true →
      exec (.cvtF32I32 d a) s = wrote (toF32 .rne (Val.ofRat x.toInt)) ∧
      exec (.cvtF32N32 d a) s = wrote (toF32 .rne (.fin false x.toNat)) ∧
      exec (.cvtI32F32Rz d a) s = wrote (clamp .rz (-2 ^ 31) (2 ^ 31 - 1)) ∧
      exec (.cvtI32F32Rne d a) s = wrote (clamp .rne (-2 ^ 31) (2 ^ 31 - 1)) ∧
      exec (.cvtN32F32Rz d a) s = wrote (clamp .rz 0 (2 ^ 32 - 1)) ∧
      exec (.cvtF32Bf16Lo d a) s = wrote (widened (loHalf x)) ∧ exec (.cvtF32Bf16Hi d a) s = wrote (widened (hiHalf x)) ∧
      exec (.cvtF32E4m3 d a i) s = wrote (toF32 .rne (e4m3.val (x.toNat / 2 ^ (8 * i) % 2 ^ 8))) ∧
      exec (.cvtF32E5m2 d a i) s = wrote (toF32 .rne (e5m2.val (x.toNat / 2 ^ (8 * i) % 2 ^ 8))) ∧
      exec (.cvtF32E2m1 d a i) s = wrote (toF32 .rne (e2m1.val (x.toNat / 2 ^ (4 * i) % 2 ^ 4)))) ∧
    (s.canRun 1 (some .vector) [a, a + 1] [d] = true →
      exec (.cvtBf16x2F32 d a) s = wrote (packHalves (toB16 (at_ 0)) (toB16 (at_ 1)))) ∧
    (s.canRun 1 (some .vector) [a, a + 1, a + 2, a + 3] [d] = true →
      exec (.cvtE4m3x4F32Sat d a) s = wrote (bytes e4m3 .sat) ∧ exec (.cvtE4m3x4F32Nan d a) s = wrote (bytes e4m3 .nan) ∧
      exec (.cvtE5m2x4F32Sat d a) s = wrote (bytes e5m2 .sat) ∧ exec (.cvtE5m2x4F32Inf d a) s = wrote (bytes e5m2 .inf)) ∧
    (s.canRun 1 (some .vector) [a, a + 1, a + 2, a + 3, a + 4, a + 5, a + 6, a + 7, b] [d] = true →
      ∃ v, exec (.cvtE2m1x8F32 d a b) s = wrote v ∧
        ∀ k, k < 8 → v.toNat / 2 ^ (4 * k) % 16 = e2m1Of ((s.th.reg b).toNat % 256) (s.th.reg (a + k)))

/-- R82, R123 to R125, R12, R40: a special function leaves one operation on the chosen flag, with v[d] pending until its
result comes, and the thread goes on (or waits, where no flag is chosen); while the flag is full it waits at its word; a
masked-off thread leaves none (R111). The special operands as encodings: NaN gives the canonical NaN, and the limits of R82's
table at zeros, infinities and exact points. -/
def Obligations.SpecialFunctions : Prop :=
  (∀ (s : State) (e : Bool) (d a : Nat), s.canRun 1 (some .vector) [a] [d] = true →
    let issued (f : Special) : Out := .next (s.addOp e [d] none (.sfu d (f.eval (s.th.reg a))))
    (s.unmasked = true → s.flagRoom e = true →
      exec (.rcp e d a) s = issued .rcp ∧ exec (.rsqrt e d a) s = issued .rsqrt ∧ exec (.sqrt e d a) s = issued .sqrt ∧
      exec (.exp2 e d a) s = issued .exp2 ∧ exec (.log2 e d a) s = issued .log2 ∧ exec (.sinpi e d a) s = issued .sinpi ∧
      exec (.cospi e d a) s = issued .cospi ∧ exec (.tanh e d a) s = issued .tanh) ∧
    (s.unmasked = true → s.flagRoom e = false → exec (.rcp e d a) s = .next s.stall ∧ exec (.tanh e d a) s = .next s.stall) ∧
    (s.maskedBy true = true → exec (.rcp e d a) s = .next (s.after (fun t => t.setReg d 0)))) ∧
  (∀ (f : Special) (w : Word), (f32 w).isNan = true → f.eval w = 0x7FC00000) ∧
  (Special.rcp.eval 0 = 0x7F800000 ∧ Special.rcp.eval 0x80000000 = 0xFF800000 ∧ Special.rcp.eval 0x7F800000 = 0 ∧
    Special.rcp.eval 0xFF800000 = 0x80000000 ∧ Special.rcp.eval 0x40000000 = 0x3F000000) ∧
  (Special.rsqrt.eval 0 = 0x7F800000 ∧ Special.rsqrt.eval 0x80000000 = 0xFF800000 ∧ Special.rsqrt.eval 0x7F800000 = 0 ∧
    Special.rsqrt.eval 0xBF800000 = 0x7FC00000) ∧
  (Special.sqrt.eval 0x80000000 = 0x80000000 ∧ Special.sqrt.eval 0xBF800000 = 0x7FC00000 ∧
    Special.sqrt.eval 0x40800000 = 0x40000000 ∧ Special.sqrt.eval 0x7F800000 = 0x7F800000) ∧
  (Special.exp2.eval 0 = 0x3F800000 ∧ Special.exp2.eval 0x7F800000 = 0x7F800000 ∧ Special.exp2.eval 0xFF800000 = 0 ∧
    Special.exp2.eval 0x43000000 = 0x7F800000 ∧ Special.exp2.eval 0x40400000 = 0x41000000) ∧
  (Special.log2.eval 0x3F800000 = 0 ∧ Special.log2.eval 0 = 0xFF800000 ∧ Special.log2.eval 0x80000000 = 0xFF800000 ∧
    Special.log2.eval 0xBF800000 = 0x7FC00000 ∧ Special.log2.eval 0x7F800000 = 0x7F800000) ∧
  (Special.sinpi.eval 0x3F000000 = 0x3F800000 ∧ Special.sinpi.eval 0xBF800000 = 0x80000000 ∧
    Special.sinpi.eval 0x7F800000 = 0x7FC00000) ∧
  (Special.cospi.eval 0x3F000000 = 0 ∧ Special.cospi.eval 0x3F800000 = 0xBF800000 ∧ Special.cospi.eval 0 = 0x3F800000 ∧
    Special.cospi.eval 0xFF800000 = 0x7FC00000) ∧
  (Special.tanh.eval 0x7F800000 = 0x3F800000 ∧ Special.tanh.eval 0xFF800000 = 0xBF800000 ∧
    Special.tanh.eval 0x80000000 = 0x80000000)

/-! ### Control, traps and system registers (R16, R28 to R31, R97 to R109) -/

/-- R44, R98 to R100: `bp`, `bnp` and `br` go to header + 4·offset, or past the clause when not taken, by 57-bit addresses;
`call` leaves the header after its clause in its pair and branches; `ret` and `jr` go to a pair's address. Each answers that
next state wherever it may run (R49): no other condition is on the state. A pair that holds no word address of 57 bits is
MISALIGNED. -/
def Obligations.Branches : Prop :=
  ∀ (s : State) (p j a : Nat) (o : BitVec 21), s.bare = true →
    let at57 (x : Addr) : Addr := x &&& 0x1FFFFFFFFFFFFFF
    let target := at57 (s.header + 4 * o.signExtend 64)
    let next := at57 (s.header + BitVec.ofNat 64 (4 * (s.clauseCount + 1)))
    let ra := s.th.pair a
    (s.canRun 0 none [] [] = true →
      (s.th.pred p = true → exec (.bp p o) s = .next { s with th := s.th.goto target, pfx := none }) ∧
      (s.th.pred p = false → exec (.bp p o) s = .next { s with th := s.th.goto next, pfx := none }) ∧
      (s.th.pred p = true → exec (.bnp p o) s = .next { s with th := s.th.goto next, pfx := none }) ∧
      (s.th.pred p = false → exec (.bnp p o) s = .next { s with th := s.th.goto target, pfx := none }) ∧
      exec (.br o) s = .next { s with th := s.th.goto target, pfx := none }) ∧
    (s.canRun 0 none [] [2 * j, 2 * j + 1] = true →
      exec (.call j o) s = .next { s with th := (s.th.setPair (2 * j) next).goto target, pfx := none }) ∧
    (s.canRun 0 none [a, a + 1] [] = true → ra.toNat % 4 = 0 → ra.toNat < 2 ^ 57 →
      exec (.ret a) s = .next { s with th := s.th.goto ra, pfx := none } ∧
      exec (.jr a) s = .next { s with th := s.th.goto ra, pfx := none }) ∧
    (s.canRun 0 none [a, a + 1] [] = true → ra.toNat % 4 ≠ 0 ∨ 2 ^ 57 ≤ ra.toNat →
      exec (.ret a) s = .next (s.trap { s.here with cause := 0x09, vaddr := ra }) ∧
      exec (.jr a) s = .next (s.trap { s.here with cause := 0x09, vaddr := ra })) ∧
    (∀ (t : Thread) (x : Addr), (t.goto x).pc = x ∧ (t.goto x).hdr = x ∧ (t.goto x).clause = none ∧
      (t.goto x).regs = t.regs ∧ (t.goto x).preds = t.preds ∧ (t.goto x).xs = t.xs)

/-- R102, R103, R34, R104, R105, R387: `nop` only moves on; `yield` clears the watchdog and the thread is not ready in the next
core cycle (log entry 24), or stops at its clause under a pre-emption; `exit` waits for its flags, then the thread is gone;
`trap` and `brk` take TRAP_INSTR and BREAKPOINT at their own word, with n in the detail field; `brk` is a snapshot trigger. -/
def Obligations.SimpleControl : Prop :=
  ∀ (s : State), s.canRun 0 none [] [] = true → s.bare = true →
    exec .nop s = .next (s.after id) ∧
    (s.tm.preempt = none →
      exec .yield s = .next (s.after (fun t => { t with watchdog := 0, status := .yielded 2 }))) ∧
    (s.tm.preempt.isSome = true →
      exec .yield s =
        .next { s with th := { (s.th.goto s.header) with watchdog := 0, status := .saved false none }, pfx := none }) ∧
    (let u := if s.th.trapActive then s.dropReplay else s
     (u.flagsBusy u.th 0xFFF = true → exec .exit s = .next u) ∧
     (∀ o, u.unflagged u.th = some o → exec .exit s = .next u) ∧
     (u.flagsBusy u.th 0xFFF = false → u.unflagged u.th = none → u.firstFault u.th 0xFFF 0xFFF = none → u.th.live = true →
      exec .exit s = .next u.leave ∧ u.leave.th = Thread.inert)) ∧
    (∀ n, exec (.trap n) s = .next (s.trap { s.here with cause := 0x0B, detail := BitVec.ofNat 64 n }) ∧
      exec (.brk n) s = .next ((s.snapshot 2).trap { s.here with cause := 0x0C, detail := BitVec.ofNat 64 n }))

/-- R28, R29: a precise trap outside a handler, whose record, a multiple of 64, can be written: %cause and %fpc are set, trap-active is set,
the thread goes to %tvec, the watchdog is cleared, the 64 bytes of the record stand at %frec's place, and every register,
predicate and index register is as it was. -/
def Obligations.TrapEntry : Prop :=
  ∀ (s s' : State) (r : FaultRec) (l : Leaf) (pa : Nat), s.th.trapActive = false → s.th.key.group < s.tm.fgroups →
    (s.snapOnCause r.cause).recPlace s.tm s.th.key = (.ok (l, pa), s') → pa % 64 = 0 →
    let u := s.trap r
    let t := u.th
    let tvec := ((s.ctxOf s.tm.ctx).map Ctx.tvec).getD 0
    t.cause = BitVec.ofNat 32 r.cause ∧ t.fpc = s.wordPc ∧ t.trapActive = true ∧ t.status = .ready ∧ t.pc = tvec ∧
    t.hdr = tvec ∧ t.clause = none ∧ t.watchdog = 0 ∧ t.regs = s.th.regs ∧ t.preds = s.th.preds ∧ t.xs = s.th.xs ∧
    t.pend = s.th.pend ∧ t.key = s.th.key ∧ t.role = s.th.role ∧ u.pfx = none ∧
    ∀ i, i < 64 → u.performByte (pa + i) = r.toBytes.getD i 0

/-- R31, R381: a fault in a handler, or of a thread whose group has no record: the thread stops, the record goes to the
tenant's fault queue alone (held back while the queue is full, which the model takes to be at 2^n - 1 records, log entry 69),
marked nested in a handler, and no memory changes. R29, R176: a precise record names the seats of its group that have faulted
in the same gang issue, and those that stand in the queue name its seat (log entry 88). -/
def Obligations.HandlerFaults : Prop :=
  ∀ (s : State) (r : FaultRec), s.th.trapActive = true ∨ s.tm.fgroups ≤ s.th.key.group →
    let u := s.trap r
    let q := s.tenantOf r.tenant
    let q' := u.tenantOf r.tenant
    let w : FaultWait := .stopped s.th.key
    let r' : FaultRec := { r with nested := s.th.trapActive }
    let lane := if r.deferred = false ∧ r.engine = false then s.issue.map (fun i => (i.num, s.th.key)) else none
    let named : FaultRec :=
      match lane with
      | some (n, k) => { r' with lanes := r'.lanes ||| s.laneSeats n k }
      | none => r'
    let noted (e : FqEntry) : FqEntry :=
      match lane with
      | some (n, k) => e.addLane n k
      | none => e
    u.th = { s.th with status := .stopped } ∧ u.mem = s.mem ∧ u.home = s.home ∧ u.clusters = s.clusters ∧
    u.cores = s.cores ∧
    ((q.fqtail + 1) % 2 ^ q.lgfq ≠ q.fqhead % 2 ^ q.lgfq →
      q'.fq = q.fq.map noted ++ [⟨q.fqtail, named, w, lane⟩] ∧ q'.fqtail = (q.fqtail + 1) % 2 ^ q.lgfq ∧
      q'.held = q.held.map noted) ∧
    ((q.fqtail + 1) % 2 ^ q.lgfq = q.fqhead % 2 ^ q.lgfq →
      q'.fq = q.fq.map noted ∧ q'.fqtail = q.fqtail ∧ q'.held = q.held.map noted ++ [⟨0, named, w, lane⟩])

/-- R30, R106: `tret` outside a handler is ILLEGAL_OPCODE; in one it clears trap-active. While %fpc stands as set, a load whose
deferred fault the handler served is performed again, by a thread that goes on where it was, and an engine's fault leaves the
thread at its place (R186). Otherwise the thread goes on at %fpc: at the word of the recorded clause or at the clause header
that it names; the load that was to be performed again is dropped with its pending bits, and an address that is no word address
of 57 bits is MISALIGNED (that the load is dropped there too, and where the recorded clause is the deferred fault's, is the
model's reading, log entry 72). -/
def Obligations.ReturnFromTrap : Prop :=
  ∀ (s : State), s.canRun 0 none [] [] = true → s.bare = true →
    let r := s.th.resume
    let f := s.th.fpc
    let wordAddress := f.toNat % 4 = 0 ∧ f.toNat < 2 ^ 57
    let inside := r.clause.toNat + 4 ≤ f.toNat ∧ f.toNat ≤ r.clause.toNat + 4 * r.count
    let returned : Thread := { s.th with trapActive := false }
    let fresh (t : Thread) : Thread := { t with clause := none, held := none, redo := false, block := none }
    let resumed (t : Thread) : Thread :=
      { fresh t with pc := (r.hdr + BitVec.ofNat 64 (4 * r.word)) &&& 0x1FFFFFFFFFFFFFF, hdr := r.hdr, startAt := r.word }
    let owed := s.th.replay.bind s.op?
    let u : State :=
      match owed with
      | none => { s with th := { returned with replay := none } }
      | some o => { s.dropOp o.id with th := { returned.clearPendings o.regs with replay := none } }
    let again (o : Op) : Prop := ∃ x, o.fault = some x ∧ x.deferred = true
    (s.th.trapActive = false → exec .tret s = .next (s.trap { s.here with cause := 0x01 })) ∧
    (s.th.trapActive = true →
      (∀ o, f = s.th.fpc0 → owed = some o → again o → exec .tret s =
        .next { s.setOp { o with fault := none, pa := none, issue := s.nextIssue } with
                  th := { resumed returned with status := .replay o.id }, pfx := none, nextIssue := s.nextIssue + 1 }) ∧
      (f = s.th.fpc0 → (∀ o, owed = some o → ¬ again o) → r.own = true →
        exec .tret s = .next { u with th := resumed u.th, pfx := none }) ∧
      (f ≠ s.th.fpc0 ∨ ((∀ o, owed = some o → ¬ again o) ∧ r.own = false) →
        (¬ wordAddress → exec .tret s = .next (u.trap { u.here with cause := 0x09, vaddr := f })) ∧
        (wordAddress → inside → exec .tret s =
          .next { u with th := { fresh u.th with pc := f, hdr := r.clause, startAt := (f.toNat - r.clause.toNat) / 4 }, pfx := none }) ∧
        (wordAddress → ¬ inside → exec .tret s =
          .next { u with th := { fresh u.th with pc := f, hdr := f, startAt := 0 }, pfx := none })))

/-- R16, R107, R108: what `rdsr` and `rdcyc` read, and `wrsr` of %fpc in a handler; a number below 0x80 that is unlisted,
read-only, or %fpc outside a handler raises ILLEGAL_FIELD, and so does every number from 0x80 on in a tenant context. -/
def Obligations.SystemRegisters : Prop :=
  ∀ (s : State) (d : Nat), s.bare = true →
    let read (n v : Nat) : Prop := exec (.rdsr d n) s = .next (s.after (fun t => t.setReg d (BitVec.ofNat 32 v)))
    let read2 (n : Nat) (v : BitVec 64) : Prop := exec (.rdsr d n) s = .next (s.after (fun t => t.setPair d v))
    let bad : Out := .next (s.trap { s.here with cause := 0x02 })
    let listed : List Nat := [0x00, 0x01, 0x02, 0x03, 0x04, 0x05, 0x06, 0x07, 0x10, 0x11, 0x12, 0x13]
    (s.canRun 0 none [] [d] = true →
      read 0x00 s.th.key.seat ∧ read 0x01 s.th.key.group ∧ read 0x02 s.tm.index ∧
      read 0x03 (match s.th.role with | .copy => 0 | .matrix => 1 | .vector => 2) ∧ read 0x04 s.tm.core ∧ read 0x05 s.tm.ctx ∧
      read 0x06 s.th.regs.length ∧ read 0x07 s.tm.slot ∧ read 0x10 s.th.cause.toNat) ∧
    (s.canRun 0 none [] [d, d + 1] = true →
      read2 0x11 s.th.fpc ∧ read2 0x12 (s.tm.farea + BitVec.ofNat 64 (64 * (32 * s.th.key.group + s.th.key.seat))) ∧
      read2 0x13 (((s.ctxOf s.tm.ctx).map Ctx.tvec).getD 0) ∧
      exec (.rdcyc d) s = .next (s.after (fun t => t.setPair d (s.coreAt s.tm.core).cycle))) ∧
    (s.canRun 0 none [d, d + 1] [] = true → s.th.trapActive = true →
      exec (.wrsr d 0x11) s = .next (s.after (fun t => { t with fpc := t.pair d }))) ∧
    (∀ n, n < 0x80 → n ∉ listed → exec (.rdsr d n) s = bad) ∧
    (∀ n, n < 0x80 → n ≠ 0x11 ∨ s.th.trapActive = false → exec (.wrsr d n) s = bad) ∧
    (∀ n, 0x80 ≤ n → s.isSup = false → exec (.rdsr d n) s = bad ∧ exec (.wrsr d n) s = bad)

/-- R382: the supervisor's registers in a supervisor context: selectors, a tenant's window, its quantum, the event
counters and the snapshot enables; a selector outside its range and a read-only register raise ILLEGAL_FIELD. -/
def Obligations.SupervisorRegisters : Prop :=
  ∀ (s : State) (d : Nat), s.bare = true → s.isSup = true →
    let v := (s.th.reg d).toNat
    let tn := s.tenantOf s.sup.tsel
    let w := tn.windows.getD s.sup.wsel (1, 0)
    let bad : Out := .next (s.trap { s.here with cause := 0x02 })
    let read (n x : Nat) : Prop := exec (.rdsr d n) s = .next (s.after (fun t => t.setReg d (BitVec.ofNat 32 x)))
    let read2 (n : Nat) (x : BitVec 64) : Prop := exec (.rdsr d n) s = .next (s.after (fun t => t.setPair d x))
    (s.canRun 0 none [] [d] = true →
      read 0x80 s.sup.tsel ∧ read 0x81 s.sup.wsel ∧ read 0x84 tn.fqhead ∧ read 0x85 tn.fqtail ∧ read 0x86 tn.quantum ∧
      read 0x8A s.sup.snapen.toNat ∧ read 0x8B s.sup.snapcause.toNat) ∧
    (s.canRun 0 none [] [d, d + 1] = true →
      read2 0x82 (BitVec.ofNat 64 w.1) ∧ read2 0x83 (BitVec.ofNat 64 w.2) ∧ read2 0x88 s.sup.errcnt ∧
      read2 0x89 (s.sup.readmissions ++ s.sup.dissents)) ∧
    (s.canRun 0 none [d] [] = true →
      exec (.wrsr d 0x80) s = (if v ≤ 15 then .next ({ s with sup := { s.sup with tsel := v } } : State).advance else bad) ∧
      exec (.wrsr d 0x81) s = (if v ≤ 7 then .next ({ s with sup := { s.sup with wsel := v } } : State).advance else bad) ∧
      exec (.wrsr d 0x86) s = .next (s.setTenant { tn with quantum := v }).advance ∧
      exec (.wrsr d 0x8A) s = .next ({ s with sup := { s.sup with snapen := s.th.reg d } } : State).advance ∧
      exec (.wrsr d 0x8B) s = .next ({ s with sup := { s.sup with snapcause := s.th.reg d } } : State).advance) ∧
    (s.canRun 0 none [d, d + 1] [] = true →
      let p := (s.th.pair d).toNat % 2 ^ 36
      exec (.wrsr d 0x82) s = .next (s.setTenant { tn with windows := tn.windows.set s.sup.wsel (p, w.2) }).advance ∧
      exec (.wrsr d 0x83) s = .next (s.setTenant { tn with windows := tn.windows.set s.sup.wsel (w.1, p) }).advance) ∧
    exec (.wrsr d 0x85) s = bad ∧ exec (.wrsr d 0x88) s = bad ∧ exec (.wrsr d 0x89) s = bad

/-- R109: `prng` is Philox-4x32 with ten rounds over the block of six registers at a, word i of the result to v[d];
with counter and key all zero the four words are those the rule works out. -/
def Obligations.RandomNumbers : Prop :=
  (∀ (s : State) (d a i : Nat), s.canRun 0 none [a, a + 1, a + 2, a + 3, a + 4, a + 5] [d] = true → s.bare = true →
    let r (k : Nat) : Word := s.th.reg (a + k)
    let mul (x y : Word) : BitVec 64 := x.setWidth 64 * y.setWidth 64
    let round (n : Nat) (c : Word × Word × Word × Word) : Word × Word × Word × Word :=
      let p := mul 0xD2511F53 c.1
      let q := mul 0xCD9E8D57 c.2.2.1
      (hi32 q ^^^ c.2.1 ^^^ (r 4 + BitVec.ofNat 32 n * 0x9E3779B9), lo32 q,
        hi32 p ^^^ c.2.2.2 ^^^ (r 5 + BitVec.ofNat 32 n * 0xBB67AE85), lo32 p)
    let out := (List.range 10).foldl (fun c n => round n c) (r 0, r 1, r 2, r 3)
    exec (.prng d a i) s = .next (s.after (fun t => t.setReg d
      (match i with | 0 => out.1 | 1 => out.2.1 | 2 => out.2.2.1 | _ => out.2.2.2)))) ∧
  (let z : Philox := { c0 := 0, c1 := 0, c2 := 0, c3 := 0, k0 := 0, k1 := 0 }
   (List.range 4).map (z.round.rounds 9).word = [0x6627E8D5, 0xE169C58D, 0xBC57AC4C, 0x9B00DBD8])

/-- R17, R18, R19, R20, R101: a spawn whose entry is listed puts its argument into the till of its pair, or into a free till
whose timer starts at the till period; `spawnf`, and the 32nd argument, also make the till due; a full till parks the spawner, and
so does a pair without a till when other pairs have all eight; then the team's due tills release as soon as they can: none
while none of them can, and then nothing else happens but the deadlock of R20, which needs every thread parked on a spawn. An
entry that is not listed raises SPAWN_ENTRY. -/
def Obligations.Spawns : Prop :=
  ∀ (s : State) (r : Role) (a i : Nat) (o : BitVec 15), s.canRun 0 none [a] [] = true → s.bare = true →
    let entry := (s.header + 4 * o.signExtend 64) &&& 0x1FFFFFFFFFFFFFF
    let x := s.th.reg a
    (s.tm.entryRec entry r = none →
      exec (.spawn r a o) s = .next (s.trap { s.here with cause := 0x0D, vaddr := entry }) ∧
      exec (.spawnf r a o) s = exec (.spawn r a o) s) ∧
    ((s.tm.entryRec entry r).isSome = true → s.tm.tillOf entry r = none → s.tm.freeTill = some i →
      let t : Till := { entry := entry, role := r, args := [x], due := none, timer := s.tm.tillp }
      exec (.spawn r a o) s = .next ((State.advance { s with tm := s.tm.setTill i (some t) }).releaseTills s.tm.uid) ∧
      exec (.spawnf r a o) s =
        .next ((State.advance { s with tm := s.tm.setTill i (some { t with due := some s.dueOrder }),
                                       dueOrder := s.dueOrder + 1 }).releaseTills s.tm.uid)) ∧
    ((s.tm.entryRec entry r).isSome = true → s.tm.tillOf entry r = none → (∀ k, k < 8 → (s.tm.till k).isSome = true) →
      exec (.spawn r a o) s = .next ((s.park (.spawn entry r x false)).spawnDeadlock s.tm.uid) ∧
      exec (.spawnf r a o) s = .next ((s.park (.spawn entry r x true)).spawnDeadlock s.tm.uid)) ∧
    (∀ (t : Till), (s.tm.entryRec entry r).isSome = true → s.tm.tillOf entry r = some i → s.tm.till i = some t →
      (t.args.length < 31 → exec (.spawn r a o) s =
        .next ((State.advance { s with tm := s.tm.setTill i (some { t with args := t.args ++ [x] }) }).releaseTills s.tm.uid)) ∧
      (t.args.length = 31 → exec (.spawn r a o) s = exec (.spawnf r a o) s) ∧
      (t.args.length = 32 →
        exec (.spawn r a o) s = .next ((s.park (.spawn entry r x false)).spawnDeadlock s.tm.uid) ∧
        exec (.spawnf r a o) s = .next ((s.park (.spawn entry r x true)).spawnDeadlock s.tm.uid)) ∧
      (t.args.length < 32 → t.due = none → exec (.spawnf r a o) s =
        .next ((State.advance { s with tm := s.tm.setTill i (some { t with args := t.args ++ [x], due := some s.dueOrder }),
                                       dueOrder := s.dueOrder + 1 }).releaseTills s.tm.uid))) ∧
    (∀ (u : State) (m : Team), u.team? m.uid = some m → u.canRelease m = none →
      u.releaseTills m.uid = u.spawnDeadlock m.uid ∧
      ((∃ v ∈ u.threadsOf m.uid, ∀ en ro ar fl, v.status ≠ .parked (.spawn en ro ar fl)) → u.releaseTills m.uid = u))

/-- R45, R46, R48, R49, R175: a prefix before a word it may stand before is kept for that word, which the thread performs next;
a prefix with no word after it in its clause, a second prefix, and fields that the word does not take (a count or policy before
a scratchpad word, a count before a global store, a zero bit before `sel`, a fourth operand before a word without one) raise
ILLEGAL_PREFIX. -/
def Obligations.Prefixes : Prop :=
  ∀ (s : State) (p c n l : Nat) (z : Bool) (x : BitVec 16),
    let bad : Out := .next (s.trap { s.here with cause := 0x03 })
    (s.nextWord = none → exec (.operandPrefix p z c) s = bad ∧ exec (.hintPrefix n l x) s = bad) ∧
    (∀ w, s.nextWord = some w → s.opcodeOk w = true → s.classOk w = true →
      let m := majorOf w
      let fn := w % 256
      (s.bare = false → exec (.operandPrefix p z c) s = bad ∧ exec (.hintPrefix n l x) s = bad) ∧
      (s.bare = true → operandPrefixable m = true → m ≠ 0x1B ∨ z = false → usesAddend m = true ∨ c = 0 →
        exec (.operandPrefix p z c) s = .next { s with th := s.th.advance, pfx := some (.operand p z c) }) ∧
      (s.bare = true → operandPrefixable m = false → exec (.operandPrefix p z c) s = bad) ∧
      (s.bare = true → hintPrefixable m fn = true → isScratchWord m fn = false ∨ (n = 0 ∧ l = 0) →
        isGlobalStore m fn = false ∨ n = 0 →
        exec (.hintPrefix n l x) s = .next { s with th := s.th.advance, pfx := some (.hint n l x) }) ∧
      (s.bare = true → (isScratchWord m fn = true ∧ (n ≠ 0 ∨ l ≠ 0)) ∨ (isGlobalStore m fn = true ∧ n ≠ 0) →
        exec (.hintPrefix n l x) s = bad) ∧
      (s.bare = true → operandPrefixable m = true → (m = 0x1B ∧ z = true) ∨ (usesAddend m = false ∧ c ≠ 0) →
        exec (.operandPrefix p z c) s = bad) ∧
      (s.bare = true → hintPrefixable m fn = false → exec (.hintPrefix n l x) s = bad))

/-! ### Cross-lane, scratchpad and global access (R156 to R177, R278, R279) -/

/-- R156 to R163: where the acting thread's arrival completes a participation set, the word executes once for all its
threads as one gang issue, after which none of them issues again in the core cycle (R134), and each moves on; where the set is
not complete the thread waits, with the mask it read when it arrived. Exchanges, masks, votes, reductions, the scan
and sampling as the rules give. -/
def Obligations.CrossLane : Prop :=
  (∀ (s : State) (d a m p q : Nat) (ts : List Thread), s.bare = true → ts ≠ [] →
    let all (f : Thread → Thread) : Out :=
      .next (ts.foldl (fun u t => u.setThread { (f t).advance with status := .ready, age := 0, redo := false })
        ((s.arrived m).issueTogether ts))
    let give (v : Word) : Out := all (fun t => t.setReg d v)
    let vs := ts.map (fun t => t.reg a)
    let pull (src : Nat → Word → Int) : Out :=
      all (fun t => t.setReg d
        (((ts.find? (fun u => (u.key.seat : Int) == src t.key.seat (t.reg d))).map (fun u => u.reg a)).getD (t.reg a)))
    let ready (reads writes : List Nat) : Prop :=
      (s.th.waitMask.isSome = true ∨ s.canRun 2 none (m :: reads) writes = true) ∧ s.meets m reads writes ts = true
    (ready [a, d] [d] →
      exec (.sgetAt d a m) s = pull (fun _ n => n.toNat) ∧
      exec (.sgetXor d a m) s = pull (fun i n => (i ^^^ (n.toNat % 32) : Nat)) ∧
      exec (.sgetBelow d a m) s = pull (fun i n => (i : Int) - n.toNat) ∧
      exec (.sgetAbove d a m) s = pull (fun i n => (i : Int) + n.toNat) ∧
      exec (.sample d a m) s =
        give (sampleSeat (ts.map (fun t => (t.key.seat, weightOf (t.reg a)))) ((ts.head?.map (fun t => t.reg d)).getD 0))) ∧
    (ready [] [d] →
      exec (.seat d m) s = give (seatsOf ts) ∧ exec (.ballot d p m) s = give (seatsOf (ts.filter (fun t => t.pred p)))) ∧
    (ready [a] [d] →
      exec (.matchSeats d a m) s = all (fun t => t.setReg d (seatsOf (ts.filter (fun u => u.reg a == t.reg a)))) ∧
      exec (.reduxAddI32 d a m) s = give (BitVec.ofNat 32 (vs.map BitVec.toNat).sum) ∧
      exec (.reduxAddF32 d a m) s = give (sumFloats vs) ∧
      (∃ v, exec (.reduxMinI32 d a m) s = give v ∧ v ∈ vs ∧ ∀ w ∈ vs, v.toInt ≤ w.toInt) ∧
      (∃ v, exec (.reduxMaxI32 d a m) s = give v ∧ v ∈ vs ∧ ∀ w ∈ vs, w.toInt ≤ v.toInt) ∧
      exec (.scanAddI32 d a m) s = all (fun t => t.setReg d (BitVec.ofNat 32
        ((ts.filter (fun u => decide (u.key.seat ≤ t.key.seat))).map (fun u => (u.reg a).toNat)).sum))) ∧
    (ready [] [] →
      exec (.voteAny p q m) s = all (fun t => t.setPred p (ts.any (fun u => u.pred q))) ∧
      exec (.voteAll p q m) s = all (fun t => t.setPred p (ts.all (fun u => u.pred q))) ∧
      exec (.voteEq p q m) s = all (fun t => t.setPred p (ts.all (fun u => u.pred q) || ts.all (fun u => !u.pred q))))) ∧
  (∀ (s : State) (d a m p q : Nat), s.bare = true →
    (s.arrived m).complete? ((s.arrived m).waitingAt s.th.key s.th.pc) = none →
    let waits (i : Instr) (reads writes : List Nat) : Prop :=
      s.th.waitMask.isSome = true ∨ (s.canRun 2 none [m] [] = true ∧ s.fits 2 none (reads ++ writes) = true) →
        exec i s = .next (s.arrived m)
    waits (.sgetAt d a m) [a, d] [d] ∧ waits (.sgetXor d a m) [a, d] [d] ∧ waits (.sgetBelow d a m) [a, d] [d] ∧
    waits (.sgetAbove d a m) [a, d] [d] ∧ waits (.sample d a m) [a, d] [d] ∧ waits (.seat d m) [] [d] ∧
    waits (.ballot d p m) [] [d] ∧ waits (.matchSeats d a m) [a] [d] ∧ waits (.reduxAddI32 d a m) [a] [d] ∧
    waits (.reduxAddF32 d a m) [a] [d] ∧ waits (.reduxMinI32 d a m) [a] [d] ∧ waits (.reduxMaxI32 d a m) [a] [d] ∧
    waits (.scanAddI32 d a m) [a] [d] ∧ waits (.voteAny p q m) [] [] ∧ waits (.voteAll p q m) [] [] ∧
    waits (.voteEq p q m) [] []) ∧
  (∀ (ts : List Thread) (i : Nat), i < 32 → (seatsOf ts).getLsbD i = ts.any (fun t => t.key.seat == i))

/-- R163: the draw: with weights that are not negative and a total T above 0, the seat drawn is the first whose running
sum exceeds T·R/2^32; with a total of 0 the result is all ones. -/
def Obligations.SamplingRule : Prop :=
  ∀ (ws : List (Nat × Rat)) (r : Word), (∀ w ∈ ws, 0 ≤ w.2) →
    let total := (ws.map Prod.snd).sum
    let upTo (k : Nat) : Rat := ((ws.take k).map Prod.snd).sum
    let x := total * r.toNat / 2 ^ 32
    (total = 0 → sampleSeat ws r = 0xFFFFFFFF) ∧
    (0 < total → ∃ k, k < ws.length ∧ sampleSeat ws r = BitVec.ofNat 32 (ws.getD k (0, 0)).1 ∧ upTo k ≤ x ∧ x < upTo (k + 1))

/-- R8, R66, R67, R69 to R73: the rounding that every result goes through. `round_rne` gives the code of the nearest value,
a tie going to the even code, `round_rz` the greatest value that does not exceed the magnitude; both keep the sign, of a zero
too. Above the largest finite value the thresholds and results are those of R73's table; NaN is the canonical NaN. Sums and
products are exact, with R72's zeros. R78: a group step of an accumulator element adds the exact scaled sum of its products
with one rounding, and an exact zero is +0. -/
def Obligations.Rounding : Prop :=
  (∀ f ∈ [fp32, bf16, e5m2, e4m3, e2m1], ∀ (neg : Bool) (q : Rat) (ov : Ovf), 0 ≤ q →
    let top := f.mag f.maxCode
    let sgn := if neg then 2 ^ (f.ebits + f.mbits) else 0
    (q ≤ top → ∃ k, f.enc .rne ov (.fin neg q) = sgn + k ∧ k ≤ f.maxCode ∧
      ∀ j, j ≤ f.maxCode → |f.mag k - q| ≤ |f.mag j - q| ∧ (j ≠ k → |f.mag k - q| = |f.mag j - q| → k % 2 = 0)) ∧
    (∃ k, f.enc .rz ov (.fin neg q) = sgn + k ∧ k ≤ f.maxCode ∧ f.mag k ≤ q ∧
      ∀ j, j ≤ f.maxCode → f.mag j ≤ q → f.mag j ≤ f.mag k)) ∧
  (∀ (neg : Bool) (q : Rat),
    let v := Val.fin neg q
    let pm (sign code : Nat) : Nat := (if neg then sign else 0) + code
    let at_ (big : Prop) (got sign below above : Nat) : Prop := (big → got = pm sign above) ∧ (¬ big → got = pm sign below)
    (fp32.mag 0x7F7FFFFF ≤ q → at_ (2 ^ 128 - 2 ^ 103 ≤ q) (toF32 .rne v).toNat (2 ^ 31) 0x7F7FFFFF 0x7F800000) ∧
    (bf16.mag 0x7F7F ≤ q → at_ (2 ^ 128 - 2 ^ 119 ≤ q) (toB16 v).toNat (2 ^ 15) 0x7F7F 0x7F80) ∧
    (57344 ≤ q → at_ (61440 ≤ q) (e5m2.enc .rne .sat v) 128 0x7B 0x7B ∧ at_ (61440 ≤ q) (e5m2.enc .rne .inf v) 128 0x7B 0x7C) ∧
    (448 ≤ q → e4m3.enc .rne .sat v = pm 128 0x7E ∧
      (q ≤ 464 → e4m3.enc .rne .nan v = pm 128 0x7E) ∧ (464 < q → e4m3.enc .rne .nan v = 0x7F)) ∧
    (6 ≤ q → e2m1.enc .rne .sat v = pm 8 7) ∧
    (fp32.mag 0x7F7FFFFF ≤ q → (toF32 .rz v).toNat = pm (2 ^ 31) 0x7F7FFFFF)) ∧
  (∀ rm, toF32 rm .nan = 0x7FC00000) ∧ toB16 .nan = 0x7FC0 ∧
  (∀ (w : Word), 0xFF * 2 ^ 23 < w.toNat % 2 ^ 31 → f32 w = .nan) ∧ f32 0x7F800000 = .inf false ∧ f32 0xFF800000 = .inf true ∧
  (∀ (a b : Bool) (m n : Rat), 0 ≤ m → 0 ≤ n →
    let x : Rat := if a then -m else m
    let y : Rat := if b then -n else n
    let z := (Val.fin a m).add (.fin b n)
    z.real = x + y ∧ (x + y = 0 → z = .fin (a && b && m == 0 && n == 0) 0) ∧
    (Val.fin a m).mul (.fin b n) = .fin (a != b) (m * n)) ∧
  (∀ (acc : Word) (l : List Val) (k : Option Val),
    let step (t : Val) : Word :=
      let r := toF32 .rne ((f32 acc).add t)
      if r = 0x80000000 then 0 else r
    (k = some .nan ∨ .nan ∈ l ∨ (.inf false ∈ l ∧ .inf true ∈ l) → groupStep acc k l = 0x7FC00000) ∧
    (∀ b m, k.getD (.fin false 1) = .fin b m → 0 ≤ m →
      let scale : Rat := if b then -m else m
      ((∀ v ∈ l, ∃ c p, v = .fin c p ∧ 0 ≤ p) → groupStep acc k l = step (Val.ofRat ((l.map Val.real).sum * scale))) ∧
      (∀ c, .inf c ∈ l → (∀ v ∈ l, v ≠ .nan ∧ v ≠ .inf (!c)) →
        groupStep acc k l = if m = 0 then 0x7FC00000 else step (.inf (c != b)))))

/-- R136, R164 to R167, R235: scratchpad loads and stores, a store once the thread's earlier loads have returned, complete at
once where their bytes are present, little-endian, and
change nothing else; outside the allotment they raise SCRATCH_BOUNDS, misaligned SCRATCH_ALIGN; `prs.test` writes the
presence of a line. -/
def Obligations.ScratchpadAccess : Prop :=
  ∀ (s : State) (d b : Nat) (i : BitVec 8), s.hinted = true → s.acqPending = false →
    let at_ (size : Nat) (k : Int) : Int := (s.th.reg b).toInt + size * k
    let byte (o : Int) (j : Nat) : Byte := s.tm.scratchByte (o.toNat + j)
    let half (o : Int) : BitVec 16 := byte o 1 ++ byte o 0
    let word (o : Int) (j : Nat) : Word := byte o (4 * j + 3) ++ byte o (4 * j + 2) ++ byte o (4 * j + 1) ++ byte o (4 * j)
    let outside (o : Int) (n : Nat) : Prop := o < 0 ∨ 4096 * (s.tm.sgran : Int) < o + n
    let bad (cause : Nat) (o : Int) : Out := .next (s.trap { s.here with cause := cause, vaddr := BitVec.ofInt 64 o })
    let stops (ins : Instr) (o : Int) (n : Nat) : Prop :=
      (outside o n → exec ins s = bad 0x14 o) ∧ (¬ outside o n → o.toNat % n ≠ 0 → exec ins s = bad 0x15 o)
    let load (ins : Instr) (n : Nat) (k : Int) (ds : List Nat) (v : Int → List Word) : Prop :=
      s.canRun 2 none [b] ds = true → stops ins (at_ n k) n ∧
        (s.scratchFree (at_ n k) n = true → s.tm.badIn (at_ n k).toNat n = false →
          exec ins s = .next (s.after (fun t => t.setRegs d (v (at_ n k)))))
    let store (ins : Instr) (n : Nat) (k : Int) (ds : List Nat) (v : List Byte) : Prop :=
      s.canRun 2 none (b :: ds) [] = true → s.awaited (fun o => o.kind.isRead) = [] → stops ins (at_ n k) n ∧
        (s.scratchFree (at_ n k) n = true →
          exec ins s = .next ({ s with tm := s.tm.scratchWrite (at_ n k).toNat v } : State).advance)
    let bytes (r : Nat) : List Byte := leBytes 4 (s.th.reg r).toNat
    load (.ldsB32 d b i) 4 (s.kFm i) [d] (fun o => [word o 0]) ∧
    load (.ldsB128 d b i) 16 (s.kFm i) [d, d + 1, d + 2, d + 3] (fun o => [word o 0, word o 1, word o 2, word o 3]) ∧
    load (.ldsN8 d b) 1 s.kFmg [d] (fun o => [(byte o 0).setWidth 32]) ∧
    load (.ldsI8 d b) 1 s.kFmg [d] (fun o => [(byte o 0).signExtend 32]) ∧
    load (.ldsN16 d b) 2 s.kFmg [d] (fun o => [(half o).setWidth 32]) ∧
    load (.ldsI16 d b) 2 s.kFmg [d] (fun o => [(half o).signExtend 32]) ∧
    load (.ldsB64 d b) 8 s.kFmg [d, d + 1] (fun o => [word o 0, word o 1]) ∧
    store (.stsB32 d b i) 4 (s.kFm i) [d] (bytes d) ∧
    store (.stsB128 d b i) 16 (s.kFm i) [d, d + 1, d + 2, d + 3] (bytes d ++ bytes (d + 1) ++ bytes (d + 2) ++ bytes (d + 3)) ∧
    store (.stsB8 d b) 1 s.kFmg [d] [(s.th.reg d).setWidth 8] ∧
    store (.stsB16 d b) 2 s.kFmg [d] [(s.th.reg d).setWidth 8, ((s.th.reg d) >>> 8).setWidth 8] ∧
    store (.stsB64 d b) 8 s.kFmg [d, d + 1] (bytes d ++ bytes (d + 1)) ∧
    (s.canRun 2 none [b] [] = true → ∀ p, stops (.prsTest p b) (at_ 1 s.kFmg) 1 ∧
      (¬ outside (at_ 1 s.kFmg) 1 → exec (.prsTest p b) s =
        .next (s.after (fun t => t.setPred p (!s.absent s.tm.uid ((at_ 1 s.kFmg).toNat / 256))))))

/-- R168, R169: the stash words check their operands at issue, in the table's order for `stash.map`, then leave one
operation on the chosen flag. That vaddr is the offset v[d] at SCRATCH_ALIGN and SCRATCH_BOUNDS is the model's choice (log
entry 80). -/
def Obligations.StashWords : Prop :=
  ∀ (s : State) (e : Bool) (d b : Nat), s.bare = true → s.free e = true →
    let off := (s.th.reg d).toNat
    let len := (s.th.reg (d + 1)).toNat
    let va := s.th.pair b
    let bad (c n : Nat) (x : Addr) : Out := .next (s.trap { s.here with cause := c, vaddr := x, detail := BitVec.ofNat 64 n })
    (s.canRun 2 none [d, d + 1, b, b + 1] [] = true →
      let o : Addr := BitVec.ofNat 64 off
      exec (.stashMap e d b) s =
        (if off % 256 ≠ 0 ∨ len % 256 ≠ 0 ∨ len = 0 then bad 0x15 0 o
         else if 4096 * s.tm.sgran < off + len then bad 0x14 0 o
         else if va.toNat % 256 ≠ 0 ∨ 2 ^ 57 ≤ va.toNat then bad 0x09 0 va
         else if s.tm.stash.all Stash.valid then bad 0x14 1 o
         else if s.tm.overlapsStash off len || s.tm.overlapsVa va len then bad 0x14 2 o
         else .next (s.addOp e [] none (.stashMap off len va)))) ∧
    (s.canRun 2 none [d] [] = true →
      (s.tm.windowAt off = none →
        exec (.stashWb e d) s = bad 0x14 4 ((s.th.reg d).setWidth 64) ∧ exec (.stashUnmap e d) s = exec (.stashWb e d) s) ∧
      (∀ w, s.tm.windowAt off = some w →
        exec (.stashWb e d) s = .next (s.addOp e [] none (.stashWb w false)) ∧
        exec (.stashUnmap e d) s = .next (s.addOp e [] none (.stashWb w true))))

/-- R171 to R173, R177, R278: a global load at a well-formed address outside every window leaves one operation with its
registers pending; its page is known at once where a TLB holds it. In a stash window whose line is filled, where no unit it reads is part the
team's own and part filled (R234), it completes at once, after the thread's earlier accesses (R174). A misaligned or overlong address raises MISALIGNED. -/
def Obligations.LoadIssue : Prop :=
  ∀ (s : State) (e : Bool) (d b : Nat) (i : BitVec 8) (c : Scope), s.free e = true →
    let bad (va : Addr) : Out := .next (s.trap { s.here with cause := 0x09, vaddr := va })
    let issues (ins : Instr) (va : Addr) (n : Nat) (sg : Bool) (ds : List Nat) (acq : Option Scope) : Prop :=
      (addrOk va n = false → exec ins s = bad va) ∧
      (s.wordOk va n = true →
        (s.tlbHit s.tm.core s.tm.ctx va = none →
          exec ins s = .next (s.addOp e ds none (.load va n sg d s.hint.1 s.hint.2 acq))) ∧
        (∀ f pa s', (s.tlbHit s.tm.core s.tm.ctx va).isSome = true →
          s.translate s.tm.core s.tm.ctx va .read = (.ok (f, pa), s') →
          exec ins s = .next (s'.addOp e ds (some pa)
            (.load va n sg d s.hint.1 (if s.hint.2 = 0 then ptePol f.entry else s.hint.2) acq))))
    let ld (ins : Instr) (n : Nat) (sg : Bool) (k : Int) (ds : List Nat) : Prop :=
      let va := s.th.pair b + BitVec.ofInt 64 (n * k)
      s.canRun 2 none [b, b + 1] ds = true → s.hinted = true → issues ins va n sg ds none ∧
        (∀ w l m, addrOk va n = true → s.settled = true → s.tm.stashVa va = some (w, l) → (s.tm.window w).line l = .filled m →
          let off := (s.tm.window w).off + (va.toNat - (s.tm.window w).va.toNat)
          mixedUnits m off n = [] → s.tm.badIn off n = false →
          exec ins s = .next (s.after (fun t => t.setRegs d (loadWords n sg (s.tm.scratchBytes off n)))))
    ld (.ldB32 e d b i) 4 false (s.kFm i) [d] ∧ ld (.ldN8 e d b) 1 false s.kFmg [d] ∧ ld (.ldI8 e d b) 1 true s.kFmg [d] ∧
    ld (.ldN16 e d b) 2 false s.kFmg [d] ∧ ld (.ldI16 e d b) 2 true s.kFmg [d] ∧ ld (.ldB64 e d b) 8 false s.kFmg [d, d + 1] ∧
    ld (.ldB128 e d b) 16 false s.kFmg [d, d + 1, d + 2, d + 3] ∧
    (s.bare = true → s.canRun 4 none [b, b + 1] [d] = true →
      issues (.ldAcqB32 e d b c) (s.th.pair b) 4 false [d] (some c)) ∧
    (s.bare = true → s.canRun 4 none [b, b + 1] [d, d + 1] = true →
      issues (.ldAcqB64 e d b c) (s.th.pair b) 8 false [d, d + 1] (some c))

/-- R171, R172, R177, R279: a global store outside every window, whose page a translation finds writable, leaves one
operation with its bytes as read at issue; in a stash window with a filled line of a writable page it completes at once, after
the thread's earlier accesses (R174). -/
def Obligations.StoreIssue : Prop :=
  ∀ (s : State) (e : Bool) (d b : Nat) (i : BitVec 8) (c : Scope), s.free e = true →
    let bad (va : Addr) : Out := .next (s.trap { s.here with cause := 0x09, vaddr := va })
    let bytes (r : Nat) : List Byte := leBytes 4 (s.th.reg r).toNat
    let issues (ins : Instr) (va : Addr) (n : Nat) (v : List Byte) (rel : Option Scope) : Prop :=
      (addrOk va n = false → exec ins s = bad va) ∧
      (∀ f pa s', s.wordOk va n = true → s.walkBusy s.tm.core s.tm.ctx va = false →
        s.translate s.tm.core s.tm.ctx va .write = (.ok (f, pa), s') →
        exec ins s = .next (s'.addOp e [] (some pa) (.store va v rel)))
    let st (ins : Instr) (n : Nat) (k : Int) (ds : List Nat) (v : List Byte) : Prop :=
      let va := s.th.pair b + BitVec.ofInt 64 (n * k)
      s.canRun 2 none ([b, b + 1] ++ ds) [] = true → s.hinted = true → issues ins va n v none ∧
        (∀ w l m, addrOk va n = true → s.settled = true → s.tm.stashVa va = some (w, l) →
          let x := s.tm.window w
          x.line l = .filled m → x.coded.getD l false = false → x.writable.getD l false = true →
          let off := x.off + (va.toNat - x.va.toNat)
          let tm := s.tm.setWindow w (x.setLine l (.filled (m ||| dirtyMask off n)))
          exec ins s = .next ({ s with tm := tm.scratchWrite off v } : State).advance)
    st (.stB32 e d b i) 4 (s.kFm i) [d] (bytes d) ∧ st (.stB8 e d b) 1 s.kFmg [d] [(s.th.reg d).setWidth 8] ∧
    st (.stB16 e d b) 2 s.kFmg [d] [(s.th.reg d).setWidth 8, ((s.th.reg d) >>> 8).setWidth 8] ∧
    st (.stB64 e d b) 8 s.kFmg [d, d + 1] (bytes d ++ bytes (d + 1)) ∧
    st (.stB128 e d b) 16 s.kFmg [d, d + 1, d + 2, d + 3] (bytes d ++ bytes (d + 1) ++ bytes (d + 2) ++ bytes (d + 3)) ∧
    (s.bare = true → s.canRun 4 none [b, b + 1, d] [] = true →
      issues (.stRelB32 e d b c) (s.th.pair b) 4 (bytes d) (some c)) ∧
    (s.bare = true → s.canRun 4 none [b, b + 1, d, d + 1] [] = true →
      issues (.stRelB64 e d b c) (s.th.pair b) 8 (bytes d ++ bytes (d + 1)) (some c))

/-! ### Barriers, rings, engines and atomics (R178 to R200, R267 to R282) -/

/-- R179 to R184: barrier words. One update adds to `arrived` and `pending`; when every arrival is in and nothing is
pending the phase advances and the waiting groups wake; an update of an invalid register, or beyond its bounds, raises
ILLEGAL_FIELD with the rule's detail number. A wait ends once its phase has completed, else the thread parks, and under a
pre-emption stops where R25 stops a parked thread. -/
def Obligations.BarrierWords : Prop :=
  ∀ (s : State) (d a n p : Nat), s.bare = true →
    let x := s.tm.bar n
    let v := (s.th.reg a).toNat
    let c := (s.th.reg d).toNat
    let q := v % 65536
    let put (y : Bar) : State := { s with tm := s.tm.setBar n y }
    let bad (k : Nat) : Out := .next (s.trap { s.here with cause := 0x02, detail := BitVec.ofNat 64 k })
    let done := 1 ≤ (x.phase + 65536 - q) % 65536 ∧ (x.phase + 65536 - q) % 65536 ≤ 32768
    let update (count : Nat) (bytes : Int) : Out :=
      let y : Bar := { x with arrived := x.arrived + count, pending := x.pending + bytes }
      if x.valid = false then bad 1
      else if x.expected < count + x.arrived then bad 2
      else if y.pending < -(2 ^ 39) ∨ (2 ^ 39 : Int) - 1 < y.pending then bad 3
      else if y.arrived = x.expected ∧ y.pending = 0 then
        .next ((put { y with phase := (x.phase + 1) % 65536, arrived := 0, waiters := 0 }).wakeGroups s.tm n x.waiters).advance
      else .next (put y).advance
    (s.canRun 3 none [a] [] = true →
      (s.settled = true → exec (.barArr a n) s = update v 0) ∧ exec (.barExp a n) s = update 0 v ∧
      exec (.barInit a n) s =
        (let y : Bar := { x with expected := v, arrived := 0, pending := 0, valid := true }
         let m : Team := { s.tm.setBar n y with barFaults := s.tm.barFaults.filter (fun f => f.bar != n) }
         if x.valid = true ∧ s.barBusy n = true then bad 4
         else if v = 0 ∨ 65535 < v then bad 5
         else .next (State.advance { s with tm := m })) ∧
      exec (.barTry p a n) s = (if x.valid = false then bad 1 else .next (s.after (fun t => t.setPred p (decide done)))) ∧
      exec (.barPar p a n) s =
        (if x.valid = false then bad 1 else .next (s.after (fun t => t.setPred p (decide (x.phase % 2 ≠ v % 2))))) ∧
      (x.valid = false → exec (.barWait a n) s = bad 1) ∧
      (x.valid = true → s.th.held = none → s.barFaultFor n q = none →
        let u := put { x with waiters := x.waiters ||| (1#32 <<< s.th.key.group) }
        let t : Thread := { s.th with watchdog := 0, status := .parked (.bar n q) }
        (done → exec (.barWait a n) s = .next s.advance) ∧
        (¬ done → s.tm.preempt = none → exec (.barWait a n) s = .next { u with th := t }) ∧
        (¬ done → s.tm.preempt.isSome = true → exec (.barWait a n) s = .next { u with th := u.tm.stopNow t }))) ∧
    (s.canRun 3 none [d, a] [] = true → s.settled = true → exec (.barArx d a n) s = update c v) ∧
    (s.canRun 3 none [] [] = true →
      exec (.barInv n) s = (if s.barBusy n = true then bad 4 else .next (put { x with valid := false }).advance))

/-- R187: a ring word of a declared ring whose two registers are valid: `ring.acq` and `ring.get` give the slot n mod S
once their phase has completed and move the ring's head or tail; `ring.com` and `ring.rel` arrive at its registers. -/
def Obligations.RingWords : Prop :=
  ∀ (s : State) (d a r : Nat), s.bare = true → s.th.held = none →
    let x := s.tm.ring r
    let n := (s.th.reg a).toNat % 65536
    let ok := x.valid = true ∧ (s.tm.bar x.full).valid = true ∧ (s.tm.bar x.empty).valid = true
    let bad : Out := .next (s.trap { s.here with cause := 0x02, detail := 1 })
    let done (b q : Nat) : Prop :=
      let k := ((s.tm.bar b).phase + 65536 - q) % 65536
      1 ≤ k ∧ k ≤ 32768
    let slot (y : Ring) : Out :=
      let m : Team := { s.tm with rings := s.tm.rings.set r y }
      .next (State.after { s with tm := m }
        (fun t => t.setReg d (BitVec.ofNat 32 (n % x.slots))))
    (s.canRun 3 none [a] [d] = true →
      (¬ ok → exec (.ringAcq d a r) s = bad ∧ exec (.ringGet d a r) s = bad) ∧
      (ok → done x.empty ((n + 65536 - x.slots) % 65536) →
        exec (.ringAcq d a r) s = slot { x with head := (n + 1) % x.slots }) ∧
      (ok → done x.full n → s.barFaultFor x.full n = none →
        exec (.ringGet d a r) s = slot { x with tail := (n + 1) % x.slots })) ∧
    (s.canRun 3 none [a] [] = true →
      (¬ ok → exec (.ringCom a r) s = bad ∧ exec (.ringRel a r) s = bad) ∧
      (ok → s.settled = true →
        exec (.ringCom a r) s = exec (.barArr a x.full) s ∧ exec (.ringRel a r) s = exec (.barArr a x.empty) s ∧
        ∀ b, b = x.full ∨ b = x.empty →
          let y := s.tm.bar b
          y.arrived + (s.th.reg a).toNat < y.expected → -(2 ^ 39) ≤ y.pending → y.pending < 2 ^ 39 →
          let m := s.tm.setBar b { y with arrived := y.arrived + (s.th.reg a).toNat }
          exec (.barArr a b) s = .next (State.advance { s with tm := m })))

/-- R188 to R192: a copy word of a COPY thread whose control word, ranges and addresses are valid leaves one operation for
the copy unit, with the pieces it will land and the control word's scope; nothing else changes at issue. `cpw` and `cpl` issue
once the thread's earlier accesses are done, which is the model's reading (log entry 16). The pieces of a run take each of
its bytes once; that a piece ends at the 256-byte boundaries of both ends is the model's own cut (R427 leaves the landing open;
log entries 4 and 67). -/
def Obligations.CopyIssue : Prop :=
  (∀ (x y len : Nat),
    let ps := cutRun x y len 0 len
    (∀ i, i < len → ∃! p, p ∈ ps ∧ p.1 ≤ i ∧ i < p.1 + p.2) ∧
    (∀ p ∈ ps, 0 < p.2 ∧ p.1 + p.2 ≤ len ∧ (x + p.1) % 256 + p.2 ≤ 256 ∧ (y + p.1) % 256 + p.2 ≤ 256)) ∧
  ∀ (s : State) (e : Bool) (d a b : Nat), s.bare = true → s.free e = true → s.room OpKind.isCopy 32 = true →
    let w := s.th.reg b
    let c := CopyCtl.of w
    let off := (s.th.reg d).toNat
    let va := s.th.pair a
    let n := 16 * (w.toNat % 65536)
    let bar : Option Nat := if w.getLsbD 30 then some (w.toNat / 2 ^ 26 % 16) else none
    (s.canRun 3 (some .copy) [d, a, a + 1, b] [] = true →
      (s.tm.ctlCheck .cpy c = none → s.rangeOk off n = true → addrOk va 16 = true →
        exec (.cpy e d a b) s = .next (s.addOp e [] none
          (.copy (if w.getLsbD 31 then piecesOut s.tm.uid off va n else piecesIn va s.tm.uid off n) bar) c.scope)) ∧
      (s.tm.ctlCheck .cpw c = none → s.settled = true → off % 16 = 0 → s.tm.overlapsStash (off / 256 * 256) 256 = false → addrOk va 32 = true →
        exec (.cpw e d a b) s = .next (s.addOp e [] none
          (.cpw va off ((w >>> 8).setWidth 8 : BitVec 8).toInt (w.setWidth 8 : BitVec 8).toInt bar) c.scope))) ∧
    (s.canRun 3 (some .copy) [a, a + 1, b] [] = true → s.tm.ctlCheck .cpl c = none → s.settled = true → addrOk va 16 = true →
      exec (.cpl e a b) s = .next (s.addOp e [] none (.cpl va 0 (w.toNat % 65536) [] bar) c.scope)) ∧
    (∀ m, s.canRun 3 (some .copy) [d, a, b] [] = true → s.tm.ctlCheck .peer c = none → s.peerTeam c = some m →
      m.scratchCheck off n 16 = none → m.overlapsStash off n = false → s.rangeOk (s.th.reg a).toNat n = true →
      exec (.cpyPeer e d a b) s =
        .next (s.addOp e [] none (.copy (piecesAcross s.tm.uid (s.th.reg a).toNat m.uid off n) bar) .team)) ∧
    c.scope = (match w.toNat / 2 ^ 24 % 4 with | 0 => .team | 1 => .cluster | 2 => .device | _ => .system)

/-- R193, R195, R196, R198, R199: a matrix word of a MATRIX thread whose parameter block passes every check, and whose
sources are present and sound, enters the matrix queue with its operand registers pending in every thread of the group; the
first tile whose turn finds a bad word, an invalid coding or a wrong count of bitmap bits stops it with the fault of that turn
(which bytes of a tile are looked at is log entry 97);
`acc.clr` names its accumulator; the code-table words read, store and clear a slot of the team. -/
def Obligations.MatrixWords : Prop :=
  ∀ (s : State) (e : Bool) (a p sel slot : Nat), s.bare = true →
    let o := (s.th.reg p).toNat
    let prm := MatParams.of (s.tm.scratchBytes o 32)
    let enters (i : Instr) (mmf : Bool) (sl : Nat) (af wf : Elem) (src : List (Nat × Nat)) : Prop :=
      let regs := prm.regs mmf a af wf
      s.free e = true → s.room OpKind.isMatrix 8 = true → s.canRun 3 (some .matrix) [p] [] = true → s.th.block = none →
      o % 32 = 0 →
      o + 32 ≤ 4096 * s.tm.sgran → s.absent s.tm.uid (o / 256) = false → s.tm.badIn o 32 = false →
      s.tm.matChecks prm mmf o a s.th.window af wf = none → s.matHazard regs = none → s.pendingSeats regs = 0 →
      s.firstAbsent s.tm.uid src = none →
      ∀ ts ws, (if mmf then ts = [] ∧ ws = [] else s.tm.weightTiles prm (wf == .int3) = .ok ts ∧ ws = s.tm.bitmapWords prm) →
        exec i s = .next ((s.addOp e regs none (.mat
          { aFmt := elemNum af, wFmt := elemNum wf, isMmf := mmf, areg := a, breg := prm.breg, sreg := prm.sreg, sel := sl,
            aofs := prm.aofs, sparsity := prm.sparsity, tiles := ts, bitmap := ws, arrive := prm.arrive }) .team).groupPend s.th.key
          (fun t => t.setPendings regs))
    let src := (prm.ranges false).filter (fun r => r.1 != prm.aofs)
    enters (.mmqI4E4m3 e a p sel) false sel .e4m3 .int4 src ∧ enters (.mmqI4E5m2 e a p sel) false sel .e5m2 .int4 src ∧
    enters (.mmqI4Bf16 e a p sel) false sel .bf16 .int4 src ∧ enters (.mmqI3E4m3 e a p sel) false sel .e4m3 .int3 src ∧
    enters (.mmqI3Bf16 e a p sel) false sel .bf16 .int3 src ∧ enters (.mmqF4E4m3 e a p sel) false sel .e4m3 .e2m1 src ∧
    enters (.mmqF4Bf16 e a p sel) false sel .bf16 .e2m1 src ∧ enters (.mmfE4m3 e a p) true 0 .e4m3 .e4m3 [] ∧
    enters (.mmfE5m2 e a p) true 0 .e5m2 .e5m2 [] ∧ enters (.mmfBf16 e a p) true 0 .bf16 .bf16 [] ∧
    (s.canRun 3 (some .matrix) [p] [] = true → s.free e = true → s.room OpKind.isMatrix 8 = true → o % 256 = 0 →
      o + 2048 ≤ 4096 * s.tm.sgran → s.tm.overlapsStash o 2048 = false →
      exec (.accClr e p) s = .next (s.addOp e [] none (.accClr o) .team)) ∧
    (s.free e = true → s.room OpKind.isMatrix 8 = true → s.canRun 3 (some .matrix) [p] [] = true → s.th.block = none →
      o % 32 = 0 → o + 32 ≤ 4096 * s.tm.sgran → s.absent s.tm.uid (o / 256) = false → s.tm.badIn o 32 = false →
      s.tm.matChecks prm false o a s.th.window .e4m3 .int4 = none → s.matHazard (prm.regs false a .e4m3 .int4) = none →
      s.pendingSeats (prm.regs false a .e4m3 .int4) = 0 → s.firstAbsent s.tm.uid src = none →
      let stops (r : FaultRec) : Prop := exec (.mmqI4E4m3 e a p sel) s = .next (s.trap r)
      (s.tm.weightTiles prm false = .error .bitmap → stops { s.here with cause := 0x02, detail := 10 }) ∧
      (∀ w, s.tm.weightTiles prm false = .error (.bad w) → stops { s.here with cause := 0x30, vaddr := BitVec.ofNat 64 (4 * w) }) ∧
      (∀ t f, s.tm.weightTiles prm false = .error (.decode t f) →
        stops { s.here with cause := f.cause, bitoff := BitVec.ofNat 32 f.bitoff, tensor := 0x00FF0000, tile := BitVec.ofNat 64 t })) ∧
    (∀ (m : Team) (int3 : Bool) (t : Nat), t < prm.tiles → m.firstBad [(prm.wofs + 256 * t, 256)] = none →
      (prm.sparsity ≠ 0 → m.firstBad [(prm.mofs, 256)] = none) → (∀ j, j < t → m.weightFault prm int3 j = none) →
      (∀ f, m.weightTile prm int3 t = .error f → m.weightTiles prm int3 = .error (.decode t f)) ∧
      (∀ b w, m.weightTile prm int3 t = .ok b → w ∈ m.bitmapWords prm → popcount32 w ≠ keptOf prm.sparsity →
        m.weightTiles prm int3 = .error .bitmap)) ∧
    (∀ r s', s.canRun 3 (some .matrix) [a, a + 1] [] = true → s.free e = true → addrOk (s.th.pair a) 32 = true →
      s.written = true → s.tm.recordLine (s.th.pair a) 9 = none → s.recordBytes (s.th.pair a) 9 = (.ok r, s') → tableFault r = none →
      exec (.ctld e a slot) s = .next (s'.addOp e [] none (.ctld slot r))) ∧
    (∀ ps s', s.canRun 3 none [a, a + 1] [] = true → s.free e = true → addrOk (s.th.pair a) 32 = true →
      (s.tm.windowed (s.th.pair a) 9 = true → s.settled = true) → s.tm.recordLine (s.th.pair a) 9 = none →
      let b := (s.tm.ctabs.getD slot none).getD (List.replicate 288 0)
      s.storeParts (s.th.pair a) b 9 = (.ok ps, s') →
      exec (.ctst e a slot) s = .next (State.addOp { s' with tm := s'.tm.storeRecord (s.th.pair a) b 9 } e [] none (.ctst ps)) ∧
      (s'.tm.windowed (s.th.pair a) 9 = false → s'.tm.storeRecord (s.th.pair a) b 9 = s'.tm)) ∧
    (s.canRun 3 none [] [] = true →
      exec (.ctinv slot) s = .next (State.advance { s with tm := { s.tm with ctabs := s.tm.ctabs.set slot none } }))

/-- R267 to R269, R271 to R276: an atomic, a reduction, an escrow addition or an escrow read whose word is well formed,
outside every window and permitted leaves one operation with its operands as read at issue; an escrow read outside every region
is a plain load. A page that is mapped without the permissions the word needs (both for an atomic and for `bsettle`, read for
`ldb`) raises PAGE_PERMISSION at the word. -/
def Obligations.AtomicIssue : Prop :=
  ∀ (s : State) (e : Bool) (d a : Nat) (c : Scope), s.bare = true → s.free e = true →
    let va := s.th.pair a
    let rmw (i : Instr) (f : AtomForm) (n : Nat) (ops ds : List Nat) (x new : BitVec 64) (dest : Option Nat) : Prop :=
      ∀ l pa s', s.canRun 4 none ([a, a + 1] ++ ops) ds = true → s.wordOk va n = true →
        s.walkBusy s.tm.core s.tm.ctx va = false →
        (s.translateAll s.tm.core s.tm.ctx va [.write, .read] = (.ok (l, pa), s') →
          exec i s = .next (s'.addOp e ds (some pa) (.atom f c va x new dest))) ∧
        (∀ x, s.translateAll s.tm.core s.tm.ctx va [.write, .read] = (.error x, s') → x.cause ≠ 0x10 →
          exec i s = .next (s'.trap { s'.here with cause := x.cause, vaddr := x.vaddr, detail := x.detail }))
    let w (r : Nat) : BitVec 64 := (s.th.reg r).setWidth 64
    let atom (i : Instr) (f : AtomForm) : Prop := rmw i f 4 [d] [d] (w d) 0 (some d)
    let red (i : Instr) (f : AtomForm) : Prop := rmw i f 4 [d] [] (w d) 0 none
    atom (.atomAddB32 e d a c) .addB32 ∧ atom (.atomAddF32 e d a c) .addF32 ∧ atom (.atomAddBf16x2 e d a c) .addBf16x2 ∧
    atom (.atomMinI32 e d a c) .minI32 ∧ atom (.atomMinN32 e d a c) .minN32 ∧ atom (.atomMaxI32 e d a c) .maxI32 ∧
    atom (.atomMaxN32 e d a c) .maxN32 ∧ atom (.atomAnd e d a c) .and ∧ atom (.atomOr e d a c) .or ∧
    atom (.atomXor e d a c) .xor ∧ atom (.atomXchg e d a c) .xchg ∧
    rmw (.atomCas e d a c) .cas 4 [d, d + 1] [d] (w d) (w (d + 1)) (some d) ∧
    rmw (.atomAddB64 e d a c) .addB64 8 [d, d + 1] [d, d + 1] (s.th.pair d) 0 (some d) ∧
    rmw (.atomCasB64 e d a c) .casB64 8 [d, d + 1, d + 2, d + 3] [d, d + 1] (s.th.pair d) (s.th.pair (d + 2)) (some d) ∧
    red (.redAddB32 e d a c) .addB32 ∧ red (.redAddF32 e d a c) .addF32 ∧ red (.redMinI32 e d a c) .minI32 ∧
    red (.redMaxI32 e d a c) .maxI32 ∧ red (.redOr e d a c) .or ∧
    (∀ r l pa s', s.canRun 4 none [a, a + 1, d] [] = true → s.wordOk va 4 = true → s.regionOf s.tm.ctx va = some r →
      s.walkBusy s.tm.core s.tm.ctx va = false → s.translateAll s.tm.core s.tm.ctx va [.write, .read] = (.ok (l, pa), s') →
      (r.bf16 = false → exec (.baddF32 e d a) s = .next (s'.addOp e [] (some pa) (.badd false va (s.th.reg d) false 0))) ∧
      (r.bf16 = true → exec (.baddBf16x2 e d a) s = .next (s'.addOp e [] (some pa) (.badd true va (s.th.reg d) false 0)))) ∧
    (s.canRun 4 none [a, a + 1, d] [d] = true → s.wordOk va 4 = true →
      let k (policy : Nat) : OpKind :=
        if (s.regionOf s.tm.ctx va).isSome then .ldb va d (s.th.reg d) else .load va 4 false d s.hint.1 policy none
      (s.tlbHit s.tm.core s.tm.ctx va = none → exec (.ldbF32 e d a) s = .next (s.addOp e [d] none (k s.hint.2))) ∧
      (∀ l pa s', (s.tlbHit s.tm.core s.tm.ctx va).isSome = true →
        s.translate s.tm.core s.tm.ctx va .read = (.ok (l, pa), s') → exec (.ldbF32 e d a) s =
          .next (s'.addOp e [d] (some pa) (k (if s.hint.2 = 0 then ptePol l.entry else s.hint.2)))) ∧
      (∀ x s', (s.tlbHit s.tm.core s.tm.ctx va).isSome = true →
        s.translate s.tm.core s.tm.ctx va .read = (.error x, s') → x.cause ≠ 0x10 → exec (.ldbF32 e d a) s =
          .next (s'.trap { s'.here with cause := x.cause, vaddr := x.vaddr, detail := x.detail }))) ∧
    (∀ l pa s', s.canRun 4 none [a, a + 1] [] = true → s.wordOk va 1 = true → s.walkBusy s.tm.core s.tm.ctx va = false →
      s.translate s.tm.core s.tm.ctx va .read = (.ok (l, pa), s') →
      (l.entry.getLsbD 3 = true → exec (.bsettle e a) s = .next (s'.addOp e [] (some pa) (.bsettle va))) ∧
      (l.entry.getLsbD 3 = false →
        exec (.bsettle e a) s = .next (s'.trap { s'.here with cause := 0x11, vaddr := va })))

/-- R223, R277, R220: `mwait` whose condition holds of the word at its performing point acquires at device scope and goes
on; where it does not hold the thread parks, on a monitor while its slice has an entry free. R280 to R282: a fence acts once
the accesses it waits for are done, loads that `tret` is to perform again among them, and stalls until then; where only such
loads and what waits for them are left, the fence takes the first such fault, and in the handler it does not wait for those that
the handler found (the model's reading, log entry 84); a
maintenance word whose range is well formed leaves one operation, else it raises MISALIGNED. -/
def Obligations.MonitorsFencesMaintenance : Prop :=
  (∀ (s s' : State) (d a : Nat) (l : Leaf) (pa : Nat), s.bare = true → s.acqPending = false → s.th.held = none →
    s.canRun 4 none [a, a + 1, d] [] = true → s.wordOk (s.th.pair a) 4 = true → s.written = true →
    s.walkBusy s.tm.core s.tm.ctx (s.th.pair a) = false →
    s.translate s.tm.core s.tm.ctx (s.th.pair a) .read = (.ok (l, pa), s') →
    s'.homeReadable s.tm.core (s.th.pair a) pa 4 = .ok () →
    let va := s.th.pair a
    let v := s.th.reg d
    let u := (s'.homeAt none s.tm.core pa 4).2
    let w := leWord (s'.homeAt none s.tm.core pa 4).1
    let waits (i : Instr) (code : Nat) (holds : Prop) : Prop :=
      (holds → exec i s = .next (u.acquireStep s.tm.core s.tm.uid .device).advance) ∧
      (¬ holds → exec i s = .next (match u.armMonitor pa code v s.tm.ctx s.tm.uid s.th.key.group with
        | some x => x.park (.mwait va code v)
        | none => State.park { u with th := { u.th with poll := 4096 } } (.mwaitOverflow va code v)))
    waits (.mwaitEq d a) 0 (w = v) ∧ waits (.mwaitNe d a) 1 (w ≠ v) ∧ waits (.mwaitGeI32 d a) 2 (v.toInt ≤ w.toInt) ∧
    waits (.mwaitLtI32 d a) 3 (w.toInt < v.toInt) ∧ waits (.mwaitGeN32 d a) 4 (v.toNat ≤ w.toNat) ∧
    waits (.mwaitLtN32 d a) 5 (w.toNat < v.toNat)) ∧
  (∀ (s : State) (e : Bool) (d a : Nat) (c : Scope), s.bare = true →
    let core := s.tm.core
    let u := s.tm.uid
    let va := s.th.pair a
    let n := (s.th.reg d).toNat
    let waited (writes : Bool) (o : Op) : Bool := o.kind.isRead || (writes && o.kind.isWrite)
    let fence (i : Instr) (writes : Bool) (done : State) : Prop :=
      let mine := s.awaited (waited writes)
      let held := ∀ o ∈ mine, o.fault = none → o ∈ s.heldBack s.th.key
      let owing := s.ops.find? (fun p => p.fault.isSome && (mine.contains p || (mine.filter (fun o => o.fault.isNone)).any p.owedTo))
      (s.th.trapActive = false → (∀ o ∈ s.ops, o.key = s.th.key → waited writes o = true → o.fault.isSome = true ∧ o.kind.replays = false) →
        exec i s = .next done.advance) ∧
      (mine = [] → exec i s = .next done.advance) ∧
      (mine ≠ [] → ¬ held ∨ owing = none → exec i s = .next s) ∧
      (∀ p, held → owing = some p → exec i s =
        .next (if s.faultReady p then { s.deliver s.th s.tm p (p.fault.getD s.here) (s.header, s.wordIdx) with pfx := none } else s))
    (s.canRun 4 none [] [] = true →
      fence (.fenceAcq c) false (s.acquireStep core u c) ∧ fence (.fenceRel c) true (s.releaseAt core u c) ∧
      fence (.fenceAr c) true ((s.releaseAt core u c).acquireStep core u c)) ∧
    (s.canRun 4 none [a, a + 1, d] [] = true → s.free e = true →
      let run (i : Instr) (k : Nat) : Prop :=
        exec i s = (if va.toNat < 2 ^ 57 ∧ va.toNat + n ≤ 2 ^ 57 then .next (s.addOp e [] none (.cmaint k c va n))
          else .next (s.trap { s.here with cause := 0x09, vaddr := va }))
      run (.cclean e d a c) 0 ∧ run (.cinval e d a c) 1 ∧ run (.cflush e d a c) 2))

/-! ### Tensors, tellers and the fabric (R293, R328 to R341, R392 to R398, R410 to R415) -/

/-- R328, R331 to R334: `tdesc` binds a handle to a valid descriptor of the context's table, or unbinds it; `tld` and `tq`
whose handle, coordinates and width are right leave one operation for the element's tile. -/
def Obligations.TileReads : Prop :=
  ∀ (s : State) (e : Bool) (d a h : Nat), s.bare = true →
    (s.canRun 5 none [a] [] = true → s.acqPending = false →
      let n := (s.th.reg a).toNat
      let dtab := ((s.ctxOf s.tm.ctx).map Ctx.dtab).getD 0
      (n = 0 →
        exec (.tdesc a h) s = .next (State.advance { s with tm := { s.tm with handles := s.tm.handles.set h none } })) ∧
      (4095 < n → exec (.tdesc a h) s = .next (s.trap { s.here with cause := 0x28, detail := BitVec.ofNat 64 (11 + n * 2 ^ 32),
                                                                     tensor := BitVec.ofNat 32 (h * 65536) })) ∧
      (∀ b s' t, 1 ≤ n → n ≤ 4095 → s.written = true →
        s.deviceBytes (dtab + BitVec.ofNat 64 (64 * n)) 2 = (.ok b, s') → Desc.of n b = some t →
        let m : Team := { s'.tm with handles := s'.tm.handles.set h (some n), descs := s'.tm.descs.set h (some t) }
        exec (.tdesc a h) s = .next (State.advance { s' with tm := m }))) ∧
    (∀ t, s.free e = true →
      let x := s.th.coords a t.rank
      let r : TileRef := { handle := h, desc := t, coords := t.tileOf x }
      (s.tileOk none [] [d] a h t = true →
        let reads (i : Instr) (w : Nat) : Prop := t.width ≤ w → x.getD 0 0 % (w / t.width) = 0 →
          exec i s = .next (s.addOp e [d] none (.tld r d w (t.tw * (x.getD 1 0 % t.th) + x.getD 0 0 % t.tw)))
        reads (.tldB8 e d a h) 8 ∧ reads (.tldB16 e d a h) 16 ∧ reads (.tldB32 e d a h) 32) ∧
      (s.tileOk none [] [d, d + 1] a h t = true →
        exec (.tq e d a h) s = .next (s.addOp e [d, d + 1] none (.tq r d))))

/-- R335, R337, R339, R340: whole-tile words after their checks leave one operation: `tst` with its scratchpad
range, `cpt` with its run of tiles, `tclean` and `tinval` with their range, `spool` with its push. -/
def Obligations.TileWords : Prop :=
  ∀ (s : State) (e : Bool) (d a h : Nat) (t : Desc), s.bare = true → s.free e = true →
    let u := s
    let x := s.th.coords a t.rank
    let r : TileRef := { handle := h, desc := t, coords := t.tileOf x }
    let off := (u.th.reg d).toNat
    (s.tileOk none [d] [] a h t = true →
      (u.room OpKind.isMint 16 = true → u.tm.scratchCheck off 256 256 = none → u.tm.overlapsStash off 256 = false →
        exec (.tst e d a h) s = .next (u.addOp e [] none (.tst r off))) ∧
      (r.num + off ≤ t.tiles →
        exec (.tclean e d a h) s = .next (u.addOp e [] none (.tclean r r.num off)) ∧
        exec (.tinval e d a h) s = .next (u.addOp e [] none (.tinval r r.num off)))) ∧
    (s.tileOk (some .copy) [d, d + 1, d + 2] [] a h t = true → u.room OpKind.isCopy 32 = true →
      let w := u.th.reg (d + 1)
      let md := (u.th.reg (d + 2)).toNat
      let n := w.toNat % 512
      let dim := w.toNat / 2 ^ 24 % 4
      let bar : Option Nat := if w.getLsbD 30 then some (w.toNat / 2 ^ 26 % 16) else none
      u.tm.cptCheck t w = none → r.coords.getD dim 0 + n ≤ t.grid dim → u.tm.scratchCheck off (256 * n) 256 = none →
      u.tm.overlapsStash off (256 * n) = false →
      (if w.getLsbD 31 then u.tm.scratchCheck md (4 * n) 8 = none ∧ u.tm.overlapsStash md (4 * n) = false else md = 0) →
      exec (.cpt e d a h) s = .next (u.addOp e [] none (.cpt r dim 0 n off md (w.getLsbD 31) bar))) ∧
    (s.canRun 5 none [a, a + 1, d] [] = true → s.tm.descOf h = some t →
      let c := (s.th.reg d).toNat
      1 ≤ c → c ≤ 6 →
      let p : Push :=
        { idx := u.nextIdx, core := u.tm.core, cluster := u.tm.core / 16, ctx := u.tm.ctx, pool := t.pool, cls := c,
          slot := u.th.pair a, base := { u.here with engine := true, tensor := tensorField h t.num }, op := some u.nextOp,
          wait := none }
      exec (.spool e d a h) s =
        .next (State.addOp { u with pushes := u.pushes ++ [p], nextIdx := u.nextIdx + 1 } e [] none
          (.spool { handle := h, desc := t, coords := [] } c (u.th.pair a))))

/-- R336, R307, R308: the last thread of a group to reach its `tenc` issues the append for all of them: one operation of the
lowest seat with the 32 elements and the entry of the companion scale tensor, which the other threads' flags follow. -/
def Obligations.Append : Prop :=
  ∀ (s s' : State) (e : Bool) (d a h : Nat) (t sc : Desc) (ts : List Thread) (b : List Byte), s.bare = true →
    s.free e = true → s.room OpKind.isMint 16 = true → s.written = true → s.tm.descOf h = some t →
    s.canRun 5 none (d :: blockRegs a t.rank) [] = true →
    let u : State := { s with th := { s.th with status := .xlane 0xFFFFFFFF } }
    let x := s.th.coords a t.rank
    let y := (x.getD 0 0 / 32) :: x.drop 1
    let elem (i : Nat) : BitVec 16 := ((ts.find? (fun v => v.key.seat == i)).map (fun v => loHalf (v.reg d))).getD 0
    u.complete? (u.waitingAt s.th.key s.th.pc) = some ts → ts ≠ [] → u.team? s.th.key.team = some s.tm → u.setsDiffer ts = 0 →
    (∀ v ∈ ts, u.meetFault v s.tm (d :: blockRegs a t.rank) [] = none ∧ v.coords a t.rank = x) →
    t.inside x = true → t.fmt = 5 → 2 ≤ t.rank → x.getD 0 0 % 32 = 0 → t.scale ≠ 0 →
    (u.issueTogether ts).deviceBytes (((s.ctxOf s.tm.ctx).map Ctx.dtab).getD 0 + BitVec.ofNat 64 (64 * t.scale)) 2 = (.ok b, s') →
    Desc.of t.scale b = some sc → sc.suits t = true →
    exec (.tenc e d a h) s = .next (s'.tencIssue (ts.map (fun v => { v with age := 0 })) s.tm e
      (.tenc (t.refAt h x) (x.getD 1 0 % 16) ((List.range 32).map elem) (sc.refAt 0xFF y) (sc.elemOf y) false))

/-- R341, R49: `tlbinv` in a supervisor context, once the thread's earlier accesses are done, drops the entries it names
from every TLB and the context's walk-cache entries, and leaves one operation that waits for the accesses they translated; in a tenant context it is
ILLEGAL_OPCODE. -/
def Obligations.TranslationMaintenance : Prop :=
  ∀ (s : State) (e : Bool) (d a : Nat), s.bare = true →
    let n := (s.th.reg d).toNat
    let va := s.th.pair a
    let runs (i : Instr) (v : Option Addr) : Prop :=
      let r := s.releaseAt s.tm.core s.tm.uid .device
      let waits := (r.ops.filter (fun o => o.ctx == n && o.fault.isNone && o.translatedAt.any (onPage v true))).map Op.id
      let u := (r.stashRetranslate n v).dropTlb n v
      exec i s = .next (u.addOp e [] none (.tlbinv waits)) ∧
      (∀ c ∈ u.cores, ∀ t ∈ c.tlb, t.dropped n v = false) ∧ (∀ k ∈ u.clusters, ∀ t ∈ k.tlb, t.dropped n v = false) ∧
      (∀ t ∈ u.tellerTlb, t.2.dropped n v = false) ∧ (∀ w ∈ u.walkCache, w.ctx ≠ n)
    (s.isSup = false →
      exec (.tlbinvVa e d a) s = .next (s.trap { s.here with cause := 0x01 }) ∧
      exec (.tlbinvCtx e d) s = .next (s.trap { s.here with cause := 0x01 })) ∧
    (s.isSup = true → s.free e = true → s.settled = true → n ≤ 63 →
      (s.canRun 5 none [a, a + 1, d] [] = true → va.toNat < 2 ^ 57 → runs (.tlbinvVa e d a) (some va)) ∧
      (s.canRun 5 none [d] [] = true → runs (.tlbinvCtx e d) none))

/-- R392, R393, R398, R171: `gq` and `att` read their packet as a load of the thread would, from the team's stash or at device
scope, and leave one query, not yet running; a stash line of the packet that is not filled is touched first, and the thread
parks on it. Which of the 48 tellers the query comes to is left to the implementation (R363): that clause, with
`Config.homeTeller`, is the model's free choice (DESIGN CHOICE, log entry 59). `tstat` of a teller below 48 leaves one read. -/
def Obligations.TellerWords : Prop :=
  ∀ (s : State) (e : Bool) (d a : Nat), s.bare = true → s.acqPending = false →
    (∀ w l off, s.canRun 6 none [a, a + 1] [] = true → addrOk (s.th.pair a) 64 = true → s.written = true →
      s.tm.recordLine (s.th.pair a) 8 = some (w, l, off) →
      let x := s.tm.window w
      (x.line l = .unfilled ∨ x.line l = .filling) ∧
      ∀ i ∈ [Instr.gq e a, Instr.att e a],
        (x.line l = .unfilled →
          exec i s = .next (State.park { s with tm := s.tm.setWindow w (x.setLine l .filling) } (.stash w l off false))) ∧
        (x.line l = .filling → exec i s = .next (s.park (.stash w l off false)))) ∧
    (∀ b s', s.canRun 6 none [a, a + 1] [] = true → addrOk (s.th.pair a) 64 = true → s.written = true →
      s.tm.recordLine (s.th.pair a) 8 = none → s.recordBytes (s.th.pair a) 8 = (.ok b, s') → s'.flagRoom e = true →
      let q (known : Bool) : Query :=
        { teller := Config.homeTeller s'.nextOp % 48, routed := known, addr := s.th.pair a, packet := b, running := false,
          graph := [], vec := [], parts := [], visited := [], cands := [], expansions := 0, waiting := none, out := none }
      exec (.gq e a) s = .next (s'.addOp e [] none (.gq (q false))) ∧
      exec (.att e a) s = .next (s'.addOp e [] none (.att (q true)))) ∧
    (s.canRun 6 none [a] [d] = true → s.flagRoom e = true →
      exec (.tstat e d a) s =
        (if (s.th.reg a).toNat ≤ 47 then .next (s.addOp e [d] none (.tstat d (s.th.reg a).toNat))
         else .next (s.trap { s.here with cause := 0x02, detail := 32 })))

/-- R410, R411, R413, R414, R419: a remote word whose block is valid, on a module that can send, leaves one operation; a copy
is still to be read from its source, with the chain's seed and any armed flip; a signal and an add are on their way. That the
add forks at system scope (log entry 82), that a signal makes its fork at its word (log entry 57), and that it takes the fault
of an earlier remote operation there (log entry 84) are the model's reading. -/
def Obligations.RemoteWords : Prop :=
  ∀ (s : State) (e : Bool) (d a : Nat), s.bare = true → s.free e = true → s.cannotSend = none →
    let target := (s.th.reg a).toNat
    let dst := s.th.pair (a + 1)
    let src := s.th.pair (a + 3)
    let len := (s.th.reg (a + 5)).toNat
    let arr := s.th.pair (a + 6)
    let block := [a, a + 1, a + 2, a + 3, a + 4, a + 5, a + 6, a + 7]
    let copy (i : Instr) (own : List Nat) (to_ : Option Nat) (chain : Option Word) (sum : Word) (rec_ : Bool) : Prop :=
      s.canRun 6 (some .copy) (block ++ own) own = true → s.room OpKind.isCopy 32 = true → target < 512 →
      addrOk dst 16 = true → addrOk src 16 = true → 1 ≤ len → len ≤ 65536 → addrOk arr (if rec_ then 16 else 4) = true →
      (rec_ = true → arr ≠ 0) →
      exec i s = .next (s.countCopy.2.addOp e own none (.remote
        { target := target, body := .copy dst [] arr chain (if rec_ then some 0 else none), d := to_, srcVa := src,
          srcLeft := 16 * len, sent := false, sentAt := 0, sum := sum, flip := s.countCopy.1 }))
    copy (.rcpy e a) [] none none 0 false ∧
    copy (.rcpyCk e d a) [d, d + 1] (some d) (some (s.th.reg (d + 1))) (s.th.reg d) false ∧
    copy (.rcpyCkv e d a) [d, d + 1] (some d) (some (s.th.reg (d + 1))) (s.th.reg d) true ∧
    (∀ o, s.canRun 6 none [a, a + 1, a + 2] [] = true → target < 512 → addrOk dst 4 = true →
      s.awaited (fun o => o.accesses || o.isRemote) = [] →
      (∀ p ∈ s.ops, p.key = s.th.key → p.fault.isSome = true → p.isRemote = false) ∨ s.th.trapActive = true →
      let r : RemoteOp := remoteNow target (.signal dst) none
      let u := s.systemFork.addOp e [] none (.remote r)
      u.op? s.systemFork.nextOp = some o → exec (.rsig e a) s = .next (u.sendRemote o r (.signal dst))) ∧
    (∀ p, s.canRun 6 none [a, a + 1, a + 2] [] = true → target < 512 → addrOk dst 4 = true → s.th.trapActive = false →
      s.awaited (fun o => o.accesses || o.isRemote) = [] →
      s.ops.find? (fun p => p.key == s.th.key && p.isRemote && p.fault.isSome) = some p →
      exec (.rsig e a) s = .next { s.deliver s.th s.tm p (p.fault.getD s.here) (s.header, s.wordIdx) with pfx := none }) ∧
    (∀ o, s.canRun 6 none [a, a + 1, a + 2, d] [d] = true → target < 512 → addrOk dst 4 = true → s.settled = true →
      let r : RemoteOp := remoteNow target (.add dst (s.th.reg d)) (some d)
      let u := s.systemFork.addOp e [d] none (.remote r)
      u.op? s.systemFork.nextOp = some o → exec (.ratomAdd e d a) s = .next (u.sendRemote o r r.body))

/-! ### Events (95_what_each_step_holds) -/

/-- R18, R19, R21, R24 to R26, R37, R38, R133, R225, R379: events of threads, tills and teams on a core. A clause whose words
can be fetched and pass their checks opens at its next word; the watchdog traps at the word the thread stands at; a till
becomes due at its timer and releases as one group; a pre-emption starts a team's grace, or lets a team that ends at wave
boundaries run to its exit, and the end of a grace stops every thread. The model's reading, which the clauses rest on and no rule
gives: when a clause is fetched (log entry 31), which team is chosen to give up its slot (log entry 45), the order of tills that
are due (log entry 90), and the run of registers that a release takes (log entry 93). -/
def Obligations.ThreadEvents : Prop :=
  ∀ (s : State),
    (∀ k t m h ws s₁ s₂, s.thread? k = some t → s.team? k.team = some m → t.live = true → t.status = .ready → t.clause = none →
      m.resident = true → m.preempt = none → s.unflagged t = none → s.fetchWord m t.hdr = (.ok h, s₁) →
      h.toNat / 2 ^ 28 ≠ 0 → s₁.fetchWords m (h.toNat / 2 ^ 28) (addr57 (t.hdr + 4)) = (.ok ws, s₂) → headerOk h.toNat = true →
      clauseCheck ws = none → s₂.headerWait t m h.toNat = none →
      let c : ClauseCtx :=
        { header := t.hdr, count := h.toNat / 2 ^ 28, cls := h.toNat / 2 ^ 25 % 8, wait := BitVec.ofNat 12 (h.toNat / 2 ^ 13 % 2 ^ 12),
          setA := h.toNat / 2 ^ 9 % 16, setB := h.toNat / 2 ^ 5 % 16, words := ws, word := max t.startAt 1 }
      exec (.clauseIssue k) s =
        .next (s₂.setThread { t with clause := some c, pc := addr57 (t.hdr + BitVec.ofNat 64 (4 * max t.startAt 1)) })) ∧
    (∀ k t m, s.thread? k = some t → s.team? k.team = some m → t.live = true → t.status.counts = true → m.resident = true →
      ((s.ctxOf m.ctx).map Ctx.wdog).getD (2 ^ 24) ≤ t.watchdog.toNat →
      exec (.watchdog k) s = .next (if t.clause.isNone then s.headerTrap t m (fun r => { r with cause := 0x0A })
        else s.trapAtWord t m (fun r => { r with cause := 0x0A }))) ∧
    (∀ u m i t, s.team? u = some m → m.till i = some t → m.resident = true →
      (t.timer = 0 → t.due = none → t.args ≠ [] → exec (.tillTimerExpiry u i) s = .next ((s.makeDue u i).releaseTills u)) ∧
      (∀ g run w, s.canRelease m = some (i, t, g, run, w) →
        let v := s.formGroup (m.setTill i none) g run t.entry t.role w t.args
        exec (.tillRelease u i) s = .next ((v.wakeSpawners u).spawnDeadlock u))) ∧
    (∀ u m, s.team? u = some m →
      (∀ v, s.victim m.die = some v → v.uid = u →
        ∃ g, s.gridOfTeam v = some g ∧
        (g.bmark = 0 → exec (.preemptionRequest u) s =
          .next ((s.setTeam { v with preempt := some ⟨((s.ctxOf v.ctx).map Ctx.grace).getD 8192⟩ }).mapThreads v.stopNow)) ∧
        (g.bmark ≠ 0 → exec (.preemptionRequest u) s =
          .next ((s.setTeam { v with toExit := true }).setGrid { g with
            heldFor := g.heldFor ++ ((s.urgentOn v.die).filter (fun x => decide (g.cls < x.cls))).map Grid.id }))) ∧
      (m.resident = true → m.preempt = some ⟨0⟩ → s.unstopped m = true →
        exec (.graceBudgetExpiry u) s = .next (s.mapThreads m.stopWhole)) ∧
      (∀ n g d, m.resident = true → m.groups.find? (fun g => g.num == n) = some g → s.runStill m n = true →
        d % g.blocks = 0 → d + g.blocks ≤ 256 → s.blocksFree m.core d g.blocks = true →
        exec (.compactorMove u (some n) d) s =
          .next (s.setTeam { m with groups := m.groups.map (fun x => if x.num = n then { x with run := d } else x) })) ∧
      (∀ d, m.resident = true → m.sgran ≠ 0 → s.scratchStill m = true → d % granules m.sgran = 0 →
        d + granules m.sgran ≤ 128 → s.granulesFree m.core d (granules m.sgran) = true →
        exec (.compactorMove u none d) s = .next (s.setTeam { m with srun := d }))) ∧
    (∀ k t m va c v, s.thread? k = some t → t.status = .parked (.mwaitOverflow va c v) → s.team? k.team = some m →
      m.resident = true →
      let r := s.pollMwait m va c v
      exec (.mwaitOverflowPoll k) s =
        .next (r.2.setThread (if r.1 then { t with status := .ready } else { t with poll := 4096 })) ∧
      ∀ l pa s', s.translate m.core m.ctx va .read = (.ok (l, pa), s') → s'.homeReadable m.core va pa 4 = .ok () →
        r = (cmpHolds c (leWord (s'.homeAt none m.core pa 4).1) v, (s'.homeAt none m.core pa 4).2)) ∧
    (∀ n, n < 1536 → s.allTeams.all (fun m => !(m.resident && m.core == n)) = true →
      exec (.coreReset n) s = .next (s.setCore { num := n, cycle := 0, ptr0 := 15, ptr1 := 15, phase := .pipe0, issued := [], l1 := [],
                                                 tlb := [] }))

/-- R125, R140, R168, R169, R173, R185, R190, R196, R198, R200, R221, R222, R228, R271, R275, R276, R278, R279, R315, R317,
R333, R334, R340, R395: the return of outstanding operations. Each writes what the operation gives, then leaves its flag and
its registers' pending bits; an operation of an engine or of the index unit first makes the release of its fork and last the
acquire of its join (R246), and a load leaves its flag with its issue's last lane (R173). The model's choices, no rule's:
one partial sum a cluster for an escrow element (DESIGN CHOICE, unsafe, log entry 98), which piece of a copy lands and when it is
read (free, log entries 4 and 67), what of a faulted issue a load waits for (log entry 104), and how a step of an engine that
needs a page's walk is taken again (log entry 106). The forms of an atomic give the new values of R271's table, and the lanes of one issue on one word
are performed in the order of their issue, which is ascending (group, seat) (R222). -/
def Obligations.ReturnEvents : Prop :=
  (∀ (x new o : BitVec 64),
    let a : Word := o.setWidth 32
    let v : Word := x.setWidth 32
    let half (h k : BitVec 16) : BitVec 16 := toB16 ((b16 h).add (b16 k))
    let puts (f : AtomForm) (w : Word) : Prop := f.apply x new o = some (w.setWidth 64)
    puts .addB32 (a + v) ∧ AtomForm.addB64.apply x new o = some (o + x) ∧ puts .addF32 (toF32 .rne ((f32 a).add (f32 v))) ∧
    puts .addBf16x2 (half ((a >>> 16).setWidth 16) ((v >>> 16).setWidth 16) ++ half (a.setWidth 16) (v.setWidth 16)) ∧
    puts .minI32 (if a.toInt ≤ v.toInt then a else v) ∧ puts .minN32 (if a.toNat ≤ v.toNat then a else v) ∧
    puts .maxI32 (if v.toInt ≤ a.toInt then a else v) ∧ puts .maxN32 (if v.toNat ≤ a.toNat then a else v) ∧
    puts .and (a &&& v) ∧ puts .or (a ||| v) ∧ puts .xor (a ^^^ v) ∧ puts .xchg v ∧
    AtomForm.cas.apply x new o = (if a = v then some new else none) ∧
    AtomForm.casB64.apply x new o = (if o = x then some new else none)) ∧
  (∀ (v : BitVec 64) (l : List Op), (∀ o ∈ l, ∃ f c va x y d, o.kind = .atom f c va x y d) →
    let after (w : BitVec 64) (o : Op) : BitVec 64 :=
      match o.kind with
      | .atom f _ _ x y _ => (f.apply x y w).getD w
      | _ => w
    (atomFold v l).1 = l.zipIdx.map (fun p => (p.1, (l.take p.2).foldl after v)) ∧ (atomFold v l).2.1 = l.foldl after v ∧
    ((atomFold v l).2.2 = false → (atomFold v l).2.1 = v)) ∧
  (∀ (s : State) (o : Op) (c : Core) (t : Thread),
    (s.atomLanes o).Sublist s.ops ∧ (s.gang c t).Pairwise (fun a b => keyBefore a b = true)) ∧
  (∀ (s : State) (n : Nat) (o : Op), s.opReady n o = true →
    let q : Op := { o with begun := true }
    let u := if o.begun then s else (s.releaseAt o.core o.key.team o.scope).setOp q
    let q' : Op := { o.unwalked with begun := true }
    let u' := if o.begun then s.walking o else ((s.walking o).releaseAt o.core o.key.team o.scope).setOp q'
    let ends (i : Instr) (t : State) : Prop := t.missed = none → exec i s = .next { t with walkFor := none }
    (∀ d v, o.kind = .sfu d v → exec (.specialFunctionResult n) s = .next ((s.writeRegs o.key d [v]).finishOp o)) ∧
    (∀ va k sg d c p acq pa, o.kind = .load va k sg d c p acq → o.pa = some pa → s.readReady o pa k = true →
      (acq = none ∨ acq = some .team → s.tileGathered o pa = true → s.tileReadable o va pa = .ok () →
        let r := s.coreRead o.core (lineOf pa) (s.tileParts o pa) c p o.issue
        let lane (u : State) (x : Op) : State :=
          match x.kind, x.pa with
          | .load _ k sg d _ _ _, some pa => u.loadDone x d (loadWords k sg (slice r.1 (pa % 256) k))
          | _, _ => u
        exec (.loadReturn n) s = .next (((s.tileLanes o pa).filter s.laneReady).foldl lane r.2)) ∧
      (∀ (v : State) (x : Op) d ws, (v.writeRegs x.key d ws).matesOut x = false →
        v.loadDone x d ws = (v.writeRegs x.key d ws).finishOp x) ∧
      (∀ sc, acq = some sc → sc ≠ .team → s.acqReadable o va pa k sc = .ok () →
        let r := s.acqValue o pa k sc
        let u := r.2.acquireStep o.core o.key.team sc
        exec (.loadReturn n) s = .next (u.loadDone o d (loadWords k sg r.1)))) ∧
    (∀ va b rel pa, o.kind = .store va b rel → o.pa = some pa → s.writeReady o pa b.length = true →
      (rel = none ∨ s.releaseReady o = true) →
      let u := match rel with
        | none => s
        | some sc => s.releaseAt o.core o.key.team sc
      exec (.storeWritten n) s =
        .next (((u.clusterStore o.core pa b (u.inRegion o.ctx va)).stashTake o.key.team va b).finishOp o)) ∧
    (∀ f c va x y d pa, o.kind = .atom f c va x y d → o.pa = some pa →
      (s.atomLanes o).all (fun p => s.atomReady p pa f.size) = true →
      let v := s.beforeHome o.core pa f.size
      let lanes := s.atomLanes o
      let all := atomFold (leAddr (v.performBytes pa f.size)) lanes
      let r := v.atomPerform o c va pa f.size lanes
      (v.readable va pa f.size = .ok () → exec (.atomicReturn n) s = .next (r.1.foldl (fun u x => u.atomLeave x.1 x.2) r.2)) ∧
      r.1 = all.1 ∧
      (all.2.2 = true → pa % f.size = 0 → (∀ g ∈ s.registrations, g.cluster ≠ o.core / 16) →
        (∀ m ∈ s.allTeams, ∀ x ∈ m.stash, x.valid = false) →
        r.2.performBytes pa f.size = leBytes f.size all.2.1.toNat)) ∧
    (∀ bf va x asked k pa, o.kind = .badd bf va x asked k → o.pa = some pa → s.baddTurn o pa = true →
      (asked = false → s.baddAsks o bf x pa k = true →
        ∃ t, exec (.allowanceRequest n) s = .next t ∧ t.op? n = some { o with kind := .badd bf va x true k }) ∧
      (asked = true ∨ s.baddAsks o bf x pa k = false → (s.flushRegs o.cluster pa 4).readable va pa 4 = .ok () →
        let line := lineOf pa
        let h : BitVec 16 := if k = 0 then x.setWidth 16 else (x >>> 16).setWidth 16
        let a : Word := if bf then h ++ 0#16 else x
        let i := if bf then pa % 256 / 2 + k else pa % 256 / 4
        let v := (((s.flushRegs o.cluster pa 4).revokeRange line 256).leaveLine o.core line).makeRoom o.cluster (.line line)
        let e := (v.cluster o.cluster).escrowAt line bf
        let m := toF32 .up ((f32 (assocWord e.mags i)).add (f32 (a &&& 0x7FFFFFFF)))
        let need := if flt e.trk m then m else e.trk
        let held := finite32 a = true ∧ flt e.alw need = false
        let done (w : State) : Prop := exec (.atomicReturn n) s =
          .next (if bf && k == 0 then w.setOp { o with kind := .badd bf va x false 1 } else w.finishOp o)
        (held → done (v.setEscrow o.cluster { e with
          parts := setAssoc e.parts i (toF32 .rne ((f32 (assocWord e.parts i)).add (f32 a))), mags := setAssoc e.mags i m,
          trk := need })) ∧
        (¬ held → done ((v.settleFrom o.cluster line).settleElem line bf i a)))) ∧
    (∀ va d tol pa, o.kind = .ldb va d tol → o.pa = some pa → s.readReady o pa 4 = true →
      (s.regionOf o.ctx va = none → s.coreReadable o.core va (lineOf pa) [(pa, 4)] false = .ok () →
        let r := s.coreRead o.core (lineOf pa) [(pa, 4)] 0 3 o.issue
        exec (.atomicReturn n) s = .next ((r.2.writeRegs o.key d [leWord (slice r.1 (pa % 256) 4)]).finishOp o)) ∧
      (∀ g, s.regionOf o.ctx va = some g →
        let v := s.flushRegs o.cluster pa 4
        let line := lineOf pa
        let w := match toleranceOf tol with
          | none => v
          | some b => v.revokeUntil line o.cluster (fun t => decide (t.allowances line (some o.cluster) ≤ b)) 96
        let x := escrowValue ((w.cluster o.cluster).escrowOn line) g.bf16 pa (w.performWord pa)
        v.readable va pa 4 = .ok () → (∀ e, (v.cluster o.cluster).escrowOn line = some e → e.badAt pa = false) →
        exec (.atomicReturn n) s = .next (((w.leaveLine o.core line).writeRegs o.key d [x]).finishOp o))) ∧
    (∀ va pa, o.kind = .bsettle va → o.pa = some pa →
      (∀ p ∈ s.earlier o, ∀ bf va x asked k, p.kind ≠ .badd bf va x asked k) →
      (s.regionOf o.ctx va = none → exec (.atomicReturn n) s = .next (s.finishOp o)) ∧
      ((s.regionOf o.ctx va).isSome = true →
        let v := s.flushRegs o.cluster pa 4
        let w := v.settleFrom o.cluster (lineOf pa)
        exec (.atomicReturn n) s =
          .next (if v.poisonedEscrow o.cluster (lineOf pa) then w.failLanes [(o, ⟨0x30, 0, va⟩)] else w.finishOp o))) ∧
    (∀ k, s.walkKey o = some k →
      (s.walks.contains k = false → (s.walksOn k.1).length < 64 →
        exec (.pageWalk n) s =
          .next { s with walks := s.walks.filter (fun w => s.ops.any (fun o => s.walkKey o == some w)) ++ [k] }) ∧
      (∀ va ks l pa s', s.walks.contains k = true → s.walkers? k = [o] → o.walk = none → o.kind.walkKinds = some (va, ks) →
        State.translateAll { s with walks := s.walks.filter (· != k) } o.core o.ctx va ks = (.ok (l, pa), s') →
        exec (.pageWalk n) s = .next (s'.setOp (o.withPa l pa))) ∧
      (s.walks.contains k = true → s.walkers? k = [o] → o.walk = some k →
        exec (.pageWalk n) s = .next (State.setOp { s with walks := s.walks.filter (· != k) }
          { o with walk := none, walked := k :: o.walked }))) ∧
    (∀ ps bar, o.kind = .copy ps bar → s.copyBegun o = true → s.forked o = true →
      let ready := ps.zipIdx.filter (fun p => u.pieceReady q p.1)
      let c := u.pick ready.length
      ∀ p j b s₁ s₂ done, ready[c.1]? = some (p, j) → c.2.readLoc q p.src p.len = (.ok b, s₁) →
        s₁.writeLoc q p.dst b = (.ok done, s₂) →
        let x : Op := { q with kind := .copy (ps.eraseIdx j) bar }
        let v := s₂.setOp x
        let w := if done then v.landed x p.len ((ps.eraseIdx j).isEmpty && !v.updatesOf o.id) else v
        exec (.copyLanding n) s = .next ((w.allTeams.map Team.uid).foldl State.freeSlot w)) ∧
    (∀ x m, o.kind = .mat x → s.team? o.key.team = some m → s.matTurn o x.aofs = true → s.matBad o m x = none →
      let acc (i : Nat) : Word := leWord (m.scratchBytes (x.aofs + 4 * i) 4)
      let reg (seat r : Nat) : Word := s.seatReg o.key m seat r
      let b := matResult reg x acc
      exec (.matrixExecute n) s =
        .next (((s.matTaken o).setTeam (m.scratchWrite x.aofs b)).matLeave { o with regs := [] } x.arrive) ∧
      b.length = 2048 ∧
      ∀ i j, i < 16 → j < 32 →
        let prods (g : Nat) : List Val := (List.range 32).map (fun k =>
          match matB reg x (32 * g + k) j with
          | some w => w.mul (matA reg x i (32 * g + k))
          | none => .fin false 0)
        slice b (4 * (32 * i + j)) 4 = leBytes 4 (groupStep (groupStep (acc (32 * i + j)) (matScale reg x j 0) (prods 0))
          (matScale reg x j 1) (prods 1)).toNat) ∧
    (∀ a m, o.kind = .accClr a → s.team? o.key.team = some m → s.matTurn o a = true →
      exec (.accClrExecute n) s = .next ((s.setTeam (m.scratchWrite a (List.replicate 2048 0))).finishOp o).wakeLines) ∧
    (∀ slot r m, o.kind = .ctld slot r → s.team? o.key.team = some m →
      exec (.loadReturn n) s = .next ((s.setTeam { m with ctabs := m.ctabs.set slot (some r) }).finishOp o)) ∧
    (∀ ps, o.kind = .ctst ps → (∀ p ∈ ps, s.writeReady o p.2.1 p.2.2.length = true) →
      let put (s : State) (p : Addr × Nat × List Byte) : State :=
        (s.clusterStore o.core p.2.1 p.2.2 (s.inRegion o.ctx p.1)).stashTake o.key.team p.1 p.2.2
      exec (.storeWritten n) s = .next ((ps.foldl put s).finishOp o)) ∧
    (∀ off len va m ls s' w, o.kind = .stashMap off len va → s.team? o.key.team = some m →
      s.linesPresent (m.uid, off, len) none = true → o.walk = none →
      (s.walking o).mapLines o.core o.ctx va (len / 256) = (.ok ls, s') →
      m.mapCheck off len va = none → (List.range 4).find? (fun w => !(m.window w).valid) = some w →
      ends (.stashMapComplete n) ((s'.setTeam
        ((m.scratchWrite off (List.replicate len 0)).setWindow w (Stash.mapped off len va ls))).finishOp o.unwalked)) ∧
    (∀ w unmap m, o.kind = .stashWb w unmap → s.team? o.key.team = some m → (m.window w).lines.contains .filling = false →
      let v := s.stashBack m.uid w
      (unmap = false → exec (.stashWbComplete n) s = .next (v.finishOp o).wakeLines) ∧
      (∀ m', unmap = true → v.team? m.uid = some m' → (m'.window w).valid = true →
        exec (.stashWbComplete n) s =
          .next ((v.setTeam ((m'.setWindow w (m.window w)).unmapWindow w)).finishOp o).wakeLines)) ∧
    (∀ t d w e, o.kind = .tld t d w e → o.walk = none → (s.walking o).forked o.unwalked = true → (s.tldLanes o t).all s.forked = true →
      ∀ b s', u'.fetchTile q' t true = (.ok b, s') →
        let lane (s : State) (p : Op) : State :=
          match p.kind with
          | .tld t d w e => (s.writeRegs p.key d [BitVec.ofNat 32 (fieldAt b (e * t.desc.width / 8) (w / 8))]).joinOp p
          | _ => s
        ends (.loadReturn n) ((s.tldLanes o t).foldl lane s')) ∧
    (∀ t d, o.kind = .tq t d → o.walk = none → (s.walking o).forked o.unwalked = true →
      ∀ x s', u'.readEntry o.core o.ctx t = (.ok x, s') → x = 0 ∨ entryFormat x = true →
        ends (.loadReturn n) ((s'.writeRegs o.key d
          [BitVec.ofNat 32 (x.toNat / 2 ^ 64), BitVec.ofNat 32 (x.toNat / 2 ^ 96)]).joinOp q')) ∧
    (∀ i p s' x, s.pushes.find? (fun p => p.idx == i) = some p → p.op = some n → o.walk = none →
      (s.walking o).forked o.unwalked = true → u'.pushSlot p.core p.ctx p.pool p.cls p.slot = (.ok (), s') → s'.op? n = some x →
      ends (.slotPush i) (State.joinOp { s' with pushes := s'.pushes.filter (fun q => q.idx != p.idx) } x)) ∧
    (∀ d k, o.kind = .tstat d k →
      let mine (l : List Op) : Nat := min 255 (l.filter (fun p => p.ctx == o.ctx)).length
      let lost := if s.links.stacksLost.contains (k / 4) then 2 ^ 24 else 0
      exec (.loadReturn n) s = .next ((s.writeRegs o.key d
        [BitVec.ofNat 32 (mine (s.queriesAt k true) + 256 * mine (s.queriesAt k false) + lost)]).finishOp o))) ∧
  (∀ (s : State) (u w l : Nat) (m : Team) (b : List Byte) (s' : State), s.team? u = some m → (m.window w).valid = true →
    (m.window w).line l = .filling → (m.window w).retranslate.getD l false = false →
    let x := m.window w
    let pa := x.pas.getD l 0
    let v := if s.hasEscrow pa then (s.leaveLine m.core pa).settleLine pa else s
    v.clusterLine (m.core / 16) pa = (b, s') → s'.lineSound (m.core / 16) pa = .ok () →
    exec (.stashFill u w l) s = .next ((s'.l1Take m.core pa b).setTeam
      ((m.scratchWrite (x.off + 256 * l) b).setWindow w (x.setLine l (.filled 0)))).wakeLines)

/-- R218, R219, R224, R229, R231, R281, R282, R303, R339 to R341: events of caches, home slices, tiles and maintenance. The model's choices, no rule's: which registration is
handled, and when (free, log entries 4 and 81); an eviction only from a set that is full (log entry 64); a revocation in one step
(log entry 85); errors only where an event names them (log entry 51); the order in which clusters settle a line (log entry 99);
and what home does with a registration whose line the cluster no longer holds (log entry 108). -/
def Obligations.CoherenceEvents : Prop :=
  ∀ (s : State),
    (∀ r : Registration,
      let t := s.homeRegister r
      let dirty (c a : Nat) : Bool := (s.cluster c).dirty.contains a
      let held (c a : Nat) : Byte := (cellGet (s.cluster c).bytes a).getD 0
      ((s.cluster r.cluster).holdsLine (lineOf r.start) = false → t = s) ∧
      ((s.cluster r.cluster).holdsLine (lineOf r.start) = true →
      (r.escrow = false → s.watched r.start = false →
        ∀ w ∈ r.words, (∀ v ∈ r.words, lineOf (4 * v) = lineOf (4 * w)) → t.ownerOf w = some r.cluster) ∧
      (r.escrow = true ∨ s.watched r.start = true →
        ((∀ w ∈ r.words, ∀ b, s.ownerOf w = some b → b = r.cluster) → t.registry = s.registry) ∧
        (∀ w ∈ r.words, ∀ b, t.ownerOf w = some b → b = r.cluster) ∧
        (∀ w ∈ r.words, ∀ a, a / 4 = w → (t.cluster r.cluster).dirty.contains a = false) ∧
        (∀ w a, r.words = [w] → a / 4 = w → s.linkDown (8 * (w / 2)) = false → dirty r.cluster a = true →
          cellGet t.home a = some (held r.cluster a))) ∧
      (∀ w b, r.words = [w] → r.escrow = false → s.watched r.start = false → s.ownerOf w = some b → b ≠ r.cluster →
        (t.cluster b).owned.contains w = false ∧
        ∀ a, a / 4 = w → (t.cluster b).dirty.contains a = false ∧ cellGet (t.cluster b).bytes a = none ∧
          (s.registry.length < 16 → s.linkDown (8 * (w / 2)) = false → dirty b a = true →
            cellGet t.home a = some (held b a) ∧
            (dirty r.cluster a = false → cellGet (t.cluster r.cluster).bytes a = some (held b a)))))) ∧
    (∀ c r, s.nextRegs c = [r] →
      exec (.homeRegistration c) s = .next (State.homeRegister { s with registrations := s.registrations.erase r } r)) ∧
    (∀ c r q l, s.nextRegs c = r :: q :: l →
      let p := s.pick (l.length + 2)
      let x := (r :: q :: l).getD p.1 r
      exec (.homeRegistration c) s = .next (State.homeRegister { p.2 with registrations := p.2.registrations.erase x } x)) ∧
    (∀ c w k, s.ownerOf w = some k → k ≠ c → s.ops.any (fun o => o.cluster == c && o.fault.isNone && spanMeets o.readsAt (4 * w) 4) = true →
      exec (.homeReadForward c w) s = .next ((s.makeRoom c (.line (lineOf (4 * w)))).fillUnit c (w / 2))) ∧
    (∀ c l, (s.cluster c).mayEvict l = true →
      exec (.lineEviction c l) s = .next (s.evictTag c (.line l)) ∧
      s.evictTag c (.line l) = (s.flushRegs c l 256).evictLine c l) ∧
    (∀ i m u, s.monitors.find? (fun m => m.idx == i) = some m → m.team = some u → m.fired = true →
      let t : State := { s with monitors := s.monitors.filter (fun x => x.idx != i) }
      (s.team? u = none → exec (.monitorWake i) s = .next t) ∧
      (∀ v, s.team? u = some v → exec (.monitorWake i) s =
        .next ((t.mapThreads (fun x => if m.wakes u x then { x with status := .ready } else x)).setTeam v.runnable))) ∧
    (∀ pa, inMap pa = true → ∃ t, exec (.cacheUncorrectableError (.data pa)) s = .next t ∧
      t.homePoison.contains (pa / 8) = true ∧ (s.ownerOf (pa / 4) = none → t.poisoned pa 1 = true)) ∧
    (∀ c pa, (s.cluster c).bytes.any (fun b => b.1 / 8 == pa / 8) = true →
      ∃ t, exec (.cacheUncorrectableError (.cluster c pa)) s = .next t ∧ (t.cluster c).poison.contains (pa / 8) = true ∧
        t.homePoison = s.homePoison ∧ t.poison = s.poison ∧ ∀ d, d ≠ c → t.cluster d = s.cluster d) ∧
    exec (.cacheUncorrectableError .corrected) s = .next { s with sup := { s.sup with errcnt := s.sup.errcnt + 1 } } ∧
    (∀ w, exec (.cacheUncorrectableError (.registry w)) s = .next (s.revokeRange (lineOf (4 * w)) 256).report) ∧
    (∀ l, exec (.cacheUncorrectableError (.allowance l)) s = .next (s.settleLine l).report) ∧
    (∀ c x k i, (s.cluster c).tiles.any (fun y => y.1 == .tile x k i) = true →
      ∃ t, exec (.cacheUncorrectableError (.tile c x k i)) s = .next t ∧
        ∀ y ∈ (t.cluster c).tiles, y.1 = .tile x k i → y.2.bad = true) ∧
    (∀ n o, s.opReady n o = true →
      let q : Op := { o.unwalked with begun := true }
      let w := s.walking o
      let u := if o.begun then w else (w.releaseAt o.core o.key.team o.scope).setOp q
      let ends (i : Instr) (t : State) : Prop := o.walk = none → t.missed = none → exec i s = .next { t with walkFor := none }
      (∀ f sc va k s', o.kind = .cmaint f sc va k → k = 0 ∨ (s.earlier o).all (fun p => !p.kind.isWrite) = true →
        w.maintPages o.unwalked f sc 65538 va k = (none, s') → ends (.cacheMaintenanceComplete n) (s'.finishOp o.unwalked)) ∧
      (∀ t a k, o.kind = .tinval t a k → w.forked o.unwalked = true →
        ends (.tileMaintenanceComplete n) ((u.invalTiles q t a k).finishOp q)) ∧
      (∀ t a k s', o.kind = .tclean t a k → w.forked o.unwalked = true → u.updating q t a k = false →
        u.cleanTiles q t a k = (none, s') → ends (.tileMaintenanceComplete n) (s'.finishOp q)) ∧
      (∀ l, o.kind = .tlbinv l → s.ops.any (fun p => l.contains p.id && p.fault.isNone) = false →
        exec (.tlbinvComplete n) s = .next (s.finishOp o)) ∧
      (∀ t off m s', o.kind = .tst t off → s.mintTurn o = true → w.forked o.unwalked = true → u.team? o.key.team = some m →
        u.linesPresent (m.uid, off, 256) (some o.id) = true → m.badIn off 256 = false → t.desc.fmt ≠ 6 →
        u.tileUpdate q t false (fun _ => m.scratchBytes off 256) = (.ok (), s') →
        ends (.tileUpdate n) (s'.joinOp q))) ∧
    (∀ i p s', s.pushes.find? (fun p => p.idx == i) = some p → p.op = none → p.wait = none →
      s.pushSlot p.core p.ctx p.pool p.cls p.slot = (.ok (), s') →
      exec (.slotPush i) s = .next { s' with pushes := s'.pushes.filter (fun q => q.idx != i) })

/-- R319 to R324, R377 to R380: the dispatcher and the command processors place, swap out, resume and hand out teams, and
evaluate wait conditions, deadlines, quanta and the completion of grids. A first placement brings the launch's regions (R375).
What of a team the image holds and what stays structured (log entry 32), the order of returns (log entry 33), when a die can
take a team (log entry 44) and whose teams an urgent grid or a run-out quantum takes (log entry 45) are the model's reading. -/
def Obligations.DispatchEvents : Prop :=
  ∀ (s : State),
    (∀ u m g c s₁ s₂, s.team? u = some m → s.grids.find? (fun g => g.id == m.grid) = some g → m.waiting = true →
      s.nextToPlace m = true →
      let l := m.launchGroups g
      s.chooseCore m { windows := l.map (fun x => x.2.2), sgran := m.sgran } = some c →
      s.takeSlot { m with scratch := [] } c ((s.freeSlots c).headD 0) = some s₁ → s₁.formLaunch u l = some s₂ →
      exec (.teamPlacement u) s = .next ((if s.unplaced g then s₂.putRegions g else s₂).acquireAt c .device)) ∧
    (∀ u m core slot x, s.team? u = some m → m.res = .resident core slot → s.ctxOf m.ctx = some x → s.drained m = true →
      (if m.preempt.isSome then (s.threadsOf m.uid).all (fun t => t.status.stoppedFor) = true ∧
          (s.threadsOf m.uid ≠ [] ∨ ∃ i, i < 8 ∧ (m.till i).isSome = true)
        else s.allParked m = true ∧ s.wantedBy m = true) →
      let v := (s.releaseAt core u .device).mapThreads m.saveThread
      ∀ m' b, v.team? u = some m' → v.imageBase x u (v.image m').length = some b →
        v.saveFaults b (v.image m').length = false →
        let w := v.homeWrite b (v.image m')
        exec (.teamSwapOut u) s = .next { w.setTeam { m' with
          res := .swapped core slot b (v.image m').length (s.wantedAfter m) w.placeOrder, preempt := none } with
          placeOrder := w.placeOrder + 1 }) ∧
    (∀ u m core slot x, s.team? u = some m → m.res = .resident core slot → s.ctxOf m.ctx = some x → s.readyToLeave m = true →
      s.drained m = false → exec (.teamSwapOut u) s = .next (s.letGo u)) ∧
    (∀ u m core slot b k w r place, s.team? u = some m → m.res = .swapped core slot b k w r → s.nextToResume m = true →
      s.imageUpdates.any (fun v => v.team == u) = false → s.resumePlace m core slot = some place →
      (s.reload m b k = none → exec (.teamResume u) s = .next (s.loseControl (2 + 256 * m.die) m.ctx)) ∧
      ∀ s₁ m' s₂ s₃, s.reload m b k = some s₁ → s₁.team? u = some m' →
        s₁.takeSlot { m' with groups := [] } place.1 place.2 = some s₂ →
        s₂.allotGroups m'.uid m'.groups = some s₃ →
        let move (o : Op) : Op := if o.key.team = m'.uid then { o with core := place.1, cluster := place.1 / 16 } else o
        let t := (State.accessesAgain { s₃ with ops := s₃.ops.map move } m'.uid place.1 place.2).acquireAt place.1 .device
        exec (.teamResume u) s = .next ((((t.mapThreads (t.restore m')).waitersBack m'.uid).wakeSpawners m'.uid).spawnDeadlock m'.uid)) ∧
    (∀ i x off b, s.imageUpdates.find? (fun u => u.idx == i) = some x → s.outside x.team = true →
      s.imageUpdates.any (fun v => v.team == x.team && decide (v.idx < i)) = false → x.what = .scratch off b →
      let gone : State := { s with imageUpdates := s.imageUpdates.filter (fun v => v.idx != i) }
      (s.op? x.op = none ∨ (∃ o, s.op? x.op = some o ∧ o.fault.isSome = true) → exec (.imageUpdate i) s = .next gone) ∧
      (∀ o, s.op? x.op = some o → o.fault = none →
        exec (.imageUpdate i) s = .next (gone.onImage x.team (fun t => t.imageUpdate x)) ∧
        ∀ (t : State) (m : Team) (p : Op), t.team? x.team = some m → t.op? x.op = some p →
          let v := t.setTeam (m.scratchWrite off b)
          let last := (match p.kind with | .copy ps _ => ps.isEmpty | _ => false) && !v.updatesOf p.id
          let w := v.landed p b.length last
          t.imageUpdate x = if w.lineNow x.team then w.setTeam ((w.team? x.team).getD m).runnable else w)) ∧
    (∀ id w g c pa, s.grids.find? (fun g => g.id == id && !g.done) = some g → g.waits[w]? = some c → c.met = false →
      (if s.monitors.any (fun m => m.grid == some (id, w)) then
          s.monitors.any (fun m => m.grid == some (id, w) && m.fired) = true
        else c.poll ≤ s.clocks.getD (g.queue % 4) 0) →
      s.waitHolds g.ctx c = some (pa, true) →
      exec (.waitConditionMet id w) s =
        .next (State.setGrid { s with monitors := s.monitors.filter (fun m => m.grid != some (id, w)) }
          (g.setWait w { c with met := true }))) ∧
    (∀ die g, die < 4 → s.chooseGrid die = some g → s.canTake die g = true →
      let m := s.newTeam g
      exec (.teamHandout die) s = .next { s.setGrid { g with next := g.next + 1 } with
        teams := s.teams ++ [m], nextTeam := (m.uid + 1) % 65536, cpRobin := g.queue % 4 }) ∧
    (∀ id g, s.grids.find? (fun g => g.id == id && !g.done) = some g → g.deadline ≠ 0 →
      g.deadline ≤ s.clocks.getD (g.queue % 4) 0 → g.deadlineHit = false →
      exec (.deadlineExpiry id) s = .next (s.setGrid { g with deadlineHit := true, urgent := g.urgent || s.urgentNow g })) ∧
    (∀ n, n < 16 →
      let t := s.tenantOf n
      ∀ m, t.quantum ≠ 0 → t.quantum < t.slotTime → s.quantumVictim n = some m →
        exec (.quantumExpiry n) s =
          .next ((s.setTeam { m with preempt := some ⟨((s.ctxOf m.ctx).map Ctx.grace).getD 8192⟩ }).mapThreads m.stopNow)) ∧
    (∀ id g, s.grids.find? (fun g => g.id == id && !g.done) = some g → g.next = g.teams →
      (s.allTeams.filter (fun m => m.grid == id)).all (fun m => match m.res with | .freed _ => true | _ => false) = true →
      let v := (s.allTeams.filter (fun m => m.grid == id)).foldl (fun s m => s.releaseAt m.core m.uid .system) s
      let w : State := { v with teams := v.teams.filter (fun m => m.grid != id), grids := v.grids.filter (fun x => x.id != id) }
      let x := w.putStatus g.queue g.ctx g.cword 1 0 (g.deadline != 0 && decide (g.deadline < w.clocks.getD (g.queue % 4) 0))
      (g.irq = false → exec (.gridComplete id) s = .next x) ∧
      (g.irq = true → g.queue < 16 → exec (.gridComplete id) s = .next (x.raise g.queue 0)))

/-- R373, R374, R381 to R383, R318: queues and the supervisor's commands. A doorbell that keeps the records submitted is
taken, any other counts as a queue error; a record is fetched, checked, and becomes a grid or gets its status; contexts are
made and ended; fault records are replayed, delivered or end their thread. That a refused record's status, of a fetch that failed
or of a launch, is written only where its completion word is well formed and arrived clean is the model's reading of R373 (DEDUCED,
log entry 47). The numbers of the set-up registers (log entry 3),
the status of END_CONTEXT on an invalid context (log entry 37), the value of a success status (log entry 38) and the index
modulo the queue's size (log entry 69) are the model's choices. -/
def Obligations.QueueEvents : Prop :=
  ∀ (s : State),
    (∀ n q (v : Word), s.queue? n = some q →
      let size := 2 ^ q.lg
      exec (.doorbell n v) s =
        (if v.toNat < size ∧ (q.tail + size - q.head) % size ≤ (v.toNat + size - q.head) % size then
           .next (s.setQueue { q with tail := v.toNat })
         else .next (s.queueError n))) ∧
    (∀ n q b, s.queue? n = some q → q.fetched = none → q.head ≠ q.tail → q.host = false ∨ s.fabric.host ≠ .down →
      s.recordAt q = (b, true) → exec (.recordFetch n) s = .next (s.setQueue { q with fetched := some b })) ∧
    (∀ n q b, s.queue? n = some q → q.fetched = none → q.head ≠ q.tail → q.host = false → s.recordAt q = (b, false) →
      let c := leAddr (slice b 0x48 8)
      let a := q.base + 1024 * q.head
      let clean := s.poisoned (a + 0x48) 8 = false ∧ s.linkDown a = false ∧ (c.getLsbD 63 = true ∨ s.poisoned a 8 = false) ∧
        cwordOk c = true
      let passed (t : State) : Prop := ∀ p, t.queue? n = some p → exec (.recordFetch n) s = .next (t.passHead p)
      let u := s.queueError n
      (clean → passed (u.putStatus n (fieldAt b 2 1) c 2 9 false)) ∧ (¬ clean → passed u)) ∧
    (∀ n q r, s.launchRecord n = some (q, r) →
      (∀ k, s.checkLaunch n r = .ok k →
        let g := s.gridOf n r k
        exec (.launch n) s = .next (State.armWaits { s.passHead q with grids := s.grids ++ [g], nextGrid := s.nextGrid + 1 } g)) ∧
      (∀ k, s.checkLaunch n r = .error k → cwordOk (leAddr (slice r 0x48 8)) = true →
        exec (.launch n) s = .next ((s.passHead q).putStatus n (fieldAt r 2 1) (leAddr (slice r 0x48 8)) 2 k false))) ∧
    (∀ q r, s.command 0x80 = some (q, r) →
      let at_ := fieldAt r 0x10 8
      let b := s.performBytes at_ 512
      let c := ctxRecord (fieldAt r 2 1) b
      let fits := fieldAt r 2 1 < 64 ∧ s.ctxOf (fieldAt r 2 1) = none ∧ inMap at_ = true ∧ inMap (at_ + 511) = true ∧
        s.poisoned at_ 512 = false ∧ s.linkDown at_ = false ∧ s.ctxRecordOk c b = true
      (fits → exec .createContext s = .next (State.commandDone { s with ctxs := s.ctxs ++ [c], fabric := { s.fabric with
        lost := s.fabric.lost.filter (fun x => x != fieldAt r 2 1) } } q r 0)) ∧
      (¬ fits → exec .createContext s = .next (s.commandDone q r 2))) ∧
    (∀ q r, s.command 0x81 = some (q, r) →
      let c := fieldAt r 2 1
      ((s.ctxOf c).isSome = true →
        exec .endContext s = .next ((((s.haltCtx c).endGrids c 4).commandDone q r 0).removeCtx c)) ∧
      ((s.ctxOf c).isNone = true → exec .endContext s = .next (s.commandDone q r 2))) ∧
    (∀ q r, s.command 0x82 = some (q, r) →
      let tn := fieldAt r 4 4
      let entry := s.fqEntry tn (fieldAt r 8 4)
      let cleared (e : FqEntry) : State := s.settleEntry tn e.index
      (fieldAt r 0x0C 4 = 0 →
        (∀ e c p l, entry = some e → e.wait = .page c p l → s.waitersOf e ≠ [] →
          exec .resolveReplay s = .next (((s.waitersOf e).foldl State.retry (cleared e)).commandDone q r 0)) ∧
        (entry = none → exec .resolveReplay s = .next (s.commandDone q r 1))) ∧
      (2 < fieldAt r 0x0C 4 → exec .resolveReplay s = .next (s.commandDone q r 1)) ∧
      (fieldAt r 0x0C 4 = 1 →
        (∀ e, entry = some e → s.waitersOf e ≠ [] →
          exec .resolveDeliver s = .next (((s.waitersOf e).foldl State.deliverPage (cleared e)).commandDone q r 0)) ∧
        (entry = none → exec .resolveDeliver s = .next (s.commandDone q r 1))) ∧
      (fieldAt r 0x0C 4 = 2 →
        (∀ e k, entry = some e → e.wait = .stopped k →
          exec .resolveEndThread s = .next (((cleared e).removeThread k).commandDone q r 0)) ∧
        (∀ e c p l x rest t, entry = some e → e.wait = .page c p l → s.waitersOf e = x :: rest → s.thread? x.key = some t →
          (t.status = .parked (.page x.num) ∨ ∃ w, t.status = .saved w (some (.page x.num))) →
          exec .resolveEndThread s = .next (((rest.filter (fun y => y.key != x.key)).foldl State.retry
            ((cleared e).removeThread x.key)).commandDone q r 0)) ∧
        (entry = none → exec .resolveEndThread s = .next (s.commandDone q r 1)))) ∧
    (∀ n (v : Word), n < 16 → (s.tenantOf n).held = [] →
      let t := s.tenantOf n
      let size := 2 ^ t.lgfq
      let h := v.toNat % size
      let gone (i : Nat) : Bool := decide ((i + size - t.fqhead) % size < (h + size - t.fqhead) % size)
      exec (.fqheadWrite n v) s =
        .next ((s.snapshot 0).setTenant { t with fqhead := h, fq := t.fq.filter (fun e => e.wait != .none || !gone e.index) })) ∧
    (∀ n (v : BitVec 64),
      let t := s.snapshot 0
      (n = 0x8A → exec (.supervisorRegisterWrite n v) s = .next { t with sup := { t.sup with snapen := v.setWidth 32 } }) ∧
      (0x200 ≤ n → n < 0x210 → 6 ≤ v.toNat → v.toNat ≤ 12 →
        exec (.supervisorRegisterWrite n v) s = .next (t.setTenant { t.tenantOf (n - 0x200) with lgfq := v.toNat })))

/-- R363 to R369, R372, R394, R395: a query comes to its teller, starts once it is free, takes a turn for each batch, and completes with
its work area, its record and its completion word; an error in a teller's memory ends it. The teller a query comes to (log
entry 59), the order of batches (log entry 86), the bytes of the work area (log entry 29) and how a turn that needs a page's walk
is taken again (log entry 106) are the model's choices. -/
def Obligations.TellerEvents : Prop :=
  ∀ (s : State) (n : Nat) (o : Op) (q : Query), s.opReady n o = true →
    let o' := o.unwalked
    let v := s.walking o
    let p : Op := { o' with begun := true }
    let u := if o.begun then v else (v.releaseAt o.core o.key.team o.scope).setOp p
    let ends (i : Instr) (t : State) : Prop := o.walk = none → t.missed = none → exec i s = .next { t with walkFor := none }
    (o.kind = .gq q → q.running = false → q.out = none → q.routed = false → v.forked o' = true →
      ∀ r s', u.gqRoute o.ctx o.id q = (.ok r, s') → ends (.tellerQueryStart n) (s'.setOp { p with kind := .gq r })) ∧
    (o.kind = .gq q → q.running = false → q.out = none → q.routed = true → v.forked o' = true → s.tellerFree o q = true →
      ∀ r s', u.gqStart o.ctx q = (.ok r, s') → ends (.tellerQueryStart n) (s'.setOp { p with kind := .gq r })) ∧
    (o.kind = .att q → q.running = false → q.out = none → q.routed = true → v.forked o' = true → s.tellerFree o q = true →
      ∀ r s', u.attRun o.ctx q = (.ok r, s') → ends (.tellerQueryStart n) (s'.setOp { p with kind := .att r })) ∧
    (o.kind = .gq q → q.running = true → q.out = none →
      ∀ r s', v.gqTurn o.ctx q = (.ok r, s') → ends (.batchReturn n) (s'.setOp { o' with kind := .gq r })) ∧
    (o.kind = .gq q → q.running = true → q.out = none → q.waiting = none → q.cands.find? (fun c => !c.expanded) = none →
      ends (.batchReturn n) (v.setOp { o' with kind := .gq { q with out := some (q.record 1) } })) ∧
    (∀ b w r s', o.kind = .gq q ∨ o.kind = .att q → q.out = some b → s.orderFree o q = true →
      v.tellPlaces o.ctx q b = (.ok (w, r, none), s') →
      let work := (List.range (w.foldl (fun n p => n + p.2) 0)).map (fun i => Config.workByte o.id i)
      ends (.tellerCompletion n) ((((s'.tellerPut w work).tellerPut r b).acquireStep o.core o.key.team o.scope).finishOp o')) ∧
    (∀ b w r pa s', o.kind = .gq q ∨ o.kind = .att q → q.out = some b → s.orderFree o q = true →
      v.tellPlaces o.ctx q b = (.ok (w, r, some pa), s') →
      let work := (List.range (w.foldl (fun n p => n + p.2) 0)).map (fun i => Config.workByte o.id i)
      ends (.tellerCompletion n) ((((s'.tellerPut w work).tellerPut r b).cwordAdd pa).joinOp o')) ∧
    (∀ (t : State) (x : Op), t.op? n = some x → x.kind = .gq q ∨ x.kind = .att q → x.fault = none →
      q.running = true ∨ q.routed = true ∨ x.waitPage.isSome = true ∨ x.walk.isSome = true →
      exec (.tellerSramError n) t = .next ((t.dropAccesses (fun a => a.op == some x.id)).failOp
        (x.withQuery { q with running := false }) { x.base with cause := 0x38, vaddr := 0, detail := 9, engine := true }))

/-- R407 to R409, R413 to R420: fabric registers, ports, arrival, acknowledgement and time-out of remote operations, and the
RoCE engine. The detail of a request for a context that the module has lost (log entry 110) is the model's reading. The form of
RoCE entries, their data and their rate (log entry 54), what an incoming request completes (log entry 102), and the outbox and the replies of the module to itself (log entry 56) are the model's free choices. -/
def Obligations.FabricEvents : Prop :=
  ∀ (s : State),
    (∀ (v : Word), exec (.modidWrite v) s = .next { s.snapshot 0 with fabric := { s.fabric with modid := v &&& 0x800001FF } }) ∧
    (∀ c (v : BitVec 64), c < 64 → ∃ t, exec (.fabContextWrite c v) s = .next t ∧
      t.fabOf c = (v.getLsbD 0, (v >>> 16).setWidth 16) ∧ ∀ d, d ≠ c → t.fabOf d = s.fabOf d) ∧
    (∀ (a : InjectArg), ∃ t, exec (.injectArm a) s = .next t ∧
      (t.fabric.inject.armed = true ↔ a.arm = true ∧ 1 ≤ a.nth ∧ a.nth ≤ 65535 ∧ a.bit < 8) ∧
      t.fabric.inject.nth = a.nth ∧ t.fabric.inject.left = a.nth ∧ t.fabric.inject.ctx = a.ctx) ∧
    (∀ p, p < 32 → s.fabric.ports.getLsbD p = false →
      exec (.portTrained p) s = .next { s with fabric := { s.fabric with ports := s.fabric.ports ||| (1#32 <<< p) } }) ∧
    (∀ p, p < 32 → s.fabric.ports.getLsbD p = true →
      exec (.waconFlitRetry p) s = .next { s with fabric := { s.fabric with retries := s.fabric.retries + 1 } } ∧
      ∃ t, exec (.portFailure p) s = .next t ∧ t.fabric.ports = s.fabric.ports &&& ~~~(1#32 <<< p)) ∧
    (∀ lanes rate, lanes ∈ [4, 8, 16] → rate ∈ [2500, 5000, 8000, 16000, 32000, 64000] → s.fabric.host ≠ .up lanes rate →
      exec (.hostLinkTraining (.up lanes rate)) s = .next { s with fabric := { s.fabric with host := .up lanes rate } }) ∧
    (∀ (q : RemoteReq), s.moduleNum.isSome = true → s.fabric.ports ≠ 0 →
      let u := s.takeOut q
      let no : Nat := if (s.ctxOf q.ctx).isNone && s.fabric.lost.contains q.ctx then 4 else 1
      let r := if u.accepts q then u.performRemote q else (.remoteFault no 0 (remoteAddr q.body), u)
      exec (.remoteOpArrival q) s =
        .next { r.2 with fabric := { r.2.fabric with replies := r.2.fabric.replies ++ [⟨q.source, q.tag, r.1⟩] } }) ∧
    (∀ n o r, s.opReady n o = true → o.kind = .remote r → r.sent = true →
      (∀ v d, r.target ≠ s.moduleNum.getD 0 → r.d = some d →
        exec (.remoteAck n (.done v)) s =
          .next (((s.writeRegs o.key d (r.results v)).acquireStep o.core o.key.team .device).finishOp o)) ∧
      (∀ d va, r.target ≠ s.moduleNum.getD 0 →
        exec (.remoteAck n (.linkFailed d va)) s = .next (s.remoteFail o 0x31 va (BitVec.ofNat 64 d))) ∧
      (r.sentAt + 2 ^ 24 ≤ s.clocks.getD 4 0 →
        exec (.remoteTimeout n) s = .next (s.remoteFail o 0x32 (remoteAddr r.body) 3))) ∧
    (∀ n q, s.roce.find? (fun q => q.num == n) = some q →
      (∀ p pa, s.monitors.any (fun m => m.qp == some n && !m.fired) = false →
        let v : State := { s with monitors := s.monitors.filter (fun m => m.qp != some n) }
        v.readVa q.ctx q.producer 4 .read = .ok p → v.xlate q.ctx q.producer .read = .ok pa →
        (∀ b, v.readVa q.ctx (q.workBase + BitVec.ofNat 64 (64 * (q.fetched % q.slots))) 64 .read = .ok b →
          leNat p ≠ q.fetched % 2 ^ 32 →
          exec (.roceWorkFetch n) s = .next (v.setQp { q with fetched := q.fetched + 1, entries := q.entries ++ [b] })) ∧
        (leNat p = q.fetched % 2 ^ 32 → (v.monitors.filter (fun m => sliceOf m.word == sliceOf pa)).length < 256 →
          ∃ t, exec (.roceWorkFetch n) s = .next t ∧
            ∃ m ∈ t.monitors, m.qp = some n ∧ m.word = pa ∧ m.cmp = 1 ∧ m.value = BitVec.ofNat 32 q.fetched ∧ m.fired = false)) ∧
      (∀ w rest k, q.entries = w :: rest → s.readVa q.ctx q.countWord 4 .read = .ok k →
        ∃ t, exec (.roceCompletion n) s = .next t ∧ (∀ x ∈ t.roce, x.num = n → x = { q with entries := rest })) ∧
      (∀ (x : RdmaKind) va b,
        let v := (s.remotePut q.ctx (b.length + 1) va b).2
        (x = .write → exec (.rdmaInbound n ⟨x, va⟩ b) s = .next v) ∧
        (x ≠ .write → ∀ k, v.readVa q.ctx q.countWord 4 .read = .ok k →
          exec (.rdmaInbound n ⟨x, va⟩ b) s = .next (v.completeQp q (leNat k) (Config.roceCompletionEntry b)))) ∧
      (∀ va k, exec (.rdmaReadRequest n va k) s = .next ((s.remoteGet q.ctx (k + 1) va k).2.setQp
        { q with answers := q.answers ++ [(s.remoteGet q.ctx (k + 1) va k).1.toOption] })) ∧
      exec (.cnpReceived n) s = .next (s.setQp { q with rate := Config.roceRate q.rate }))

/-- R231, R326, R327, R352, R356, R358, R372, R384, R385, R387 to R391: failures of units and links, voted machines, refresh,
snapshots, attestation, firmware, power and the reset of the module. The bytes of the SPDM messages (log entry 40), how many
postponed refreshes are counted (log entry 41), what management keeps over the module's reset (log entry 42), the triggers and
blocks of a snapshot (log entry 53) and the bytes a firmware digest is taken of (log entry 101) are the model's reading. -/
def Obligations.ModuleEvents : Prop :=
  ∀ (s : State),
    (∀ c, c < 96 → (s.cluster c).lost = false → ∃ t, exec (.clusterUnresponsive c) s = .next t ∧ (t.cluster c).lost = true ∧
      (t.cluster c).bytes = [] ∧ ∀ e ∈ t.registry, e.2 ≠ c) ∧
    (∀ u, votedUnitOk u = true →
      (s.voteOf u = 3 → ∃ t, exec (.voteDissent u) s = .next t ∧ t.voteOf u = 2 ∧ t.sup.dissents = s.sup.dissents + 1) ∧
      (s.voteOf u = 2 → ∃ t, exec (.voteReadmission u) s = .next t ∧ t.voteOf u = 3 ∧
        t.sup.readmissions = s.sup.readmissions + 1)) ∧
    (∀ d, d < 4 →
      (s.voteOf (.walker d) = 2 →
        exec (.comparedPairDisagreement (.walker d)) s = .next (((s.loseAll (1 + 256 * d) (s.walkers d)).resetWalker d).setVote (.walker d) 3)) ∧
      (s.voteOf (.dispatcher d) = 2 → exec (.comparedPairDisagreement (.dispatcher d)) s =
        .next ((s.loseAll (2 + 256 * d) (s.dispatched d)).setVote (.dispatcher d) 3)) ∧
      (s.voteOf (.commandProcessor d) = 2 → ∃ t, exec (.cpVoteDisagreement d) s = .next t ∧
        ∀ q ∈ t.queues, q.num % 4 = d → q.fetched = none)) ∧
    (∀ a b, a < b → b < 4 → s.links.dieLinksLost.contains (a, b) = false →
      exec (.dieLinkFlitRetry a b) s = .next s ∧ exec (.dieLinkFlitRetry b a) s = .next s ∧
      ∃ t, exec (.dieLinkFailure a b) s = .next t ∧ t.links.dieLinksLost.contains (a, b) = true) ∧
    (∀ k, k < 12 → s.links.stacksLost.contains k = false →
      ∃ t, exec (.stackUnresponsive k) s = .next t ∧ t.links.stacksLost.contains k = true) ∧
    (∀ j, j < 4 → s.links.cxlFailed.contains j = false → ∃ t, exec (.cxlLinkFailed j) s = .next t ∧
      ∀ pa, cxlOf pa = some j → t.linkDown pa = true) ∧
    (∀ k b, k < 12 →
      exec (.refresh k b false) s = .next s ∧
      (s.debt (k, b) < 8 → ∃ t, exec (.refresh k b true) s = .next t ∧ t.debt (k, b) = s.debt (k, b) + 1) ∧
      ∃ t, exec (.alertBackOff k b) s = .next t ∧ t.debt (k, b) = if s.debt (k, b) = 8 then 0 else s.debt (k, b)) ∧
    exec (.snapshotTrigger .hostWrite) s = .next (s.snapshot 0) ∧
    exec .snapshotRearm s = .next { s with sup := { s.sup with latched := false, snapDue := [] } } ∧
    (s.sup.snapen.getLsbD 0 = true → s.sup.latched = false →
      (s.snapshot 0).sup.latched = true ∧ ∀ n, n < 15 → (s.snapshot 0).sup.snapDue.contains n = true) ∧
    (s.sup.snapen.getLsbD 0 = true → s.sup.latched = true →
      s.snapshot 0 = { s with sup := { s.sup with triggers := s.sup.triggers + 1 } }) ∧
    (∃ b, exec .getVersion s = .next (s.respond b (fun m =>
      { m with spdmVersion := true, spdmCaps := false, spdmAlg := false, transcript := [] }))) ∧
    (s.mgmt.spdmVersion = true → ∃ b, exec .getCapabilities s = .next (s.respond b (fun m => { m with spdmCaps := true }))) ∧
    (s.mgmt.spdmCaps = true → ∀ (f : SpdmOffer), ∃ b, exec (.negotiateAlgorithms f) s =
      .next (s.respond b (fun m => { m with spdmAlg := f.ed25519 && f.sha384 }))) ∧
    (s.mgmt.spdmAlg = true →
      (∃ b, exec .getDigests s = .next (s.respond b id)) ∧
      (∀ i a n, ∃ b, exec (.getCertificate i a n) s = .next (s.respond b id)) ∧
      (∀ i x, ∃ b, exec (.challenge i x) s =
        .next (s.respond (b ++ leBytes 64 (Config.spdmSign (s.mgmt.transcript ++ b)).toNat) id)) ∧
      (∀ i, i ≤ 6 → ∃ b, exec (.getMeasurements i) s =
        .next (s.respond (b ++ leBytes 64 (Config.spdmSign (s.mgmt.transcript ++ b)).toNat) id))) ∧
    (∀ u (i : FirmwareSlots), 2 ≤ u → u ≤ 5 → ∃ t, exec (.firmwareLoad u i) s = .next t ∧
      (s.mgmt.accepts u i.first = true →
        (u, Config.sha384 (i.first.header ++ leBytes 8 i.first.version ++ i.first.image)) ∈ t.mgmt.measurements) ∧
      (s.mgmt.accepts u i.first = false → s.mgmt.accepts u i.second = false →
        t.mgmt.measurements = s.mgmt.measurements ∧ t.mgmt.failures = s.mgmt.failures ++ [u, u])) ∧
    (∀ w, 1500 ≤ w → w ≤ 3400 → exec (.powerLimitSet w) s = .next { s.snapshot 1 with mgmt := { s.mgmt with powerLimit := w } }) ∧
    (∀ k, k < 64 → exec (.thermalThrottle k) s = .next { s with mgmt := { s.mgmt with clockStep := k } }) ∧
    (∃ t, exec .thermalTrip s = .next t ∧ t.mgmt.stopped = true ∧ t.fabric.host = .down) ∧
    exec .hostLinkError s = .next { s with fabric := { s.fabric with hostErrors := s.fabric.hostErrors + 1, hostBad := true } } ∧
    exec .moduleReset s = .next { State.reset with mgmt := { s.mgmt with stopped := false }, hostMem := s.hostMem,
                                                   inputs := s.inputs, tick := s.tick }
end

