-- ==== Sys2Proof/Laws/State.lean ====
section
/-! SUPPORT. What each update of the state leaves in each field: one lemma per field per update. -/

namespace Sys2Proof.Machine

/-! ### `Thread.setReg` -/

@[simp] theorem Thread.setReg_key (t : Thread) (i : Nat) (v : Word) : (t.setReg i v).key = t.key := rfl
@[simp] theorem Thread.setReg_role (t : Thread) (i : Nat) (v : Word) : (t.setReg i v).role = t.role := rfl
@[simp] theorem Thread.setReg_entry (t : Thread) (i : Nat) (v : Word) : (t.setReg i v).entry = t.entry := rfl
@[simp] theorem Thread.setReg_regs (t : Thread) (i : Nat) (v : Word) : (t.setReg i v).regs = t.regs.set i v := rfl
@[simp] theorem Thread.setReg_pend (t : Thread) (i : Nat) (v : Word) : (t.setReg i v).pend = t.pend := rfl
@[simp] theorem Thread.setReg_preds (t : Thread) (i : Nat) (v : Word) : (t.setReg i v).preds = t.preds := rfl
@[simp] theorem Thread.setReg_xs (t : Thread) (i : Nat) (v : Word) : (t.setReg i v).xs = t.xs := rfl
@[simp] theorem Thread.setReg_pc (t : Thread) (i : Nat) (v : Word) : (t.setReg i v).pc = t.pc := rfl
@[simp] theorem Thread.setReg_clause (t : Thread) (i : Nat) (v : Word) : (t.setReg i v).clause = t.clause := rfl
@[simp] theorem Thread.setReg_hdr (t : Thread) (i : Nat) (v : Word) : (t.setReg i v).hdr = t.hdr := rfl
@[simp] theorem Thread.setReg_startAt (t : Thread) (i : Nat) (v : Word) : (t.setReg i v).startAt = t.startAt := rfl
@[simp] theorem Thread.setReg_trapActive (t : Thread) (i : Nat) (v : Word) : (t.setReg i v).trapActive = t.trapActive := rfl
@[simp] theorem Thread.setReg_watchdog (t : Thread) (i : Nat) (v : Word) : (t.setReg i v).watchdog = t.watchdog := rfl
@[simp] theorem Thread.setReg_cause (t : Thread) (i : Nat) (v : Word) : (t.setReg i v).cause = t.cause := rfl
@[simp] theorem Thread.setReg_fpc (t : Thread) (i : Nat) (v : Word) : (t.setReg i v).fpc = t.fpc := rfl
@[simp] theorem Thread.setReg_fpc0 (t : Thread) (i : Nat) (v : Word) : (t.setReg i v).fpc0 = t.fpc0 := rfl
@[simp] theorem Thread.setReg_resume (t : Thread) (i : Nat) (v : Word) : (t.setReg i v).resume = t.resume := rfl
@[simp] theorem Thread.setReg_replay (t : Thread) (i : Nat) (v : Word) : (t.setReg i v).replay = t.replay := rfl
@[simp] theorem Thread.setReg_age (t : Thread) (i : Nat) (v : Word) : (t.setReg i v).age = t.age := rfl
@[simp] theorem Thread.setReg_status (t : Thread) (i : Nat) (v : Word) : (t.setReg i v).status = t.status := rfl
@[simp] theorem Thread.setReg_poll (t : Thread) (i : Nat) (v : Word) : (t.setReg i v).poll = t.poll := rfl
@[simp] theorem Thread.setReg_redo (t : Thread) (i : Nat) (v : Word) : (t.setReg i v).redo = t.redo := rfl
@[simp] theorem Thread.setReg_block (t : Thread) (i : Nat) (v : Word) : (t.setReg i v).block = t.block := rfl
@[simp] theorem Thread.setReg_seenFaults (t : Thread) (i : Nat) (v : Word) : (t.setReg i v).seenFaults = t.seenFaults := rfl
@[simp] theorem Thread.setReg_badRegs (t : Thread) (i : Nat) (v : Word) : (t.setReg i v).badRegs = t.badRegs.filter (· != i) := rfl
@[simp] theorem Thread.setReg_held (t : Thread) (i : Nat) (v : Word) : (t.setReg i v).held = t.held := rfl
@[simp] theorem Thread.setReg_lastIssue (t : Thread) (i : Nat) (v : Word) : (t.setReg i v).lastIssue = t.lastIssue := rfl

/-! ### `Thread.setX` -/

@[simp] theorem Thread.setX_key (t : Thread) (i : Nat) (v : BitVec 16) : (t.setX i v).key = t.key := rfl
@[simp] theorem Thread.setX_role (t : Thread) (i : Nat) (v : BitVec 16) : (t.setX i v).role = t.role := rfl
@[simp] theorem Thread.setX_entry (t : Thread) (i : Nat) (v : BitVec 16) : (t.setX i v).entry = t.entry := rfl
@[simp] theorem Thread.setX_regs (t : Thread) (i : Nat) (v : BitVec 16) : (t.setX i v).regs = t.regs := rfl
@[simp] theorem Thread.setX_pend (t : Thread) (i : Nat) (v : BitVec 16) : (t.setX i v).pend = t.pend := rfl
@[simp] theorem Thread.setX_preds (t : Thread) (i : Nat) (v : BitVec 16) : (t.setX i v).preds = t.preds := rfl
@[simp] theorem Thread.setX_xs (t : Thread) (i : Nat) (v : BitVec 16) : (t.setX i v).xs = t.xs.set i v := rfl
@[simp] theorem Thread.setX_pc (t : Thread) (i : Nat) (v : BitVec 16) : (t.setX i v).pc = t.pc := rfl
@[simp] theorem Thread.setX_clause (t : Thread) (i : Nat) (v : BitVec 16) : (t.setX i v).clause = t.clause := rfl
@[simp] theorem Thread.setX_hdr (t : Thread) (i : Nat) (v : BitVec 16) : (t.setX i v).hdr = t.hdr := rfl
@[simp] theorem Thread.setX_startAt (t : Thread) (i : Nat) (v : BitVec 16) : (t.setX i v).startAt = t.startAt := rfl
@[simp] theorem Thread.setX_trapActive (t : Thread) (i : Nat) (v : BitVec 16) : (t.setX i v).trapActive = t.trapActive := rfl
@[simp] theorem Thread.setX_watchdog (t : Thread) (i : Nat) (v : BitVec 16) : (t.setX i v).watchdog = t.watchdog := rfl
@[simp] theorem Thread.setX_cause (t : Thread) (i : Nat) (v : BitVec 16) : (t.setX i v).cause = t.cause := rfl
@[simp] theorem Thread.setX_fpc (t : Thread) (i : Nat) (v : BitVec 16) : (t.setX i v).fpc = t.fpc := rfl
@[simp] theorem Thread.setX_fpc0 (t : Thread) (i : Nat) (v : BitVec 16) : (t.setX i v).fpc0 = t.fpc0 := rfl
@[simp] theorem Thread.setX_resume (t : Thread) (i : Nat) (v : BitVec 16) : (t.setX i v).resume = t.resume := rfl
@[simp] theorem Thread.setX_replay (t : Thread) (i : Nat) (v : BitVec 16) : (t.setX i v).replay = t.replay := rfl
@[simp] theorem Thread.setX_age (t : Thread) (i : Nat) (v : BitVec 16) : (t.setX i v).age = t.age := rfl
@[simp] theorem Thread.setX_status (t : Thread) (i : Nat) (v : BitVec 16) : (t.setX i v).status = t.status := rfl
@[simp] theorem Thread.setX_poll (t : Thread) (i : Nat) (v : BitVec 16) : (t.setX i v).poll = t.poll := rfl
@[simp] theorem Thread.setX_redo (t : Thread) (i : Nat) (v : BitVec 16) : (t.setX i v).redo = t.redo := rfl
@[simp] theorem Thread.setX_block (t : Thread) (i : Nat) (v : BitVec 16) : (t.setX i v).block = t.block := rfl
@[simp] theorem Thread.setX_seenFaults (t : Thread) (i : Nat) (v : BitVec 16) : (t.setX i v).seenFaults = t.seenFaults := rfl
@[simp] theorem Thread.setX_badRegs (t : Thread) (i : Nat) (v : BitVec 16) : (t.setX i v).badRegs = t.badRegs := rfl
@[simp] theorem Thread.setX_held (t : Thread) (i : Nat) (v : BitVec 16) : (t.setX i v).held = t.held := rfl
@[simp] theorem Thread.setX_lastIssue (t : Thread) (i : Nat) (v : BitVec 16) : (t.setX i v).lastIssue = t.lastIssue := rfl

/-! ### `Thread.setPending` -/

@[simp] theorem Thread.setPending_key (t : Thread) (i : Nat) : (t.setPending i).key = t.key := rfl
@[simp] theorem Thread.setPending_role (t : Thread) (i : Nat) : (t.setPending i).role = t.role := rfl
@[simp] theorem Thread.setPending_entry (t : Thread) (i : Nat) : (t.setPending i).entry = t.entry := rfl
@[simp] theorem Thread.setPending_regs (t : Thread) (i : Nat) : (t.setPending i).regs = t.regs := rfl
@[simp] theorem Thread.setPending_pend (t : Thread) (i : Nat) : (t.setPending i).pend = t.pend ||| (1#256 <<< i) := rfl
@[simp] theorem Thread.setPending_preds (t : Thread) (i : Nat) : (t.setPending i).preds = t.preds := rfl
@[simp] theorem Thread.setPending_xs (t : Thread) (i : Nat) : (t.setPending i).xs = t.xs := rfl
@[simp] theorem Thread.setPending_pc (t : Thread) (i : Nat) : (t.setPending i).pc = t.pc := rfl
@[simp] theorem Thread.setPending_clause (t : Thread) (i : Nat) : (t.setPending i).clause = t.clause := rfl
@[simp] theorem Thread.setPending_hdr (t : Thread) (i : Nat) : (t.setPending i).hdr = t.hdr := rfl
@[simp] theorem Thread.setPending_startAt (t : Thread) (i : Nat) : (t.setPending i).startAt = t.startAt := rfl
@[simp] theorem Thread.setPending_trapActive (t : Thread) (i : Nat) : (t.setPending i).trapActive = t.trapActive := rfl
@[simp] theorem Thread.setPending_watchdog (t : Thread) (i : Nat) : (t.setPending i).watchdog = t.watchdog := rfl
@[simp] theorem Thread.setPending_cause (t : Thread) (i : Nat) : (t.setPending i).cause = t.cause := rfl
@[simp] theorem Thread.setPending_fpc (t : Thread) (i : Nat) : (t.setPending i).fpc = t.fpc := rfl
@[simp] theorem Thread.setPending_fpc0 (t : Thread) (i : Nat) : (t.setPending i).fpc0 = t.fpc0 := rfl
@[simp] theorem Thread.setPending_resume (t : Thread) (i : Nat) : (t.setPending i).resume = t.resume := rfl
@[simp] theorem Thread.setPending_replay (t : Thread) (i : Nat) : (t.setPending i).replay = t.replay := rfl
@[simp] theorem Thread.setPending_age (t : Thread) (i : Nat) : (t.setPending i).age = t.age := rfl
@[simp] theorem Thread.setPending_status (t : Thread) (i : Nat) : (t.setPending i).status = t.status := rfl
@[simp] theorem Thread.setPending_poll (t : Thread) (i : Nat) : (t.setPending i).poll = t.poll := rfl
@[simp] theorem Thread.setPending_redo (t : Thread) (i : Nat) : (t.setPending i).redo = t.redo := rfl
@[simp] theorem Thread.setPending_block (t : Thread) (i : Nat) : (t.setPending i).block = t.block := rfl
@[simp] theorem Thread.setPending_seenFaults (t : Thread) (i : Nat) : (t.setPending i).seenFaults = t.seenFaults := rfl
@[simp] theorem Thread.setPending_badRegs (t : Thread) (i : Nat) : (t.setPending i).badRegs = t.badRegs := rfl
@[simp] theorem Thread.setPending_held (t : Thread) (i : Nat) : (t.setPending i).held = t.held := rfl
@[simp] theorem Thread.setPending_lastIssue (t : Thread) (i : Nat) : (t.setPending i).lastIssue = t.lastIssue := rfl

/-! ### `Thread.clearPending` -/

@[simp] theorem Thread.clearPending_key (t : Thread) (i : Nat) : (t.clearPending i).key = t.key := rfl
@[simp] theorem Thread.clearPending_role (t : Thread) (i : Nat) : (t.clearPending i).role = t.role := rfl
@[simp] theorem Thread.clearPending_entry (t : Thread) (i : Nat) : (t.clearPending i).entry = t.entry := rfl
@[simp] theorem Thread.clearPending_regs (t : Thread) (i : Nat) : (t.clearPending i).regs = t.regs := rfl
@[simp] theorem Thread.clearPending_pend (t : Thread) (i : Nat) : (t.clearPending i).pend = t.pend &&& ~~~(1#256 <<< i) := rfl
@[simp] theorem Thread.clearPending_preds (t : Thread) (i : Nat) : (t.clearPending i).preds = t.preds := rfl
@[simp] theorem Thread.clearPending_xs (t : Thread) (i : Nat) : (t.clearPending i).xs = t.xs := rfl
@[simp] theorem Thread.clearPending_pc (t : Thread) (i : Nat) : (t.clearPending i).pc = t.pc := rfl
@[simp] theorem Thread.clearPending_clause (t : Thread) (i : Nat) : (t.clearPending i).clause = t.clause := rfl
@[simp] theorem Thread.clearPending_hdr (t : Thread) (i : Nat) : (t.clearPending i).hdr = t.hdr := rfl
@[simp] theorem Thread.clearPending_startAt (t : Thread) (i : Nat) : (t.clearPending i).startAt = t.startAt := rfl
@[simp] theorem Thread.clearPending_trapActive (t : Thread) (i : Nat) : (t.clearPending i).trapActive = t.trapActive := rfl
@[simp] theorem Thread.clearPending_watchdog (t : Thread) (i : Nat) : (t.clearPending i).watchdog = t.watchdog := rfl
@[simp] theorem Thread.clearPending_cause (t : Thread) (i : Nat) : (t.clearPending i).cause = t.cause := rfl
@[simp] theorem Thread.clearPending_fpc (t : Thread) (i : Nat) : (t.clearPending i).fpc = t.fpc := rfl
@[simp] theorem Thread.clearPending_fpc0 (t : Thread) (i : Nat) : (t.clearPending i).fpc0 = t.fpc0 := rfl
@[simp] theorem Thread.clearPending_resume (t : Thread) (i : Nat) : (t.clearPending i).resume = t.resume := rfl
@[simp] theorem Thread.clearPending_replay (t : Thread) (i : Nat) : (t.clearPending i).replay = t.replay := rfl
@[simp] theorem Thread.clearPending_age (t : Thread) (i : Nat) : (t.clearPending i).age = t.age := rfl
@[simp] theorem Thread.clearPending_status (t : Thread) (i : Nat) : (t.clearPending i).status = t.status := rfl
@[simp] theorem Thread.clearPending_poll (t : Thread) (i : Nat) : (t.clearPending i).poll = t.poll := rfl
@[simp] theorem Thread.clearPending_redo (t : Thread) (i : Nat) : (t.clearPending i).redo = t.redo := rfl
@[simp] theorem Thread.clearPending_block (t : Thread) (i : Nat) : (t.clearPending i).block = t.block := rfl
@[simp] theorem Thread.clearPending_seenFaults (t : Thread) (i : Nat) : (t.clearPending i).seenFaults = t.seenFaults := rfl
@[simp] theorem Thread.clearPending_badRegs (t : Thread) (i : Nat) : (t.clearPending i).badRegs = t.badRegs := rfl
@[simp] theorem Thread.clearPending_held (t : Thread) (i : Nat) : (t.clearPending i).held = t.held := rfl
@[simp] theorem Thread.clearPending_lastIssue (t : Thread) (i : Nat) : (t.clearPending i).lastIssue = t.lastIssue := rfl

/-! ### `Thread.progress` -/

@[simp] theorem Thread.progress_key (t : Thread) : (t.progress).key = t.key := rfl
@[simp] theorem Thread.progress_role (t : Thread) : (t.progress).role = t.role := rfl
@[simp] theorem Thread.progress_entry (t : Thread) : (t.progress).entry = t.entry := rfl
@[simp] theorem Thread.progress_regs (t : Thread) : (t.progress).regs = t.regs := rfl
@[simp] theorem Thread.progress_pend (t : Thread) : (t.progress).pend = t.pend := rfl
@[simp] theorem Thread.progress_preds (t : Thread) : (t.progress).preds = t.preds := rfl
@[simp] theorem Thread.progress_xs (t : Thread) : (t.progress).xs = t.xs := rfl
@[simp] theorem Thread.progress_pc (t : Thread) : (t.progress).pc = t.pc := rfl
@[simp] theorem Thread.progress_clause (t : Thread) : (t.progress).clause = t.clause := rfl
@[simp] theorem Thread.progress_hdr (t : Thread) : (t.progress).hdr = t.hdr := rfl
@[simp] theorem Thread.progress_startAt (t : Thread) : (t.progress).startAt = t.startAt := rfl
@[simp] theorem Thread.progress_trapActive (t : Thread) : (t.progress).trapActive = t.trapActive := rfl
@[simp] theorem Thread.progress_watchdog (t : Thread) : (t.progress).watchdog = 0 := rfl
@[simp] theorem Thread.progress_cause (t : Thread) : (t.progress).cause = t.cause := rfl
@[simp] theorem Thread.progress_fpc (t : Thread) : (t.progress).fpc = t.fpc := rfl
@[simp] theorem Thread.progress_fpc0 (t : Thread) : (t.progress).fpc0 = t.fpc0 := rfl
@[simp] theorem Thread.progress_resume (t : Thread) : (t.progress).resume = t.resume := rfl
@[simp] theorem Thread.progress_replay (t : Thread) : (t.progress).replay = t.replay := rfl
@[simp] theorem Thread.progress_age (t : Thread) : (t.progress).age = t.age := rfl
@[simp] theorem Thread.progress_status (t : Thread) : (t.progress).status = t.status := rfl
@[simp] theorem Thread.progress_poll (t : Thread) : (t.progress).poll = t.poll := rfl
@[simp] theorem Thread.progress_redo (t : Thread) : (t.progress).redo = t.redo := rfl
@[simp] theorem Thread.progress_block (t : Thread) : (t.progress).block = t.block := rfl
@[simp] theorem Thread.progress_seenFaults (t : Thread) : (t.progress).seenFaults = t.seenFaults := rfl
@[simp] theorem Thread.progress_badRegs (t : Thread) : (t.progress).badRegs = t.badRegs := rfl
@[simp] theorem Thread.progress_held (t : Thread) : (t.progress).held = t.held := rfl
@[simp] theorem Thread.progress_lastIssue (t : Thread) : (t.progress).lastIssue = t.lastIssue := rfl

/-! ### `Thread.goto` -/

@[simp] theorem Thread.goto_key (t : Thread) (a : Addr) : (t.goto a).key = t.key := rfl
@[simp] theorem Thread.goto_role (t : Thread) (a : Addr) : (t.goto a).role = t.role := rfl
@[simp] theorem Thread.goto_entry (t : Thread) (a : Addr) : (t.goto a).entry = t.entry := rfl
@[simp] theorem Thread.goto_regs (t : Thread) (a : Addr) : (t.goto a).regs = t.regs := rfl
@[simp] theorem Thread.goto_pend (t : Thread) (a : Addr) : (t.goto a).pend = t.pend := rfl
@[simp] theorem Thread.goto_preds (t : Thread) (a : Addr) : (t.goto a).preds = t.preds := rfl
@[simp] theorem Thread.goto_xs (t : Thread) (a : Addr) : (t.goto a).xs = t.xs := rfl
@[simp] theorem Thread.goto_pc (t : Thread) (a : Addr) : (t.goto a).pc = a := rfl
@[simp] theorem Thread.goto_clause (t : Thread) (a : Addr) : (t.goto a).clause = none := rfl
@[simp] theorem Thread.goto_hdr (t : Thread) (a : Addr) : (t.goto a).hdr = a := rfl
@[simp] theorem Thread.goto_startAt (t : Thread) (a : Addr) : (t.goto a).startAt = 0 := rfl
@[simp] theorem Thread.goto_trapActive (t : Thread) (a : Addr) : (t.goto a).trapActive = t.trapActive := rfl
@[simp] theorem Thread.goto_watchdog (t : Thread) (a : Addr) : (t.goto a).watchdog = t.watchdog := rfl
@[simp] theorem Thread.goto_cause (t : Thread) (a : Addr) : (t.goto a).cause = t.cause := rfl
@[simp] theorem Thread.goto_fpc (t : Thread) (a : Addr) : (t.goto a).fpc = t.fpc := rfl
@[simp] theorem Thread.goto_fpc0 (t : Thread) (a : Addr) : (t.goto a).fpc0 = t.fpc0 := rfl
@[simp] theorem Thread.goto_resume (t : Thread) (a : Addr) : (t.goto a).resume = t.resume := rfl
@[simp] theorem Thread.goto_replay (t : Thread) (a : Addr) : (t.goto a).replay = t.replay := rfl
@[simp] theorem Thread.goto_age (t : Thread) (a : Addr) : (t.goto a).age = t.age := rfl
@[simp] theorem Thread.goto_status (t : Thread) (a : Addr) : (t.goto a).status = t.status := rfl
@[simp] theorem Thread.goto_poll (t : Thread) (a : Addr) : (t.goto a).poll = t.poll := rfl
@[simp] theorem Thread.goto_redo (t : Thread) (a : Addr) : (t.goto a).redo = false := rfl
@[simp] theorem Thread.goto_block (t : Thread) (a : Addr) : (t.goto a).block = none := rfl
@[simp] theorem Thread.goto_seenFaults (t : Thread) (a : Addr) : (t.goto a).seenFaults = t.seenFaults := rfl
@[simp] theorem Thread.goto_badRegs (t : Thread) (a : Addr) : (t.goto a).badRegs = t.badRegs := rfl
@[simp] theorem Thread.goto_held (t : Thread) (a : Addr) : (t.goto a).held = none := rfl
@[simp] theorem Thread.goto_lastIssue (t : Thread) (a : Addr) : (t.goto a).lastIssue = t.lastIssue := rfl

/-! ### `Thread.setPred` -/

@[simp] theorem Thread.setPred_key (t : Thread) (i : Nat) (b : Bool) : (t.setPred i b).key = t.key := by unfold Thread.setPred; split <;> rfl
@[simp] theorem Thread.setPred_role (t : Thread) (i : Nat) (b : Bool) : (t.setPred i b).role = t.role := by unfold Thread.setPred; split <;> rfl
@[simp] theorem Thread.setPred_entry (t : Thread) (i : Nat) (b : Bool) : (t.setPred i b).entry = t.entry := by unfold Thread.setPred; split <;> rfl
@[simp] theorem Thread.setPred_regs (t : Thread) (i : Nat) (b : Bool) : (t.setPred i b).regs = t.regs := by unfold Thread.setPred; split <;> rfl
@[simp] theorem Thread.setPred_pend (t : Thread) (i : Nat) (b : Bool) : (t.setPred i b).pend = t.pend := by unfold Thread.setPred; split <;> rfl
@[simp] theorem Thread.setPred_xs (t : Thread) (i : Nat) (b : Bool) : (t.setPred i b).xs = t.xs := by unfold Thread.setPred; split <;> rfl
@[simp] theorem Thread.setPred_pc (t : Thread) (i : Nat) (b : Bool) : (t.setPred i b).pc = t.pc := by unfold Thread.setPred; split <;> rfl
@[simp] theorem Thread.setPred_clause (t : Thread) (i : Nat) (b : Bool) : (t.setPred i b).clause = t.clause := by unfold Thread.setPred; split <;> rfl
@[simp] theorem Thread.setPred_hdr (t : Thread) (i : Nat) (b : Bool) : (t.setPred i b).hdr = t.hdr := by unfold Thread.setPred; split <;> rfl
@[simp] theorem Thread.setPred_startAt (t : Thread) (i : Nat) (b : Bool) : (t.setPred i b).startAt = t.startAt := by unfold Thread.setPred; split <;> rfl
@[simp] theorem Thread.setPred_trapActive (t : Thread) (i : Nat) (b : Bool) : (t.setPred i b).trapActive = t.trapActive := by unfold Thread.setPred; split <;> rfl
@[simp] theorem Thread.setPred_watchdog (t : Thread) (i : Nat) (b : Bool) : (t.setPred i b).watchdog = t.watchdog := by unfold Thread.setPred; split <;> rfl
@[simp] theorem Thread.setPred_cause (t : Thread) (i : Nat) (b : Bool) : (t.setPred i b).cause = t.cause := by unfold Thread.setPred; split <;> rfl
@[simp] theorem Thread.setPred_fpc (t : Thread) (i : Nat) (b : Bool) : (t.setPred i b).fpc = t.fpc := by unfold Thread.setPred; split <;> rfl
@[simp] theorem Thread.setPred_fpc0 (t : Thread) (i : Nat) (b : Bool) : (t.setPred i b).fpc0 = t.fpc0 := by unfold Thread.setPred; split <;> rfl
@[simp] theorem Thread.setPred_resume (t : Thread) (i : Nat) (b : Bool) : (t.setPred i b).resume = t.resume := by unfold Thread.setPred; split <;> rfl
@[simp] theorem Thread.setPred_replay (t : Thread) (i : Nat) (b : Bool) : (t.setPred i b).replay = t.replay := by unfold Thread.setPred; split <;> rfl
@[simp] theorem Thread.setPred_age (t : Thread) (i : Nat) (b : Bool) : (t.setPred i b).age = t.age := by unfold Thread.setPred; split <;> rfl
@[simp] theorem Thread.setPred_status (t : Thread) (i : Nat) (b : Bool) : (t.setPred i b).status = t.status := by unfold Thread.setPred; split <;> rfl
@[simp] theorem Thread.setPred_poll (t : Thread) (i : Nat) (b : Bool) : (t.setPred i b).poll = t.poll := by unfold Thread.setPred; split <;> rfl
@[simp] theorem Thread.setPred_redo (t : Thread) (i : Nat) (b : Bool) : (t.setPred i b).redo = t.redo := by unfold Thread.setPred; split <;> rfl
@[simp] theorem Thread.setPred_block (t : Thread) (i : Nat) (b : Bool) : (t.setPred i b).block = t.block := by unfold Thread.setPred; split <;> rfl
@[simp] theorem Thread.setPred_seenFaults (t : Thread) (i : Nat) (b : Bool) : (t.setPred i b).seenFaults = t.seenFaults := by unfold Thread.setPred; split <;> rfl
@[simp] theorem Thread.setPred_badRegs (t : Thread) (i : Nat) (b : Bool) : (t.setPred i b).badRegs = t.badRegs := by unfold Thread.setPred; split <;> rfl
@[simp] theorem Thread.setPred_held (t : Thread) (i : Nat) (b : Bool) : (t.setPred i b).held = t.held := by unfold Thread.setPred; split <;> rfl
@[simp] theorem Thread.setPred_lastIssue (t : Thread) (i : Nat) (b : Bool) : (t.setPred i b).lastIssue = t.lastIssue := by unfold Thread.setPred; split <;> rfl

/-! ### `Thread.advance` -/

@[simp] theorem Thread.advance_key (t : Thread) : t.advance.key = t.key := by
  unfold Thread.advance
  split
  · rfl
  · split <;> rfl
@[simp] theorem Thread.advance_role (t : Thread) : t.advance.role = t.role := by
  unfold Thread.advance
  split
  · rfl
  · split <;> rfl
@[simp] theorem Thread.advance_entry (t : Thread) : t.advance.entry = t.entry := by
  unfold Thread.advance
  split
  · rfl
  · split <;> rfl
@[simp] theorem Thread.advance_regs (t : Thread) : t.advance.regs = t.regs := by
  unfold Thread.advance
  split
  · rfl
  · split <;> rfl
@[simp] theorem Thread.advance_pend (t : Thread) : t.advance.pend = t.pend := by
  unfold Thread.advance
  split
  · rfl
  · split <;> rfl
@[simp] theorem Thread.advance_preds (t : Thread) : t.advance.preds = t.preds := by
  unfold Thread.advance
  split
  · rfl
  · split <;> rfl
@[simp] theorem Thread.advance_xs (t : Thread) : t.advance.xs = t.xs := by
  unfold Thread.advance
  split
  · rfl
  · split <;> rfl
@[simp] theorem Thread.advance_trapActive (t : Thread) : t.advance.trapActive = t.trapActive := by
  unfold Thread.advance
  split
  · rfl
  · split <;> rfl
@[simp] theorem Thread.advance_watchdog (t : Thread) : t.advance.watchdog = t.watchdog := by
  unfold Thread.advance
  split
  · rfl
  · split <;> rfl
@[simp] theorem Thread.advance_cause (t : Thread) : t.advance.cause = t.cause := by
  unfold Thread.advance
  split
  · rfl
  · split <;> rfl
@[simp] theorem Thread.advance_fpc (t : Thread) : t.advance.fpc = t.fpc := by
  unfold Thread.advance
  split
  · rfl
  · split <;> rfl
@[simp] theorem Thread.advance_fpc0 (t : Thread) : t.advance.fpc0 = t.fpc0 := by
  unfold Thread.advance
  split
  · rfl
  · split <;> rfl
@[simp] theorem Thread.advance_resume (t : Thread) : t.advance.resume = t.resume := by
  unfold Thread.advance
  split
  · rfl
  · split <;> rfl
@[simp] theorem Thread.advance_replay (t : Thread) : t.advance.replay = t.replay := by
  unfold Thread.advance
  split
  · rfl
  · split <;> rfl
@[simp] theorem Thread.advance_age (t : Thread) : t.advance.age = t.age := by
  unfold Thread.advance
  split
  · rfl
  · split <;> rfl
@[simp] theorem Thread.advance_status (t : Thread) : t.advance.status = t.status := by
  unfold Thread.advance
  split
  · rfl
  · split <;> rfl
@[simp] theorem Thread.advance_poll (t : Thread) : t.advance.poll = t.poll := by
  unfold Thread.advance
  split
  · rfl
  · split <;> rfl
@[simp] theorem Thread.advance_seenFaults (t : Thread) : t.advance.seenFaults = t.seenFaults := by
  unfold Thread.advance
  split
  · rfl
  · split <;> rfl
@[simp] theorem Thread.advance_badRegs (t : Thread) : t.advance.badRegs = t.badRegs := by
  unfold Thread.advance
  split
  · rfl
  · split <;> rfl
@[simp] theorem Thread.advance_lastIssue (t : Thread) : t.advance.lastIssue = t.lastIssue := by
  unfold Thread.advance
  split
  · rfl
  · split <;> rfl

/-! ### `State.after` -/

@[simp] theorem State.after_th (s : State) (f : Thread → Thread) : (s.after f).th = (f s.th).advance := rfl
@[simp] theorem State.after_threads (s : State) (f : Thread → Thread) : (s.after f).threads = s.threads := rfl
@[simp] theorem State.after_tm (s : State) (f : Thread → Thread) : (s.after f).tm = s.tm := rfl
@[simp] theorem State.after_teams (s : State) (f : Thread → Thread) : (s.after f).teams = s.teams := rfl
@[simp] theorem State.after_issue (s : State) (f : Thread → Thread) : (s.after f).issue = s.issue := rfl
@[simp] theorem State.after_laneFaults (s : State) (f : Thread → Thread) : (s.after f).laneFaults = s.laneFaults := rfl
@[simp] theorem State.after_pfx (s : State) (f : Thread → Thread) : (s.after f).pfx = none := rfl
@[simp] theorem State.after_ops (s : State) (f : Thread → Thread) : (s.after f).ops = s.ops := rfl
@[simp] theorem State.after_nextOp (s : State) (f : Thread → Thread) : (s.after f).nextOp = s.nextOp := rfl
@[simp] theorem State.after_nextIssue (s : State) (f : Thread → Thread) : (s.after f).nextIssue = s.nextIssue := rfl
@[simp] theorem State.after_cores (s : State) (f : Thread → Thread) : (s.after f).cores = s.cores := rfl
@[simp] theorem State.after_clusters (s : State) (f : Thread → Thread) : (s.after f).clusters = s.clusters := rfl
@[simp] theorem State.after_mem (s : State) (f : Thread → Thread) : (s.after f).mem = s.mem := rfl
@[simp] theorem State.after_home (s : State) (f : Thread → Thread) : (s.after f).home = s.home := rfl
@[simp] theorem State.after_poison (s : State) (f : Thread → Thread) : (s.after f).poison = s.poison := rfl
@[simp] theorem State.after_homePoison (s : State) (f : Thread → Thread) : (s.after f).homePoison = s.homePoison := rfl
@[simp] theorem State.after_indexed (s : State) (f : Thread → Thread) : (s.after f).indexed = s.indexed := rfl
@[simp] theorem State.after_viewMarks (s : State) (f : Thread → Thread) : (s.after f).viewMarks = s.viewMarks := rfl
@[simp] theorem State.after_registry (s : State) (f : Thread → Thread) : (s.after f).registry = s.registry := rfl
@[simp] theorem State.after_revoking (s : State) (f : Thread → Thread) : (s.after f).revoking = s.revoking := rfl
@[simp] theorem State.after_registrations (s : State) (f : Thread → Thread) : (s.after f).registrations = s.registrations := rfl
@[simp] theorem State.after_monitors (s : State) (f : Thread → Thread) : (s.after f).monitors = s.monitors := rfl
@[simp] theorem State.after_nextMonitor (s : State) (f : Thread → Thread) : (s.after f).nextMonitor = s.nextMonitor := rfl
@[simp] theorem State.after_ctxs (s : State) (f : Thread → Thread) : (s.after f).ctxs = s.ctxs := rfl
@[simp] theorem State.after_tenants (s : State) (f : Thread → Thread) : (s.after f).tenants = s.tenants := rfl
@[simp] theorem State.after_accesses (s : State) (f : Thread → Thread) : (s.after f).accesses = s.accesses := rfl
@[simp] theorem State.after_nextAccess (s : State) (f : Thread → Thread) : (s.after f).nextAccess = s.nextAccess := rfl
@[simp] theorem State.after_tellerTlb (s : State) (f : Thread → Thread) : (s.after f).tellerTlb = s.tellerTlb := rfl
@[simp] theorem State.after_walkCache (s : State) (f : Thread → Thread) : (s.after f).walkCache = s.walkCache := rfl
@[simp] theorem State.after_walks (s : State) (f : Thread → Thread) : (s.after f).walks = s.walks := rfl
@[simp] theorem State.after_walkFor (s : State) (f : Thread → Thread) : (s.after f).walkFor = s.walkFor := rfl
@[simp] theorem State.after_missed (s : State) (f : Thread → Thread) : (s.after f).missed = s.missed := rfl
@[simp] theorem State.after_votes (s : State) (f : Thread → Thread) : (s.after f).votes = s.votes := rfl
@[simp] theorem State.after_pushes (s : State) (f : Thread → Thread) : (s.after f).pushes = s.pushes := rfl
@[simp] theorem State.after_imageUpdates (s : State) (f : Thread → Thread) : (s.after f).imageUpdates = s.imageUpdates := rfl
@[simp] theorem State.after_nextIdx (s : State) (f : Thread → Thread) : (s.after f).nextIdx = s.nextIdx := rfl
@[simp] theorem State.after_queues (s : State) (f : Thread → Thread) : (s.after f).queues = s.queues := rfl
@[simp] theorem State.after_grids (s : State) (f : Thread → Thread) : (s.after f).grids = s.grids := rfl
@[simp] theorem State.after_nextGrid (s : State) (f : Thread → Thread) : (s.after f).nextGrid = s.nextGrid := rfl
@[simp] theorem State.after_nextTeam (s : State) (f : Thread → Thread) : (s.after f).nextTeam = s.nextTeam := rfl
@[simp] theorem State.after_placeOrder (s : State) (f : Thread → Thread) : (s.after f).placeOrder = s.placeOrder := rfl
@[simp] theorem State.after_dueOrder (s : State) (f : Thread → Thread) : (s.after f).dueOrder = s.dueOrder := rfl
@[simp] theorem State.after_cpRobin (s : State) (f : Thread → Thread) : (s.after f).cpRobin = s.cpRobin := rfl
@[simp] theorem State.after_clocks (s : State) (f : Thread → Thread) : (s.after f).clocks = s.clocks := rfl
@[simp] theorem State.after_sup (s : State) (f : Thread → Thread) : (s.after f).sup = s.sup := rfl
@[simp] theorem State.after_links (s : State) (f : Thread → Thread) : (s.after f).links = s.links := rfl
@[simp] theorem State.after_mgmt (s : State) (f : Thread → Thread) : (s.after f).mgmt = s.mgmt := rfl
@[simp] theorem State.after_fabric (s : State) (f : Thread → Thread) : (s.after f).fabric = s.fabric := rfl
@[simp] theorem State.after_roce (s : State) (f : Thread → Thread) : (s.after f).roce = s.roce := rfl
@[simp] theorem State.after_hostMem (s : State) (f : Thread → Thread) : (s.after f).hostMem = s.hostMem := rfl
@[simp] theorem State.after_inputs (s : State) (f : Thread → Thread) : (s.after f).inputs = s.inputs := rfl
@[simp] theorem State.after_tick (s : State) (f : Thread → Thread) : (s.after f).tick = s.tick := rfl

/-! ### `State.withTh` -/

@[simp] theorem State.withTh_th (s : State) (f : Thread → Thread) : (s.withTh f).th = f s.th := rfl
@[simp] theorem State.withTh_threads (s : State) (f : Thread → Thread) : (s.withTh f).threads = s.threads := rfl
@[simp] theorem State.withTh_tm (s : State) (f : Thread → Thread) : (s.withTh f).tm = s.tm := rfl
@[simp] theorem State.withTh_teams (s : State) (f : Thread → Thread) : (s.withTh f).teams = s.teams := rfl
@[simp] theorem State.withTh_issue (s : State) (f : Thread → Thread) : (s.withTh f).issue = s.issue := rfl
@[simp] theorem State.withTh_laneFaults (s : State) (f : Thread → Thread) : (s.withTh f).laneFaults = s.laneFaults := rfl
@[simp] theorem State.withTh_pfx (s : State) (f : Thread → Thread) : (s.withTh f).pfx = s.pfx := rfl
@[simp] theorem State.withTh_ops (s : State) (f : Thread → Thread) : (s.withTh f).ops = s.ops := rfl
@[simp] theorem State.withTh_nextOp (s : State) (f : Thread → Thread) : (s.withTh f).nextOp = s.nextOp := rfl
@[simp] theorem State.withTh_nextIssue (s : State) (f : Thread → Thread) : (s.withTh f).nextIssue = s.nextIssue := rfl
@[simp] theorem State.withTh_cores (s : State) (f : Thread → Thread) : (s.withTh f).cores = s.cores := rfl
@[simp] theorem State.withTh_clusters (s : State) (f : Thread → Thread) : (s.withTh f).clusters = s.clusters := rfl
@[simp] theorem State.withTh_mem (s : State) (f : Thread → Thread) : (s.withTh f).mem = s.mem := rfl
@[simp] theorem State.withTh_home (s : State) (f : Thread → Thread) : (s.withTh f).home = s.home := rfl
@[simp] theorem State.withTh_poison (s : State) (f : Thread → Thread) : (s.withTh f).poison = s.poison := rfl
@[simp] theorem State.withTh_homePoison (s : State) (f : Thread → Thread) : (s.withTh f).homePoison = s.homePoison := rfl
@[simp] theorem State.withTh_indexed (s : State) (f : Thread → Thread) : (s.withTh f).indexed = s.indexed := rfl
@[simp] theorem State.withTh_viewMarks (s : State) (f : Thread → Thread) : (s.withTh f).viewMarks = s.viewMarks := rfl
@[simp] theorem State.withTh_registry (s : State) (f : Thread → Thread) : (s.withTh f).registry = s.registry := rfl
@[simp] theorem State.withTh_revoking (s : State) (f : Thread → Thread) : (s.withTh f).revoking = s.revoking := rfl
@[simp] theorem State.withTh_registrations (s : State) (f : Thread → Thread) : (s.withTh f).registrations = s.registrations := rfl
@[simp] theorem State.withTh_monitors (s : State) (f : Thread → Thread) : (s.withTh f).monitors = s.monitors := rfl
@[simp] theorem State.withTh_nextMonitor (s : State) (f : Thread → Thread) : (s.withTh f).nextMonitor = s.nextMonitor := rfl
@[simp] theorem State.withTh_ctxs (s : State) (f : Thread → Thread) : (s.withTh f).ctxs = s.ctxs := rfl
@[simp] theorem State.withTh_tenants (s : State) (f : Thread → Thread) : (s.withTh f).tenants = s.tenants := rfl
@[simp] theorem State.withTh_accesses (s : State) (f : Thread → Thread) : (s.withTh f).accesses = s.accesses := rfl
@[simp] theorem State.withTh_nextAccess (s : State) (f : Thread → Thread) : (s.withTh f).nextAccess = s.nextAccess := rfl
@[simp] theorem State.withTh_tellerTlb (s : State) (f : Thread → Thread) : (s.withTh f).tellerTlb = s.tellerTlb := rfl
@[simp] theorem State.withTh_walkCache (s : State) (f : Thread → Thread) : (s.withTh f).walkCache = s.walkCache := rfl
@[simp] theorem State.withTh_walks (s : State) (f : Thread → Thread) : (s.withTh f).walks = s.walks := rfl
@[simp] theorem State.withTh_walkFor (s : State) (f : Thread → Thread) : (s.withTh f).walkFor = s.walkFor := rfl
@[simp] theorem State.withTh_missed (s : State) (f : Thread → Thread) : (s.withTh f).missed = s.missed := rfl
@[simp] theorem State.withTh_votes (s : State) (f : Thread → Thread) : (s.withTh f).votes = s.votes := rfl
@[simp] theorem State.withTh_pushes (s : State) (f : Thread → Thread) : (s.withTh f).pushes = s.pushes := rfl
@[simp] theorem State.withTh_imageUpdates (s : State) (f : Thread → Thread) : (s.withTh f).imageUpdates = s.imageUpdates := rfl
@[simp] theorem State.withTh_nextIdx (s : State) (f : Thread → Thread) : (s.withTh f).nextIdx = s.nextIdx := rfl
@[simp] theorem State.withTh_queues (s : State) (f : Thread → Thread) : (s.withTh f).queues = s.queues := rfl
@[simp] theorem State.withTh_grids (s : State) (f : Thread → Thread) : (s.withTh f).grids = s.grids := rfl
@[simp] theorem State.withTh_nextGrid (s : State) (f : Thread → Thread) : (s.withTh f).nextGrid = s.nextGrid := rfl
@[simp] theorem State.withTh_nextTeam (s : State) (f : Thread → Thread) : (s.withTh f).nextTeam = s.nextTeam := rfl
@[simp] theorem State.withTh_placeOrder (s : State) (f : Thread → Thread) : (s.withTh f).placeOrder = s.placeOrder := rfl
@[simp] theorem State.withTh_dueOrder (s : State) (f : Thread → Thread) : (s.withTh f).dueOrder = s.dueOrder := rfl
@[simp] theorem State.withTh_cpRobin (s : State) (f : Thread → Thread) : (s.withTh f).cpRobin = s.cpRobin := rfl
@[simp] theorem State.withTh_clocks (s : State) (f : Thread → Thread) : (s.withTh f).clocks = s.clocks := rfl
@[simp] theorem State.withTh_sup (s : State) (f : Thread → Thread) : (s.withTh f).sup = s.sup := rfl
@[simp] theorem State.withTh_links (s : State) (f : Thread → Thread) : (s.withTh f).links = s.links := rfl
@[simp] theorem State.withTh_mgmt (s : State) (f : Thread → Thread) : (s.withTh f).mgmt = s.mgmt := rfl
@[simp] theorem State.withTh_fabric (s : State) (f : Thread → Thread) : (s.withTh f).fabric = s.fabric := rfl
@[simp] theorem State.withTh_roce (s : State) (f : Thread → Thread) : (s.withTh f).roce = s.roce := rfl
@[simp] theorem State.withTh_hostMem (s : State) (f : Thread → Thread) : (s.withTh f).hostMem = s.hostMem := rfl
@[simp] theorem State.withTh_inputs (s : State) (f : Thread → Thread) : (s.withTh f).inputs = s.inputs := rfl
@[simp] theorem State.withTh_tick (s : State) (f : Thread → Thread) : (s.withTh f).tick = s.tick := rfl

/-! ### `State.advance` -/

@[simp] theorem State.advance_th (s : State) : (s.advance).th = s.th.advance := rfl
@[simp] theorem State.advance_threads (s : State) : (s.advance).threads = s.threads := rfl
@[simp] theorem State.advance_tm (s : State) : (s.advance).tm = s.tm := rfl
@[simp] theorem State.advance_teams (s : State) : (s.advance).teams = s.teams := rfl
@[simp] theorem State.advance_issue (s : State) : (s.advance).issue = s.issue := rfl
@[simp] theorem State.advance_laneFaults (s : State) : (s.advance).laneFaults = s.laneFaults := rfl
@[simp] theorem State.advance_pfx (s : State) : (s.advance).pfx = none := rfl
@[simp] theorem State.advance_ops (s : State) : (s.advance).ops = s.ops := rfl
@[simp] theorem State.advance_nextOp (s : State) : (s.advance).nextOp = s.nextOp := rfl
@[simp] theorem State.advance_nextIssue (s : State) : (s.advance).nextIssue = s.nextIssue := rfl
@[simp] theorem State.advance_cores (s : State) : (s.advance).cores = s.cores := rfl
@[simp] theorem State.advance_clusters (s : State) : (s.advance).clusters = s.clusters := rfl
@[simp] theorem State.advance_mem (s : State) : (s.advance).mem = s.mem := rfl
@[simp] theorem State.advance_home (s : State) : (s.advance).home = s.home := rfl
@[simp] theorem State.advance_poison (s : State) : (s.advance).poison = s.poison := rfl
@[simp] theorem State.advance_homePoison (s : State) : (s.advance).homePoison = s.homePoison := rfl
@[simp] theorem State.advance_indexed (s : State) : (s.advance).indexed = s.indexed := rfl
@[simp] theorem State.advance_viewMarks (s : State) : (s.advance).viewMarks = s.viewMarks := rfl
@[simp] theorem State.advance_registry (s : State) : (s.advance).registry = s.registry := rfl
@[simp] theorem State.advance_revoking (s : State) : (s.advance).revoking = s.revoking := rfl
@[simp] theorem State.advance_registrations (s : State) : (s.advance).registrations = s.registrations := rfl
@[simp] theorem State.advance_monitors (s : State) : (s.advance).monitors = s.monitors := rfl
@[simp] theorem State.advance_nextMonitor (s : State) : (s.advance).nextMonitor = s.nextMonitor := rfl
@[simp] theorem State.advance_ctxs (s : State) : (s.advance).ctxs = s.ctxs := rfl
@[simp] theorem State.advance_tenants (s : State) : (s.advance).tenants = s.tenants := rfl
@[simp] theorem State.advance_accesses (s : State) : (s.advance).accesses = s.accesses := rfl
@[simp] theorem State.advance_nextAccess (s : State) : (s.advance).nextAccess = s.nextAccess := rfl
@[simp] theorem State.advance_tellerTlb (s : State) : (s.advance).tellerTlb = s.tellerTlb := rfl
@[simp] theorem State.advance_walkCache (s : State) : (s.advance).walkCache = s.walkCache := rfl
@[simp] theorem State.advance_walks (s : State) : (s.advance).walks = s.walks := rfl
@[simp] theorem State.advance_walkFor (s : State) : (s.advance).walkFor = s.walkFor := rfl
@[simp] theorem State.advance_missed (s : State) : (s.advance).missed = s.missed := rfl
@[simp] theorem State.advance_votes (s : State) : (s.advance).votes = s.votes := rfl
@[simp] theorem State.advance_pushes (s : State) : (s.advance).pushes = s.pushes := rfl
@[simp] theorem State.advance_imageUpdates (s : State) : (s.advance).imageUpdates = s.imageUpdates := rfl
@[simp] theorem State.advance_nextIdx (s : State) : (s.advance).nextIdx = s.nextIdx := rfl
@[simp] theorem State.advance_queues (s : State) : (s.advance).queues = s.queues := rfl
@[simp] theorem State.advance_grids (s : State) : (s.advance).grids = s.grids := rfl
@[simp] theorem State.advance_nextGrid (s : State) : (s.advance).nextGrid = s.nextGrid := rfl
@[simp] theorem State.advance_nextTeam (s : State) : (s.advance).nextTeam = s.nextTeam := rfl
@[simp] theorem State.advance_placeOrder (s : State) : (s.advance).placeOrder = s.placeOrder := rfl
@[simp] theorem State.advance_dueOrder (s : State) : (s.advance).dueOrder = s.dueOrder := rfl
@[simp] theorem State.advance_cpRobin (s : State) : (s.advance).cpRobin = s.cpRobin := rfl
@[simp] theorem State.advance_clocks (s : State) : (s.advance).clocks = s.clocks := rfl
@[simp] theorem State.advance_sup (s : State) : (s.advance).sup = s.sup := rfl
@[simp] theorem State.advance_links (s : State) : (s.advance).links = s.links := rfl
@[simp] theorem State.advance_mgmt (s : State) : (s.advance).mgmt = s.mgmt := rfl
@[simp] theorem State.advance_fabric (s : State) : (s.advance).fabric = s.fabric := rfl
@[simp] theorem State.advance_roce (s : State) : (s.advance).roce = s.roce := rfl
@[simp] theorem State.advance_hostMem (s : State) : (s.advance).hostMem = s.hostMem := rfl
@[simp] theorem State.advance_inputs (s : State) : (s.advance).inputs = s.inputs := rfl
@[simp] theorem State.advance_tick (s : State) : (s.advance).tick = s.tick := rfl

/-! ### `State.setCluster` -/

@[simp] theorem State.setCluster_th (s : State) (k : Cluster) : (s.setCluster k).th = s.th := rfl
@[simp] theorem State.setCluster_threads (s : State) (k : Cluster) : (s.setCluster k).threads = s.threads := rfl
@[simp] theorem State.setCluster_tm (s : State) (k : Cluster) : (s.setCluster k).tm = s.tm := rfl
@[simp] theorem State.setCluster_teams (s : State) (k : Cluster) : (s.setCluster k).teams = s.teams := rfl
@[simp] theorem State.setCluster_issue (s : State) (k : Cluster) : (s.setCluster k).issue = s.issue := rfl
@[simp] theorem State.setCluster_laneFaults (s : State) (k : Cluster) : (s.setCluster k).laneFaults = s.laneFaults := rfl
@[simp] theorem State.setCluster_pfx (s : State) (k : Cluster) : (s.setCluster k).pfx = s.pfx := rfl
@[simp] theorem State.setCluster_ops (s : State) (k : Cluster) : (s.setCluster k).ops = s.ops := rfl
@[simp] theorem State.setCluster_nextOp (s : State) (k : Cluster) : (s.setCluster k).nextOp = s.nextOp := rfl
@[simp] theorem State.setCluster_nextIssue (s : State) (k : Cluster) : (s.setCluster k).nextIssue = s.nextIssue := rfl
@[simp] theorem State.setCluster_cores (s : State) (k : Cluster) : (s.setCluster k).cores = s.cores := rfl
@[simp] theorem State.setCluster_clusters (s : State) (k : Cluster) : (s.setCluster k).clusters = upsert (fun j => j.num == k.num) k s.clusters := rfl
@[simp] theorem State.setCluster_mem (s : State) (k : Cluster) : (s.setCluster k).mem = s.mem := rfl
@[simp] theorem State.setCluster_home (s : State) (k : Cluster) : (s.setCluster k).home = s.home := rfl
@[simp] theorem State.setCluster_poison (s : State) (k : Cluster) : (s.setCluster k).poison = s.poison := rfl
@[simp] theorem State.setCluster_homePoison (s : State) (k : Cluster) : (s.setCluster k).homePoison = s.homePoison := rfl
@[simp] theorem State.setCluster_indexed (s : State) (k : Cluster) : (s.setCluster k).indexed = s.indexed := rfl
@[simp] theorem State.setCluster_viewMarks (s : State) (k : Cluster) : (s.setCluster k).viewMarks = s.viewMarks := rfl
@[simp] theorem State.setCluster_registry (s : State) (k : Cluster) : (s.setCluster k).registry = s.registry := rfl
@[simp] theorem State.setCluster_revoking (s : State) (k : Cluster) : (s.setCluster k).revoking = s.revoking := rfl
@[simp] theorem State.setCluster_registrations (s : State) (k : Cluster) : (s.setCluster k).registrations = s.registrations := rfl
@[simp] theorem State.setCluster_monitors (s : State) (k : Cluster) : (s.setCluster k).monitors = s.monitors := rfl
@[simp] theorem State.setCluster_nextMonitor (s : State) (k : Cluster) : (s.setCluster k).nextMonitor = s.nextMonitor := rfl
@[simp] theorem State.setCluster_ctxs (s : State) (k : Cluster) : (s.setCluster k).ctxs = s.ctxs := rfl
@[simp] theorem State.setCluster_tenants (s : State) (k : Cluster) : (s.setCluster k).tenants = s.tenants := rfl
@[simp] theorem State.setCluster_accesses (s : State) (k : Cluster) : (s.setCluster k).accesses = s.accesses := rfl
@[simp] theorem State.setCluster_nextAccess (s : State) (k : Cluster) : (s.setCluster k).nextAccess = s.nextAccess := rfl
@[simp] theorem State.setCluster_tellerTlb (s : State) (k : Cluster) : (s.setCluster k).tellerTlb = s.tellerTlb := rfl
@[simp] theorem State.setCluster_walkCache (s : State) (k : Cluster) : (s.setCluster k).walkCache = s.walkCache := rfl
@[simp] theorem State.setCluster_walks (s : State) (k : Cluster) : (s.setCluster k).walks = s.walks := rfl
@[simp] theorem State.setCluster_walkFor (s : State) (k : Cluster) : (s.setCluster k).walkFor = s.walkFor := rfl
@[simp] theorem State.setCluster_missed (s : State) (k : Cluster) : (s.setCluster k).missed = s.missed := rfl
@[simp] theorem State.setCluster_votes (s : State) (k : Cluster) : (s.setCluster k).votes = s.votes := rfl
@[simp] theorem State.setCluster_pushes (s : State) (k : Cluster) : (s.setCluster k).pushes = s.pushes := rfl
@[simp] theorem State.setCluster_imageUpdates (s : State) (k : Cluster) : (s.setCluster k).imageUpdates = s.imageUpdates := rfl
@[simp] theorem State.setCluster_nextIdx (s : State) (k : Cluster) : (s.setCluster k).nextIdx = s.nextIdx := rfl
@[simp] theorem State.setCluster_queues (s : State) (k : Cluster) : (s.setCluster k).queues = s.queues := rfl
@[simp] theorem State.setCluster_grids (s : State) (k : Cluster) : (s.setCluster k).grids = s.grids := rfl
@[simp] theorem State.setCluster_nextGrid (s : State) (k : Cluster) : (s.setCluster k).nextGrid = s.nextGrid := rfl
@[simp] theorem State.setCluster_nextTeam (s : State) (k : Cluster) : (s.setCluster k).nextTeam = s.nextTeam := rfl
@[simp] theorem State.setCluster_placeOrder (s : State) (k : Cluster) : (s.setCluster k).placeOrder = s.placeOrder := rfl
@[simp] theorem State.setCluster_dueOrder (s : State) (k : Cluster) : (s.setCluster k).dueOrder = s.dueOrder := rfl
@[simp] theorem State.setCluster_cpRobin (s : State) (k : Cluster) : (s.setCluster k).cpRobin = s.cpRobin := rfl
@[simp] theorem State.setCluster_clocks (s : State) (k : Cluster) : (s.setCluster k).clocks = s.clocks := rfl
@[simp] theorem State.setCluster_sup (s : State) (k : Cluster) : (s.setCluster k).sup = s.sup := rfl
@[simp] theorem State.setCluster_links (s : State) (k : Cluster) : (s.setCluster k).links = s.links := rfl
@[simp] theorem State.setCluster_mgmt (s : State) (k : Cluster) : (s.setCluster k).mgmt = s.mgmt := rfl
@[simp] theorem State.setCluster_fabric (s : State) (k : Cluster) : (s.setCluster k).fabric = s.fabric := rfl
@[simp] theorem State.setCluster_roce (s : State) (k : Cluster) : (s.setCluster k).roce = s.roce := rfl
@[simp] theorem State.setCluster_hostMem (s : State) (k : Cluster) : (s.setCluster k).hostMem = s.hostMem := rfl
@[simp] theorem State.setCluster_inputs (s : State) (k : Cluster) : (s.setCluster k).inputs = s.inputs := rfl
@[simp] theorem State.setCluster_tick (s : State) (k : Cluster) : (s.setCluster k).tick = s.tick := rfl

/-! ### `State.setCore` -/

@[simp] theorem State.setCore_th (s : State) (c : Core) : (s.setCore c).th = s.th := rfl
@[simp] theorem State.setCore_threads (s : State) (c : Core) : (s.setCore c).threads = s.threads := rfl
@[simp] theorem State.setCore_tm (s : State) (c : Core) : (s.setCore c).tm = s.tm := rfl
@[simp] theorem State.setCore_teams (s : State) (c : Core) : (s.setCore c).teams = s.teams := rfl
@[simp] theorem State.setCore_issue (s : State) (c : Core) : (s.setCore c).issue = s.issue := rfl
@[simp] theorem State.setCore_laneFaults (s : State) (c : Core) : (s.setCore c).laneFaults = s.laneFaults := rfl
@[simp] theorem State.setCore_pfx (s : State) (c : Core) : (s.setCore c).pfx = s.pfx := rfl
@[simp] theorem State.setCore_ops (s : State) (c : Core) : (s.setCore c).ops = s.ops := rfl
@[simp] theorem State.setCore_nextOp (s : State) (c : Core) : (s.setCore c).nextOp = s.nextOp := rfl
@[simp] theorem State.setCore_nextIssue (s : State) (c : Core) : (s.setCore c).nextIssue = s.nextIssue := rfl
@[simp] theorem State.setCore_cores (s : State) (c : Core) : (s.setCore c).cores = upsert (fun j => j.num == c.num) c s.cores := rfl
@[simp] theorem State.setCore_clusters (s : State) (c : Core) : (s.setCore c).clusters = s.clusters := rfl
@[simp] theorem State.setCore_mem (s : State) (c : Core) : (s.setCore c).mem = s.mem := rfl
@[simp] theorem State.setCore_home (s : State) (c : Core) : (s.setCore c).home = s.home := rfl
@[simp] theorem State.setCore_poison (s : State) (c : Core) : (s.setCore c).poison = s.poison := rfl
@[simp] theorem State.setCore_homePoison (s : State) (c : Core) : (s.setCore c).homePoison = s.homePoison := rfl
@[simp] theorem State.setCore_indexed (s : State) (c : Core) : (s.setCore c).indexed = s.indexed := rfl
@[simp] theorem State.setCore_viewMarks (s : State) (c : Core) : (s.setCore c).viewMarks = s.viewMarks := rfl
@[simp] theorem State.setCore_registry (s : State) (c : Core) : (s.setCore c).registry = s.registry := rfl
@[simp] theorem State.setCore_revoking (s : State) (c : Core) : (s.setCore c).revoking = s.revoking := rfl
@[simp] theorem State.setCore_registrations (s : State) (c : Core) : (s.setCore c).registrations = s.registrations := rfl
@[simp] theorem State.setCore_monitors (s : State) (c : Core) : (s.setCore c).monitors = s.monitors := rfl
@[simp] theorem State.setCore_nextMonitor (s : State) (c : Core) : (s.setCore c).nextMonitor = s.nextMonitor := rfl
@[simp] theorem State.setCore_ctxs (s : State) (c : Core) : (s.setCore c).ctxs = s.ctxs := rfl
@[simp] theorem State.setCore_tenants (s : State) (c : Core) : (s.setCore c).tenants = s.tenants := rfl
@[simp] theorem State.setCore_accesses (s : State) (c : Core) : (s.setCore c).accesses = s.accesses := rfl
@[simp] theorem State.setCore_nextAccess (s : State) (c : Core) : (s.setCore c).nextAccess = s.nextAccess := rfl
@[simp] theorem State.setCore_tellerTlb (s : State) (c : Core) : (s.setCore c).tellerTlb = s.tellerTlb := rfl
@[simp] theorem State.setCore_walkCache (s : State) (c : Core) : (s.setCore c).walkCache = s.walkCache := rfl
@[simp] theorem State.setCore_walks (s : State) (c : Core) : (s.setCore c).walks = s.walks := rfl
@[simp] theorem State.setCore_walkFor (s : State) (c : Core) : (s.setCore c).walkFor = s.walkFor := rfl
@[simp] theorem State.setCore_missed (s : State) (c : Core) : (s.setCore c).missed = s.missed := rfl
@[simp] theorem State.setCore_votes (s : State) (c : Core) : (s.setCore c).votes = s.votes := rfl
@[simp] theorem State.setCore_pushes (s : State) (c : Core) : (s.setCore c).pushes = s.pushes := rfl
@[simp] theorem State.setCore_imageUpdates (s : State) (c : Core) : (s.setCore c).imageUpdates = s.imageUpdates := rfl
@[simp] theorem State.setCore_nextIdx (s : State) (c : Core) : (s.setCore c).nextIdx = s.nextIdx := rfl
@[simp] theorem State.setCore_queues (s : State) (c : Core) : (s.setCore c).queues = s.queues := rfl
@[simp] theorem State.setCore_grids (s : State) (c : Core) : (s.setCore c).grids = s.grids := rfl
@[simp] theorem State.setCore_nextGrid (s : State) (c : Core) : (s.setCore c).nextGrid = s.nextGrid := rfl
@[simp] theorem State.setCore_nextTeam (s : State) (c : Core) : (s.setCore c).nextTeam = s.nextTeam := rfl
@[simp] theorem State.setCore_placeOrder (s : State) (c : Core) : (s.setCore c).placeOrder = s.placeOrder := rfl
@[simp] theorem State.setCore_dueOrder (s : State) (c : Core) : (s.setCore c).dueOrder = s.dueOrder := rfl
@[simp] theorem State.setCore_cpRobin (s : State) (c : Core) : (s.setCore c).cpRobin = s.cpRobin := rfl
@[simp] theorem State.setCore_clocks (s : State) (c : Core) : (s.setCore c).clocks = s.clocks := rfl
@[simp] theorem State.setCore_sup (s : State) (c : Core) : (s.setCore c).sup = s.sup := rfl
@[simp] theorem State.setCore_links (s : State) (c : Core) : (s.setCore c).links = s.links := rfl
@[simp] theorem State.setCore_mgmt (s : State) (c : Core) : (s.setCore c).mgmt = s.mgmt := rfl
@[simp] theorem State.setCore_fabric (s : State) (c : Core) : (s.setCore c).fabric = s.fabric := rfl
@[simp] theorem State.setCore_roce (s : State) (c : Core) : (s.setCore c).roce = s.roce := rfl
@[simp] theorem State.setCore_hostMem (s : State) (c : Core) : (s.setCore c).hostMem = s.hostMem := rfl
@[simp] theorem State.setCore_inputs (s : State) (c : Core) : (s.setCore c).inputs = s.inputs := rfl
@[simp] theorem State.setCore_tick (s : State) (c : Core) : (s.setCore c).tick = s.tick := rfl

/-! ### `State.setTenant` -/

@[simp] theorem State.setTenant_th (s : State) (t : Tenant) : (s.setTenant t).th = s.th := rfl
@[simp] theorem State.setTenant_threads (s : State) (t : Tenant) : (s.setTenant t).threads = s.threads := rfl
@[simp] theorem State.setTenant_tm (s : State) (t : Tenant) : (s.setTenant t).tm = s.tm := rfl
@[simp] theorem State.setTenant_teams (s : State) (t : Tenant) : (s.setTenant t).teams = s.teams := rfl
@[simp] theorem State.setTenant_issue (s : State) (t : Tenant) : (s.setTenant t).issue = s.issue := rfl
@[simp] theorem State.setTenant_laneFaults (s : State) (t : Tenant) : (s.setTenant t).laneFaults = s.laneFaults := rfl
@[simp] theorem State.setTenant_pfx (s : State) (t : Tenant) : (s.setTenant t).pfx = s.pfx := rfl
@[simp] theorem State.setTenant_ops (s : State) (t : Tenant) : (s.setTenant t).ops = s.ops := rfl
@[simp] theorem State.setTenant_nextOp (s : State) (t : Tenant) : (s.setTenant t).nextOp = s.nextOp := rfl
@[simp] theorem State.setTenant_nextIssue (s : State) (t : Tenant) : (s.setTenant t).nextIssue = s.nextIssue := rfl
@[simp] theorem State.setTenant_cores (s : State) (t : Tenant) : (s.setTenant t).cores = s.cores := rfl
@[simp] theorem State.setTenant_clusters (s : State) (t : Tenant) : (s.setTenant t).clusters = s.clusters := rfl
@[simp] theorem State.setTenant_mem (s : State) (t : Tenant) : (s.setTenant t).mem = s.mem := rfl
@[simp] theorem State.setTenant_home (s : State) (t : Tenant) : (s.setTenant t).home = s.home := rfl
@[simp] theorem State.setTenant_poison (s : State) (t : Tenant) : (s.setTenant t).poison = s.poison := rfl
@[simp] theorem State.setTenant_homePoison (s : State) (t : Tenant) : (s.setTenant t).homePoison = s.homePoison := rfl
@[simp] theorem State.setTenant_indexed (s : State) (t : Tenant) : (s.setTenant t).indexed = s.indexed := rfl
@[simp] theorem State.setTenant_viewMarks (s : State) (t : Tenant) : (s.setTenant t).viewMarks = s.viewMarks := rfl
@[simp] theorem State.setTenant_registry (s : State) (t : Tenant) : (s.setTenant t).registry = s.registry := rfl
@[simp] theorem State.setTenant_revoking (s : State) (t : Tenant) : (s.setTenant t).revoking = s.revoking := rfl
@[simp] theorem State.setTenant_registrations (s : State) (t : Tenant) : (s.setTenant t).registrations = s.registrations := rfl
@[simp] theorem State.setTenant_monitors (s : State) (t : Tenant) : (s.setTenant t).monitors = s.monitors := rfl
@[simp] theorem State.setTenant_nextMonitor (s : State) (t : Tenant) : (s.setTenant t).nextMonitor = s.nextMonitor := rfl
@[simp] theorem State.setTenant_ctxs (s : State) (t : Tenant) : (s.setTenant t).ctxs = s.ctxs := rfl
@[simp] theorem State.setTenant_tenants (s : State) (t : Tenant) : (s.setTenant t).tenants = upsert (fun u => u.num == t.num) t s.tenants := rfl
@[simp] theorem State.setTenant_accesses (s : State) (t : Tenant) : (s.setTenant t).accesses = s.accesses := rfl
@[simp] theorem State.setTenant_nextAccess (s : State) (t : Tenant) : (s.setTenant t).nextAccess = s.nextAccess := rfl
@[simp] theorem State.setTenant_tellerTlb (s : State) (t : Tenant) : (s.setTenant t).tellerTlb = s.tellerTlb := rfl
@[simp] theorem State.setTenant_walkCache (s : State) (t : Tenant) : (s.setTenant t).walkCache = s.walkCache := rfl
@[simp] theorem State.setTenant_walks (s : State) (t : Tenant) : (s.setTenant t).walks = s.walks := rfl
@[simp] theorem State.setTenant_walkFor (s : State) (t : Tenant) : (s.setTenant t).walkFor = s.walkFor := rfl
@[simp] theorem State.setTenant_missed (s : State) (t : Tenant) : (s.setTenant t).missed = s.missed := rfl
@[simp] theorem State.setTenant_votes (s : State) (t : Tenant) : (s.setTenant t).votes = s.votes := rfl
@[simp] theorem State.setTenant_pushes (s : State) (t : Tenant) : (s.setTenant t).pushes = s.pushes := rfl
@[simp] theorem State.setTenant_imageUpdates (s : State) (t : Tenant) : (s.setTenant t).imageUpdates = s.imageUpdates := rfl
@[simp] theorem State.setTenant_nextIdx (s : State) (t : Tenant) : (s.setTenant t).nextIdx = s.nextIdx := rfl
@[simp] theorem State.setTenant_queues (s : State) (t : Tenant) : (s.setTenant t).queues = s.queues := rfl
@[simp] theorem State.setTenant_grids (s : State) (t : Tenant) : (s.setTenant t).grids = s.grids := rfl
@[simp] theorem State.setTenant_nextGrid (s : State) (t : Tenant) : (s.setTenant t).nextGrid = s.nextGrid := rfl
@[simp] theorem State.setTenant_nextTeam (s : State) (t : Tenant) : (s.setTenant t).nextTeam = s.nextTeam := rfl
@[simp] theorem State.setTenant_placeOrder (s : State) (t : Tenant) : (s.setTenant t).placeOrder = s.placeOrder := rfl
@[simp] theorem State.setTenant_dueOrder (s : State) (t : Tenant) : (s.setTenant t).dueOrder = s.dueOrder := rfl
@[simp] theorem State.setTenant_cpRobin (s : State) (t : Tenant) : (s.setTenant t).cpRobin = s.cpRobin := rfl
@[simp] theorem State.setTenant_clocks (s : State) (t : Tenant) : (s.setTenant t).clocks = s.clocks := rfl
@[simp] theorem State.setTenant_sup (s : State) (t : Tenant) : (s.setTenant t).sup = s.sup := rfl
@[simp] theorem State.setTenant_links (s : State) (t : Tenant) : (s.setTenant t).links = s.links := rfl
@[simp] theorem State.setTenant_mgmt (s : State) (t : Tenant) : (s.setTenant t).mgmt = s.mgmt := rfl
@[simp] theorem State.setTenant_fabric (s : State) (t : Tenant) : (s.setTenant t).fabric = s.fabric := rfl
@[simp] theorem State.setTenant_roce (s : State) (t : Tenant) : (s.setTenant t).roce = s.roce := rfl
@[simp] theorem State.setTenant_hostMem (s : State) (t : Tenant) : (s.setTenant t).hostMem = s.hostMem := rfl
@[simp] theorem State.setTenant_inputs (s : State) (t : Tenant) : (s.setTenant t).inputs = s.inputs := rfl
@[simp] theorem State.setTenant_tick (s : State) (t : Tenant) : (s.setTenant t).tick = s.tick := rfl

/-! ### `State.setOp` -/

@[simp] theorem State.setOp_th (s : State) (o : Op) : (s.setOp o).th = s.th := rfl
@[simp] theorem State.setOp_threads (s : State) (o : Op) : (s.setOp o).threads = s.threads := rfl
@[simp] theorem State.setOp_tm (s : State) (o : Op) : (s.setOp o).tm = s.tm := rfl
@[simp] theorem State.setOp_teams (s : State) (o : Op) : (s.setOp o).teams = s.teams := rfl
@[simp] theorem State.setOp_issue (s : State) (o : Op) : (s.setOp o).issue = s.issue := rfl
@[simp] theorem State.setOp_laneFaults (s : State) (o : Op) : (s.setOp o).laneFaults = s.laneFaults := rfl
@[simp] theorem State.setOp_pfx (s : State) (o : Op) : (s.setOp o).pfx = s.pfx := rfl
@[simp] theorem State.setOp_ops (s : State) (o : Op) : (s.setOp o).ops = s.ops.map (fun p => if p.id = o.id then o else p) := rfl
@[simp] theorem State.setOp_nextOp (s : State) (o : Op) : (s.setOp o).nextOp = s.nextOp := rfl
@[simp] theorem State.setOp_nextIssue (s : State) (o : Op) : (s.setOp o).nextIssue = s.nextIssue := rfl
@[simp] theorem State.setOp_cores (s : State) (o : Op) : (s.setOp o).cores = s.cores := rfl
@[simp] theorem State.setOp_clusters (s : State) (o : Op) : (s.setOp o).clusters = s.clusters := rfl
@[simp] theorem State.setOp_mem (s : State) (o : Op) : (s.setOp o).mem = s.mem := rfl
@[simp] theorem State.setOp_home (s : State) (o : Op) : (s.setOp o).home = s.home := rfl
@[simp] theorem State.setOp_poison (s : State) (o : Op) : (s.setOp o).poison = s.poison := rfl
@[simp] theorem State.setOp_homePoison (s : State) (o : Op) : (s.setOp o).homePoison = s.homePoison := rfl
@[simp] theorem State.setOp_indexed (s : State) (o : Op) : (s.setOp o).indexed = s.indexed := rfl
@[simp] theorem State.setOp_viewMarks (s : State) (o : Op) : (s.setOp o).viewMarks = s.viewMarks := rfl
@[simp] theorem State.setOp_registry (s : State) (o : Op) : (s.setOp o).registry = s.registry := rfl
@[simp] theorem State.setOp_revoking (s : State) (o : Op) : (s.setOp o).revoking = s.revoking := rfl
@[simp] theorem State.setOp_registrations (s : State) (o : Op) : (s.setOp o).registrations = s.registrations := rfl
@[simp] theorem State.setOp_monitors (s : State) (o : Op) : (s.setOp o).monitors = s.monitors := rfl
@[simp] theorem State.setOp_nextMonitor (s : State) (o : Op) : (s.setOp o).nextMonitor = s.nextMonitor := rfl
@[simp] theorem State.setOp_ctxs (s : State) (o : Op) : (s.setOp o).ctxs = s.ctxs := rfl
@[simp] theorem State.setOp_tenants (s : State) (o : Op) : (s.setOp o).tenants = s.tenants := rfl
@[simp] theorem State.setOp_accesses (s : State) (o : Op) : (s.setOp o).accesses = s.accesses := rfl
@[simp] theorem State.setOp_nextAccess (s : State) (o : Op) : (s.setOp o).nextAccess = s.nextAccess := rfl
@[simp] theorem State.setOp_tellerTlb (s : State) (o : Op) : (s.setOp o).tellerTlb = s.tellerTlb := rfl
@[simp] theorem State.setOp_walkCache (s : State) (o : Op) : (s.setOp o).walkCache = s.walkCache := rfl
@[simp] theorem State.setOp_walks (s : State) (o : Op) : (s.setOp o).walks = s.walks := rfl
@[simp] theorem State.setOp_walkFor (s : State) (o : Op) : (s.setOp o).walkFor = s.walkFor := rfl
@[simp] theorem State.setOp_missed (s : State) (o : Op) : (s.setOp o).missed = s.missed := rfl
@[simp] theorem State.setOp_votes (s : State) (o : Op) : (s.setOp o).votes = s.votes := rfl
@[simp] theorem State.setOp_pushes (s : State) (o : Op) : (s.setOp o).pushes = s.pushes := rfl
@[simp] theorem State.setOp_imageUpdates (s : State) (o : Op) : (s.setOp o).imageUpdates = s.imageUpdates := rfl
@[simp] theorem State.setOp_nextIdx (s : State) (o : Op) : (s.setOp o).nextIdx = s.nextIdx := rfl
@[simp] theorem State.setOp_queues (s : State) (o : Op) : (s.setOp o).queues = s.queues := rfl
@[simp] theorem State.setOp_grids (s : State) (o : Op) : (s.setOp o).grids = s.grids := rfl
@[simp] theorem State.setOp_nextGrid (s : State) (o : Op) : (s.setOp o).nextGrid = s.nextGrid := rfl
@[simp] theorem State.setOp_nextTeam (s : State) (o : Op) : (s.setOp o).nextTeam = s.nextTeam := rfl
@[simp] theorem State.setOp_placeOrder (s : State) (o : Op) : (s.setOp o).placeOrder = s.placeOrder := rfl
@[simp] theorem State.setOp_dueOrder (s : State) (o : Op) : (s.setOp o).dueOrder = s.dueOrder := rfl
@[simp] theorem State.setOp_cpRobin (s : State) (o : Op) : (s.setOp o).cpRobin = s.cpRobin := rfl
@[simp] theorem State.setOp_clocks (s : State) (o : Op) : (s.setOp o).clocks = s.clocks := rfl
@[simp] theorem State.setOp_sup (s : State) (o : Op) : (s.setOp o).sup = s.sup := rfl
@[simp] theorem State.setOp_links (s : State) (o : Op) : (s.setOp o).links = s.links := rfl
@[simp] theorem State.setOp_mgmt (s : State) (o : Op) : (s.setOp o).mgmt = s.mgmt := rfl
@[simp] theorem State.setOp_fabric (s : State) (o : Op) : (s.setOp o).fabric = s.fabric := rfl
@[simp] theorem State.setOp_roce (s : State) (o : Op) : (s.setOp o).roce = s.roce := rfl
@[simp] theorem State.setOp_hostMem (s : State) (o : Op) : (s.setOp o).hostMem = s.hostMem := rfl
@[simp] theorem State.setOp_inputs (s : State) (o : Op) : (s.setOp o).inputs = s.inputs := rfl
@[simp] theorem State.setOp_tick (s : State) (o : Op) : (s.setOp o).tick = s.tick := rfl

/-! ### `State.dropOp` -/

@[simp] theorem State.dropOp_th (s : State) (n : Nat) : (s.dropOp n).th = s.th := rfl
@[simp] theorem State.dropOp_threads (s : State) (n : Nat) : (s.dropOp n).threads = s.threads := rfl
@[simp] theorem State.dropOp_tm (s : State) (n : Nat) : (s.dropOp n).tm = s.tm := rfl
@[simp] theorem State.dropOp_teams (s : State) (n : Nat) : (s.dropOp n).teams = s.teams := rfl
@[simp] theorem State.dropOp_issue (s : State) (n : Nat) : (s.dropOp n).issue = s.issue := rfl
@[simp] theorem State.dropOp_laneFaults (s : State) (n : Nat) : (s.dropOp n).laneFaults = s.laneFaults := rfl
@[simp] theorem State.dropOp_pfx (s : State) (n : Nat) : (s.dropOp n).pfx = s.pfx := rfl
@[simp] theorem State.dropOp_ops (s : State) (n : Nat) : (s.dropOp n).ops = s.ops.filter (fun p => p.id != n) := rfl
@[simp] theorem State.dropOp_nextOp (s : State) (n : Nat) : (s.dropOp n).nextOp = s.nextOp := rfl
@[simp] theorem State.dropOp_nextIssue (s : State) (n : Nat) : (s.dropOp n).nextIssue = s.nextIssue := rfl
@[simp] theorem State.dropOp_cores (s : State) (n : Nat) : (s.dropOp n).cores = s.cores := rfl
@[simp] theorem State.dropOp_clusters (s : State) (n : Nat) : (s.dropOp n).clusters = s.clusters := rfl
@[simp] theorem State.dropOp_mem (s : State) (n : Nat) : (s.dropOp n).mem = s.mem := rfl
@[simp] theorem State.dropOp_home (s : State) (n : Nat) : (s.dropOp n).home = s.home := rfl
@[simp] theorem State.dropOp_poison (s : State) (n : Nat) : (s.dropOp n).poison = s.poison := rfl
@[simp] theorem State.dropOp_homePoison (s : State) (n : Nat) : (s.dropOp n).homePoison = s.homePoison := rfl
@[simp] theorem State.dropOp_indexed (s : State) (n : Nat) : (s.dropOp n).indexed = s.indexed := rfl
@[simp] theorem State.dropOp_viewMarks (s : State) (n : Nat) : (s.dropOp n).viewMarks = s.viewMarks := rfl
@[simp] theorem State.dropOp_registry (s : State) (n : Nat) : (s.dropOp n).registry = s.registry := rfl
@[simp] theorem State.dropOp_revoking (s : State) (n : Nat) : (s.dropOp n).revoking = s.revoking := rfl
@[simp] theorem State.dropOp_registrations (s : State) (n : Nat) : (s.dropOp n).registrations = s.registrations := rfl
@[simp] theorem State.dropOp_monitors (s : State) (n : Nat) : (s.dropOp n).monitors = s.monitors := rfl
@[simp] theorem State.dropOp_nextMonitor (s : State) (n : Nat) : (s.dropOp n).nextMonitor = s.nextMonitor := rfl
@[simp] theorem State.dropOp_ctxs (s : State) (n : Nat) : (s.dropOp n).ctxs = s.ctxs := rfl
@[simp] theorem State.dropOp_tenants (s : State) (n : Nat) : (s.dropOp n).tenants = s.tenants := rfl
@[simp] theorem State.dropOp_accesses (s : State) (n : Nat) : (s.dropOp n).accesses = s.accesses := rfl
@[simp] theorem State.dropOp_nextAccess (s : State) (n : Nat) : (s.dropOp n).nextAccess = s.nextAccess := rfl
@[simp] theorem State.dropOp_tellerTlb (s : State) (n : Nat) : (s.dropOp n).tellerTlb = s.tellerTlb := rfl
@[simp] theorem State.dropOp_walkCache (s : State) (n : Nat) : (s.dropOp n).walkCache = s.walkCache := rfl
@[simp] theorem State.dropOp_walks (s : State) (n : Nat) : (s.dropOp n).walks = s.walks := rfl
@[simp] theorem State.dropOp_walkFor (s : State) (n : Nat) : (s.dropOp n).walkFor = s.walkFor := rfl
@[simp] theorem State.dropOp_missed (s : State) (n : Nat) : (s.dropOp n).missed = s.missed := rfl
@[simp] theorem State.dropOp_votes (s : State) (n : Nat) : (s.dropOp n).votes = s.votes := rfl
@[simp] theorem State.dropOp_pushes (s : State) (n : Nat) : (s.dropOp n).pushes = s.pushes := rfl
@[simp] theorem State.dropOp_imageUpdates (s : State) (n : Nat) : (s.dropOp n).imageUpdates = s.imageUpdates := rfl
@[simp] theorem State.dropOp_nextIdx (s : State) (n : Nat) : (s.dropOp n).nextIdx = s.nextIdx := rfl
@[simp] theorem State.dropOp_queues (s : State) (n : Nat) : (s.dropOp n).queues = s.queues := rfl
@[simp] theorem State.dropOp_grids (s : State) (n : Nat) : (s.dropOp n).grids = s.grids := rfl
@[simp] theorem State.dropOp_nextGrid (s : State) (n : Nat) : (s.dropOp n).nextGrid = s.nextGrid := rfl
@[simp] theorem State.dropOp_nextTeam (s : State) (n : Nat) : (s.dropOp n).nextTeam = s.nextTeam := rfl
@[simp] theorem State.dropOp_placeOrder (s : State) (n : Nat) : (s.dropOp n).placeOrder = s.placeOrder := rfl
@[simp] theorem State.dropOp_dueOrder (s : State) (n : Nat) : (s.dropOp n).dueOrder = s.dueOrder := rfl
@[simp] theorem State.dropOp_cpRobin (s : State) (n : Nat) : (s.dropOp n).cpRobin = s.cpRobin := rfl
@[simp] theorem State.dropOp_clocks (s : State) (n : Nat) : (s.dropOp n).clocks = s.clocks := rfl
@[simp] theorem State.dropOp_sup (s : State) (n : Nat) : (s.dropOp n).sup = s.sup := rfl
@[simp] theorem State.dropOp_links (s : State) (n : Nat) : (s.dropOp n).links = s.links := rfl
@[simp] theorem State.dropOp_mgmt (s : State) (n : Nat) : (s.dropOp n).mgmt = s.mgmt := rfl
@[simp] theorem State.dropOp_fabric (s : State) (n : Nat) : (s.dropOp n).fabric = s.fabric := rfl
@[simp] theorem State.dropOp_roce (s : State) (n : Nat) : (s.dropOp n).roce = s.roce := rfl
@[simp] theorem State.dropOp_hostMem (s : State) (n : Nat) : (s.dropOp n).hostMem = s.hostMem := rfl
@[simp] theorem State.dropOp_inputs (s : State) (n : Nat) : (s.dropOp n).inputs = s.inputs := rfl
@[simp] theorem State.dropOp_tick (s : State) (n : Nat) : (s.dropOp n).tick = s.tick := rfl

/-! ### `State.mapThreads` -/

@[simp] theorem State.mapThreads_th (s : State) (f : Thread → Thread) : (s.mapThreads f).th = f s.th := rfl
@[simp] theorem State.mapThreads_threads (s : State) (f : Thread → Thread) : (s.mapThreads f).threads = s.threads.map f := rfl
@[simp] theorem State.mapThreads_tm (s : State) (f : Thread → Thread) : (s.mapThreads f).tm = s.tm := rfl
@[simp] theorem State.mapThreads_teams (s : State) (f : Thread → Thread) : (s.mapThreads f).teams = s.teams := rfl
@[simp] theorem State.mapThreads_issue (s : State) (f : Thread → Thread) : (s.mapThreads f).issue = s.issue := rfl
@[simp] theorem State.mapThreads_laneFaults (s : State) (f : Thread → Thread) : (s.mapThreads f).laneFaults = s.laneFaults := rfl
@[simp] theorem State.mapThreads_pfx (s : State) (f : Thread → Thread) : (s.mapThreads f).pfx = s.pfx := rfl
@[simp] theorem State.mapThreads_ops (s : State) (f : Thread → Thread) : (s.mapThreads f).ops = s.ops := rfl
@[simp] theorem State.mapThreads_nextOp (s : State) (f : Thread → Thread) : (s.mapThreads f).nextOp = s.nextOp := rfl
@[simp] theorem State.mapThreads_nextIssue (s : State) (f : Thread → Thread) : (s.mapThreads f).nextIssue = s.nextIssue := rfl
@[simp] theorem State.mapThreads_cores (s : State) (f : Thread → Thread) : (s.mapThreads f).cores = s.cores := rfl
@[simp] theorem State.mapThreads_clusters (s : State) (f : Thread → Thread) : (s.mapThreads f).clusters = s.clusters := rfl
@[simp] theorem State.mapThreads_mem (s : State) (f : Thread → Thread) : (s.mapThreads f).mem = s.mem := rfl
@[simp] theorem State.mapThreads_home (s : State) (f : Thread → Thread) : (s.mapThreads f).home = s.home := rfl
@[simp] theorem State.mapThreads_poison (s : State) (f : Thread → Thread) : (s.mapThreads f).poison = s.poison := rfl
@[simp] theorem State.mapThreads_homePoison (s : State) (f : Thread → Thread) : (s.mapThreads f).homePoison = s.homePoison := rfl
@[simp] theorem State.mapThreads_indexed (s : State) (f : Thread → Thread) : (s.mapThreads f).indexed = s.indexed := rfl
@[simp] theorem State.mapThreads_viewMarks (s : State) (f : Thread → Thread) : (s.mapThreads f).viewMarks = s.viewMarks := rfl
@[simp] theorem State.mapThreads_registry (s : State) (f : Thread → Thread) : (s.mapThreads f).registry = s.registry := rfl
@[simp] theorem State.mapThreads_revoking (s : State) (f : Thread → Thread) : (s.mapThreads f).revoking = s.revoking := rfl
@[simp] theorem State.mapThreads_registrations (s : State) (f : Thread → Thread) : (s.mapThreads f).registrations = s.registrations := rfl
@[simp] theorem State.mapThreads_monitors (s : State) (f : Thread → Thread) : (s.mapThreads f).monitors = s.monitors := rfl
@[simp] theorem State.mapThreads_nextMonitor (s : State) (f : Thread → Thread) : (s.mapThreads f).nextMonitor = s.nextMonitor := rfl
@[simp] theorem State.mapThreads_ctxs (s : State) (f : Thread → Thread) : (s.mapThreads f).ctxs = s.ctxs := rfl
@[simp] theorem State.mapThreads_tenants (s : State) (f : Thread → Thread) : (s.mapThreads f).tenants = s.tenants := rfl
@[simp] theorem State.mapThreads_accesses (s : State) (f : Thread → Thread) : (s.mapThreads f).accesses = s.accesses := rfl
@[simp] theorem State.mapThreads_nextAccess (s : State) (f : Thread → Thread) : (s.mapThreads f).nextAccess = s.nextAccess := rfl
@[simp] theorem State.mapThreads_tellerTlb (s : State) (f : Thread → Thread) : (s.mapThreads f).tellerTlb = s.tellerTlb := rfl
@[simp] theorem State.mapThreads_walkCache (s : State) (f : Thread → Thread) : (s.mapThreads f).walkCache = s.walkCache := rfl
@[simp] theorem State.mapThreads_walks (s : State) (f : Thread → Thread) : (s.mapThreads f).walks = s.walks := rfl
@[simp] theorem State.mapThreads_walkFor (s : State) (f : Thread → Thread) : (s.mapThreads f).walkFor = s.walkFor := rfl
@[simp] theorem State.mapThreads_missed (s : State) (f : Thread → Thread) : (s.mapThreads f).missed = s.missed := rfl
@[simp] theorem State.mapThreads_votes (s : State) (f : Thread → Thread) : (s.mapThreads f).votes = s.votes := rfl
@[simp] theorem State.mapThreads_pushes (s : State) (f : Thread → Thread) : (s.mapThreads f).pushes = s.pushes := rfl
@[simp] theorem State.mapThreads_imageUpdates (s : State) (f : Thread → Thread) : (s.mapThreads f).imageUpdates = s.imageUpdates := rfl
@[simp] theorem State.mapThreads_nextIdx (s : State) (f : Thread → Thread) : (s.mapThreads f).nextIdx = s.nextIdx := rfl
@[simp] theorem State.mapThreads_queues (s : State) (f : Thread → Thread) : (s.mapThreads f).queues = s.queues := rfl
@[simp] theorem State.mapThreads_grids (s : State) (f : Thread → Thread) : (s.mapThreads f).grids = s.grids := rfl
@[simp] theorem State.mapThreads_nextGrid (s : State) (f : Thread → Thread) : (s.mapThreads f).nextGrid = s.nextGrid := rfl
@[simp] theorem State.mapThreads_nextTeam (s : State) (f : Thread → Thread) : (s.mapThreads f).nextTeam = s.nextTeam := rfl
@[simp] theorem State.mapThreads_placeOrder (s : State) (f : Thread → Thread) : (s.mapThreads f).placeOrder = s.placeOrder := rfl
@[simp] theorem State.mapThreads_dueOrder (s : State) (f : Thread → Thread) : (s.mapThreads f).dueOrder = s.dueOrder := rfl
@[simp] theorem State.mapThreads_cpRobin (s : State) (f : Thread → Thread) : (s.mapThreads f).cpRobin = s.cpRobin := rfl
@[simp] theorem State.mapThreads_clocks (s : State) (f : Thread → Thread) : (s.mapThreads f).clocks = s.clocks := rfl
@[simp] theorem State.mapThreads_sup (s : State) (f : Thread → Thread) : (s.mapThreads f).sup = s.sup := rfl
@[simp] theorem State.mapThreads_links (s : State) (f : Thread → Thread) : (s.mapThreads f).links = s.links := rfl
@[simp] theorem State.mapThreads_mgmt (s : State) (f : Thread → Thread) : (s.mapThreads f).mgmt = s.mgmt := rfl
@[simp] theorem State.mapThreads_fabric (s : State) (f : Thread → Thread) : (s.mapThreads f).fabric = s.fabric := rfl
@[simp] theorem State.mapThreads_roce (s : State) (f : Thread → Thread) : (s.mapThreads f).roce = s.roce := rfl
@[simp] theorem State.mapThreads_hostMem (s : State) (f : Thread → Thread) : (s.mapThreads f).hostMem = s.hostMem := rfl
@[simp] theorem State.mapThreads_inputs (s : State) (f : Thread → Thread) : (s.mapThreads f).inputs = s.inputs := rfl
@[simp] theorem State.mapThreads_tick (s : State) (f : Thread → Thread) : (s.mapThreads f).tick = s.tick := rfl

/-! ### `State.setThread` -/

@[simp] theorem State.setThread_tm (s : State) (x : Thread) : (s.setThread x).tm = s.tm := by unfold State.setThread; split <;> rfl
@[simp] theorem State.setThread_teams (s : State) (x : Thread) : (s.setThread x).teams = s.teams := by unfold State.setThread; split <;> rfl
@[simp] theorem State.setThread_issue (s : State) (x : Thread) : (s.setThread x).issue = s.issue := by unfold State.setThread; split <;> rfl
@[simp] theorem State.setThread_laneFaults (s : State) (x : Thread) : (s.setThread x).laneFaults = s.laneFaults := by unfold State.setThread; split <;> rfl
@[simp] theorem State.setThread_pfx (s : State) (x : Thread) : (s.setThread x).pfx = s.pfx := by unfold State.setThread; split <;> rfl
@[simp] theorem State.setThread_ops (s : State) (x : Thread) : (s.setThread x).ops = s.ops := by unfold State.setThread; split <;> rfl
@[simp] theorem State.setThread_nextOp (s : State) (x : Thread) : (s.setThread x).nextOp = s.nextOp := by unfold State.setThread; split <;> rfl
@[simp] theorem State.setThread_nextIssue (s : State) (x : Thread) : (s.setThread x).nextIssue = s.nextIssue := by unfold State.setThread; split <;> rfl
@[simp] theorem State.setThread_cores (s : State) (x : Thread) : (s.setThread x).cores = s.cores := by unfold State.setThread; split <;> rfl
@[simp] theorem State.setThread_clusters (s : State) (x : Thread) : (s.setThread x).clusters = s.clusters := by unfold State.setThread; split <;> rfl
@[simp] theorem State.setThread_mem (s : State) (x : Thread) : (s.setThread x).mem = s.mem := by unfold State.setThread; split <;> rfl
@[simp] theorem State.setThread_home (s : State) (x : Thread) : (s.setThread x).home = s.home := by unfold State.setThread; split <;> rfl
@[simp] theorem State.setThread_poison (s : State) (x : Thread) : (s.setThread x).poison = s.poison := by unfold State.setThread; split <;> rfl
@[simp] theorem State.setThread_homePoison (s : State) (x : Thread) : (s.setThread x).homePoison = s.homePoison := by unfold State.setThread; split <;> rfl
@[simp] theorem State.setThread_indexed (s : State) (x : Thread) : (s.setThread x).indexed = s.indexed := by unfold State.setThread; split <;> rfl
@[simp] theorem State.setThread_viewMarks (s : State) (x : Thread) : (s.setThread x).viewMarks = s.viewMarks := by unfold State.setThread; split <;> rfl
@[simp] theorem State.setThread_registry (s : State) (x : Thread) : (s.setThread x).registry = s.registry := by unfold State.setThread; split <;> rfl
@[simp] theorem State.setThread_revoking (s : State) (x : Thread) : (s.setThread x).revoking = s.revoking := by unfold State.setThread; split <;> rfl
@[simp] theorem State.setThread_registrations (s : State) (x : Thread) : (s.setThread x).registrations = s.registrations := by unfold State.setThread; split <;> rfl
@[simp] theorem State.setThread_monitors (s : State) (x : Thread) : (s.setThread x).monitors = s.monitors := by unfold State.setThread; split <;> rfl
@[simp] theorem State.setThread_nextMonitor (s : State) (x : Thread) : (s.setThread x).nextMonitor = s.nextMonitor := by unfold State.setThread; split <;> rfl
@[simp] theorem State.setThread_ctxs (s : State) (x : Thread) : (s.setThread x).ctxs = s.ctxs := by unfold State.setThread; split <;> rfl
@[simp] theorem State.setThread_tenants (s : State) (x : Thread) : (s.setThread x).tenants = s.tenants := by unfold State.setThread; split <;> rfl
@[simp] theorem State.setThread_accesses (s : State) (x : Thread) : (s.setThread x).accesses = s.accesses := by unfold State.setThread; split <;> rfl
@[simp] theorem State.setThread_nextAccess (s : State) (x : Thread) : (s.setThread x).nextAccess = s.nextAccess := by unfold State.setThread; split <;> rfl
@[simp] theorem State.setThread_tellerTlb (s : State) (x : Thread) : (s.setThread x).tellerTlb = s.tellerTlb := by unfold State.setThread; split <;> rfl
@[simp] theorem State.setThread_walkCache (s : State) (x : Thread) : (s.setThread x).walkCache = s.walkCache := by unfold State.setThread; split <;> rfl
@[simp] theorem State.setThread_walks (s : State) (x : Thread) : (s.setThread x).walks = s.walks := by unfold State.setThread; split <;> rfl
@[simp] theorem State.setThread_walkFor (s : State) (x : Thread) : (s.setThread x).walkFor = s.walkFor := by unfold State.setThread; split <;> rfl
@[simp] theorem State.setThread_missed (s : State) (x : Thread) : (s.setThread x).missed = s.missed := by unfold State.setThread; split <;> rfl
@[simp] theorem State.setThread_votes (s : State) (x : Thread) : (s.setThread x).votes = s.votes := by unfold State.setThread; split <;> rfl
@[simp] theorem State.setThread_pushes (s : State) (x : Thread) : (s.setThread x).pushes = s.pushes := by unfold State.setThread; split <;> rfl
@[simp] theorem State.setThread_imageUpdates (s : State) (x : Thread) : (s.setThread x).imageUpdates = s.imageUpdates := by unfold State.setThread; split <;> rfl
@[simp] theorem State.setThread_nextIdx (s : State) (x : Thread) : (s.setThread x).nextIdx = s.nextIdx := by unfold State.setThread; split <;> rfl
@[simp] theorem State.setThread_queues (s : State) (x : Thread) : (s.setThread x).queues = s.queues := by unfold State.setThread; split <;> rfl
@[simp] theorem State.setThread_grids (s : State) (x : Thread) : (s.setThread x).grids = s.grids := by unfold State.setThread; split <;> rfl
@[simp] theorem State.setThread_nextGrid (s : State) (x : Thread) : (s.setThread x).nextGrid = s.nextGrid := by unfold State.setThread; split <;> rfl
@[simp] theorem State.setThread_nextTeam (s : State) (x : Thread) : (s.setThread x).nextTeam = s.nextTeam := by unfold State.setThread; split <;> rfl
@[simp] theorem State.setThread_placeOrder (s : State) (x : Thread) : (s.setThread x).placeOrder = s.placeOrder := by unfold State.setThread; split <;> rfl
@[simp] theorem State.setThread_dueOrder (s : State) (x : Thread) : (s.setThread x).dueOrder = s.dueOrder := by unfold State.setThread; split <;> rfl
@[simp] theorem State.setThread_cpRobin (s : State) (x : Thread) : (s.setThread x).cpRobin = s.cpRobin := by unfold State.setThread; split <;> rfl
@[simp] theorem State.setThread_clocks (s : State) (x : Thread) : (s.setThread x).clocks = s.clocks := by unfold State.setThread; split <;> rfl
@[simp] theorem State.setThread_sup (s : State) (x : Thread) : (s.setThread x).sup = s.sup := by unfold State.setThread; split <;> rfl
@[simp] theorem State.setThread_links (s : State) (x : Thread) : (s.setThread x).links = s.links := by unfold State.setThread; split <;> rfl
@[simp] theorem State.setThread_mgmt (s : State) (x : Thread) : (s.setThread x).mgmt = s.mgmt := by unfold State.setThread; split <;> rfl
@[simp] theorem State.setThread_fabric (s : State) (x : Thread) : (s.setThread x).fabric = s.fabric := by unfold State.setThread; split <;> rfl
@[simp] theorem State.setThread_roce (s : State) (x : Thread) : (s.setThread x).roce = s.roce := by unfold State.setThread; split <;> rfl
@[simp] theorem State.setThread_hostMem (s : State) (x : Thread) : (s.setThread x).hostMem = s.hostMem := by unfold State.setThread; split <;> rfl
@[simp] theorem State.setThread_inputs (s : State) (x : Thread) : (s.setThread x).inputs = s.inputs := by unfold State.setThread; split <;> rfl
@[simp] theorem State.setThread_tick (s : State) (x : Thread) : (s.setThread x).tick = s.tick := by unfold State.setThread; split <;> rfl

/-! ### `State.setTeam` -/

@[simp] theorem State.setTeam_th (s : State) (x : Team) : (s.setTeam x).th = s.th := by unfold State.setTeam; split <;> rfl
@[simp] theorem State.setTeam_threads (s : State) (x : Team) : (s.setTeam x).threads = s.threads := by unfold State.setTeam; split <;> rfl
@[simp] theorem State.setTeam_issue (s : State) (x : Team) : (s.setTeam x).issue = s.issue := by unfold State.setTeam; split <;> rfl
@[simp] theorem State.setTeam_laneFaults (s : State) (x : Team) : (s.setTeam x).laneFaults = s.laneFaults := by unfold State.setTeam; split <;> rfl
@[simp] theorem State.setTeam_pfx (s : State) (x : Team) : (s.setTeam x).pfx = s.pfx := by unfold State.setTeam; split <;> rfl
@[simp] theorem State.setTeam_ops (s : State) (x : Team) : (s.setTeam x).ops = s.ops := by unfold State.setTeam; split <;> rfl
@[simp] theorem State.setTeam_nextOp (s : State) (x : Team) : (s.setTeam x).nextOp = s.nextOp := by unfold State.setTeam; split <;> rfl
@[simp] theorem State.setTeam_nextIssue (s : State) (x : Team) : (s.setTeam x).nextIssue = s.nextIssue := by unfold State.setTeam; split <;> rfl
@[simp] theorem State.setTeam_cores (s : State) (x : Team) : (s.setTeam x).cores = s.cores := by unfold State.setTeam; split <;> rfl
@[simp] theorem State.setTeam_clusters (s : State) (x : Team) : (s.setTeam x).clusters = s.clusters := by unfold State.setTeam; split <;> rfl
@[simp] theorem State.setTeam_mem (s : State) (x : Team) : (s.setTeam x).mem = s.mem := by unfold State.setTeam; split <;> rfl
@[simp] theorem State.setTeam_home (s : State) (x : Team) : (s.setTeam x).home = s.home := by unfold State.setTeam; split <;> rfl
@[simp] theorem State.setTeam_poison (s : State) (x : Team) : (s.setTeam x).poison = s.poison := by unfold State.setTeam; split <;> rfl
@[simp] theorem State.setTeam_homePoison (s : State) (x : Team) : (s.setTeam x).homePoison = s.homePoison := by unfold State.setTeam; split <;> rfl
@[simp] theorem State.setTeam_indexed (s : State) (x : Team) : (s.setTeam x).indexed = s.indexed := by unfold State.setTeam; split <;> rfl
@[simp] theorem State.setTeam_viewMarks (s : State) (x : Team) : (s.setTeam x).viewMarks = s.viewMarks := by unfold State.setTeam; split <;> rfl
@[simp] theorem State.setTeam_registry (s : State) (x : Team) : (s.setTeam x).registry = s.registry := by unfold State.setTeam; split <;> rfl
@[simp] theorem State.setTeam_revoking (s : State) (x : Team) : (s.setTeam x).revoking = s.revoking := by unfold State.setTeam; split <;> rfl
@[simp] theorem State.setTeam_registrations (s : State) (x : Team) : (s.setTeam x).registrations = s.registrations := by unfold State.setTeam; split <;> rfl
@[simp] theorem State.setTeam_monitors (s : State) (x : Team) : (s.setTeam x).monitors = s.monitors := by unfold State.setTeam; split <;> rfl
@[simp] theorem State.setTeam_nextMonitor (s : State) (x : Team) : (s.setTeam x).nextMonitor = s.nextMonitor := by unfold State.setTeam; split <;> rfl
@[simp] theorem State.setTeam_ctxs (s : State) (x : Team) : (s.setTeam x).ctxs = s.ctxs := by unfold State.setTeam; split <;> rfl
@[simp] theorem State.setTeam_tenants (s : State) (x : Team) : (s.setTeam x).tenants = s.tenants := by unfold State.setTeam; split <;> rfl
@[simp] theorem State.setTeam_accesses (s : State) (x : Team) : (s.setTeam x).accesses = s.accesses := by unfold State.setTeam; split <;> rfl
@[simp] theorem State.setTeam_nextAccess (s : State) (x : Team) : (s.setTeam x).nextAccess = s.nextAccess := by unfold State.setTeam; split <;> rfl
@[simp] theorem State.setTeam_tellerTlb (s : State) (x : Team) : (s.setTeam x).tellerTlb = s.tellerTlb := by unfold State.setTeam; split <;> rfl
@[simp] theorem State.setTeam_walkCache (s : State) (x : Team) : (s.setTeam x).walkCache = s.walkCache := by unfold State.setTeam; split <;> rfl
@[simp] theorem State.setTeam_walks (s : State) (x : Team) : (s.setTeam x).walks = s.walks := by unfold State.setTeam; split <;> rfl
@[simp] theorem State.setTeam_walkFor (s : State) (x : Team) : (s.setTeam x).walkFor = s.walkFor := by unfold State.setTeam; split <;> rfl
@[simp] theorem State.setTeam_missed (s : State) (x : Team) : (s.setTeam x).missed = s.missed := by unfold State.setTeam; split <;> rfl
@[simp] theorem State.setTeam_votes (s : State) (x : Team) : (s.setTeam x).votes = s.votes := by unfold State.setTeam; split <;> rfl
@[simp] theorem State.setTeam_pushes (s : State) (x : Team) : (s.setTeam x).pushes = s.pushes := by unfold State.setTeam; split <;> rfl
@[simp] theorem State.setTeam_imageUpdates (s : State) (x : Team) : (s.setTeam x).imageUpdates = s.imageUpdates := by unfold State.setTeam; split <;> rfl
@[simp] theorem State.setTeam_nextIdx (s : State) (x : Team) : (s.setTeam x).nextIdx = s.nextIdx := by unfold State.setTeam; split <;> rfl
@[simp] theorem State.setTeam_queues (s : State) (x : Team) : (s.setTeam x).queues = s.queues := by unfold State.setTeam; split <;> rfl
@[simp] theorem State.setTeam_grids (s : State) (x : Team) : (s.setTeam x).grids = s.grids := by unfold State.setTeam; split <;> rfl
@[simp] theorem State.setTeam_nextGrid (s : State) (x : Team) : (s.setTeam x).nextGrid = s.nextGrid := by unfold State.setTeam; split <;> rfl
@[simp] theorem State.setTeam_nextTeam (s : State) (x : Team) : (s.setTeam x).nextTeam = s.nextTeam := by unfold State.setTeam; split <;> rfl
@[simp] theorem State.setTeam_placeOrder (s : State) (x : Team) : (s.setTeam x).placeOrder = s.placeOrder := by unfold State.setTeam; split <;> rfl
@[simp] theorem State.setTeam_dueOrder (s : State) (x : Team) : (s.setTeam x).dueOrder = s.dueOrder := by unfold State.setTeam; split <;> rfl
@[simp] theorem State.setTeam_cpRobin (s : State) (x : Team) : (s.setTeam x).cpRobin = s.cpRobin := by unfold State.setTeam; split <;> rfl
@[simp] theorem State.setTeam_clocks (s : State) (x : Team) : (s.setTeam x).clocks = s.clocks := by unfold State.setTeam; split <;> rfl
@[simp] theorem State.setTeam_sup (s : State) (x : Team) : (s.setTeam x).sup = s.sup := by unfold State.setTeam; split <;> rfl
@[simp] theorem State.setTeam_links (s : State) (x : Team) : (s.setTeam x).links = s.links := by unfold State.setTeam; split <;> rfl
@[simp] theorem State.setTeam_mgmt (s : State) (x : Team) : (s.setTeam x).mgmt = s.mgmt := by unfold State.setTeam; split <;> rfl
@[simp] theorem State.setTeam_fabric (s : State) (x : Team) : (s.setTeam x).fabric = s.fabric := by unfold State.setTeam; split <;> rfl
@[simp] theorem State.setTeam_roce (s : State) (x : Team) : (s.setTeam x).roce = s.roce := by unfold State.setTeam; split <;> rfl
@[simp] theorem State.setTeam_hostMem (s : State) (x : Team) : (s.setTeam x).hostMem = s.hostMem := by unfold State.setTeam; split <;> rfl
@[simp] theorem State.setTeam_inputs (s : State) (x : Team) : (s.setTeam x).inputs = s.inputs := by unfold State.setTeam; split <;> rfl
@[simp] theorem State.setTeam_tick (s : State) (x : Team) : (s.setTeam x).tick = s.tick := by unfold State.setTeam; split <;> rfl

end Sys2Proof.Machine
end

