-- ==== Sys2Proof/Laws/Memory.lean ====
section
/-! SUPPORT. The laws of byte cells, memory and the shared cache: read after write, what a write leaves alone, and the
canonical form every memory operation keeps. -/

namespace Sys2Proof.Machine

/-! ### Cells -/

theorem cellsAbove_mono {lo hi : Nat} {c : Cells} (h : lo ≤ hi) (w : cellsAbove hi c = true) : cellsAbove lo c = true := by
  cases c with
  | nil => rfl
  | cons x t =>
    simp only [cellsAbove, Bool.and_eq_true, decide_eq_true_eq] at *
    exact ⟨by omega, w.2⟩

theorem cellGet_below {lo a : Nat} {c : Cells} (h : a < lo) (w : cellsAbove lo c = true) : cellGet c a = none := by
  cases c with
  | nil => rfl
  | cons x t =>
    simp only [cellsAbove, Bool.and_eq_true, decide_eq_true_eq] at w
    simp only [cellGet]
    rw [if_neg (by omega), if_pos (by omega)]

theorem cellPut_above {lo a : Nat} {v : Byte} {c : Cells} (h : lo ≤ a) (w : cellsAbove lo c = true) :
    cellsAbove lo (cellPut a v c) = true := by
  induction c generalizing lo with
  | nil => simp [cellPut, cellsAbove, h]
  | cons x t ih =>
    simp only [cellsAbove, Bool.and_eq_true, decide_eq_true_eq] at w
    simp only [cellPut]
    split
    · rename_i hlt
      simp [cellsAbove, h, w.2]
      omega
    · split
      · subst_vars; simp [cellsAbove, w.1, w.2]
      · simp only [cellsAbove, Bool.and_eq_true, decide_eq_true_eq]
        exact ⟨w.1, ih (by omega) w.2⟩

theorem cellDrop_above {lo a : Nat} {c : Cells} (w : cellsAbove lo c = true) : cellsAbove lo (cellDrop a c) = true := by
  induction c generalizing lo with
  | nil => rfl
  | cons x t ih =>
    have w' := w
    simp only [cellsAbove, Bool.and_eq_true, decide_eq_true_eq] at w
    simp only [cellDrop]
    split
    · exact w'
    · split
      · exact cellsAbove_mono (by omega) w.2
      · simp only [cellsAbove, Bool.and_eq_true, decide_eq_true_eq]
        exact ⟨w.1, ih w.2⟩

theorem cellsAbove_filter {lo : Nat} {c : Cells} (p : Host.Cell → Bool) (w : cellsAbove lo c = true) :
    cellsAbove lo (c.filter p) = true := by
  induction c generalizing lo with
  | nil => rfl
  | cons x t ih =>
    simp only [cellsAbove, Bool.and_eq_true, decide_eq_true_eq] at w
    simp only [List.filter]
    split
    · simp only [cellsAbove, Bool.and_eq_true, decide_eq_true_eq]
      exact ⟨w.1, ih w.2⟩
    · exact cellsAbove_mono (by omega) (ih w.2)

theorem cellGet_cellPut_same (a : Nat) (v : Byte) (c : Cells) : cellGet (cellPut a v c) a = some v := by
  induction c with
  | nil => simp [cellPut, cellGet]
  | cons x t ih =>
    simp only [cellPut]
    split
    · simp [cellGet]
    · split
      · simp [cellGet]
      · simp only [cellGet]
        rw [if_neg (by omega), if_neg (by omega), ih]

theorem cellGet_cellPut_other {a b : Nat} (v : Byte) (c : Cells) (h : b ≠ a) : cellGet (cellPut a v c) b = cellGet c b := by
  induction c with
  | nil =>
    simp only [cellPut, cellGet]
    rw [if_neg h]
    split <;> rfl
  | cons x t ih =>
    simp only [cellPut]
    split
    · simp only [cellGet]
      rw [if_neg h]
      split
      · rw [if_neg (by omega), if_pos (by omega)]
      · rfl
    · split
      · subst_vars
        simp [cellGet, h]
      · simp only [cellGet, ih]

theorem cellGet_cellDrop_same {lo a : Nat} {c : Cells} (w : cellsAbove lo c = true) : cellGet (cellDrop a c) a = none := by
  induction c generalizing lo with
  | nil => rfl
  | cons x t ih =>
    simp only [cellsAbove, Bool.and_eq_true, decide_eq_true_eq] at w
    simp only [cellDrop]
    split
    · simp only [cellGet]
      rw [if_neg (by omega), if_pos (by omega)]
    · split
      · subst_vars
        exact cellGet_below (by omega) w.2
      · simp only [cellGet]
        rw [if_neg (by omega), if_neg (by omega), ih w.2]

theorem cellGet_cellDrop_other {lo a b : Nat} {c : Cells} (w : cellsAbove lo c = true) (h : b ≠ a) :
    cellGet (cellDrop a c) b = cellGet c b := by
  induction c generalizing lo with
  | nil => rfl
  | cons x t ih =>
    simp only [cellsAbove, Bool.and_eq_true, decide_eq_true_eq] at w
    simp only [cellDrop]
    split
    · rfl
    · split
      · subst_vars
        simp only [cellGet]
        rw [if_neg h]
        split
        · exact cellGet_below (by omega) w.2
        · rfl
      · simp only [cellGet, ih w.2]

/-! ### Memory -/

theorem Memory.wf_iff (m : Cells) : Memory.wf m = true ↔ cellsAbove 0 m = true ∧ ∀ c ∈ m, c.2 ≠ Memory.blank := by
  simp [Memory.wf, List.all_eq_true]

theorem cellPut_mem {a : Nat} {v : Byte} {c : Cells} {x : Host.Cell} (h : x ∈ cellPut a v c) : x = (a, v) ∨ x ∈ c := by
  induction c with
  | nil => simpa [cellPut] using h
  | cons y t ih =>
    simp only [cellPut] at h
    split at h
    · simpa using h
    · split at h
      · rcases List.mem_cons.mp h with h | h
        · exact .inl h
        · exact .inr (List.mem_cons_of_mem _ h)
      · rcases List.mem_cons.mp h with h | h
        · exact .inr (h ▸ List.mem_cons_self)
        · exact (ih h).imp id (List.mem_cons_of_mem _)

theorem cellDrop_mem {a : Nat} {c : Cells} {x : Host.Cell} (h : x ∈ cellDrop a c) : x ∈ c := by
  induction c with
  | nil => simp [cellDrop] at h
  | cons y t ih =>
    simp only [cellDrop] at h
    split at h
    · exact h
    · split at h
      · exact List.mem_cons_of_mem _ h
      · rcases List.mem_cons.mp h with h | h
        · exact h ▸ List.mem_cons_self
        · exact List.mem_cons_of_mem _ (ih h)

/-- A write keeps the canonical form. -/
theorem Memory.write_wf {m : Cells} (a : Nat) (v : Byte) (h : Memory.wf m = true) : Memory.wf (Memory.write a v m) = true := by
  rw [Memory.wf_iff] at *
  unfold Memory.write
  split
  · exact ⟨cellDrop_above h.1, fun x hx => h.2 x (cellDrop_mem hx)⟩
  · rename_i hv
    refine ⟨cellPut_above (Nat.zero_le _) h.1, fun x hx => ?_⟩
    rcases cellPut_mem hx with rfl | hx
    · exact hv
    · exact h.2 x hx

theorem Memory.read_write_same {m : Cells} (a : Nat) (v : Byte) (h : Memory.wf m = true) :
    Memory.read (Memory.write a v m) a = v := by
  rw [Memory.wf_iff] at h
  unfold Memory.read Memory.write
  split
  · rw [cellGet_cellDrop_same h.1]
    simp_all
  · rw [cellGet_cellPut_same]
    rfl

theorem Memory.read_write_other {m : Cells} {a b : Nat} (v : Byte) (h : Memory.wf m = true) (n : b ≠ a) :
    Memory.read (Memory.write a v m) b = Memory.read m b := by
  rw [Memory.wf_iff] at h
  unfold Memory.read Memory.write
  split
  · rw [cellGet_cellDrop_other h.1 n]
  · rw [cellGet_cellPut_other _ _ n]

/-! ### The operations of State keep the canonical form -/

theorem memOk_iff (s : State) : s.memOk = true ↔ Memory.wf s.mem = true ∧ cellsAbove 0 s.home = true := by
  simp [State.memOk, Cells.wf]

/-- An operation that changes neither memory nor what the shared cache holds. -/
theorem memOk_of_eq {s t : State} (m : t.mem = s.mem) (h : t.home = s.home) (w : s.memOk = true) : t.memOk = true := by
  rw [memOk_iff] at *
  rw [m, h]
  exact w

theorem homePut_memOk {s : State} (b : List Byte) (pa : Nat) (w : s.memOk = true) : (s.homePut pa b).memOk = true := by
  induction b generalizing s pa with
  | nil => exact w
  | cons x t ih =>
    apply ih
    rw [memOk_iff] at *
    exact ⟨w.1, cellPut_above (Nat.zero_le _) w.2⟩

theorem memPut_memOk {s : State} (b : List Byte) (pa : Nat) (w : s.memOk = true) : (s.memPut pa b).memOk = true := by
  induction b generalizing s pa with
  | nil => exact w
  | cons x t ih =>
    apply ih
    rw [memOk_iff] at *
    exact ⟨Memory.write_wf _ _ w.1, w.2⟩

theorem writes_wf {l m : Cells} (h : Memory.wf m = true) : Memory.wf (l.foldl (fun m c => Memory.write c.1 c.2 m) m) = true := by
  induction l generalizing m with
  | nil => exact h
  | cons x t ih => exact ih (Memory.write_wf _ _ h)

theorem homeToMem_memOk {s : State} (pa n : Nat) (w : s.memOk = true) : (s.homeToMem pa n).memOk = true := by
  rw [memOk_iff] at *
  unfold State.homeToMem
  dsimp only
  split
  · exact ⟨w.1, cellsAbove_filter _ w.2⟩
  · exact ⟨writes_wf w.1, cellsAbove_filter _ w.2⟩

theorem foldl_memOk {α : Type} (f : State → α → State) (l : List α) (hf : ∀ s a, s.memOk = true → (f s a).memOk = true)
    {s : State} (w : s.memOk = true) : (l.foldl f s).memOk = true := by
  induction l generalizing s with
  | nil => exact w
  | cons a t ih => exact ih (hf s a w)

theorem fireMonitors_memOk {s : State} (pa n : Nat) (w : s.memOk = true) : (s.fireMonitors pa n).memOk = true :=
  memOk_of_eq rfl rfl w

theorem addPoison_memOk {s : State} (pa : Nat) (w : s.memOk = true) : (s.addPoison pa).memOk = true := memOk_of_eq rfl rfl w

theorem pick_memOk {s : State} (n : Nat) (w : s.memOk = true) : (s.pick n).2.memOk = true := memOk_of_eq rfl rfl w

theorem homeRoom_memOk {s : State} (l : Nat) (w : s.memOk = true) : (s.homeRoom l).memOk = true := by
  unfold State.homeRoom
  dsimp only
  split
  · exact w
  · split
    · exact w
    · exact homeToMem_memOk _ _ (pick_memOk _ w)

/-- One write at home (R231). -/
theorem homeStore_memOk {s : State} (pa : Nat) (b : List Byte) (w : s.memOk = true) : (s.homeStore pa b).memOk = true :=
  foldl_memOk _ _ (fun _ _ h => homeRoom_memOk _ h) (memOk_of_eq (s := s.homePut pa b) rfl rfl (homePut_memOk _ _ w))

theorem setCluster_memOk {s : State} (k : Cluster) (w : s.memOk = true) : (s.setCluster k).memOk = true :=
  memOk_of_eq rfl rfl w

theorem setCore_memOk {s : State} (k : Core) (w : s.memOk = true) : (s.setCore k).memOk = true := memOk_of_eq rfl rfl w

theorem backUnit_memOk {s : State} (k : Cluster) (ds : List Nat) (u : Nat) (w : s.memOk = true) :
    (s.backUnit k ds u).memOk = true := by
  unfold State.backUnit
  dsimp only
  have h : (if ((List.range 8).map (8 * u + ·)).all ds.contains = true then
      s.homeStore (8 * u) (((List.range 8).map (8 * u + ·)).map (fun a => (cellGet k.bytes a).getD 0))
      else (ds.filter (fun a => a / 8 == u)).foldl (fun s a => s.homeStore a [(cellGet k.bytes a).getD 0]) s).memOk = true := by
    split
    · exact homeStore_memOk _ _ w
    · exact foldl_memOk _ _ (fun _ _ h => homeStore_memOk _ _ h) w
  split
  · exact addPoison_memOk _ w
  · split
    · exact addPoison_memOk _ h
    · exact h

theorem writeBack_memOk {s : State} (c pa n : Nat) (w : s.memOk = true) : (s.writeBack c pa n).memOk = true := by
  unfold State.writeBack
  dsimp only
  split
  · exact w
  · exact fireMonitors_memOk _ _ (setCluster_memOk _ (foldl_memOk _ _ (fun _ _ h => backUnit_memOk _ _ _ h) w))

theorem ackRevoke_memOk {s : State} (c n : Nat) (w : s.memOk = true) : (s.ackRevoke c n).memOk = true :=
  memOk_of_eq (s := s.writeBack c (4 * n) 4) rfl rfl (writeBack_memOk _ _ _ w)

theorem revokeWord_memOk {s : State} (n : Nat) (w : s.memOk = true) : (s.revokeWord n).memOk = true := by
  unfold State.revokeWord
  split
  · exact w
  · exact ackRevoke_memOk _ _ (memOk_of_eq rfl rfl w)

theorem revokeRange_memOk {s : State} (pa n : Nat) (w : s.memOk = true) : (s.revokeRange pa n).memOk = true :=
  foldl_memOk _ _ (fun _ _ h => revokeWord_memOk _ h) w

theorem markView_memOk {s : State} (v : View) (pa n : Nat) (w : s.memOk = true) : (s.markView v pa n).memOk = true :=
  memOk_of_eq rfl rfl w

theorem settleElem_memOk {s : State} (l : Nat) (bf : Bool) (e : Nat) (p : Word) (w : s.memOk = true) :
    (s.settleElem l bf e p).memOk = true := by
  unfold State.settleElem
  split
  all_goals exact fireMonitors_memOk _ _ (homeStore_memOk _ _ (revokeRange_memOk _ _ (markView_memOk _ _ _ w)))

theorem registryRoom_memOk {s : State} (l : Nat) (w : s.memOk = true) : (s.registryRoom l).memOk = true := by
  unfold State.registryRoom
  dsimp only
  split
  · exact w
  · split
    · exact w
    · exact revokeRange_memOk _ _ (pick_memOk _ w)

theorem grant_memOk {s : State} (c n : Nat) (w : s.memOk = true) : (s.grant c n).memOk = true :=
  memOk_of_eq (s := (s.registryRoom (lineOf (4 * n))).refreshWord c n) rfl rfl
    (setCluster_memOk _ (registryRoom_memOk _ w))

theorem takeWord_memOk {s : State} (c n : Nat) (w : s.memOk = true) : (s.takeWord c n).memOk = true := by
  unfold State.takeWord
  split
  · exact w
  · exact grant_memOk _ _ (revokeWord_memOk _ w)

theorem refuseWord_memOk {s : State} (c n : Nat) (w : s.memOk = true) : (s.refuseWord c n).memOk = true := by
  unfold State.refuseWord
  split
  · exact writeBack_memOk _ _ _ w
  · exact writeBack_memOk _ _ _ (revokeWord_memOk _ w)

theorem takeUnit_memOk {s : State} (c u : Nat) (b : List Byte) (w : s.memOk = true) : (s.takeUnit c u b).memOk = true :=
  setCluster_memOk _ w

/-- Home handles a registration (R218). -/
theorem homeRegister_memOk {s : State} (r : Registration) (w : s.memOk = true) : (s.homeRegister r).memOk = true := by
  unfold State.homeRegister
  dsimp only
  split
  · exact w
  · apply takeUnit_memOk
    split
    · exact foldl_memOk _ _ (fun _ _ h => refuseWord_memOk _ _ h) w
    · exact foldl_memOk _ _ (fun _ _ h => takeWord_memOk _ _ h) w

theorem flushRegs_memOk {s : State} (c pa n : Nat) (w : s.memOk = true) : (s.flushRegs c pa n).memOk = true :=
  foldl_memOk _ _ (fun _ r h => homeRegister_memOk r h) (memOk_of_eq rfl rfl w)

theorem poisonElement_memOk {s : State} (l : Nat) (bf : Bool) (i : Nat) (w : s.memOk = true) :
    (s.poisonElement l bf i).memOk = true :=
  addPoison_memOk _ (homeStore_memOk _ _ (revokeRange_memOk _ _ w))

theorem settleFrom_memOk {s : State} (c l : Nat) (w : s.memOk = true) : (s.settleFrom c l).memOk = true := by
  have f : (if ((s.cluster c).escrowOn l).isSome = true then s.flushRegs c l 256 else s).memOk = true := by
    split
    · exact flushRegs_memOk _ _ _ w
    · exact w
  unfold State.settleFrom
  dsimp only
  split
  · exact f
  · exact foldl_memOk _ _ (fun _ _ h => poisonElement_memOk _ _ _ h)
      (foldl_memOk _ _ (fun _ _ h => settleElem_memOk _ _ _ _ h) (setCluster_memOk _ f))

theorem settleLine_memOk {s : State} (l : Nat) (w : s.memOk = true) : (s.settleLine l).memOk = true :=
  foldl_memOk _ _ (fun _ _ h => settleFrom_memOk _ _ h) w

/-- A write performed at home (R221). -/
theorem homeWriteAs_memOk {s : State} (v : View) (pa : Nat) (b : List Byte) (w : s.memOk = true) :
    (s.homeWriteAs v pa b).memOk = true := by
  unfold State.homeWriteAs
  dsimp only
  apply fireMonitors_memOk
  apply homeStore_memOk
  apply revokeRange_memOk
  split
  · exact settleLine_memOk _ (markView_memOk _ _ _ w)
  · exact markView_memOk _ _ _ w

theorem homeWrite_memOk {s : State} (pa : Nat) (b : List Byte) (w : s.memOk = true) : (s.homeWrite pa b).memOk = true :=
  homeWriteAs_memOk none pa b w

theorem evictLine_memOk {s : State} (c l : Nat) (w : s.memOk = true) : (s.evictLine c l).memOk = true :=
  settleFrom_memOk _ _ (memOk_of_eq (s := s.writeBack c l 256) rfl rfl (writeBack_memOk _ _ _ w))

theorem evictTag_memOk {s : State} (c : Nat) (t : Tag) (w : s.memOk = true) : (s.evictTag c t).memOk = true := by
  unfold State.evictTag
  split
  · exact evictLine_memOk _ _ (flushRegs_memOk _ _ _ w)
  · exact setCluster_memOk _ w

theorem makeRoom_memOk {s : State} (c : Nat) (t : Tag) (w : s.memOk = true) : (s.makeRoom c t).memOk = true := by
  unfold State.makeRoom
  split
  · exact w
  · exact evictTag_memOk _ _ (pick_memOk ((s.cluster c).crowd t).length w)

theorem viewUnit_memOk {s : State} (v : View) (u : Nat) (w : s.memOk = true) : (s.viewUnit v u).2.memOk = true := by
  unfold State.viewUnit
  dsimp only
  split
  · exact w
  · exact pick_memOk ((s.marksFor v u).length + 1) w

theorem wholeUnit_memOk {s : State} (c u : Nat) (w : s.memOk = true) : (s.wholeUnit c u).memOk = true := by
  have f := flushRegs_memOk c (8 * u) 8 w
  unfold State.wholeUnit
  dsimp only
  split
  · exact f
  · exact takeUnit_memOk _ _ _ (viewUnit_memOk _ _ f)

theorem fillUnit_memOk {s : State} (c n : Nat) (w : s.memOk = true) : (s.fillUnit c n).memOk = true := by
  unfold State.fillUnit
  split
  · exact w
  · exact wholeUnit_memOk _ _ w

theorem fetch_memOk {s : State} (c : Nat) (xs : List (Nat × Nat)) (w : s.memOk = true) : (s.fetch c xs).memOk = true :=
  foldl_memOk _ _ (fun s x h => by
    show (if s.serves c x then s else s.wholeUnit c (x.1 / 8)).memOk = true
    split
    · exact h
    · exact wholeUnit_memOk _ _ h) w

theorem fillLine_memOk {s : State} (c l : Nat) (w : s.memOk = true) : (s.fillLine c l).memOk = true :=
  foldl_memOk _ _ (fun _ _ h => fillUnit_memOk _ _ h) (makeRoom_memOk _ _ w)

theorem leaveLine_memOk {s : State} (core l : Nat) (w : s.memOk = true) : (s.leaveLine core l).memOk = true :=
  memOk_of_eq (s := (s.flushRegs (clusterOf core) l 256).writeBack (clusterOf core) l 256) rfl rfl
    (writeBack_memOk _ _ _ (flushRegs_memOk _ _ _ w))

theorem register_memOk {s : State} (c : Nat) (e : Bool) (x : Nat × Nat) (w : s.memOk = true) :
    (s.register c e x).memOk = true := by
  unfold State.register
  dsimp only
  split
  · exact w
  · split
    · exact memOk_of_eq rfl rfl w
    · exact homeRegister_memOk _ (flushRegs_memOk _ _ _ w)

theorem l1Take_memOk {s : State} (core pa : Nat) (b : List Byte) (w : s.memOk = true) : (s.l1Take core pa b).memOk = true := by
  unfold State.l1Take
  dsimp only
  split
  · exact w
  · split <;> exact setCore_memOk _ w

theorem l1Mend_memOk {s : State} (core u : Nat) (w : s.memOk = true) : (s.l1Mend core u).memOk = true := by
  have f := wholeUnit_memOk (clusterOf core) u (makeRoom_memOk (clusterOf core) (.line (lineOf (8 * u))) w)
  unfold State.l1Mend
  dsimp only
  split <;> exact setCore_memOk _ f

/-- A store performed in the cluster cache or at home (R215, R230). -/
theorem clusterStore_memOk {s : State} (core pa : Nat) (b : List Byte) (e : Bool) (w : s.memOk = true) :
    (s.clusterStore core pa b e).memOk = true := by
  unfold State.clusterStore
  dsimp only
  split
  · exact homeWrite_memOk _ _ (leaveLine_memOk _ _ w)
  · have r := makeRoom_memOk (clusterOf core) (.line (lineOf pa)) (markView_memOk none pa b.length w)
    refine l1Take_memOk _ _ _ (foldl_memOk _ _ (fun _ _ h => register_memOk _ _ _ h) (setCluster_memOk _ ?_))
    split
    · exact foldl_memOk _ _ (fun _ _ h => fillUnit_memOk _ _ h) r
    · exact r

theorem clusterLine_memOk {s : State} (c l : Nat) (w : s.memOk = true) : (s.clusterLine c l).2.memOk = true := by
  simp only [State.clusterLine]
  exact fillLine_memOk c l (flushRegs_memOk _ _ _ w)

theorem l1Put_memOk {s : State} (core : Nat) (l : L1Line) (w : s.memOk = true) : (s.l1Put core l).memOk = true := by
  unfold State.l1Put
  split
  · exact setCore_memOk _ w
  · exact setCore_memOk _ (pick_memOk ((s.coreAt core).l1Crowd l.tag).length w)

theorem lookUp_memOk {s : State} (core l : Nat) (xs : List (Nat × Nat)) (f : Bool) (w : s.memOk = true) :
    (s.lookUp core l xs f).2.memOk = true := by
  have p : (s.pick 2).2.memOk = true := memOk_of_eq rfl rfl w
  unfold State.lookUp
  dsimp only
  split
  · exact settleLine_memOk _ (leaveLine_memOk _ _ w)
  · split
    · split
      · exact foldl_memOk _ _ (fun _ _ h => l1Mend_memOk _ _ h) w
      · exact fetch_memOk _ _ (foldl_memOk _ _ (fun _ _ h => l1Mend_memOk _ _ h) w)
    · split
      · split
        · exact w
        · split
          · exact w
          · split
            · dsimp only
              exact fillLine_memOk _ _ p
            · exact p
      · exact fetch_memOk _ _ (fillLine_memOk _ _ w)

/-- A load through L1 (R142 to R145). -/
theorem coreRead_memOk {s : State} (core l : Nat) (xs : List (Nat × Nat)) (c p i : Nat) (w : s.memOk = true) :
    (s.coreRead core l xs c p i).2.memOk = true := by
  have h := lookUp_memOk core l xs (p != 3 && c != 1) w
  unfold State.coreRead
  dsimp only
  split <;> rename_i e <;> rw [e] at h
  · exact h
  · exact setCore_memOk _ h
  · exact h
  · exact l1Put_memOk _ _ h

theorem acquireAt_memOk {s : State} (core : Nat) (sc : Scope) (w : s.memOk = true) : (s.acquireAt core sc).memOk = true := by
  unfold State.acquireAt
  split
  · exact w
  · exact setCore_memOk _ w
  · exact setCluster_memOk _ (setCore_memOk _ w)

theorem memStore_memOk {s : State} (pa : Nat) (b : List Byte) (w : s.memOk = true) : (s.memStore pa b).memOk = true := by
  unfold State.memStore
  split
  · exact memOk_of_eq rfl rfl w
  · exact memOk_of_eq (s := s.memPut pa b) rfl rfl (memPut_memOk _ _ w)

theorem tellerWrite_memOk {s : State} (pa : Nat) (b : List Byte) (w : s.memOk = true) : (s.tellerWrite pa b).memOk = true :=
  fireMonitors_memOk _ _ (memStore_memOk _ _ (homeToMem_memOk _ _ (revokeRange_memOk _ _ (markView_memOk _ _ _ w))))

end Sys2Proof.Machine
end

