-- ==== Sys2Proof/Laws/PerInstr.lean ====
section
/-! SUPPORT. Statements made for every instruction, one lemma per constructor. -/

set_option Elab.async false

namespace Sys2Proof.Laws.Encoding

/-- The encoding of a well-formed instruction is a word of 32 bits (R41); events have none. -/
def Statement (i : Instr) : Prop := i.wf = true → ∀ w, encodeNat i = some w → w < 2 ^ 32

theorem no_word {i : Instr} (h : encodeNat i = none) : Statement i := fun _ w e => by simp [h] at e

theorem bitNat_le (b : Bool) : bitNat b ≤ 1 := by cases b <;> decide

theorem roleCode_le (r : Role) : roleCode r ≤ 2 := by cases r <;> decide

theorem scopeCode_le (c : Scope) : scopeCode c ≤ 3 := by cases c <;> decide

theorem add (d : Nat) (a : Nat) (b : Nat) : Statement (.add d a b) := fun hwf word enc => by
  have enc := Option.some.inj enc
  have hwf : (decide (d < 256) && decide (a < 256) && decide (b < 256)) = true := hwf
  simp only [Bool.and_eq_true, decide_eq_true_eq] at hwf
  omega
theorem sub (d : Nat) (a : Nat) (b : Nat) : Statement (.sub d a b) := fun hwf word enc => by
  have enc := Option.some.inj enc
  have hwf : (decide (d < 256) && decide (a < 256) && decide (b < 256)) = true := hwf
  simp only [Bool.and_eq_true, decide_eq_true_eq] at hwf
  omega
theorem mul (d : Nat) (a : Nat) (b : Nat) : Statement (.mul d a b) := fun hwf word enc => by
  have enc := Option.some.inj enc
  have hwf : (decide (d < 256) && decide (a < 256) && decide (b < 256)) = true := hwf
  simp only [Bool.and_eq_true, decide_eq_true_eq] at hwf
  omega
theorem mulhI32 (d : Nat) (a : Nat) (b : Nat) : Statement (.mulhI32 d a b) := fun hwf word enc => by
  have enc := Option.some.inj enc
  have hwf : (decide (d < 256) && decide (a < 256) && decide (b < 256)) = true := hwf
  simp only [Bool.and_eq_true, decide_eq_true_eq] at hwf
  omega
theorem mulhN32 (d : Nat) (a : Nat) (b : Nat) : Statement (.mulhN32 d a b) := fun hwf word enc => by
  have enc := Option.some.inj enc
  have hwf : (decide (d < 256) && decide (a < 256) && decide (b < 256)) = true := hwf
  simp only [Bool.and_eq_true, decide_eq_true_eq] at hwf
  omega
theorem mad (d : Nat) (a : Nat) (b : Nat) : Statement (.mad d a b) := fun hwf word enc => by
  have enc := Option.some.inj enc
  have hwf : (decide (d < 256) && decide (a < 256) && decide (b < 256)) = true := hwf
  simp only [Bool.and_eq_true, decide_eq_true_eq] at hwf
  omega
theorem divI32 (d : Nat) (a : Nat) (b : Nat) : Statement (.divI32 d a b) := fun hwf word enc => by
  have enc := Option.some.inj enc
  have hwf : (decide (d < 256) && decide (a < 256) && decide (b < 256)) = true := hwf
  simp only [Bool.and_eq_true, decide_eq_true_eq] at hwf
  omega
theorem divN32 (d : Nat) (a : Nat) (b : Nat) : Statement (.divN32 d a b) := fun hwf word enc => by
  have enc := Option.some.inj enc
  have hwf : (decide (d < 256) && decide (a < 256) && decide (b < 256)) = true := hwf
  simp only [Bool.and_eq_true, decide_eq_true_eq] at hwf
  omega
theorem remI32 (d : Nat) (a : Nat) (b : Nat) : Statement (.remI32 d a b) := fun hwf word enc => by
  have enc := Option.some.inj enc
  have hwf : (decide (d < 256) && decide (a < 256) && decide (b < 256)) = true := hwf
  simp only [Bool.and_eq_true, decide_eq_true_eq] at hwf
  omega
theorem remN32 (d : Nat) (a : Nat) (b : Nat) : Statement (.remN32 d a b) := fun hwf word enc => by
  have enc := Option.some.inj enc
  have hwf : (decide (d < 256) && decide (a < 256) && decide (b < 256)) = true := hwf
  simp only [Bool.and_eq_true, decide_eq_true_eq] at hwf
  omega
theorem minI32 (d : Nat) (a : Nat) (b : Nat) : Statement (.minI32 d a b) := fun hwf word enc => by
  have enc := Option.some.inj enc
  have hwf : (decide (d < 256) && decide (a < 256) && decide (b < 256)) = true := hwf
  simp only [Bool.and_eq_true, decide_eq_true_eq] at hwf
  omega
theorem minN32 (d : Nat) (a : Nat) (b : Nat) : Statement (.minN32 d a b) := fun hwf word enc => by
  have enc := Option.some.inj enc
  have hwf : (decide (d < 256) && decide (a < 256) && decide (b < 256)) = true := hwf
  simp only [Bool.and_eq_true, decide_eq_true_eq] at hwf
  omega
theorem maxI32 (d : Nat) (a : Nat) (b : Nat) : Statement (.maxI32 d a b) := fun hwf word enc => by
  have enc := Option.some.inj enc
  have hwf : (decide (d < 256) && decide (a < 256) && decide (b < 256)) = true := hwf
  simp only [Bool.and_eq_true, decide_eq_true_eq] at hwf
  omega
theorem maxN32 (d : Nat) (a : Nat) (b : Nat) : Statement (.maxN32 d a b) := fun hwf word enc => by
  have enc := Option.some.inj enc
  have hwf : (decide (d < 256) && decide (a < 256) && decide (b < 256)) = true := hwf
  simp only [Bool.and_eq_true, decide_eq_true_eq] at hwf
  omega
theorem and (d : Nat) (a : Nat) (b : Nat) : Statement (.and d a b) := fun hwf word enc => by
  have enc := Option.some.inj enc
  have hwf : (decide (d < 256) && decide (a < 256) && decide (b < 256)) = true := hwf
  simp only [Bool.and_eq_true, decide_eq_true_eq] at hwf
  omega
theorem or (d : Nat) (a : Nat) (b : Nat) : Statement (.or d a b) := fun hwf word enc => by
  have enc := Option.some.inj enc
  have hwf : (decide (d < 256) && decide (a < 256) && decide (b < 256)) = true := hwf
  simp only [Bool.and_eq_true, decide_eq_true_eq] at hwf
  omega
theorem xor (d : Nat) (a : Nat) (b : Nat) : Statement (.xor d a b) := fun hwf word enc => by
  have enc := Option.some.inj enc
  have hwf : (decide (d < 256) && decide (a < 256) && decide (b < 256)) = true := hwf
  simp only [Bool.and_eq_true, decide_eq_true_eq] at hwf
  omega
theorem andn (d : Nat) (a : Nat) (b : Nat) : Statement (.andn d a b) := fun hwf word enc => by
  have enc := Option.some.inj enc
  have hwf : (decide (d < 256) && decide (a < 256) && decide (b < 256)) = true := hwf
  simp only [Bool.and_eq_true, decide_eq_true_eq] at hwf
  omega
theorem shl (d : Nat) (a : Nat) (b : Nat) : Statement (.shl d a b) := fun hwf word enc => by
  have enc := Option.some.inj enc
  have hwf : (decide (d < 256) && decide (a < 256) && decide (b < 256)) = true := hwf
  simp only [Bool.and_eq_true, decide_eq_true_eq] at hwf
  omega
theorem shr (d : Nat) (a : Nat) (b : Nat) : Statement (.shr d a b) := fun hwf word enc => by
  have enc := Option.some.inj enc
  have hwf : (decide (d < 256) && decide (a < 256) && decide (b < 256)) = true := hwf
  simp only [Bool.and_eq_true, decide_eq_true_eq] at hwf
  omega
theorem sar (d : Nat) (a : Nat) (b : Nat) : Statement (.sar d a b) := fun hwf word enc => by
  have enc := Option.some.inj enc
  have hwf : (decide (d < 256) && decide (a < 256) && decide (b < 256)) = true := hwf
  simp only [Bool.and_eq_true, decide_eq_true_eq] at hwf
  omega
theorem rotl (d : Nat) (a : Nat) (b : Nat) : Statement (.rotl d a b) := fun hwf word enc => by
  have enc := Option.some.inj enc
  have hwf : (decide (d < 256) && decide (a < 256) && decide (b < 256)) = true := hwf
  simp only [Bool.and_eq_true, decide_eq_true_eq] at hwf
  omega
theorem fsh (d : Nat) (a : Nat) (b : Nat) : Statement (.fsh d a b) := fun hwf word enc => by
  have enc := Option.some.inj enc
  have hwf : (decide (d < 256) && decide (a < 256) && decide (b < 256)) = true := hwf
  simp only [Bool.and_eq_true, decide_eq_true_eq] at hwf
  omega
theorem bfxI32 (d : Nat) (a : Nat) (b : Nat) : Statement (.bfxI32 d a b) := fun hwf word enc => by
  have enc := Option.some.inj enc
  have hwf : (decide (d < 256) && decide (a < 256) && decide (b < 256)) = true := hwf
  simp only [Bool.and_eq_true, decide_eq_true_eq] at hwf
  omega
theorem bfxN32 (d : Nat) (a : Nat) (b : Nat) : Statement (.bfxN32 d a b) := fun hwf word enc => by
  have enc := Option.some.inj enc
  have hwf : (decide (d < 256) && decide (a < 256) && decide (b < 256)) = true := hwf
  simp only [Bool.and_eq_true, decide_eq_true_eq] at hwf
  omega
theorem bfi (d : Nat) (a : Nat) (b : Nat) : Statement (.bfi d a b) := fun hwf word enc => by
  have enc := Option.some.inj enc
  have hwf : (decide (d < 256) && decide (a < 256) && decide (b < 256)) = true := hwf
  simp only [Bool.and_eq_true, decide_eq_true_eq] at hwf
  omega
theorem sel (d : Nat) (a : Nat) (b : Nat) : Statement (.sel d a b) := fun hwf word enc => by
  have enc := Option.some.inj enc
  have hwf : (decide (d < 256) && decide (a < 256) && decide (b < 256)) = true := hwf
  simp only [Bool.and_eq_true, decide_eq_true_eq] at hwf
  omega
theorem lea1 (d : Nat) (a : Nat) (b : Nat) : Statement (.lea1 d a b) := fun hwf word enc => by
  have enc := Option.some.inj enc
  have hwf : (decide (d < 256) && decide (a < 256) && decide (b < 256)) = true := hwf
  simp only [Bool.and_eq_true, decide_eq_true_eq] at hwf
  omega
theorem lea2 (d : Nat) (a : Nat) (b : Nat) : Statement (.lea2 d a b) := fun hwf word enc => by
  have enc := Option.some.inj enc
  have hwf : (decide (d < 256) && decide (a < 256) && decide (b < 256)) = true := hwf
  simp only [Bool.and_eq_true, decide_eq_true_eq] at hwf
  omega
theorem lea4 (d : Nat) (a : Nat) (b : Nat) : Statement (.lea4 d a b) := fun hwf word enc => by
  have enc := Option.some.inj enc
  have hwf : (decide (d < 256) && decide (a < 256) && decide (b < 256)) = true := hwf
  simp only [Bool.and_eq_true, decide_eq_true_eq] at hwf
  omega
theorem lea8 (d : Nat) (a : Nat) (b : Nat) : Statement (.lea8 d a b) := fun hwf word enc => by
  have enc := Option.some.inj enc
  have hwf : (decide (d < 256) && decide (a < 256) && decide (b < 256)) = true := hwf
  simp only [Bool.and_eq_true, decide_eq_true_eq] at hwf
  omega
theorem lea16 (d : Nat) (a : Nat) (b : Nat) : Statement (.lea16 d a b) := fun hwf word enc => by
  have enc := Option.some.inj enc
  have hwf : (decide (d < 256) && decide (a < 256) && decide (b < 256)) = true := hwf
  simp only [Bool.and_eq_true, decide_eq_true_eq] at hwf
  omega
theorem addi (d : Nat) (a : Nat) (i : BitVec 8) : Statement (.addi d a i) := fun hwf word enc => by
  have enc := Option.some.inj enc
  have hwf : (decide (d < 256) && decide (a < 256)) = true := hwf
  simp only [Bool.and_eq_true, decide_eq_true_eq] at hwf
  have b_i := i.isLt
  omega
theorem shli (d : Nat) (a : Nat) (n : Nat) : Statement (.shli d a n) := fun hwf word enc => by
  have enc := Option.some.inj enc
  have hwf : (decide (d < 256) && decide (a < 256) && decide (n < 32)) = true := hwf
  simp only [Bool.and_eq_true, decide_eq_true_eq] at hwf
  omega
theorem shri (d : Nat) (a : Nat) (n : Nat) : Statement (.shri d a n) := fun hwf word enc => by
  have enc := Option.some.inj enc
  have hwf : (decide (d < 256) && decide (a < 256) && decide (n < 32)) = true := hwf
  simp only [Bool.and_eq_true, decide_eq_true_eq] at hwf
  omega
theorem sari (d : Nat) (a : Nat) (n : Nat) : Statement (.sari d a n) := fun hwf word enc => by
  have enc := Option.some.inj enc
  have hwf : (decide (d < 256) && decide (a < 256) && decide (n < 32)) = true := hwf
  simp only [Bool.and_eq_true, decide_eq_true_eq] at hwf
  omega
theorem movi (d : Nat) (i : BitVec 16) : Statement (.movi d i) := fun hwf word enc => by
  have enc := Option.some.inj enc
  have hwf : (decide (d < 256)) = true := hwf
  simp only [decide_eq_true_eq] at hwf
  have b_i := i.isLt
  omega
theorem movhi (d : Nat) (i : BitVec 16) : Statement (.movhi d i) := fun hwf word enc => by
  have enc := Option.some.inj enc
  have hwf : (decide (d < 256)) = true := hwf
  simp only [decide_eq_true_eq] at hwf
  have b_i := i.isLt
  omega
theorem add64 (d : Nat) (a : Nat) (b : Nat) : Statement (.add64 d a b) := fun hwf word enc => by
  have enc := Option.some.inj enc
  have hwf : (decide (d < 128) && decide (a < 128) && decide (b < 128)) = true := hwf
  simp only [Bool.and_eq_true, decide_eq_true_eq] at hwf
  omega
theorem sub64 (d : Nat) (a : Nat) (b : Nat) : Statement (.sub64 d a b) := fun hwf word enc => by
  have enc := Option.some.inj enc
  have hwf : (decide (d < 128) && decide (a < 128) && decide (b < 128)) = true := hwf
  simp only [Bool.and_eq_true, decide_eq_true_eq] at hwf
  omega
theorem mul64 (d : Nat) (a : Nat) (b : Nat) : Statement (.mul64 d a b) := fun hwf word enc => by
  have enc := Option.some.inj enc
  have hwf : (decide (d < 128) && decide (a < 128) && decide (b < 128)) = true := hwf
  simp only [Bool.and_eq_true, decide_eq_true_eq] at hwf
  omega
theorem shl64 (d : Nat) (a : Nat) (b : Nat) : Statement (.shl64 d a b) := fun hwf word enc => by
  have enc := Option.some.inj enc
  have hwf : (decide (d < 128) && decide (a < 128) && decide (b < 128)) = true := hwf
  simp only [Bool.and_eq_true, decide_eq_true_eq] at hwf
  omega
theorem shr64 (d : Nat) (a : Nat) (b : Nat) : Statement (.shr64 d a b) := fun hwf word enc => by
  have enc := Option.some.inj enc
  have hwf : (decide (d < 128) && decide (a < 128) && decide (b < 128)) = true := hwf
  simp only [Bool.and_eq_true, decide_eq_true_eq] at hwf
  omega
theorem sar64 (d : Nat) (a : Nat) (b : Nat) : Statement (.sar64 d a b) := fun hwf word enc => by
  have enc := Option.some.inj enc
  have hwf : (decide (d < 128) && decide (a < 128) && decide (b < 128)) = true := hwf
  simp only [Bool.and_eq_true, decide_eq_true_eq] at hwf
  omega
theorem cmpEq (p : Nat) (a : Nat) (b : Nat) : Statement (.cmpEq p a b) := fun hwf word enc => by
  have enc := Option.some.inj enc
  have hwf : (decide (p < 8) && decide (a < 256) && decide (b < 256)) = true := hwf
  simp only [Bool.and_eq_true, decide_eq_true_eq] at hwf
  omega
theorem cmpNe (p : Nat) (a : Nat) (b : Nat) : Statement (.cmpNe p a b) := fun hwf word enc => by
  have enc := Option.some.inj enc
  have hwf : (decide (p < 8) && decide (a < 256) && decide (b < 256)) = true := hwf
  simp only [Bool.and_eq_true, decide_eq_true_eq] at hwf
  omega
theorem cmpLtI32 (p : Nat) (a : Nat) (b : Nat) : Statement (.cmpLtI32 p a b) := fun hwf word enc => by
  have enc := Option.some.inj enc
  have hwf : (decide (p < 8) && decide (a < 256) && decide (b < 256)) = true := hwf
  simp only [Bool.and_eq_true, decide_eq_true_eq] at hwf
  omega
theorem cmpLtN32 (p : Nat) (a : Nat) (b : Nat) : Statement (.cmpLtN32 p a b) := fun hwf word enc => by
  have enc := Option.some.inj enc
  have hwf : (decide (p < 8) && decide (a < 256) && decide (b < 256)) = true := hwf
  simp only [Bool.and_eq_true, decide_eq_true_eq] at hwf
  omega
theorem cmpLeI32 (p : Nat) (a : Nat) (b : Nat) : Statement (.cmpLeI32 p a b) := fun hwf word enc => by
  have enc := Option.some.inj enc
  have hwf : (decide (p < 8) && decide (a < 256) && decide (b < 256)) = true := hwf
  simp only [Bool.and_eq_true, decide_eq_true_eq] at hwf
  omega
theorem cmpLeN32 (p : Nat) (a : Nat) (b : Nat) : Statement (.cmpLeN32 p a b) := fun hwf word enc => by
  have enc := Option.some.inj enc
  have hwf : (decide (p < 8) && decide (a < 256) && decide (b < 256)) = true := hwf
  simp only [Bool.and_eq_true, decide_eq_true_eq] at hwf
  omega
theorem cmp64Eq (p : Nat) (a : Nat) (b : Nat) : Statement (.cmp64Eq p a b) := fun hwf word enc => by
  have enc := Option.some.inj enc
  have hwf : (decide (p < 8) && decide (a < 256) && decide (b < 256)) = true := hwf
  simp only [Bool.and_eq_true, decide_eq_true_eq] at hwf
  omega
theorem cmp64LtI64 (p : Nat) (a : Nat) (b : Nat) : Statement (.cmp64LtI64 p a b) := fun hwf word enc => by
  have enc := Option.some.inj enc
  have hwf : (decide (p < 8) && decide (a < 256) && decide (b < 256)) = true := hwf
  simp only [Bool.and_eq_true, decide_eq_true_eq] at hwf
  omega
theorem cmp64LtN64 (p : Nat) (a : Nat) (b : Nat) : Statement (.cmp64LtN64 p a b) := fun hwf word enc => by
  have enc := Option.some.inj enc
  have hwf : (decide (p < 8) && decide (a < 256) && decide (b < 256)) = true := hwf
  simp only [Bool.and_eq_true, decide_eq_true_eq] at hwf
  omega
theorem cmpiEq (p : Nat) (a : Nat) (i : BitVec 8) : Statement (.cmpiEq p a i) := fun hwf word enc => by
  have enc := Option.some.inj enc
  have hwf : (decide (p < 8) && decide (a < 256)) = true := hwf
  simp only [Bool.and_eq_true, decide_eq_true_eq] at hwf
  have b_i := i.isLt
  omega
theorem cmpiLtI32 (p : Nat) (a : Nat) (i : BitVec 8) : Statement (.cmpiLtI32 p a i) := fun hwf word enc => by
  have enc := Option.some.inj enc
  have hwf : (decide (p < 8) && decide (a < 256)) = true := hwf
  simp only [Bool.and_eq_true, decide_eq_true_eq] at hwf
  have b_i := i.isLt
  omega
theorem pand (p : Nat) (a : Nat) (b : Nat) : Statement (.pand p a b) := fun hwf word enc => by
  have enc := Option.some.inj enc
  have hwf : (decide (p < 8) && decide (a < 8) && decide (b < 8)) = true := hwf
  simp only [Bool.and_eq_true, decide_eq_true_eq] at hwf
  omega
theorem por (p : Nat) (a : Nat) (b : Nat) : Statement (.por p a b) := fun hwf word enc => by
  have enc := Option.some.inj enc
  have hwf : (decide (p < 8) && decide (a < 8) && decide (b < 8)) = true := hwf
  simp only [Bool.and_eq_true, decide_eq_true_eq] at hwf
  omega
theorem pxor (p : Nat) (a : Nat) (b : Nat) : Statement (.pxor p a b) := fun hwf word enc => by
  have enc := Option.some.inj enc
  have hwf : (decide (p < 8) && decide (a < 8) && decide (b < 8)) = true := hwf
  simp only [Bool.and_eq_true, decide_eq_true_eq] at hwf
  omega
theorem pandn (p : Nat) (a : Nat) (b : Nat) : Statement (.pandn p a b) := fun hwf word enc => by
  have enc := Option.some.inj enc
  have hwf : (decide (p < 8) && decide (a < 8) && decide (b < 8)) = true := hwf
  simp only [Bool.and_eq_true, decide_eq_true_eq] at hwf
  omega
theorem pnot (p : Nat) (a : Nat) : Statement (.pnot p a) := fun hwf word enc => by
  have enc := Option.some.inj enc
  have hwf : (decide (p < 8) && decide (a < 8)) = true := hwf
  simp only [Bool.and_eq_true, decide_eq_true_eq] at hwf
  omega
theorem pmov (p : Nat) (a : Nat) : Statement (.pmov p a) := fun hwf word enc => by
  have enc := Option.some.inj enc
  have hwf : (decide (p < 8) && decide (a < 8)) = true := hwf
  simp only [Bool.and_eq_true, decide_eq_true_eq] at hwf
  omega
theorem mov (d : Nat) (a : Nat) : Statement (.mov d a) := fun hwf word enc => by
  have enc := Option.some.inj enc
  have hwf : (decide (d < 256) && decide (a < 256)) = true := hwf
  simp only [Bool.and_eq_true, decide_eq_true_eq] at hwf
  omega
theorem not (d : Nat) (a : Nat) : Statement (.not d a) := fun hwf word enc => by
  have enc := Option.some.inj enc
  have hwf : (decide (d < 256) && decide (a < 256)) = true := hwf
  simp only [Bool.and_eq_true, decide_eq_true_eq] at hwf
  omega
theorem abs (d : Nat) (a : Nat) : Statement (.abs d a) := fun hwf word enc => by
  have enc := Option.some.inj enc
  have hwf : (decide (d < 256) && decide (a < 256)) = true := hwf
  simp only [Bool.and_eq_true, decide_eq_true_eq] at hwf
  omega
theorem neg (d : Nat) (a : Nat) : Statement (.neg d a) := fun hwf word enc => by
  have enc := Option.some.inj enc
  have hwf : (decide (d < 256) && decide (a < 256)) = true := hwf
  simp only [Bool.and_eq_true, decide_eq_true_eq] at hwf
  omega
theorem clz (d : Nat) (a : Nat) : Statement (.clz d a) := fun hwf word enc => by
  have enc := Option.some.inj enc
  have hwf : (decide (d < 256) && decide (a < 256)) = true := hwf
  simp only [Bool.and_eq_true, decide_eq_true_eq] at hwf
  omega
theorem ctz (d : Nat) (a : Nat) : Statement (.ctz d a) := fun hwf word enc => by
  have enc := Option.some.inj enc
  have hwf : (decide (d < 256) && decide (a < 256)) = true := hwf
  simp only [Bool.and_eq_true, decide_eq_true_eq] at hwf
  omega
theorem popc (d : Nat) (a : Nat) : Statement (.popc d a) := fun hwf word enc => by
  have enc := Option.some.inj enc
  have hwf : (decide (d < 256) && decide (a < 256)) = true := hwf
  simp only [Bool.and_eq_true, decide_eq_true_eq] at hwf
  omega
theorem brev (d : Nat) (a : Nat) : Statement (.brev d a) := fun hwf word enc => by
  have enc := Option.some.inj enc
  have hwf : (decide (d < 256) && decide (a < 256)) = true := hwf
  simp only [Bool.and_eq_true, decide_eq_true_eq] at hwf
  omega
theorem pget (d : Nat) : Statement (.pget d) := fun hwf word enc => by
  have enc := Option.some.inj enc
  have hwf : (decide (d < 256)) = true := hwf
  simp only [decide_eq_true_eq] at hwf
  omega
theorem rdk (d : Nat) (k : Nat) : Statement (.rdk d k) := fun hwf word enc => by
  have enc := Option.some.inj enc
  have hwf : (decide (d < 256) && decide (k < 64)) = true := hwf
  simp only [Bool.and_eq_true, decide_eq_true_eq] at hwf
  omega
theorem setx (x : Nat) (i : BitVec 16) : Statement (.setx x i) := fun hwf word enc => by
  have enc := Option.some.inj enc
  have hwf : (decide (x < 4)) = true := hwf
  simp only [decide_eq_true_eq] at hwf
  have b_i := i.isLt
  omega
theorem incx (x : Nat) (i : BitVec 16) : Statement (.incx x i) := fun hwf word enc => by
  have enc := Option.some.inj enc
  have hwf : (decide (x < 4)) = true := hwf
  simp only [decide_eq_true_eq] at hwf
  have b_i := i.isLt
  omega
theorem rdx (d : Nat) (x : Nat) (i : BitVec 8) : Statement (.rdx d x i) := fun hwf word enc => by
  have enc := Option.some.inj enc
  have hwf : (decide (d < 256) && decide (x < 4)) = true := hwf
  simp only [Bool.and_eq_true, decide_eq_true_eq] at hwf
  have b_i := i.isLt
  omega
theorem wrx (s : Nat) (x : Nat) (i : BitVec 8) : Statement (.wrx s x i) := fun hwf word enc => by
  have enc := Option.some.inj enc
  have hwf : (decide (s < 256) && decide (x < 4)) = true := hwf
  simp only [Bool.and_eq_true, decide_eq_true_eq] at hwf
  have b_i := i.isLt
  omega
theorem bp (p : Nat) (o : BitVec 21) : Statement (.bp p o) := fun hwf word enc => by
  have enc := Option.some.inj enc
  have hwf : (decide (p < 7)) = true := hwf
  simp only [decide_eq_true_eq] at hwf
  have b_o := o.isLt
  omega
theorem bnp (p : Nat) (o : BitVec 21) : Statement (.bnp p o) := fun hwf word enc => by
  have enc := Option.some.inj enc
  have hwf : (decide (p < 8)) = true := hwf
  simp only [decide_eq_true_eq] at hwf
  have b_o := o.isLt
  omega
theorem br (o : BitVec 21) : Statement (.br o) := fun hwf word enc => by
  have enc := Option.some.inj enc
  have b_o := o.isLt
  omega
theorem call (j : Nat) (o : BitVec 21) : Statement (.call j o) := fun hwf word enc => by
  have enc := Option.some.inj enc
  have hwf : (decide (j < 16)) = true := hwf
  simp only [decide_eq_true_eq] at hwf
  have b_o := o.isLt
  omega
theorem nop : Statement .nop := fun hwf word enc => by
  have enc := Option.some.inj enc
  omega
theorem exit : Statement .exit := fun hwf word enc => by
  have enc := Option.some.inj enc
  omega
theorem yield : Statement .yield := fun hwf word enc => by
  have enc := Option.some.inj enc
  omega
theorem trap (n : Nat) : Statement (.trap n) := fun hwf word enc => by
  have enc := Option.some.inj enc
  have hwf : (decide (n < 256)) = true := hwf
  simp only [decide_eq_true_eq] at hwf
  omega
theorem brk (n : Nat) : Statement (.brk n) := fun hwf word enc => by
  have enc := Option.some.inj enc
  have hwf : (decide (n < 256)) = true := hwf
  simp only [decide_eq_true_eq] at hwf
  omega
theorem ret (a : Nat) : Statement (.ret a) := fun hwf word enc => by
  have enc := Option.some.inj enc
  have hwf : (decide (a < 256)) = true := hwf
  simp only [decide_eq_true_eq] at hwf
  omega
theorem jr (a : Nat) : Statement (.jr a) := fun hwf word enc => by
  have enc := Option.some.inj enc
  have hwf : (decide (a < 256)) = true := hwf
  simp only [decide_eq_true_eq] at hwf
  omega
theorem tret : Statement .tret := fun hwf word enc => by
  have enc := Option.some.inj enc
  omega
theorem rdsr (d : Nat) (n : Nat) : Statement (.rdsr d n) := fun hwf word enc => by
  have enc := Option.some.inj enc
  have hwf : (decide (d < 256) && decide (n < 256)) = true := hwf
  simp only [Bool.and_eq_true, decide_eq_true_eq] at hwf
  omega
theorem wrsr (s : Nat) (n : Nat) : Statement (.wrsr s n) := fun hwf word enc => by
  have enc := Option.some.inj enc
  have hwf : (decide (s < 256) && decide (n < 256)) = true := hwf
  simp only [Bool.and_eq_true, decide_eq_true_eq] at hwf
  omega
theorem rdcyc (d : Nat) : Statement (.rdcyc d) := fun hwf word enc => by
  have enc := Option.some.inj enc
  have hwf : (decide (d < 256)) = true := hwf
  simp only [decide_eq_true_eq] at hwf
  omega
theorem prng (d : Nat) (a : Nat) (i : Nat) : Statement (.prng d a i) := fun hwf word enc => by
  have enc := Option.some.inj enc
  have hwf : (decide (d < 256) && decide (a < 256) && decide (i < 4)) = true := hwf
  simp only [Bool.and_eq_true, decide_eq_true_eq] at hwf
  omega
theorem spawn (r : Role) (s : Nat) (o : BitVec 15) : Statement (.spawn r s o) := fun hwf word enc => by
  have enc := Option.some.inj enc
  have hwf : (decide (s < 256)) = true := hwf
  simp only [decide_eq_true_eq] at hwf
  have b_r := roleCode_le r
  have b_o := o.isLt
  omega
theorem spawnf (r : Role) (s : Nat) (o : BitVec 15) : Statement (.spawnf r s o) := fun hwf word enc => by
  have enc := Option.some.inj enc
  have hwf : (decide (s < 256)) = true := hwf
  simp only [decide_eq_true_eq] at hwf
  have b_r := roleCode_le r
  have b_o := o.isLt
  omega
theorem fadd (d : Nat) (a : Nat) (b : Nat) : Statement (.fadd d a b) := fun hwf word enc => by
  have enc := Option.some.inj enc
  have hwf : (decide (d < 256) && decide (a < 256) && decide (b < 256)) = true := hwf
  simp only [Bool.and_eq_true, decide_eq_true_eq] at hwf
  omega
theorem faddRz (d : Nat) (a : Nat) (b : Nat) : Statement (.faddRz d a b) := fun hwf word enc => by
  have enc := Option.some.inj enc
  have hwf : (decide (d < 256) && decide (a < 256) && decide (b < 256)) = true := hwf
  simp only [Bool.and_eq_true, decide_eq_true_eq] at hwf
  omega
theorem fsub (d : Nat) (a : Nat) (b : Nat) : Statement (.fsub d a b) := fun hwf word enc => by
  have enc := Option.some.inj enc
  have hwf : (decide (d < 256) && decide (a < 256) && decide (b < 256)) = true := hwf
  simp only [Bool.and_eq_true, decide_eq_true_eq] at hwf
  omega
theorem fsubRz (d : Nat) (a : Nat) (b : Nat) : Statement (.fsubRz d a b) := fun hwf word enc => by
  have enc := Option.some.inj enc
  have hwf : (decide (d < 256) && decide (a < 256) && decide (b < 256)) = true := hwf
  simp only [Bool.and_eq_true, decide_eq_true_eq] at hwf
  omega
theorem fmul (d : Nat) (a : Nat) (b : Nat) : Statement (.fmul d a b) := fun hwf word enc => by
  have enc := Option.some.inj enc
  have hwf : (decide (d < 256) && decide (a < 256) && decide (b < 256)) = true := hwf
  simp only [Bool.and_eq_true, decide_eq_true_eq] at hwf
  omega
theorem fmulRz (d : Nat) (a : Nat) (b : Nat) : Statement (.fmulRz d a b) := fun hwf word enc => by
  have enc := Option.some.inj enc
  have hwf : (decide (d < 256) && decide (a < 256) && decide (b < 256)) = true := hwf
  simp only [Bool.and_eq_true, decide_eq_true_eq] at hwf
  omega
theorem ffma (d : Nat) (a : Nat) (b : Nat) : Statement (.ffma d a b) := fun hwf word enc => by
  have enc := Option.some.inj enc
  have hwf : (decide (d < 256) && decide (a < 256) && decide (b < 256)) = true := hwf
  simp only [Bool.and_eq_true, decide_eq_true_eq] at hwf
  omega
theorem ffmaRz (d : Nat) (a : Nat) (b : Nat) : Statement (.ffmaRz d a b) := fun hwf word enc => by
  have enc := Option.some.inj enc
  have hwf : (decide (d < 256) && decide (a < 256) && decide (b < 256)) = true := hwf
  simp only [Bool.and_eq_true, decide_eq_true_eq] at hwf
  omega
theorem fmin (d : Nat) (a : Nat) (b : Nat) : Statement (.fmin d a b) := fun hwf word enc => by
  have enc := Option.some.inj enc
  have hwf : (decide (d < 256) && decide (a < 256) && decide (b < 256)) = true := hwf
  simp only [Bool.and_eq_true, decide_eq_true_eq] at hwf
  omega
theorem fminNan (d : Nat) (a : Nat) (b : Nat) : Statement (.fminNan d a b) := fun hwf word enc => by
  have enc := Option.some.inj enc
  have hwf : (decide (d < 256) && decide (a < 256) && decide (b < 256)) = true := hwf
  simp only [Bool.and_eq_true, decide_eq_true_eq] at hwf
  omega
theorem fmax (d : Nat) (a : Nat) (b : Nat) : Statement (.fmax d a b) := fun hwf word enc => by
  have enc := Option.some.inj enc
  have hwf : (decide (d < 256) && decide (a < 256) && decide (b < 256)) = true := hwf
  simp only [Bool.and_eq_true, decide_eq_true_eq] at hwf
  omega
theorem fmaxNan (d : Nat) (a : Nat) (b : Nat) : Statement (.fmaxNan d a b) := fun hwf word enc => by
  have enc := Option.some.inj enc
  have hwf : (decide (d < 256) && decide (a < 256) && decide (b < 256)) = true := hwf
  simp only [Bool.and_eq_true, decide_eq_true_eq] at hwf
  omega
theorem hadd2Bf16 (d : Nat) (a : Nat) (b : Nat) : Statement (.hadd2Bf16 d a b) := fun hwf word enc => by
  have enc := Option.some.inj enc
  have hwf : (decide (d < 256) && decide (a < 256) && decide (b < 256)) = true := hwf
  simp only [Bool.and_eq_true, decide_eq_true_eq] at hwf
  omega
theorem hmul2Bf16 (d : Nat) (a : Nat) (b : Nat) : Statement (.hmul2Bf16 d a b) := fun hwf word enc => by
  have enc := Option.some.inj enc
  have hwf : (decide (d < 256) && decide (a < 256) && decide (b < 256)) = true := hwf
  simp only [Bool.and_eq_true, decide_eq_true_eq] at hwf
  omega
theorem hfma2Bf16 (d : Nat) (a : Nat) (b : Nat) : Statement (.hfma2Bf16 d a b) := fun hwf word enc => by
  have enc := Option.some.inj enc
  have hwf : (decide (d < 256) && decide (a < 256) && decide (b < 256)) = true := hwf
  simp only [Bool.and_eq_true, decide_eq_true_eq] at hwf
  omega
theorem hmax2Bf16 (d : Nat) (a : Nat) (b : Nat) : Statement (.hmax2Bf16 d a b) := fun hwf word enc => by
  have enc := Option.some.inj enc
  have hwf : (decide (d < 256) && decide (a < 256) && decide (b < 256)) = true := hwf
  simp only [Bool.and_eq_true, decide_eq_true_eq] at hwf
  omega
theorem fcmpEq (p : Nat) (a : Nat) (b : Nat) : Statement (.fcmpEq p a b) := fun hwf word enc => by
  have enc := Option.some.inj enc
  have hwf : (decide (p < 8) && decide (a < 256) && decide (b < 256)) = true := hwf
  simp only [Bool.and_eq_true, decide_eq_true_eq] at hwf
  omega
theorem fcmpLt (p : Nat) (a : Nat) (b : Nat) : Statement (.fcmpLt p a b) := fun hwf word enc => by
  have enc := Option.some.inj enc
  have hwf : (decide (p < 8) && decide (a < 256) && decide (b < 256)) = true := hwf
  simp only [Bool.and_eq_true, decide_eq_true_eq] at hwf
  omega
theorem fcmpLe (p : Nat) (a : Nat) (b : Nat) : Statement (.fcmpLe p a b) := fun hwf word enc => by
  have enc := Option.some.inj enc
  have hwf : (decide (p < 8) && decide (a < 256) && decide (b < 256)) = true := hwf
  simp only [Bool.and_eq_true, decide_eq_true_eq] at hwf
  omega
theorem fcmpUn (p : Nat) (a : Nat) (b : Nat) : Statement (.fcmpUn p a b) := fun hwf word enc => by
  have enc := Option.some.inj enc
  have hwf : (decide (p < 8) && decide (a < 256) && decide (b < 256)) = true := hwf
  simp only [Bool.and_eq_true, decide_eq_true_eq] at hwf
  omega
theorem fabs (d : Nat) (a : Nat) : Statement (.fabs d a) := fun hwf word enc => by
  have enc := Option.some.inj enc
  have hwf : (decide (d < 256) && decide (a < 256)) = true := hwf
  simp only [Bool.and_eq_true, decide_eq_true_eq] at hwf
  omega
theorem fneg (d : Nat) (a : Nat) : Statement (.fneg d a) := fun hwf word enc => by
  have enc := Option.some.inj enc
  have hwf : (decide (d < 256) && decide (a < 256)) = true := hwf
  simp only [Bool.and_eq_true, decide_eq_true_eq] at hwf
  omega
theorem fclass (d : Nat) (a : Nat) : Statement (.fclass d a) := fun hwf word enc => by
  have enc := Option.some.inj enc
  have hwf : (decide (d < 256) && decide (a < 256)) = true := hwf
  simp only [Bool.and_eq_true, decide_eq_true_eq] at hwf
  omega
theorem cvtF32I32 (d : Nat) (a : Nat) : Statement (.cvtF32I32 d a) := fun hwf word enc => by
  have enc := Option.some.inj enc
  have hwf : (decide (d < 256) && decide (a < 256)) = true := hwf
  simp only [Bool.and_eq_true, decide_eq_true_eq] at hwf
  omega
theorem cvtF32N32 (d : Nat) (a : Nat) : Statement (.cvtF32N32 d a) := fun hwf word enc => by
  have enc := Option.some.inj enc
  have hwf : (decide (d < 256) && decide (a < 256)) = true := hwf
  simp only [Bool.and_eq_true, decide_eq_true_eq] at hwf
  omega
theorem cvtI32F32Rz (d : Nat) (a : Nat) : Statement (.cvtI32F32Rz d a) := fun hwf word enc => by
  have enc := Option.some.inj enc
  have hwf : (decide (d < 256) && decide (a < 256)) = true := hwf
  simp only [Bool.and_eq_true, decide_eq_true_eq] at hwf
  omega
theorem cvtI32F32Rne (d : Nat) (a : Nat) : Statement (.cvtI32F32Rne d a) := fun hwf word enc => by
  have enc := Option.some.inj enc
  have hwf : (decide (d < 256) && decide (a < 256)) = true := hwf
  simp only [Bool.and_eq_true, decide_eq_true_eq] at hwf
  omega
theorem cvtN32F32Rz (d : Nat) (a : Nat) : Statement (.cvtN32F32Rz d a) := fun hwf word enc => by
  have enc := Option.some.inj enc
  have hwf : (decide (d < 256) && decide (a < 256)) = true := hwf
  simp only [Bool.and_eq_true, decide_eq_true_eq] at hwf
  omega
theorem cvtBf16x2F32 (d : Nat) (a : Nat) : Statement (.cvtBf16x2F32 d a) := fun hwf word enc => by
  have enc := Option.some.inj enc
  have hwf : (decide (d < 256) && decide (a < 256)) = true := hwf
  simp only [Bool.and_eq_true, decide_eq_true_eq] at hwf
  omega
theorem cvtF32Bf16Lo (d : Nat) (a : Nat) : Statement (.cvtF32Bf16Lo d a) := fun hwf word enc => by
  have enc := Option.some.inj enc
  have hwf : (decide (d < 256) && decide (a < 256)) = true := hwf
  simp only [Bool.and_eq_true, decide_eq_true_eq] at hwf
  omega
theorem cvtF32Bf16Hi (d : Nat) (a : Nat) : Statement (.cvtF32Bf16Hi d a) := fun hwf word enc => by
  have enc := Option.some.inj enc
  have hwf : (decide (d < 256) && decide (a < 256)) = true := hwf
  simp only [Bool.and_eq_true, decide_eq_true_eq] at hwf
  omega
theorem cvtE4m3x4F32Sat (d : Nat) (a : Nat) : Statement (.cvtE4m3x4F32Sat d a) := fun hwf word enc => by
  have enc := Option.some.inj enc
  have hwf : (decide (d < 256) && decide (a < 256)) = true := hwf
  simp only [Bool.and_eq_true, decide_eq_true_eq] at hwf
  omega
theorem cvtE4m3x4F32Nan (d : Nat) (a : Nat) : Statement (.cvtE4m3x4F32Nan d a) := fun hwf word enc => by
  have enc := Option.some.inj enc
  have hwf : (decide (d < 256) && decide (a < 256)) = true := hwf
  simp only [Bool.and_eq_true, decide_eq_true_eq] at hwf
  omega
theorem cvtE5m2x4F32Sat (d : Nat) (a : Nat) : Statement (.cvtE5m2x4F32Sat d a) := fun hwf word enc => by
  have enc := Option.some.inj enc
  have hwf : (decide (d < 256) && decide (a < 256)) = true := hwf
  simp only [Bool.and_eq_true, decide_eq_true_eq] at hwf
  omega
theorem cvtE5m2x4F32Inf (d : Nat) (a : Nat) : Statement (.cvtE5m2x4F32Inf d a) := fun hwf word enc => by
  have enc := Option.some.inj enc
  have hwf : (decide (d < 256) && decide (a < 256)) = true := hwf
  simp only [Bool.and_eq_true, decide_eq_true_eq] at hwf
  omega
theorem cvtF32E4m3 (d : Nat) (a : Nat) (i : Nat) : Statement (.cvtF32E4m3 d a i) := fun hwf word enc => by
  have enc := Option.some.inj enc
  have hwf : (decide (d < 256) && decide (a < 256) && decide (i < 4)) = true := hwf
  simp only [Bool.and_eq_true, decide_eq_true_eq] at hwf
  omega
theorem cvtF32E5m2 (d : Nat) (a : Nat) (i : Nat) : Statement (.cvtF32E5m2 d a i) := fun hwf word enc => by
  have enc := Option.some.inj enc
  have hwf : (decide (d < 256) && decide (a < 256) && decide (i < 4)) = true := hwf
  simp only [Bool.and_eq_true, decide_eq_true_eq] at hwf
  omega
theorem cvtF32E2m1 (d : Nat) (a : Nat) (i : Nat) : Statement (.cvtF32E2m1 d a i) := fun hwf word enc => by
  have enc := Option.some.inj enc
  have hwf : (decide (d < 256) && decide (a < 256) && decide (i < 8)) = true := hwf
  simp only [Bool.and_eq_true, decide_eq_true_eq] at hwf
  omega
theorem rcp (e : Bool) (d : Nat) (a : Nat) : Statement (.rcp e d a) := fun hwf word enc => by
  have enc := Option.some.inj enc
  have hwf : (decide (d < 256) && decide (a < 256)) = true := hwf
  simp only [Bool.and_eq_true, decide_eq_true_eq] at hwf
  have b_e := bitNat_le e
  omega
theorem rsqrt (e : Bool) (d : Nat) (a : Nat) : Statement (.rsqrt e d a) := fun hwf word enc => by
  have enc := Option.some.inj enc
  have hwf : (decide (d < 256) && decide (a < 256)) = true := hwf
  simp only [Bool.and_eq_true, decide_eq_true_eq] at hwf
  have b_e := bitNat_le e
  omega
theorem sqrt (e : Bool) (d : Nat) (a : Nat) : Statement (.sqrt e d a) := fun hwf word enc => by
  have enc := Option.some.inj enc
  have hwf : (decide (d < 256) && decide (a < 256)) = true := hwf
  simp only [Bool.and_eq_true, decide_eq_true_eq] at hwf
  have b_e := bitNat_le e
  omega
theorem exp2 (e : Bool) (d : Nat) (a : Nat) : Statement (.exp2 e d a) := fun hwf word enc => by
  have enc := Option.some.inj enc
  have hwf : (decide (d < 256) && decide (a < 256)) = true := hwf
  simp only [Bool.and_eq_true, decide_eq_true_eq] at hwf
  have b_e := bitNat_le e
  omega
theorem log2 (e : Bool) (d : Nat) (a : Nat) : Statement (.log2 e d a) := fun hwf word enc => by
  have enc := Option.some.inj enc
  have hwf : (decide (d < 256) && decide (a < 256)) = true := hwf
  simp only [Bool.and_eq_true, decide_eq_true_eq] at hwf
  have b_e := bitNat_le e
  omega
theorem sinpi (e : Bool) (d : Nat) (a : Nat) : Statement (.sinpi e d a) := fun hwf word enc => by
  have enc := Option.some.inj enc
  have hwf : (decide (d < 256) && decide (a < 256)) = true := hwf
  simp only [Bool.and_eq_true, decide_eq_true_eq] at hwf
  have b_e := bitNat_le e
  omega
theorem cospi (e : Bool) (d : Nat) (a : Nat) : Statement (.cospi e d a) := fun hwf word enc => by
  have enc := Option.some.inj enc
  have hwf : (decide (d < 256) && decide (a < 256)) = true := hwf
  simp only [Bool.and_eq_true, decide_eq_true_eq] at hwf
  have b_e := bitNat_le e
  omega
theorem tanh (e : Bool) (d : Nat) (a : Nat) : Statement (.tanh e d a) := fun hwf word enc => by
  have enc := Option.some.inj enc
  have hwf : (decide (d < 256) && decide (a < 256)) = true := hwf
  simp only [Bool.and_eq_true, decide_eq_true_eq] at hwf
  have b_e := bitNat_le e
  omega
theorem cvtE2m1x8F32 (d : Nat) (a : Nat) (b : Nat) : Statement (.cvtE2m1x8F32 d a b) := fun hwf word enc => by
  have enc := Option.some.inj enc
  have hwf : (decide (d < 256) && decide (a < 256) && decide (b < 256)) = true := hwf
  simp only [Bool.and_eq_true, decide_eq_true_eq] at hwf
  omega
theorem ldsB32 (d : Nat) (b : Nat) (i : BitVec 8) : Statement (.ldsB32 d b i) := fun hwf word enc => by
  have enc := Option.some.inj enc
  have hwf : (decide (d < 256) && decide (b < 256)) = true := hwf
  simp only [Bool.and_eq_true, decide_eq_true_eq] at hwf
  have b_i := i.isLt
  omega
theorem stsB32 (d : Nat) (b : Nat) (i : BitVec 8) : Statement (.stsB32 d b i) := fun hwf word enc => by
  have enc := Option.some.inj enc
  have hwf : (decide (d < 256) && decide (b < 256)) = true := hwf
  simp only [Bool.and_eq_true, decide_eq_true_eq] at hwf
  have b_i := i.isLt
  omega
theorem ldB32 (e : Bool) (d : Nat) (b : Nat) (i : BitVec 8) : Statement (.ldB32 e d b i) := fun hwf word enc => by
  have enc := Option.some.inj enc
  have hwf : (decide (d < 256) && decide (b < 256)) = true := hwf
  simp only [Bool.and_eq_true, decide_eq_true_eq] at hwf
  have b_e := bitNat_le e
  have b_i := i.isLt
  omega
theorem stB32 (e : Bool) (d : Nat) (b : Nat) (i : BitVec 8) : Statement (.stB32 e d b i) := fun hwf word enc => by
  have enc := Option.some.inj enc
  have hwf : (decide (d < 256) && decide (b < 256)) = true := hwf
  simp only [Bool.and_eq_true, decide_eq_true_eq] at hwf
  have b_e := bitNat_le e
  have b_i := i.isLt
  omega
theorem ldsB128 (d : Nat) (b : Nat) (i : BitVec 8) : Statement (.ldsB128 d b i) := fun hwf word enc => by
  have enc := Option.some.inj enc
  have hwf : (decide (d < 256) && decide (b < 256)) = true := hwf
  simp only [Bool.and_eq_true, decide_eq_true_eq] at hwf
  have b_i := i.isLt
  omega
theorem stsB128 (d : Nat) (b : Nat) (i : BitVec 8) : Statement (.stsB128 d b i) := fun hwf word enc => by
  have enc := Option.some.inj enc
  have hwf : (decide (d < 256) && decide (b < 256)) = true := hwf
  simp only [Bool.and_eq_true, decide_eq_true_eq] at hwf
  have b_i := i.isLt
  omega
theorem ldsN8 (d : Nat) (b : Nat) : Statement (.ldsN8 d b) := fun hwf word enc => by
  have enc := Option.some.inj enc
  have hwf : (decide (d < 256) && decide (b < 256)) = true := hwf
  simp only [Bool.and_eq_true, decide_eq_true_eq] at hwf
  omega
theorem ldsI8 (d : Nat) (b : Nat) : Statement (.ldsI8 d b) := fun hwf word enc => by
  have enc := Option.some.inj enc
  have hwf : (decide (d < 256) && decide (b < 256)) = true := hwf
  simp only [Bool.and_eq_true, decide_eq_true_eq] at hwf
  omega
theorem ldsN16 (d : Nat) (b : Nat) : Statement (.ldsN16 d b) := fun hwf word enc => by
  have enc := Option.some.inj enc
  have hwf : (decide (d < 256) && decide (b < 256)) = true := hwf
  simp only [Bool.and_eq_true, decide_eq_true_eq] at hwf
  omega
theorem ldsI16 (d : Nat) (b : Nat) : Statement (.ldsI16 d b) := fun hwf word enc => by
  have enc := Option.some.inj enc
  have hwf : (decide (d < 256) && decide (b < 256)) = true := hwf
  simp only [Bool.and_eq_true, decide_eq_true_eq] at hwf
  omega
theorem ldsB64 (d : Nat) (b : Nat) : Statement (.ldsB64 d b) := fun hwf word enc => by
  have enc := Option.some.inj enc
  have hwf : (decide (d < 256) && decide (b < 256)) = true := hwf
  simp only [Bool.and_eq_true, decide_eq_true_eq] at hwf
  omega
theorem stsB8 (d : Nat) (b : Nat) : Statement (.stsB8 d b) := fun hwf word enc => by
  have enc := Option.some.inj enc
  have hwf : (decide (d < 256) && decide (b < 256)) = true := hwf
  simp only [Bool.and_eq_true, decide_eq_true_eq] at hwf
  omega
theorem stsB16 (d : Nat) (b : Nat) : Statement (.stsB16 d b) := fun hwf word enc => by
  have enc := Option.some.inj enc
  have hwf : (decide (d < 256) && decide (b < 256)) = true := hwf
  simp only [Bool.and_eq_true, decide_eq_true_eq] at hwf
  omega
theorem stsB64 (d : Nat) (b : Nat) : Statement (.stsB64 d b) := fun hwf word enc => by
  have enc := Option.some.inj enc
  have hwf : (decide (d < 256) && decide (b < 256)) = true := hwf
  simp only [Bool.and_eq_true, decide_eq_true_eq] at hwf
  omega
theorem prsTest (p : Nat) (b : Nat) : Statement (.prsTest p b) := fun hwf word enc => by
  have enc := Option.some.inj enc
  have hwf : (decide (p < 8) && decide (b < 256)) = true := hwf
  simp only [Bool.and_eq_true, decide_eq_true_eq] at hwf
  omega
theorem stashMap (e : Bool) (d : Nat) (b : Nat) : Statement (.stashMap e d b) := fun hwf word enc => by
  have enc := Option.some.inj enc
  have hwf : (decide (d < 256) && decide (b < 256)) = true := hwf
  simp only [Bool.and_eq_true, decide_eq_true_eq] at hwf
  have b_e := bitNat_le e
  omega
theorem stashUnmap (e : Bool) (d : Nat) : Statement (.stashUnmap e d) := fun hwf word enc => by
  have enc := Option.some.inj enc
  have hwf : (decide (d < 256)) = true := hwf
  simp only [decide_eq_true_eq] at hwf
  have b_e := bitNat_le e
  omega
theorem stashWb (e : Bool) (d : Nat) : Statement (.stashWb e d) := fun hwf word enc => by
  have enc := Option.some.inj enc
  have hwf : (decide (d < 256)) = true := hwf
  simp only [decide_eq_true_eq] at hwf
  have b_e := bitNat_le e
  omega
theorem ldN8 (e : Bool) (d : Nat) (b : Nat) : Statement (.ldN8 e d b) := fun hwf word enc => by
  have enc := Option.some.inj enc
  have hwf : (decide (d < 256) && decide (b < 256)) = true := hwf
  simp only [Bool.and_eq_true, decide_eq_true_eq] at hwf
  have b_e := bitNat_le e
  omega
theorem ldI8 (e : Bool) (d : Nat) (b : Nat) : Statement (.ldI8 e d b) := fun hwf word enc => by
  have enc := Option.some.inj enc
  have hwf : (decide (d < 256) && decide (b < 256)) = true := hwf
  simp only [Bool.and_eq_true, decide_eq_true_eq] at hwf
  have b_e := bitNat_le e
  omega
theorem ldN16 (e : Bool) (d : Nat) (b : Nat) : Statement (.ldN16 e d b) := fun hwf word enc => by
  have enc := Option.some.inj enc
  have hwf : (decide (d < 256) && decide (b < 256)) = true := hwf
  simp only [Bool.and_eq_true, decide_eq_true_eq] at hwf
  have b_e := bitNat_le e
  omega
theorem ldI16 (e : Bool) (d : Nat) (b : Nat) : Statement (.ldI16 e d b) := fun hwf word enc => by
  have enc := Option.some.inj enc
  have hwf : (decide (d < 256) && decide (b < 256)) = true := hwf
  simp only [Bool.and_eq_true, decide_eq_true_eq] at hwf
  have b_e := bitNat_le e
  omega
theorem ldB64 (e : Bool) (d : Nat) (b : Nat) : Statement (.ldB64 e d b) := fun hwf word enc => by
  have enc := Option.some.inj enc
  have hwf : (decide (d < 256) && decide (b < 256)) = true := hwf
  simp only [Bool.and_eq_true, decide_eq_true_eq] at hwf
  have b_e := bitNat_le e
  omega
theorem ldB128 (e : Bool) (d : Nat) (b : Nat) : Statement (.ldB128 e d b) := fun hwf word enc => by
  have enc := Option.some.inj enc
  have hwf : (decide (d < 256) && decide (b < 256)) = true := hwf
  simp only [Bool.and_eq_true, decide_eq_true_eq] at hwf
  have b_e := bitNat_le e
  omega
theorem stB8 (e : Bool) (d : Nat) (b : Nat) : Statement (.stB8 e d b) := fun hwf word enc => by
  have enc := Option.some.inj enc
  have hwf : (decide (d < 256) && decide (b < 256)) = true := hwf
  simp only [Bool.and_eq_true, decide_eq_true_eq] at hwf
  have b_e := bitNat_le e
  omega
theorem stB16 (e : Bool) (d : Nat) (b : Nat) : Statement (.stB16 e d b) := fun hwf word enc => by
  have enc := Option.some.inj enc
  have hwf : (decide (d < 256) && decide (b < 256)) = true := hwf
  simp only [Bool.and_eq_true, decide_eq_true_eq] at hwf
  have b_e := bitNat_le e
  omega
theorem stB64 (e : Bool) (d : Nat) (b : Nat) : Statement (.stB64 e d b) := fun hwf word enc => by
  have enc := Option.some.inj enc
  have hwf : (decide (d < 256) && decide (b < 256)) = true := hwf
  simp only [Bool.and_eq_true, decide_eq_true_eq] at hwf
  have b_e := bitNat_le e
  omega
theorem stB128 (e : Bool) (d : Nat) (b : Nat) : Statement (.stB128 e d b) := fun hwf word enc => by
  have enc := Option.some.inj enc
  have hwf : (decide (d < 256) && decide (b < 256)) = true := hwf
  simp only [Bool.and_eq_true, decide_eq_true_eq] at hwf
  have b_e := bitNat_le e
  omega
theorem sgetAt (d : Nat) (a : Nat) (m : Nat) : Statement (.sgetAt d a m) := fun hwf word enc => by
  have enc := Option.some.inj enc
  have hwf : (decide (d < 256) && decide (a < 256) && decide (m < 256)) = true := hwf
  simp only [Bool.and_eq_true, decide_eq_true_eq] at hwf
  omega
theorem sgetXor (d : Nat) (a : Nat) (m : Nat) : Statement (.sgetXor d a m) := fun hwf word enc => by
  have enc := Option.some.inj enc
  have hwf : (decide (d < 256) && decide (a < 256) && decide (m < 256)) = true := hwf
  simp only [Bool.and_eq_true, decide_eq_true_eq] at hwf
  omega
theorem sgetBelow (d : Nat) (a : Nat) (m : Nat) : Statement (.sgetBelow d a m) := fun hwf word enc => by
  have enc := Option.some.inj enc
  have hwf : (decide (d < 256) && decide (a < 256) && decide (m < 256)) = true := hwf
  simp only [Bool.and_eq_true, decide_eq_true_eq] at hwf
  omega
theorem sgetAbove (d : Nat) (a : Nat) (m : Nat) : Statement (.sgetAbove d a m) := fun hwf word enc => by
  have enc := Option.some.inj enc
  have hwf : (decide (d < 256) && decide (a < 256) && decide (m < 256)) = true := hwf
  simp only [Bool.and_eq_true, decide_eq_true_eq] at hwf
  omega
theorem reduxAddI32 (d : Nat) (a : Nat) (m : Nat) : Statement (.reduxAddI32 d a m) := fun hwf word enc => by
  have enc := Option.some.inj enc
  have hwf : (decide (d < 256) && decide (a < 256) && decide (m < 256)) = true := hwf
  simp only [Bool.and_eq_true, decide_eq_true_eq] at hwf
  omega
theorem reduxAddF32 (d : Nat) (a : Nat) (m : Nat) : Statement (.reduxAddF32 d a m) := fun hwf word enc => by
  have enc := Option.some.inj enc
  have hwf : (decide (d < 256) && decide (a < 256) && decide (m < 256)) = true := hwf
  simp only [Bool.and_eq_true, decide_eq_true_eq] at hwf
  omega
theorem reduxMinI32 (d : Nat) (a : Nat) (m : Nat) : Statement (.reduxMinI32 d a m) := fun hwf word enc => by
  have enc := Option.some.inj enc
  have hwf : (decide (d < 256) && decide (a < 256) && decide (m < 256)) = true := hwf
  simp only [Bool.and_eq_true, decide_eq_true_eq] at hwf
  omega
theorem reduxMaxI32 (d : Nat) (a : Nat) (m : Nat) : Statement (.reduxMaxI32 d a m) := fun hwf word enc => by
  have enc := Option.some.inj enc
  have hwf : (decide (d < 256) && decide (a < 256) && decide (m < 256)) = true := hwf
  simp only [Bool.and_eq_true, decide_eq_true_eq] at hwf
  omega
theorem scanAddI32 (d : Nat) (a : Nat) (m : Nat) : Statement (.scanAddI32 d a m) := fun hwf word enc => by
  have enc := Option.some.inj enc
  have hwf : (decide (d < 256) && decide (a < 256) && decide (m < 256)) = true := hwf
  simp only [Bool.and_eq_true, decide_eq_true_eq] at hwf
  omega
theorem sample (d : Nat) (a : Nat) (m : Nat) : Statement (.sample d a m) := fun hwf word enc => by
  have enc := Option.some.inj enc
  have hwf : (decide (d < 256) && decide (a < 256) && decide (m < 256)) = true := hwf
  simp only [Bool.and_eq_true, decide_eq_true_eq] at hwf
  omega
theorem matchSeats (d : Nat) (a : Nat) (m : Nat) : Statement (.matchSeats d a m) := fun hwf word enc => by
  have enc := Option.some.inj enc
  have hwf : (decide (d < 256) && decide (a < 256) && decide (m < 256)) = true := hwf
  simp only [Bool.and_eq_true, decide_eq_true_eq] at hwf
  omega
theorem ballot (d : Nat) (p : Nat) (m : Nat) : Statement (.ballot d p m) := fun hwf word enc => by
  have enc := Option.some.inj enc
  have hwf : (decide (d < 256) && decide (p < 8) && decide (m < 256)) = true := hwf
  simp only [Bool.and_eq_true, decide_eq_true_eq] at hwf
  omega
theorem seat (d : Nat) (m : Nat) : Statement (.seat d m) := fun hwf word enc => by
  have enc := Option.some.inj enc
  have hwf : (decide (d < 256) && decide (m < 256)) = true := hwf
  simp only [Bool.and_eq_true, decide_eq_true_eq] at hwf
  omega
theorem voteAny (p : Nat) (q : Nat) (m : Nat) : Statement (.voteAny p q m) := fun hwf word enc => by
  have enc := Option.some.inj enc
  have hwf : (decide (p < 8) && decide (q < 8) && decide (m < 256)) = true := hwf
  simp only [Bool.and_eq_true, decide_eq_true_eq] at hwf
  omega
theorem voteAll (p : Nat) (q : Nat) (m : Nat) : Statement (.voteAll p q m) := fun hwf word enc => by
  have enc := Option.some.inj enc
  have hwf : (decide (p < 8) && decide (q < 8) && decide (m < 256)) = true := hwf
  simp only [Bool.and_eq_true, decide_eq_true_eq] at hwf
  omega
theorem voteEq (p : Nat) (q : Nat) (m : Nat) : Statement (.voteEq p q m) := fun hwf word enc => by
  have enc := Option.some.inj enc
  have hwf : (decide (p < 8) && decide (q < 8) && decide (m < 256)) = true := hwf
  simp only [Bool.and_eq_true, decide_eq_true_eq] at hwf
  omega
theorem barInit (a : Nat) (n : Nat) : Statement (.barInit a n) := fun hwf word enc => by
  have enc := Option.some.inj enc
  have hwf : (decide (a < 256) && decide (n < 16)) = true := hwf
  simp only [Bool.and_eq_true, decide_eq_true_eq] at hwf
  omega
theorem barArr (a : Nat) (n : Nat) : Statement (.barArr a n) := fun hwf word enc => by
  have enc := Option.some.inj enc
  have hwf : (decide (a < 256) && decide (n < 16)) = true := hwf
  simp only [Bool.and_eq_true, decide_eq_true_eq] at hwf
  omega
theorem barExp (a : Nat) (n : Nat) : Statement (.barExp a n) := fun hwf word enc => by
  have enc := Option.some.inj enc
  have hwf : (decide (a < 256) && decide (n < 16)) = true := hwf
  simp only [Bool.and_eq_true, decide_eq_true_eq] at hwf
  omega
theorem barArx (d : Nat) (a : Nat) (n : Nat) : Statement (.barArx d a n) := fun hwf word enc => by
  have enc := Option.some.inj enc
  have hwf : (decide (d < 256) && decide (a < 256) && decide (n < 16)) = true := hwf
  simp only [Bool.and_eq_true, decide_eq_true_eq] at hwf
  omega
theorem barWait (a : Nat) (n : Nat) : Statement (.barWait a n) := fun hwf word enc => by
  have enc := Option.some.inj enc
  have hwf : (decide (a < 256) && decide (n < 16)) = true := hwf
  simp only [Bool.and_eq_true, decide_eq_true_eq] at hwf
  omega
theorem barTry (p : Nat) (a : Nat) (n : Nat) : Statement (.barTry p a n) := fun hwf word enc => by
  have enc := Option.some.inj enc
  have hwf : (decide (p < 8) && decide (a < 256) && decide (n < 16)) = true := hwf
  simp only [Bool.and_eq_true, decide_eq_true_eq] at hwf
  omega
theorem barPar (p : Nat) (a : Nat) (n : Nat) : Statement (.barPar p a n) := fun hwf word enc => by
  have enc := Option.some.inj enc
  have hwf : (decide (p < 8) && decide (a < 256) && decide (n < 16)) = true := hwf
  simp only [Bool.and_eq_true, decide_eq_true_eq] at hwf
  omega
theorem barInv (n : Nat) : Statement (.barInv n) := fun hwf word enc => by
  have enc := Option.some.inj enc
  have hwf : (decide (n < 16)) = true := hwf
  simp only [decide_eq_true_eq] at hwf
  omega
theorem ringAcq (d : Nat) (a : Nat) (s : Nat) : Statement (.ringAcq d a s) := fun hwf word enc => by
  have enc := Option.some.inj enc
  have hwf : (decide (d < 256) && decide (a < 256) && decide (s < 8)) = true := hwf
  simp only [Bool.and_eq_true, decide_eq_true_eq] at hwf
  omega
theorem ringCom (a : Nat) (s : Nat) : Statement (.ringCom a s) := fun hwf word enc => by
  have enc := Option.some.inj enc
  have hwf : (decide (a < 256) && decide (s < 8)) = true := hwf
  simp only [Bool.and_eq_true, decide_eq_true_eq] at hwf
  omega
theorem ringGet (d : Nat) (a : Nat) (s : Nat) : Statement (.ringGet d a s) := fun hwf word enc => by
  have enc := Option.some.inj enc
  have hwf : (decide (d < 256) && decide (a < 256) && decide (s < 8)) = true := hwf
  simp only [Bool.and_eq_true, decide_eq_true_eq] at hwf
  omega
theorem ringRel (a : Nat) (s : Nat) : Statement (.ringRel a s) := fun hwf word enc => by
  have enc := Option.some.inj enc
  have hwf : (decide (a < 256) && decide (s < 8)) = true := hwf
  simp only [Bool.and_eq_true, decide_eq_true_eq] at hwf
  omega
theorem cpy (e : Bool) (d : Nat) (a : Nat) (b : Nat) : Statement (.cpy e d a b) := fun hwf word enc => by
  have enc := Option.some.inj enc
  have hwf : (decide (d < 256) && decide (a < 256) && decide (b < 256)) = true := hwf
  simp only [Bool.and_eq_true, decide_eq_true_eq] at hwf
  have b_e := bitNat_le e
  omega
theorem cpyPeer (e : Bool) (d : Nat) (a : Nat) (b : Nat) : Statement (.cpyPeer e d a b) := fun hwf word enc => by
  have enc := Option.some.inj enc
  have hwf : (decide (d < 256) && decide (a < 256) && decide (b < 256)) = true := hwf
  simp only [Bool.and_eq_true, decide_eq_true_eq] at hwf
  have b_e := bitNat_le e
  omega
theorem cpw (e : Bool) (d : Nat) (a : Nat) (b : Nat) : Statement (.cpw e d a b) := fun hwf word enc => by
  have enc := Option.some.inj enc
  have hwf : (decide (d < 256) && decide (a < 256) && decide (b < 256)) = true := hwf
  simp only [Bool.and_eq_true, decide_eq_true_eq] at hwf
  have b_e := bitNat_le e
  omega
theorem cpl (e : Bool) (a : Nat) (b : Nat) : Statement (.cpl e a b) := fun hwf word enc => by
  have enc := Option.some.inj enc
  have hwf : (decide (a < 256) && decide (b < 256)) = true := hwf
  simp only [Bool.and_eq_true, decide_eq_true_eq] at hwf
  have b_e := bitNat_le e
  omega
theorem mmqI4E4m3 (e : Bool) (a : Nat) (p : Nat) (s : Nat) : Statement (.mmqI4E4m3 e a p s) := fun hwf word enc => by
  have enc := Option.some.inj enc
  have hwf : (decide (a < 256) && decide (p < 256) && decide (s < 2)) = true := hwf
  simp only [Bool.and_eq_true, decide_eq_true_eq] at hwf
  have b_e := bitNat_le e
  omega
theorem mmqI4E5m2 (e : Bool) (a : Nat) (p : Nat) (s : Nat) : Statement (.mmqI4E5m2 e a p s) := fun hwf word enc => by
  have enc := Option.some.inj enc
  have hwf : (decide (a < 256) && decide (p < 256) && decide (s < 2)) = true := hwf
  simp only [Bool.and_eq_true, decide_eq_true_eq] at hwf
  have b_e := bitNat_le e
  omega
theorem mmqI4Bf16 (e : Bool) (a : Nat) (p : Nat) (s : Nat) : Statement (.mmqI4Bf16 e a p s) := fun hwf word enc => by
  have enc := Option.some.inj enc
  have hwf : (decide (a < 256) && decide (p < 256) && decide (s < 2)) = true := hwf
  simp only [Bool.and_eq_true, decide_eq_true_eq] at hwf
  have b_e := bitNat_le e
  omega
theorem mmqI3E4m3 (e : Bool) (a : Nat) (p : Nat) (s : Nat) : Statement (.mmqI3E4m3 e a p s) := fun hwf word enc => by
  have enc := Option.some.inj enc
  have hwf : (decide (a < 256) && decide (p < 256) && decide (s < 2)) = true := hwf
  simp only [Bool.and_eq_true, decide_eq_true_eq] at hwf
  have b_e := bitNat_le e
  omega
theorem mmqI3Bf16 (e : Bool) (a : Nat) (p : Nat) (s : Nat) : Statement (.mmqI3Bf16 e a p s) := fun hwf word enc => by
  have enc := Option.some.inj enc
  have hwf : (decide (a < 256) && decide (p < 256) && decide (s < 2)) = true := hwf
  simp only [Bool.and_eq_true, decide_eq_true_eq] at hwf
  have b_e := bitNat_le e
  omega
theorem mmqF4E4m3 (e : Bool) (a : Nat) (p : Nat) (s : Nat) : Statement (.mmqF4E4m3 e a p s) := fun hwf word enc => by
  have enc := Option.some.inj enc
  have hwf : (decide (a < 256) && decide (p < 256) && decide (s < 2)) = true := hwf
  simp only [Bool.and_eq_true, decide_eq_true_eq] at hwf
  have b_e := bitNat_le e
  omega
theorem mmqF4Bf16 (e : Bool) (a : Nat) (p : Nat) (s : Nat) : Statement (.mmqF4Bf16 e a p s) := fun hwf word enc => by
  have enc := Option.some.inj enc
  have hwf : (decide (a < 256) && decide (p < 256) && decide (s < 2)) = true := hwf
  simp only [Bool.and_eq_true, decide_eq_true_eq] at hwf
  have b_e := bitNat_le e
  omega
theorem mmfE4m3 (e : Bool) (a : Nat) (p : Nat) : Statement (.mmfE4m3 e a p) := fun hwf word enc => by
  have enc := Option.some.inj enc
  have hwf : (decide (a < 256) && decide (p < 256)) = true := hwf
  simp only [Bool.and_eq_true, decide_eq_true_eq] at hwf
  have b_e := bitNat_le e
  omega
theorem mmfE5m2 (e : Bool) (a : Nat) (p : Nat) : Statement (.mmfE5m2 e a p) := fun hwf word enc => by
  have enc := Option.some.inj enc
  have hwf : (decide (a < 256) && decide (p < 256)) = true := hwf
  simp only [Bool.and_eq_true, decide_eq_true_eq] at hwf
  have b_e := bitNat_le e
  omega
theorem mmfBf16 (e : Bool) (a : Nat) (p : Nat) : Statement (.mmfBf16 e a p) := fun hwf word enc => by
  have enc := Option.some.inj enc
  have hwf : (decide (a < 256) && decide (p < 256)) = true := hwf
  simp only [Bool.and_eq_true, decide_eq_true_eq] at hwf
  have b_e := bitNat_le e
  omega
theorem accClr (e : Bool) (p : Nat) : Statement (.accClr e p) := fun hwf word enc => by
  have enc := Option.some.inj enc
  have hwf : (decide (p < 256)) = true := hwf
  simp only [decide_eq_true_eq] at hwf
  have b_e := bitNat_le e
  omega
theorem ctld (e : Bool) (a : Nat) (s : Nat) : Statement (.ctld e a s) := fun hwf word enc => by
  have enc := Option.some.inj enc
  have hwf : (decide (a < 256) && decide (s < 8)) = true := hwf
  simp only [Bool.and_eq_true, decide_eq_true_eq] at hwf
  have b_e := bitNat_le e
  omega
theorem ctst (e : Bool) (a : Nat) (s : Nat) : Statement (.ctst e a s) := fun hwf word enc => by
  have enc := Option.some.inj enc
  have hwf : (decide (a < 256) && decide (s < 8)) = true := hwf
  simp only [Bool.and_eq_true, decide_eq_true_eq] at hwf
  have b_e := bitNat_le e
  omega
theorem ctinv (s : Nat) : Statement (.ctinv s) := fun hwf word enc => by
  have enc := Option.some.inj enc
  have hwf : (decide (s < 8)) = true := hwf
  simp only [decide_eq_true_eq] at hwf
  omega
theorem atomAddB32 (e : Bool) (d : Nat) (a : Nat) (c : Scope) : Statement (.atomAddB32 e d a c) := fun hwf word enc => by
  have enc := Option.some.inj enc
  have hwf : (decide (d < 256) && decide (a < 256)) = true := hwf
  simp only [Bool.and_eq_true, decide_eq_true_eq] at hwf
  have b_e := bitNat_le e
  have b_c := scopeCode_le c
  omega
theorem atomAddB64 (e : Bool) (d : Nat) (a : Nat) (c : Scope) : Statement (.atomAddB64 e d a c) := fun hwf word enc => by
  have enc := Option.some.inj enc
  have hwf : (decide (d < 256) && decide (a < 256)) = true := hwf
  simp only [Bool.and_eq_true, decide_eq_true_eq] at hwf
  have b_e := bitNat_le e
  have b_c := scopeCode_le c
  omega
theorem atomAddF32 (e : Bool) (d : Nat) (a : Nat) (c : Scope) : Statement (.atomAddF32 e d a c) := fun hwf word enc => by
  have enc := Option.some.inj enc
  have hwf : (decide (d < 256) && decide (a < 256)) = true := hwf
  simp only [Bool.and_eq_true, decide_eq_true_eq] at hwf
  have b_e := bitNat_le e
  have b_c := scopeCode_le c
  omega
theorem atomAddBf16x2 (e : Bool) (d : Nat) (a : Nat) (c : Scope) : Statement (.atomAddBf16x2 e d a c) := fun hwf word enc => by
  have enc := Option.some.inj enc
  have hwf : (decide (d < 256) && decide (a < 256)) = true := hwf
  simp only [Bool.and_eq_true, decide_eq_true_eq] at hwf
  have b_e := bitNat_le e
  have b_c := scopeCode_le c
  omega
theorem atomMinI32 (e : Bool) (d : Nat) (a : Nat) (c : Scope) : Statement (.atomMinI32 e d a c) := fun hwf word enc => by
  have enc := Option.some.inj enc
  have hwf : (decide (d < 256) && decide (a < 256)) = true := hwf
  simp only [Bool.and_eq_true, decide_eq_true_eq] at hwf
  have b_e := bitNat_le e
  have b_c := scopeCode_le c
  omega
theorem atomMinN32 (e : Bool) (d : Nat) (a : Nat) (c : Scope) : Statement (.atomMinN32 e d a c) := fun hwf word enc => by
  have enc := Option.some.inj enc
  have hwf : (decide (d < 256) && decide (a < 256)) = true := hwf
  simp only [Bool.and_eq_true, decide_eq_true_eq] at hwf
  have b_e := bitNat_le e
  have b_c := scopeCode_le c
  omega
theorem atomMaxI32 (e : Bool) (d : Nat) (a : Nat) (c : Scope) : Statement (.atomMaxI32 e d a c) := fun hwf word enc => by
  have enc := Option.some.inj enc
  have hwf : (decide (d < 256) && decide (a < 256)) = true := hwf
  simp only [Bool.and_eq_true, decide_eq_true_eq] at hwf
  have b_e := bitNat_le e
  have b_c := scopeCode_le c
  omega
theorem atomMaxN32 (e : Bool) (d : Nat) (a : Nat) (c : Scope) : Statement (.atomMaxN32 e d a c) := fun hwf word enc => by
  have enc := Option.some.inj enc
  have hwf : (decide (d < 256) && decide (a < 256)) = true := hwf
  simp only [Bool.and_eq_true, decide_eq_true_eq] at hwf
  have b_e := bitNat_le e
  have b_c := scopeCode_le c
  omega
theorem atomAnd (e : Bool) (d : Nat) (a : Nat) (c : Scope) : Statement (.atomAnd e d a c) := fun hwf word enc => by
  have enc := Option.some.inj enc
  have hwf : (decide (d < 256) && decide (a < 256)) = true := hwf
  simp only [Bool.and_eq_true, decide_eq_true_eq] at hwf
  have b_e := bitNat_le e
  have b_c := scopeCode_le c
  omega
theorem atomOr (e : Bool) (d : Nat) (a : Nat) (c : Scope) : Statement (.atomOr e d a c) := fun hwf word enc => by
  have enc := Option.some.inj enc
  have hwf : (decide (d < 256) && decide (a < 256)) = true := hwf
  simp only [Bool.and_eq_true, decide_eq_true_eq] at hwf
  have b_e := bitNat_le e
  have b_c := scopeCode_le c
  omega
theorem atomXor (e : Bool) (d : Nat) (a : Nat) (c : Scope) : Statement (.atomXor e d a c) := fun hwf word enc => by
  have enc := Option.some.inj enc
  have hwf : (decide (d < 256) && decide (a < 256)) = true := hwf
  simp only [Bool.and_eq_true, decide_eq_true_eq] at hwf
  have b_e := bitNat_le e
  have b_c := scopeCode_le c
  omega
theorem atomXchg (e : Bool) (d : Nat) (a : Nat) (c : Scope) : Statement (.atomXchg e d a c) := fun hwf word enc => by
  have enc := Option.some.inj enc
  have hwf : (decide (d < 256) && decide (a < 256)) = true := hwf
  simp only [Bool.and_eq_true, decide_eq_true_eq] at hwf
  have b_e := bitNat_le e
  have b_c := scopeCode_le c
  omega
theorem atomCas (e : Bool) (d : Nat) (a : Nat) (c : Scope) : Statement (.atomCas e d a c) := fun hwf word enc => by
  have enc := Option.some.inj enc
  have hwf : (decide (d < 256) && decide (a < 256)) = true := hwf
  simp only [Bool.and_eq_true, decide_eq_true_eq] at hwf
  have b_e := bitNat_le e
  have b_c := scopeCode_le c
  omega
theorem atomCasB64 (e : Bool) (d : Nat) (a : Nat) (c : Scope) : Statement (.atomCasB64 e d a c) := fun hwf word enc => by
  have enc := Option.some.inj enc
  have hwf : (decide (d < 256) && decide (a < 256)) = true := hwf
  simp only [Bool.and_eq_true, decide_eq_true_eq] at hwf
  have b_e := bitNat_le e
  have b_c := scopeCode_le c
  omega
theorem redAddB32 (e : Bool) (d : Nat) (a : Nat) (c : Scope) : Statement (.redAddB32 e d a c) := fun hwf word enc => by
  have enc := Option.some.inj enc
  have hwf : (decide (d < 256) && decide (a < 256)) = true := hwf
  simp only [Bool.and_eq_true, decide_eq_true_eq] at hwf
  have b_e := bitNat_le e
  have b_c := scopeCode_le c
  omega
theorem redAddF32 (e : Bool) (d : Nat) (a : Nat) (c : Scope) : Statement (.redAddF32 e d a c) := fun hwf word enc => by
  have enc := Option.some.inj enc
  have hwf : (decide (d < 256) && decide (a < 256)) = true := hwf
  simp only [Bool.and_eq_true, decide_eq_true_eq] at hwf
  have b_e := bitNat_le e
  have b_c := scopeCode_le c
  omega
theorem redMinI32 (e : Bool) (d : Nat) (a : Nat) (c : Scope) : Statement (.redMinI32 e d a c) := fun hwf word enc => by
  have enc := Option.some.inj enc
  have hwf : (decide (d < 256) && decide (a < 256)) = true := hwf
  simp only [Bool.and_eq_true, decide_eq_true_eq] at hwf
  have b_e := bitNat_le e
  have b_c := scopeCode_le c
  omega
theorem redMaxI32 (e : Bool) (d : Nat) (a : Nat) (c : Scope) : Statement (.redMaxI32 e d a c) := fun hwf word enc => by
  have enc := Option.some.inj enc
  have hwf : (decide (d < 256) && decide (a < 256)) = true := hwf
  simp only [Bool.and_eq_true, decide_eq_true_eq] at hwf
  have b_e := bitNat_le e
  have b_c := scopeCode_le c
  omega
theorem redOr (e : Bool) (d : Nat) (a : Nat) (c : Scope) : Statement (.redOr e d a c) := fun hwf word enc => by
  have enc := Option.some.inj enc
  have hwf : (decide (d < 256) && decide (a < 256)) = true := hwf
  simp only [Bool.and_eq_true, decide_eq_true_eq] at hwf
  have b_e := bitNat_le e
  have b_c := scopeCode_le c
  omega
theorem baddF32 (e : Bool) (d : Nat) (a : Nat) : Statement (.baddF32 e d a) := fun hwf word enc => by
  have enc := Option.some.inj enc
  have hwf : (decide (d < 256) && decide (a < 256)) = true := hwf
  simp only [Bool.and_eq_true, decide_eq_true_eq] at hwf
  have b_e := bitNat_le e
  omega
theorem baddBf16x2 (e : Bool) (d : Nat) (a : Nat) : Statement (.baddBf16x2 e d a) := fun hwf word enc => by
  have enc := Option.some.inj enc
  have hwf : (decide (d < 256) && decide (a < 256)) = true := hwf
  simp only [Bool.and_eq_true, decide_eq_true_eq] at hwf
  have b_e := bitNat_le e
  omega
theorem ldbF32 (e : Bool) (d : Nat) (a : Nat) : Statement (.ldbF32 e d a) := fun hwf word enc => by
  have enc := Option.some.inj enc
  have hwf : (decide (d < 256) && decide (a < 256)) = true := hwf
  simp only [Bool.and_eq_true, decide_eq_true_eq] at hwf
  have b_e := bitNat_le e
  omega
theorem bsettle (e : Bool) (a : Nat) : Statement (.bsettle e a) := fun hwf word enc => by
  have enc := Option.some.inj enc
  have hwf : (decide (a < 256)) = true := hwf
  simp only [decide_eq_true_eq] at hwf
  have b_e := bitNat_le e
  omega
theorem mwaitEq (d : Nat) (a : Nat) : Statement (.mwaitEq d a) := fun hwf word enc => by
  have enc := Option.some.inj enc
  have hwf : (decide (d < 256) && decide (a < 256)) = true := hwf
  simp only [Bool.and_eq_true, decide_eq_true_eq] at hwf
  omega
theorem mwaitNe (d : Nat) (a : Nat) : Statement (.mwaitNe d a) := fun hwf word enc => by
  have enc := Option.some.inj enc
  have hwf : (decide (d < 256) && decide (a < 256)) = true := hwf
  simp only [Bool.and_eq_true, decide_eq_true_eq] at hwf
  omega
theorem mwaitGeI32 (d : Nat) (a : Nat) : Statement (.mwaitGeI32 d a) := fun hwf word enc => by
  have enc := Option.some.inj enc
  have hwf : (decide (d < 256) && decide (a < 256)) = true := hwf
  simp only [Bool.and_eq_true, decide_eq_true_eq] at hwf
  omega
theorem mwaitLtI32 (d : Nat) (a : Nat) : Statement (.mwaitLtI32 d a) := fun hwf word enc => by
  have enc := Option.some.inj enc
  have hwf : (decide (d < 256) && decide (a < 256)) = true := hwf
  simp only [Bool.and_eq_true, decide_eq_true_eq] at hwf
  omega
theorem mwaitGeN32 (d : Nat) (a : Nat) : Statement (.mwaitGeN32 d a) := fun hwf word enc => by
  have enc := Option.some.inj enc
  have hwf : (decide (d < 256) && decide (a < 256)) = true := hwf
  simp only [Bool.and_eq_true, decide_eq_true_eq] at hwf
  omega
theorem mwaitLtN32 (d : Nat) (a : Nat) : Statement (.mwaitLtN32 d a) := fun hwf word enc => by
  have enc := Option.some.inj enc
  have hwf : (decide (d < 256) && decide (a < 256)) = true := hwf
  simp only [Bool.and_eq_true, decide_eq_true_eq] at hwf
  omega
theorem ldAcqB32 (e : Bool) (d : Nat) (a : Nat) (c : Scope) : Statement (.ldAcqB32 e d a c) := fun hwf word enc => by
  have enc := Option.some.inj enc
  have hwf : (decide (d < 256) && decide (a < 256)) = true := hwf
  simp only [Bool.and_eq_true, decide_eq_true_eq] at hwf
  have b_e := bitNat_le e
  have b_c := scopeCode_le c
  omega
theorem ldAcqB64 (e : Bool) (d : Nat) (a : Nat) (c : Scope) : Statement (.ldAcqB64 e d a c) := fun hwf word enc => by
  have enc := Option.some.inj enc
  have hwf : (decide (d < 256) && decide (a < 256)) = true := hwf
  simp only [Bool.and_eq_true, decide_eq_true_eq] at hwf
  have b_e := bitNat_le e
  have b_c := scopeCode_le c
  omega
theorem stRelB32 (e : Bool) (d : Nat) (a : Nat) (c : Scope) : Statement (.stRelB32 e d a c) := fun hwf word enc => by
  have enc := Option.some.inj enc
  have hwf : (decide (d < 256) && decide (a < 256)) = true := hwf
  simp only [Bool.and_eq_true, decide_eq_true_eq] at hwf
  have b_e := bitNat_le e
  have b_c := scopeCode_le c
  omega
theorem stRelB64 (e : Bool) (d : Nat) (a : Nat) (c : Scope) : Statement (.stRelB64 e d a c) := fun hwf word enc => by
  have enc := Option.some.inj enc
  have hwf : (decide (d < 256) && decide (a < 256)) = true := hwf
  simp only [Bool.and_eq_true, decide_eq_true_eq] at hwf
  have b_e := bitNat_le e
  have b_c := scopeCode_le c
  omega
theorem fenceAcq (c : Scope) : Statement (.fenceAcq c) := fun hwf word enc => by
  have enc := Option.some.inj enc
  have b_c := scopeCode_le c
  omega
theorem fenceRel (c : Scope) : Statement (.fenceRel c) := fun hwf word enc => by
  have enc := Option.some.inj enc
  have b_c := scopeCode_le c
  omega
theorem fenceAr (c : Scope) : Statement (.fenceAr c) := fun hwf word enc => by
  have enc := Option.some.inj enc
  have b_c := scopeCode_le c
  omega
theorem cclean (e : Bool) (d : Nat) (a : Nat) (c : Scope) : Statement (.cclean e d a c) := fun hwf word enc => by
  have enc := Option.some.inj enc
  have hwf : (decide (d < 256) && decide (a < 256)) = true := hwf
  simp only [Bool.and_eq_true, decide_eq_true_eq] at hwf
  have b_e := bitNat_le e
  have b_c := scopeCode_le c
  omega
theorem cinval (e : Bool) (d : Nat) (a : Nat) (c : Scope) : Statement (.cinval e d a c) := fun hwf word enc => by
  have enc := Option.some.inj enc
  have hwf : (decide (d < 256) && decide (a < 256)) = true := hwf
  simp only [Bool.and_eq_true, decide_eq_true_eq] at hwf
  have b_e := bitNat_le e
  have b_c := scopeCode_le c
  omega
theorem cflush (e : Bool) (d : Nat) (a : Nat) (c : Scope) : Statement (.cflush e d a c) := fun hwf word enc => by
  have enc := Option.some.inj enc
  have hwf : (decide (d < 256) && decide (a < 256)) = true := hwf
  simp only [Bool.and_eq_true, decide_eq_true_eq] at hwf
  have b_e := bitNat_le e
  have b_c := scopeCode_le c
  omega
theorem tldB8 (e : Bool) (d : Nat) (a : Nat) (h : Nat) : Statement (.tldB8 e d a h) := fun hwf word enc => by
  have enc := Option.some.inj enc
  have hwf : (decide (d < 256) && decide (a < 256) && decide (h < 16)) = true := hwf
  simp only [Bool.and_eq_true, decide_eq_true_eq] at hwf
  have b_e := bitNat_le e
  omega
theorem tldB16 (e : Bool) (d : Nat) (a : Nat) (h : Nat) : Statement (.tldB16 e d a h) := fun hwf word enc => by
  have enc := Option.some.inj enc
  have hwf : (decide (d < 256) && decide (a < 256) && decide (h < 16)) = true := hwf
  simp only [Bool.and_eq_true, decide_eq_true_eq] at hwf
  have b_e := bitNat_le e
  omega
theorem tldB32 (e : Bool) (d : Nat) (a : Nat) (h : Nat) : Statement (.tldB32 e d a h) := fun hwf word enc => by
  have enc := Option.some.inj enc
  have hwf : (decide (d < 256) && decide (a < 256) && decide (h < 16)) = true := hwf
  simp only [Bool.and_eq_true, decide_eq_true_eq] at hwf
  have b_e := bitNat_le e
  omega
theorem tst (e : Bool) (d : Nat) (a : Nat) (h : Nat) : Statement (.tst e d a h) := fun hwf word enc => by
  have enc := Option.some.inj enc
  have hwf : (decide (d < 256) && decide (a < 256) && decide (h < 16)) = true := hwf
  simp only [Bool.and_eq_true, decide_eq_true_eq] at hwf
  have b_e := bitNat_le e
  omega
theorem tenc (e : Bool) (d : Nat) (a : Nat) (h : Nat) : Statement (.tenc e d a h) := fun hwf word enc => by
  have enc := Option.some.inj enc
  have hwf : (decide (d < 256) && decide (a < 256) && decide (h < 16)) = true := hwf
  simp only [Bool.and_eq_true, decide_eq_true_eq] at hwf
  have b_e := bitNat_le e
  omega
theorem tq (e : Bool) (d : Nat) (a : Nat) (h : Nat) : Statement (.tq e d a h) := fun hwf word enc => by
  have enc := Option.some.inj enc
  have hwf : (decide (d < 256) && decide (a < 256) && decide (h < 16)) = true := hwf
  simp only [Bool.and_eq_true, decide_eq_true_eq] at hwf
  have b_e := bitNat_le e
  omega
theorem tclean (e : Bool) (d : Nat) (a : Nat) (h : Nat) : Statement (.tclean e d a h) := fun hwf word enc => by
  have enc := Option.some.inj enc
  have hwf : (decide (d < 256) && decide (a < 256) && decide (h < 16)) = true := hwf
  simp only [Bool.and_eq_true, decide_eq_true_eq] at hwf
  have b_e := bitNat_le e
  omega
theorem tinval (e : Bool) (d : Nat) (a : Nat) (h : Nat) : Statement (.tinval e d a h) := fun hwf word enc => by
  have enc := Option.some.inj enc
  have hwf : (decide (d < 256) && decide (a < 256) && decide (h < 16)) = true := hwf
  simp only [Bool.and_eq_true, decide_eq_true_eq] at hwf
  have b_e := bitNat_le e
  omega
theorem cpt (e : Bool) (d : Nat) (a : Nat) (h : Nat) : Statement (.cpt e d a h) := fun hwf word enc => by
  have enc := Option.some.inj enc
  have hwf : (decide (d < 256) && decide (a < 256) && decide (h < 16)) = true := hwf
  simp only [Bool.and_eq_true, decide_eq_true_eq] at hwf
  have b_e := bitNat_le e
  omega
theorem tdesc (a : Nat) (h : Nat) : Statement (.tdesc a h) := fun hwf word enc => by
  have enc := Option.some.inj enc
  have hwf : (decide (a < 256) && decide (h < 16)) = true := hwf
  simp only [Bool.and_eq_true, decide_eq_true_eq] at hwf
  omega
theorem spool (e : Bool) (d : Nat) (a : Nat) (h : Nat) : Statement (.spool e d a h) := fun hwf word enc => by
  have enc := Option.some.inj enc
  have hwf : (decide (d < 256) && decide (a < 256) && decide (h < 16)) = true := hwf
  simp only [Bool.and_eq_true, decide_eq_true_eq] at hwf
  have b_e := bitNat_le e
  omega
theorem tlbinvVa (e : Bool) (d : Nat) (a : Nat) : Statement (.tlbinvVa e d a) := fun hwf word enc => by
  have enc := Option.some.inj enc
  have hwf : (decide (d < 256) && decide (a < 256)) = true := hwf
  simp only [Bool.and_eq_true, decide_eq_true_eq] at hwf
  have b_e := bitNat_le e
  omega
theorem tlbinvCtx (e : Bool) (d : Nat) : Statement (.tlbinvCtx e d) := fun hwf word enc => by
  have enc := Option.some.inj enc
  have hwf : (decide (d < 256)) = true := hwf
  simp only [decide_eq_true_eq] at hwf
  have b_e := bitNat_le e
  omega
theorem gq (e : Bool) (a : Nat) : Statement (.gq e a) := fun hwf word enc => by
  have enc := Option.some.inj enc
  have hwf : (decide (a < 256)) = true := hwf
  simp only [decide_eq_true_eq] at hwf
  have b_e := bitNat_le e
  omega
theorem att (e : Bool) (a : Nat) : Statement (.att e a) := fun hwf word enc => by
  have enc := Option.some.inj enc
  have hwf : (decide (a < 256)) = true := hwf
  simp only [decide_eq_true_eq] at hwf
  have b_e := bitNat_le e
  omega
theorem tstat (e : Bool) (d : Nat) (a : Nat) : Statement (.tstat e d a) := fun hwf word enc => by
  have enc := Option.some.inj enc
  have hwf : (decide (d < 256) && decide (a < 256)) = true := hwf
  simp only [Bool.and_eq_true, decide_eq_true_eq] at hwf
  have b_e := bitNat_le e
  omega
theorem rcpy (e : Bool) (a : Nat) : Statement (.rcpy e a) := fun hwf word enc => by
  have enc := Option.some.inj enc
  have hwf : (decide (a < 256)) = true := hwf
  simp only [decide_eq_true_eq] at hwf
  have b_e := bitNat_le e
  omega
theorem rcpyCk (e : Bool) (d : Nat) (a : Nat) : Statement (.rcpyCk e d a) := fun hwf word enc => by
  have enc := Option.some.inj enc
  have hwf : (decide (d < 256) && decide (a < 256)) = true := hwf
  simp only [Bool.and_eq_true, decide_eq_true_eq] at hwf
  have b_e := bitNat_le e
  omega
theorem rcpyCkv (e : Bool) (d : Nat) (a : Nat) : Statement (.rcpyCkv e d a) := fun hwf word enc => by
  have enc := Option.some.inj enc
  have hwf : (decide (d < 256) && decide (a < 256)) = true := hwf
  simp only [Bool.and_eq_true, decide_eq_true_eq] at hwf
  have b_e := bitNat_le e
  omega
theorem rsig (e : Bool) (a : Nat) : Statement (.rsig e a) := fun hwf word enc => by
  have enc := Option.some.inj enc
  have hwf : (decide (a < 256)) = true := hwf
  simp only [decide_eq_true_eq] at hwf
  have b_e := bitNat_le e
  omega
theorem ratomAdd (e : Bool) (d : Nat) (a : Nat) : Statement (.ratomAdd e d a) := fun hwf word enc => by
  have enc := Option.some.inj enc
  have hwf : (decide (d < 256) && decide (a < 256)) = true := hwf
  simp only [Bool.and_eq_true, decide_eq_true_eq] at hwf
  have b_e := bitNat_le e
  omega
theorem operandPrefix (p : Nat) (z : Bool) (c : Nat) : Statement (.operandPrefix p z c) := fun hwf word enc => by
  have enc := Option.some.inj enc
  have hwf : (decide (p < 8) && decide (c < 256)) = true := hwf
  simp only [Bool.and_eq_true, decide_eq_true_eq] at hwf
  have b_z := bitNat_le z
  omega
theorem hintPrefix (n : Nat) (l : Nat) (x : BitVec 16) : Statement (.hintPrefix n l x) := fun hwf word enc => by
  have enc := Option.some.inj enc
  have hwf : (decide (n < 15) && decide (l < 4)) = true := hwf
  simp only [Bool.and_eq_true, decide_eq_true_eq] at hwf
  have b_x := x.isLt
  omega
theorem clauseIssue (k : ThreadKey) : Statement (.clauseIssue k) := no_word rfl
theorem tillTimerExpiry (team : Nat) (till : Nat) : Statement (.tillTimerExpiry team till) := no_word rfl
theorem tillRelease (team : Nat) (till : Nat) : Statement (.tillRelease team till) := no_word rfl
theorem watchdog (k : ThreadKey) : Statement (.watchdog k) := no_word rfl
theorem preemptionRequest (team : Nat) : Statement (.preemptionRequest team) := no_word rfl
theorem graceBudgetExpiry (team : Nat) : Statement (.graceBudgetExpiry team) := no_word rfl
theorem loadReturn (op : Nat) : Statement (.loadReturn op) := no_word rfl
theorem storeWritten (op : Nat) : Statement (.storeWritten op) := no_word rfl
theorem atomicReturn (op : Nat) : Statement (.atomicReturn op) := no_word rfl
theorem specialFunctionResult (op : Nat) : Statement (.specialFunctionResult op) := no_word rfl
theorem compactorMove (team : Nat) (group : Option Nat) (dest : Nat) : Statement (.compactorMove team group dest) := no_word rfl
theorem stashFill (team : Nat) (window : Nat) (line : Nat) : Statement (.stashFill team window line) := no_word rfl
theorem copyLanding (op : Nat) : Statement (.copyLanding op) := no_word rfl
theorem matrixExecute (op : Nat) : Statement (.matrixExecute op) := no_word rfl
theorem accClrExecute (op : Nat) : Statement (.accClrExecute op) := no_word rfl
theorem homeRegistration (cluster : Nat) : Statement (.homeRegistration cluster) := no_word rfl
theorem homeReadForward (cluster : Nat) (word : Nat) : Statement (.homeReadForward cluster word) := no_word rfl
theorem lineEviction (cluster : Nat) (line : Nat) : Statement (.lineEviction cluster line) := no_word rfl
theorem monitorWake (idx : Nat) : Statement (.monitorWake idx) := no_word rfl
theorem mwaitOverflowPoll (k : ThreadKey) : Statement (.mwaitOverflowPoll k) := no_word rfl
theorem allowanceRequest (op : Nat) : Statement (.allowanceRequest op) := no_word rfl
theorem cacheUncorrectableError (err : CacheError) : Statement (.cacheUncorrectableError err) := no_word rfl
theorem clusterUnresponsive (cluster : Nat) : Statement (.clusterUnresponsive cluster) := no_word rfl
theorem pageWalk (op : Nat) : Statement (.pageWalk op) := no_word rfl
theorem teamPlacement (team : Nat) : Statement (.teamPlacement team) := no_word rfl
theorem teamSwapOut (team : Nat) : Statement (.teamSwapOut team) := no_word rfl
theorem teamResume (team : Nat) : Statement (.teamResume team) := no_word rfl
theorem imageUpdate (idx : Nat) : Statement (.imageUpdate idx) := no_word rfl
theorem voteDissent (unit : VotedUnit) : Statement (.voteDissent unit) := no_word rfl
theorem voteReadmission (unit : VotedUnit) : Statement (.voteReadmission unit) := no_word rfl
theorem comparedPairDisagreement (unit : VotedUnit) : Statement (.comparedPairDisagreement unit) := no_word rfl
theorem tileUpdate (op : Nat) : Statement (.tileUpdate op) := no_word rfl
theorem slotPush (idx : Nat) : Statement (.slotPush idx) := no_word rfl
theorem dieLinkFlitRetry (a : Nat) (b : Nat) : Statement (.dieLinkFlitRetry a b) := no_word rfl
theorem dieLinkFailure (a : Nat) (b : Nat) : Statement (.dieLinkFailure a b) := no_word rfl
theorem alertBackOff (stack : Nat) (bank : Nat) : Statement (.alertBackOff stack bank) := no_word rfl
theorem refresh (stack : Nat) (bank : Nat) (postpone : Bool) : Statement (.refresh stack bank postpone) := no_word rfl
theorem cxlLinkFailed (link : Nat) : Statement (.cxlLinkFailed link) := no_word rfl
theorem tellerQueryStart (op : Nat) : Statement (.tellerQueryStart op) := no_word rfl
theorem batchReturn (op : Nat) : Statement (.batchReturn op) := no_word rfl
theorem tellerCompletion (op : Nat) : Statement (.tellerCompletion op) := no_word rfl
theorem tellerSramError (op : Nat) : Statement (.tellerSramError op) := no_word rfl
theorem stackUnresponsive (stack : Nat) : Statement (.stackUnresponsive stack) := no_word rfl
theorem doorbell (queue : Nat) (tail : Word) : Statement (.doorbell queue tail) := no_word rfl
theorem recordFetch (queue : Nat) : Statement (.recordFetch queue) := no_word rfl
theorem launch (queue : Nat) : Statement (.launch queue) := no_word rfl
theorem createContext : Statement .createContext := no_word rfl
theorem endContext : Statement .endContext := no_word rfl
theorem resolveReplay : Statement .resolveReplay := no_word rfl
theorem resolveDeliver : Statement .resolveDeliver := no_word rfl
theorem resolveEndThread : Statement .resolveEndThread := no_word rfl
theorem waitConditionMet (grid : Nat) (w : Nat) : Statement (.waitConditionMet grid w) := no_word rfl
theorem teamHandout (die : Nat) : Statement (.teamHandout die) := no_word rfl
theorem deadlineExpiry (grid : Nat) : Statement (.deadlineExpiry grid) := no_word rfl
theorem quantumExpiry (tenant : Nat) : Statement (.quantumExpiry tenant) := no_word rfl
theorem gridComplete (grid : Nat) : Statement (.gridComplete grid) := no_word rfl
theorem fqheadWrite (tenant : Nat) (v : Word) : Statement (.fqheadWrite tenant v) := no_word rfl
theorem supervisorRegisterWrite (num : Nat) (v : BitVec 64) : Statement (.supervisorRegisterWrite num v) := no_word rfl
theorem cpVoteDisagreement (cp : Nat) : Statement (.cpVoteDisagreement cp) := no_word rfl
theorem snapshotTrigger (src : SnapSource) : Statement (.snapshotTrigger src) := no_word rfl
theorem snapshotRearm : Statement .snapshotRearm := no_word rfl
theorem getVersion : Statement .getVersion := no_word rfl
theorem getCapabilities : Statement .getCapabilities := no_word rfl
theorem negotiateAlgorithms (offer : SpdmOffer) : Statement (.negotiateAlgorithms offer) := no_word rfl
theorem getDigests : Statement .getDigests := no_word rfl
theorem getCertificate (slot : Nat) (offset : Nat) (length : Nat) : Statement (.getCertificate slot offset length) := no_word rfl
theorem challenge (slot : Nat) (nonce : BitVec 256) : Statement (.challenge slot nonce) := no_word rfl
theorem getMeasurements (index : Nat) : Statement (.getMeasurements index) := no_word rfl
theorem firmwareLoad (unit : Nat) (images : FirmwareSlots) : Statement (.firmwareLoad unit images) := no_word rfl
theorem powerLimitSet (watts : Nat) : Statement (.powerLimitSet watts) := no_word rfl
theorem thermalThrottle (steps : Nat) : Statement (.thermalThrottle steps) := no_word rfl
theorem thermalTrip : Statement .thermalTrip := no_word rfl
theorem hostLinkError : Statement .hostLinkError := no_word rfl
theorem moduleReset : Statement .moduleReset := no_word rfl
theorem modidWrite (v : Word) : Statement (.modidWrite v) := no_word rfl
theorem fabContextWrite (ctx : Nat) (v : BitVec 64) : Statement (.fabContextWrite ctx v) := no_word rfl
theorem injectArm (arg : InjectArg) : Statement (.injectArm arg) := no_word rfl
theorem waconFlitRetry (port : Nat) : Statement (.waconFlitRetry port) := no_word rfl
theorem portFailure (port : Nat) : Statement (.portFailure port) := no_word rfl
theorem remoteOpArrival (req : RemoteReq) : Statement (.remoteOpArrival req) := no_word rfl
theorem remoteAck (op : Nat) (reply : RemoteReply) : Statement (.remoteAck op reply) := no_word rfl
theorem remoteTimeout (op : Nat) : Statement (.remoteTimeout op) := no_word rfl
theorem roceWorkFetch (qp : Nat) : Statement (.roceWorkFetch qp) := no_word rfl
theorem roceCompletion (qp : Nat) : Statement (.roceCompletion qp) := no_word rfl
theorem rdmaInbound (qp : Nat) (request : RdmaRequest) (bytes : List Byte) : Statement (.rdmaInbound qp request bytes) := no_word rfl
theorem coreReset (core : Nat) : Statement (.coreReset core) := no_word rfl
theorem cacheMaintenanceComplete (op : Nat) : Statement (.cacheMaintenanceComplete op) := no_word rfl
theorem tileMaintenanceComplete (op : Nat) : Statement (.tileMaintenanceComplete op) := no_word rfl
theorem tlbinvComplete (op : Nat) : Statement (.tlbinvComplete op) := no_word rfl
theorem stashMapComplete (op : Nat) : Statement (.stashMapComplete op) := no_word rfl
theorem stashWbComplete (op : Nat) : Statement (.stashWbComplete op) := no_word rfl
theorem portTrained (port : Nat) : Statement (.portTrained port) := no_word rfl
theorem hostLinkTraining (state : HostLink) : Statement (.hostLinkTraining state) := no_word rfl
theorem rdmaReadRequest (qp : Nat) (va : Addr) (length : Nat) : Statement (.rdmaReadRequest qp va length) := no_word rfl
theorem cnpReceived (qp : Nat) : Statement (.cnpReceived qp) := no_word rfl

end Sys2Proof.Laws.Encoding
end

