-- ==== Sys2Proof/Laws/Words.lean ====
section
/-! SUPPORT. What the shared forms of words do where their checks pass: one lemma per form, which the statements about
instructions cite. -/

namespace Sys2Proof.Machine

theorem canRun_check {s : State} {cls : Nat} {role : Option Role} {reads writes : List Nat} {a : Allows}
    (h : s.canRun cls role reads writes = true) (p : prefixOk a s.pfx = true) :
    s.checkWord { cls := cls, allows := a, role := role, reads := reads, writes := writes } = none := by
  simp only [State.canRun, Bool.and_eq_true, List.all_eq_true] at h
  obtain ⟨⟨⟨hc, hr⟩, hw⟩, -⟩ := h
  have hb : (reads ++ writes).all (fun r => decide (r < s.th.window)) = true := by
    rw [List.all_eq_true]
    intro r hm
    exact (hw r hm).1
  unfold State.checkWord
  simp only [hc, p, hb, Bool.not_true, Bool.false_eq_true, if_false]
  cases role with
  | none => rfl
  | some r => simp_all

theorem badOperand_none {t : Thread} {reads writes : List Nat} (hw : ∀ r ∈ reads ++ writes, t.pending r = false)
    (hs : ∀ r ∈ reads, t.badRegs.contains r = false) : t.badOperand reads writes = none := by
  have h1 : reads.find? (fun r => t.pending r || t.badRegs.contains r) = none := by
    rw [List.find?_eq_none]
    intro r hm
    rw [hw r (List.mem_append_left _ hm), hs r hm]
    decide
  have h2 : t.hazard writes = none := by
    unfold Thread.hazard
    rw [List.find?_eq_none]
    intro r hm
    rw [hw r (List.mem_append_right _ hm)]
    decide
  unfold Thread.badOperand
  rw [h1, h2]
  rfl

theorem canRun_regs {s : State} {cls : Nat} {role : Option Role} {reads writes : List Nat}
    (h : s.canRun cls role reads writes = true) (body : State → Out) : s.withRegs reads writes body = body s := by
  simp only [State.canRun, Bool.and_eq_true, List.all_eq_true] at h
  obtain ⟨⟨-, hw⟩, hs⟩ := h
  unfold State.withRegs
  rw [badOperand_none (fun r hm => by have := (hw r hm).2; simpa using this) (fun r hm => by have := hs r hm; simpa using this)]

/-- The checks of R49 on a word whose conditions hold lead to its body. -/
theorem checked_runs {s : State} {i : WordInfo} (body : State → Out) (h : s.checkWord i = none) : s.checked i body = body s := by
  unfold State.checked
  rw [h]

/-- A word whose checks pass is its body. -/
theorem word_runs {s : State} {cls : Nat} {role : Option Role} {reads writes : List Nat} {a : Allows} (body : State → Out)
    (h : s.canRun cls role reads writes = true) (p : prefixOk a s.pfx = true) :
    s.word { cls := cls, allows := a, role := role, reads := reads, writes := writes } body = body s :=
  (checked_runs _ (canRun_check h p)).trans (canRun_regs h body)

theorem prefixOk_bare {s : State} {a : Allows} (h : s.bare = true) : prefixOk a s.pfx = true := by
  simp only [State.bare, Option.isNone_iff_eq_none] at h
  simp [prefixOk, h]

theorem prefixOk_unmasked {s : State} (h : s.unmasked = true) : prefixOk .operand s.pfx = true := by
  unfold State.unmasked at h
  split at h <;> simp_all [prefixOk]

theorem prefixOk_masked {s : State} {z : Bool} (h : s.maskedBy z = true) : prefixOk .operand s.pfx = true := by
  unfold State.maskedBy at h
  split at h <;> simp_all [prefixOk]

theorem prefixOk_hinted {s : State} (h : s.hinted = true) : prefixOk .hint s.pfx = true := by
  unfold State.hinted at h
  cases hp : s.pfx with
  | none => rfl
  | some q => cases q <;> simp_all [prefixOk]

theorem maskedOff_unmasked {s : State} (h : s.unmasked = true) : s.maskedOff = none := by
  unfold State.unmasked at h
  unfold State.maskedOff
  split at h <;> simp_all

theorem maskedOff_masked {s : State} {z : Bool} (h : s.maskedBy z = true) : s.maskedOff = some z := by
  unfold State.maskedBy at h
  unfold State.maskedOff
  split at h <;> simp_all

/-- A maskable word that is not masked off is its body (R45). -/
theorem maskable_runs {s : State} {cls : Nat} {role : Option Role} {reads writes ds : List Nat} (body : State → Out)
    (h : s.canRun cls role reads writes = true) (p : s.unmasked = true) :
    s.maskable { cls := cls, allows := .operand, role := role, reads := reads, writes := writes } ds body = body s := by
  refine (checked_runs _ (canRun_check h (prefixOk_unmasked p))).trans ?_
  rw [maskedOff_unmasked p]
  exact canRun_regs h body

/-- A masked-off thread keeps its registers where `zero` is 0, whatever is pending (R45). -/
theorem maskable_keeps {s : State} {i : WordInfo} {ds : List Nat} (body : State → Out) (h : s.checkWord i = none)
    (p : s.maskedBy false = true) : s.maskable i ds body = .next s.advance := by
  refine (checked_runs _ h).trans ?_
  rw [maskedOff_masked p]

/-- A masked-off thread writes 0 to its destinations where `zero` is 1 (R45). -/
theorem maskable_zeroes {s : State} {i : WordInfo} {ds : List Nat} (body : State → Out) (h : s.checkWord i = none)
    (p : s.maskedBy true = true) (idle : s.th.hazard ds = none) :
    s.maskable i ds body = .next (s.after (fun t => ds.foldl (fun t d => t.setReg d 0) t)) := by
  refine (checked_runs _ h).trans ?_
  rw [maskedOff_masked p]
  simp only [State.withRegs, Thread.badOperand, idle, List.find?_nil]
  rfl

theorem complete_after (s : State) (f : Thread → Thread) : s.complete f = .next (s.after f) := rfl

theorem alu3_runs {s : State} {cls : Nat} {role : Option Role} {d a b : Nat} (f : Word → Word → Word)
    (h : s.canRun cls role [a, b] [d] = true) (p : s.unmasked = true) :
    s.alu3 cls role d a b f = .next (s.after (fun t => t.setReg d (f (t.reg a) (t.reg b)))) := maskable_runs _ h p

theorem alu3d_runs {s : State} {cls : Nat} {role : Option Role} {d a b : Nat} (f : Word → Word → Word → Word)
    (h : s.canRun cls role [a, b, d] [d] = true) (p : s.unmasked = true) :
    s.alu3d cls role d a b f = .next (s.after (fun t => t.setReg d (f (t.reg a) (t.reg b) (t.reg d)))) :=
  maskable_runs _ h p

theorem alu4_runs {s : State} {cls : Nat} {role : Option Role} {d a b : Nat} (f : Word → Word → Word → Word)
    (h : s.canRun cls role [a, b, s.addend d] [d] = true) (p : s.unmasked = true) :
    s.alu4 cls role d a b f = .next (s.after (fun t => t.setReg d (f (t.reg a) (t.reg b) (t.reg (s.addend d))))) :=
  maskable_runs _ h p

theorem alu2_runs {s : State} {cls : Nat} {role : Option Role} {d a : Nat} (f : Word → Word)
    (h : s.canRun cls role [a] [d] = true) (p : s.unmasked = true) :
    s.alu2 cls role d a f = .next (s.after (fun t => t.setReg d (f (t.reg a)))) := maskable_runs _ h p

theorem aluBlock_runs {s : State} {d a n : Nat} {more : List Nat} (f : Thread → Word)
    (h : s.canRun 1 (some .vector) (blockRegs a n ++ more) [d] = true) (p : s.unmasked = true) :
    s.aluBlock d a n more f = .next (s.after (fun t => t.setReg d (f t))) := maskable_runs _ h p

theorem lea_runs {s : State} {scale d a b : Nat} (h : s.canRun 0 none (pairRegs a ++ [b]) (pairRegs d) = true)
    (p : s.unmasked = true) :
    s.lea scale d a b =
      .next (s.after (fun t => t.setPair d (t.pair a + (t.reg b).setWidth 64 * BitVec.ofNat 64 scale))) := maskable_runs _ h p

theorem plain_runs {s : State} {reads writes : List Nat} (f : Thread → Thread) (h : s.canRun 0 none reads writes = true)
    (p : s.bare = true) : s.plain reads writes f = .next (s.after f) := word_runs _ h (prefixOk_bare p)

theorem alu64_runs {s : State} {d a b : Nat} (f : BitVec 64 → BitVec 64 → BitVec 64)
    (h : s.canRun 0 none (pairRegs (2 * a) ++ pairRegs (2 * b)) (pairRegs (2 * d)) = true) (p : s.bare = true) :
    s.alu64 d a b f = .next (s.after (fun t => t.setPair (2 * d) (f (t.pair (2 * a)) (t.pair (2 * b))))) := plain_runs _ h p

theorem compare_runs {s : State} {cls : Nat} {role : Option Role} {p a b : Nat} (f : Word → Word → Bool)
    (h : s.canRun cls role [a, b] [] = true) (q : s.bare = true) :
    s.compare cls role p a b f = .next (s.after (fun t => t.setPred p (f (t.reg a) (t.reg b)))) :=
  word_runs _ h (prefixOk_bare q)

theorem compare64_runs {s : State} {p a b : Nat} (f : BitVec 64 → BitVec 64 → Bool)
    (h : s.canRun 0 none (pairRegs a ++ pairRegs b) [] = true) (q : s.bare = true) :
    s.compare64 p a b f = .next (s.after (fun t => t.setPred p (f (t.pair a) (t.pair b)))) := plain_runs _ h q

theorem compareImm_runs {s : State} {p a : Nat} {i : BitVec 8} (f : Word → Word → Bool)
    (h : s.canRun 0 none [a] [] = true) (q : s.bare = true) :
    s.compareImm p a i f = .next (s.after (fun t => t.setPred p (f (t.reg a) (i.signExtend 32)))) := plain_runs _ h q

theorem predOp_runs {s : State} {p a b : Nat} (f : Bool → Bool → Bool) (h : s.canRun 0 none [] [] = true)
    (q : s.bare = true) : s.predOp p a b f = .next (s.after (fun t => t.setPred p (f (t.pred a) (t.pred b)))) :=
  plain_runs _ h q

theorem special_runs {s : State} {e : Bool} {d a : Nat} (f : Special) (h : s.canRun 1 (some .vector) [a] [d] = true)
    (p : s.unmasked = true) (r : s.flagRoom e = true) :
    s.special f e d a = .next (s.addOp e [d] none (.sfu d (f.eval (s.th.reg a)))) := by
  unfold State.special
  rw [maskable_runs _ h p, if_pos r]

/-- A word that waits for operations of its thread goes on where none of them is outstanding (R237, R280). -/
theorem waitFor_runs {s : State} {kind : Op → Bool} (body : State → Out) (h : s.awaited kind = []) :
    s.waitFor kind body = body s := by
  simp only [State.waitFor, h, List.isEmpty_nil, if_true]

theorem memWord_runs {s : State} {cls : Nat} {role : Option Role} {reads writes : List Nat} {a : Allows}
    (body : State → Out) (h : s.canRun cls role reads writes = true) (p : prefixOk a s.pfx = true)
    (q : s.acqPending = false) :
    s.memWord { cls := cls, allows := a, role := role, reads := reads, writes := writes } body = body s := by
  unfold State.memWord
  rw [word_runs _ h p]
  exact waitFor_runs _ (by simpa [State.acqPending] using q)

theorem tracked_runs {s : State} {e : Bool} (body : State → Out) (h : s.flagRoom e = true) : s.tracked e body = body s :=
  if_pos h

end Sys2Proof.Machine
end

