-- ==== Sys2Proof/Tests/Slice0.lean ====
section
/-! SUPPORT. The model's own tests: terms that are no instructions, words written out from the encoding tables of spec/,
worked examples of the rules, and for every statement a state and operands that meet its hypotheses. -/

set_option Elab.async false

namespace Sys2Proof.Tests

open Sys2Proof Sys2Proof.Machine

/-! ### Small states -/

/-- The word `w` placed as the next one of a thread whose registers hold `r` from v0 on. -/
def placed (w : Nat) (r : List Word) : State :=
  let s := State.reset.withFetchWord 32 w
  { s with th := s.th.setRegs 0 r }

/-- A page table at 0x10000 that maps the first 512 MiB onto themselves with every permission (R313, R314). -/
def paged (s : State) : State :=
  { s with ctxs := s.ctxs.map (fun c => { c with root := 0x10000 }),
           mem := [(0x10000, 1), (0x10002, 2), (0x20000, 1), (0x20002, 3), (0x30000, 0x1F), (0x30001, 1)] }

/-- The state with the free times by which its writes must be done written as numbers (Config.writeDelay and
Config.registrationDelay have no value to compute with). -/
def timed (s : State) : State :=
  { s with ops := s.ops.map (fun o => { o with due := 1000 }),
           registrations := s.registrations.map (fun r => { r with due := 1000 }) }

/-- A register of the acting thread after a step. -/
noncomputable def regAfter (s : State) (i : Nat) : Option Word :=
  match step s with
  | .next t => some (t.th.reg i)
  | _ => none

/-- A predicate of the acting thread after a step. -/
noncomputable def predAfter (s : State) (i : Nat) : Option Bool :=
  match step s with
  | .next t => some (t.th.pred i)
  | _ => none

/-- What a step leaves of a state, read by `f`. -/
noncomputable def after {α : Type} (s : State) (f : State → α) : Option α :=
  match step s with
  | .next t => some (f t)
  | _ => none

/-- The first component of an answer is a success. -/
def good {α β : Type} (x : Except α β × State) (p : β → State → Bool) : Bool :=
  match x with
  | (.ok a, s) => p a s
  | _ => false

/-- The operation with a number is outstanding and passes a test. -/
def opThat (s : State) (n : Nat) (p : Op → Bool) : Bool :=
  match s.op? n with
  | some o => p o
  | none => false

/-! ### Terms that are no instructions -/

theorem test_wf_register : ([.add 256 0 0, .add 0 256 0, .add 0 0 256, .addi 256 0 0, .movi 256 0, .lea16 0 256 0, .fadd 0 0 256,
    .rcp false 0 256, .ldB32 true 256 0 0, .sgetAt 0 0 256, .cpl false 256 0, .accClr false 256, .atomCas true 0 256 .device,
    .tldB8 false 256 0 0, .gq false 256, .ratomAdd false 0 256] : List Instr).all (fun i => !i.wf) = true := by decide
theorem test_wf_pair : ([.add64 128 0 0, .sub64 0 128 0, .sar64 0 0 128] : List Instr).all (fun i => !i.wf) = true := by decide
theorem test_wf_predicate : ([.cmpEq 8 0 0, .pand 0 8 0, .por 0 0 8, .pnot 8 0, .fcmpLt 8 0 0, .ballot 0 8 0, .voteAny 0 8 0,
    .barTry 8 0 0, .prsTest 8 0, .operandPrefix 8 false 0, .bnp 8 0] : List Instr).all (fun i => !i.wf) = true := by decide
theorem test_wf_bp_seven : (Instr.bp 7 0).wf = false := by decide
theorem test_wf_shift_count : ([.shli 0 0 32, .shri 0 0 32, .sari 0 0 32] : List Instr).all (fun i => !i.wf) = true := by decide
theorem test_wf_constant : (Instr.rdk 0 64).wf = false := by decide
theorem test_wf_index_register : ([.setx 4 0, .incx 4 0, .rdx 0 4 0, .wrx 0 4 0] : List Instr).all (fun i => !i.wf) = true := by decide
theorem test_wf_link : (Instr.call 16 0).wf = false := by decide
theorem test_wf_number : ([.trap 256, .brk 256, .rdsr 0 256, .wrsr 0 256] : List Instr).all (fun i => !i.wf) = true := by decide
theorem test_wf_lane : ([.prng 0 0 4, .cvtF32E4m3 0 0 4, .cvtF32E5m2 0 0 4, .cvtF32E2m1 0 0 8] : List Instr).all (fun i => !i.wf) = true := by
  decide
theorem test_wf_barrier : ([.barInit 0 16, .barArx 0 0 16, .barInv 16, .ringAcq 0 0 8, .ringRel 0 8] : List Instr).all (fun i => !i.wf) = true := by
  decide
theorem test_wf_matrix : ([.mmqI4E4m3 false 0 0 2, .ctld false 0 8, .ctst false 0 8, .ctinv 8] : List Instr).all (fun i => !i.wf) = true := by
  decide
theorem test_wf_handle : ([.tldB8 false 0 0 16, .tdesc 0 16, .spool false 0 0 16] : List Instr).all (fun i => !i.wf) = true := by decide
theorem test_wf_hint : ([.hintPrefix 15 0 0, .hintPrefix 0 4 0] : List Instr).all (fun i => !i.wf) = true := by decide

/-! ### Words written out from the encoding tables (R41, R50 to R55) -/

theorem test_decode_integer : decodeWord 0x0E010203 = .ok (.divI32 1 2 3) ∧ decodeWord 0x44020325 = .ok (.shri 2 3 5) ∧
    decodeWord 0x4A040C20 = .ok (.add64 2 3 4) ∧ decodeWord 0x4C120304 = .ok (.cmpLtI32 2 3 4) ∧
    decodeWord 0x5002FFFB = .ok (.setx 2 0xFFFB) ∧ decodeWord 0x52090103 = .ok (.rdx 9 1 3) := by decide
theorem test_decode_control : decodeWord 0x569FFFF8 = .ok (.bp 2 0x1FFFF8) ∧ decodeWord 0x59E00028 = .ok (.call 15 0x28) ∧
    decodeWord 0x5A010008 = .ok (.rdsr 1 0) ∧ decodeWord 0x5A050A0E = .ok (.prng 5 10 2) ∧
    decodeWord 0x5D030020 = .ok (.spawn .vector 6 0x20) ∧ decodeWord 0x5A000000 = .ok .nop := by decide
theorem test_decode_float : decodeWord 0x61010203 = .ok (.faddRz 1 2 3) ∧ decodeWord 0x74130405 = .ok (.fcmpLe 3 4 5) ∧
    decodeWord 0x7601023D = .ok (.cvtF32E2m1 1 2 5) ∧ decodeWord 0x79070807 = .ok (.tanh true 7 8) ∧
    decodeWord 0x7A010203 = .ok (.cvtE2m1x8F32 1 2 3) := by decide
theorem test_decode_access : decodeWord 0x88040203 = .ok (.ldsB128 4 2 3) ∧ decodeWord 0x85040203 = .ok (.ldB32 true 4 2 3) ∧
    decodeWord 0x8C030910 = .ok (.prsTest 3 9) ∧ decodeWord 0x8F04020C = .ok (.stB128 true 4 2) ∧
    decodeWord 0x8D040211 = .ok (.stashMap true 4 2) := by decide
theorem test_decode_lanes : decodeWord 0x93010203 = .ok (.sgetAbove 1 2 3) ∧ decodeWord 0x9E110203 = .ok (.voteEq 1 2 3) ∧
    decodeWord 0x9B010203 = .ok (.ballot 1 2 3) := by decide
theorem test_decode_barrier : decodeWord 0xA002035F = .ok (.barTry 2 3 15) ∧ decodeWord 0xA2040527 = .ok (.ringGet 4 5 7) ∧
    decodeWord 0xA2040528 = .error .field := by decide
theorem test_decode_engine : decodeWord 0xAB000607 = .ok (.cpl true 6 7) ∧ decodeWord 0xAC080944 = .ok (.mmqI3Bf16 false 8 9 1) ∧
    decodeWord 0xAE0A0B20 = .ok (.mmfBf16 false 10 11) ∧ decodeWord 0xB1000417 = .ok (.ctst true 4 7) := by decide
theorem test_decode_cluster : decodeWord 0xC10102CD = .ok (.atomCasB64 true 1 2 .system) ∧
    decodeWord 0xC2010289 = .ok (.redOr false 1 2 .device) ∧ decodeWord 0xC6010205 = .ok (.mwaitLtN32 1 2) ∧
    decodeWord 0xC9010243 = .ok (.stRelB64 true 1 2 .cluster) ∧ decodeWord 0xCA000002 = .ok (.fenceAr .team) ∧
    decodeWord 0xCC010282 = .ok (.cflush false 1 2 .device) ∧ decodeWord 0xC4010241 = .error .field := by decide
theorem test_decode_tensor : decodeWord 0xD90304F4 = .ok (.tenc true 3 4 15) ∧ decodeWord 0xD8000569 = .ok (.tdesc 5 6) ∧
    decodeWord 0xDA090001 = .ok (.tlbinvCtx false 9) := by decide
theorem test_decode_package : decodeWord 0xE9000A00 = .ok (.gq true 10) ∧ decodeWord 0xED020402 = .ok (.rcpyCkv true 2 4) ∧
    decodeWord 0xEC050604 = .ok (.ratomAdd false 5 6) := by decide
theorem test_decode_prefix : decodeWord 0xFEA00007 = .ok (.operandPrefix 2 true 7) ∧
    decodeWord 0xFC481234 = .ok (.hintPrefix 2 1 0x1234) ∧ decodeWord 0xFDE00000 = .error .badPrefix := by decide
theorem test_decode_unassigned : decodeWord 0 = .error .opcode ∧ decodeWord 0xF0000000 = .error .opcode ∧
    decodeWord 0x5A00000B = .error .opcode ∧ decodeWord 0x5A010000 = .error .field := by decide
theorem test_decode_bytes : decodeBytes [0x03, 0x02, 0x01, 0x0E] = some (.ok (.divI32 1 2 3), []) := by decide
theorem test_decoded_words : decodeTableWord 32 0x0E010203 = some (.divI32 1 2 3) := by decide

/-! ### Worked examples of the rules -/

theorem test_div_truncates : regAfter (placed 0x0E010203 [0, 0, 0xFFFFFFF9, 2]) 1 = some 0xFFFFFFFD := by decide +kernel
theorem test_rem_sign : regAfter (placed 0x12010203 [0, 0, 0xFFFFFFF9, 2]) 1 = some 0xFFFFFFFF := by decide +kernel
theorem test_div_by_zero : regAfter (placed 0x0E010203 [0, 0, 7, 0]) 1 = some 0xFFFFFFFF := by decide +kernel
theorem test_div_overflow : regAfter (placed 0x0E010203 [0, 0, 0x80000000, 0xFFFFFFFF]) 1 = some 0x80000000 := by decide +kernel
theorem test_mulh_signed : regAfter (placed 0x08010203 [0, 0, 0xFFFFFFFF, 0xFFFFFFFF]) 1 = some 0 := by decide +kernel
theorem test_bfx_signed : regAfter (placed 0x30010203 [0, 0, 0x00F0A000, 0x0000040C]) 1 = some 0xFFFFFFFA := by decide +kernel
theorem test_bfx_cut : regAfter (placed 0x32010203 [0, 0, 0x00F0A000, 0x0000081E]) 1 = some 0 := by decide +kernel
theorem test_fsh_count_32 : regAfter (placed 0x2E010203 [0, 32, 0x11111111, 0x22222222]) 1 = some 0x11111111 := by decide +kernel
theorem test_shl_by_32 : regAfter (placed 0x26010203 [0, 0, 1, 32]) 1 = some 0 := by decide +kernel
theorem test_abs_most_negative : regAfter (placed 0x4E010202 [0, 0, 0x80000000]) 1 = some 0x80000000 := by decide +kernel
theorem test_pget_bit_7 : regAfter (placed 0x4E010008 []) 1 = some 0x80 := by decide +kernel
theorem test_cmp_signed : predAfter (placed 0x4C120304 [0, 0, 0, 0xFFFFFFFF, 0]) 2 = some true := by decide +kernel
theorem test_pnot_p7 : predAfter (placed 0x4CE30700 []) 3 = some false := by decide +kernel
theorem test_prng_zero : regAfter (placed 0x5A050A0E []) 5 = some 0xBC57AC4C := by decide +kernel
theorem test_prng_first : regAfter (placed 0x5A050A0C []) 5 = some 0x6627E8D5 := by decide +kernel
theorem test_cvt_e4m3 : regAfter (placed 0x76010231 [0, 0, 0x00007E00]) 1 = some 0x43E00000 := by decide +kernel
theorem test_cvt_e2m1 : regAfter (placed 0x7601023A [0, 0, 0x0F00]) 1 = some 0xC0C00000 := by decide +kernel
theorem test_cvt_rounds_even : regAfter (placed 0x76010210 [0, 0, 0x01000001]) 1 = some 0x4B800000 := by decide +kernel
theorem test_movhi : regAfter (placed 0x48011234 [0, 0xAAAA5678]) 1 = some 0x12345678 := by decide +kernel
theorem test_add64_carries : regAfter (placed 0x4A000800 [0, 0, 0xFFFFFFFF, 0, 1, 0]) 1 = some 0 := by decide +kernel
theorem test_call_link : after (placed 0x58000010 []) (fun s => (s.th.reg 0, s.th.pc)) = some (8, 0x40) := by decide +kernel
theorem test_branch_back : after (placed 0x57DFFFFF []) (fun s => s.th.pc) = some 0x1FFFFFFFFFFFFFC := by decide +kernel
theorem test_ret_misaligned : after (placed 0x5A000205 [0, 0, 2, 0]) (fun s => s.th.status) = some .stopped := by decide +kernel

/-! ### The hypotheses of the statements can be met -/

theorem witness_issueChecks_class : let s := placed 0x5A000000 []
    s.maskForm (.fadd 1 2 3) = some ⟨1, some .vector, [2, 3], [1]⟩ ∧ (1 : Nat) ≠ 0 ∧ 1 ≠ s.clsNow := by decide +kernel
theorem witness_issueChecks_prefix : let s := { placed 0x5A000000 [] with pfx := some (.hint 0 0 0) }
    s.maskForm (.add 1 2 3) = some ⟨0, none, [2, 3], [1]⟩ ∧ s.pfx = some (.hint 0 0 0) := by decide +kernel
theorem witness_issueChecks_role : let s := (placed 0x60010203 []).withTh (fun t => { t with role := .copy })
    s.maskForm (.fadd 1 2 3) = some ⟨1, some .vector, [2, 3], [1]⟩ ∧ s.clsNow = 1 ∧ s.pfx = none ∧ Role.vector ≠ s.th.role := by
  decide +kernel
theorem witness_issueChecks_bounds : let s := placed 0x5A000000 []
    s.maskForm (.add 256 255 0) = some ⟨0, none, [255, 0], [256]⟩ ∧ s.pfx = none ∧ ¬ 256 < s.th.window := by decide +kernel
theorem witness_issueChecks_pending : let s := (placed 0x5A000000 []).withTh (·.setPending 255)
    s.maskForm (.add 1 2 255) = some ⟨0, none, [2, 255], [1]⟩ ∧ s.unmasked = true ∧ 255 < s.th.window ∧
    s.th.pending 255 = true ∧ s.ops = [] := by decide +kernel
theorem witness_issueChecks_error : let s := (placed 0x5A000000 []).withTh (fun t => { t with badRegs := [255] })
    s.maskForm (.add 1 2 255) = some ⟨0, none, [2, 255], [1]⟩ ∧ s.unmasked = true ∧
    (∀ r ∈ [2, 255, 1], s.th.pending r = false ∧ r < s.th.window) ∧ s.th.badRegs.contains 255 = true := by decide +kernel

/-- A store of four bytes at 8, outstanding. -/
def stored : State :=
  let s := timed ((placed 0x5A000000 []).addOp false [] (some 8) (.store 8 [1, 2, 3, 4] none))
  { s with ctxs := [] }

theorem witness_frames_store : opThat stored 0 (fun o => stored.opReady 0 o && decide (o.kind = .store 8 [1, 2, 3, 4] none) &&
    decide (o.pa = some 8) && stored.writeReady o 8 4 && !stored.hasEscrow (lineOf 8) &&
    ((stored.cluster (o.core / 16)).crowd (.line (lineOf 8))).isEmpty) = true ∧ stored.viewMarks = [] ∧ wordsOf 8 4 = [2] := by
  decide +kernel
theorem witness_frames_scratch : Memory.wf Team.inert.scratch = true := by decide
theorem witness_decodeOfEncode : (Instr.cmpEq 7 255 0).wf = true ∧ encode (.cmpEq 7 255 0) = some 0x4C07FF00 := by decide
theorem witness_encodeOfDecode : decodeWord 0x4C07FF00 = .ok (.cmpEq 7 255 0) := by decide
theorem witness_stepRuns : let s := placed 0x0E010203 []
    (s.issue.map Issue.lanes) = some [s.th.key] ∧ s.th.status = .ready ∧ s.wordNow = some 0x0E010203 ∧
    decodeNat 0x0E010203 = .ok (.divI32 1 2 3) := by decide +kernel
theorem witness_stepRuns_unassigned : let s := placed 0 []
    (s.issue.map Issue.lanes) = some [s.th.key] ∧ s.th.status = .ready ∧ s.wordNow = some 0 ∧ decodeNat 0 = .error .opcode := by
  decide +kernel
theorem witness_fetchWord : let s := paged (placed 0 [])
    good (s.translate 0 0 0x1FFFFFFC .execute) (fun x u => x.2 == 0x1FFFFFFC && decide (u.readable 0x1FFFFFFC x.2 4 = .ok ())) = true := by
  decide +kernel
theorem witness_moves : State.reset.issue = none ∧ ({ State.reset with mgmt := { State.reset.mgmt with stopped := true } }).moves = [] := by
  exact ⟨rfl, by decide +kernel⟩
theorem witness_step_free : let t : State := { State.reset with mgmt := { State.reset.mgmt with stopped := true }, tick := 1 }
    t.allTeams.find? t.slotDone = none ∧ t.redoIssue = none ∧ t.heldFault = none ∧ t.dueNow = none := by
  exact ⟨rfl, rfl, rfl, if_pos rfl⟩
theorem witness_step_slot : let s := placed 0 []
    let t : State := { s with th := Thread.inert, issue := none, tm := { s.tm with groups := [] } }
    (t.allTeams.find? t.slotDone).map Team.uid = some 0 := by decide +kernel
theorem witness_step_redo : let s := (placed 0 []).withTh (fun t => { t with redo := true })
    ({ s with issue := none } : State).redoIssue.isSome = true := by decide +kernel
theorem witness_step_held : let s := ((placed 0 []).addOp true [] none (.sfu 0 0)).withTh (fun t => { t with status := .sync 0 })
    let u : State := { s with ops := s.ops.map (fun o => { o with fault := some { cause := 0x30 } }) }
    u.heldFault.map (fun x => (x.1.id, x.2.cause)) = some (0, 0x30) := by decide +kernel
theorem witness_memOk : State.reset.memOk = true ∧ (after (placed 0x5A000000 []) (fun s => s.th.pc)) = some 8 := by decide +kernel

/-- A word that stands alone, without a prefix. -/
theorem witness_integer : let s := placed 0x5A000000 []
    s.canRun 0 none [255, 0] [255] = true ∧ s.unmasked = true ∧ s.bare = true ∧ s.hinted = true := by decide +kernel
theorem witness_masked : let s := (placed 0x5A000000 []).withTh (·.setPred 1 true)
    { s with pfx := some (.operand 1 false 255) }.canRun 0 none [2, 3, 255] [1] = true ∧
    { s with pfx := some (.operand 1 false 255) }.unmasked = true ∧ { s with pfx := some (.operand 0 false 0) }.maskedBy false = true ∧
    { s with pfx := some (.operand 0 true 0) }.maskedBy true = true ∧
    { s with pfx := some (.operand 0 true 0) }.fits 0 none [255] = true ∧ s.th.pending 255 = false := by decide +kernel
theorem witness_float : let s := placed 0x60010203 []
    s.canRun 1 (some .vector) [255, 0] [255] = true ∧ s.unmasked = true ∧ s.bare = true := by decide +kernel
theorem witness_conversions : let s := placed 0x7A010203 []
    s.canRun 1 (some .vector) [248, 249, 250, 251, 252, 253, 254, 255, 0] [255] = true ∧ s.unmasked = true := by decide +kernel
theorem witness_pairs : let s := placed 0x5A000000 []
    s.canRun 0 none [254, 255, 0, 1] [254, 255] = true ∧ s.bare = true := by decide +kernel
theorem witness_indirect_inside : let s := (placed 0x5A000000 []).withTh (·.setX 3 0)
    0 ≤ (s.th.x 3).toInt + ((255 : BitVec 8).toNat : Int) ∧ s.canRun 0 none [255] [0] = true ∧ s.canRun 0 none [0] [255] = true := by
  decide +kernel
theorem witness_indirect_outside : let s := (placed 0x5A000000 []).withTh (·.setX 3 1)
    (s.th.window : Int) ≤ (s.th.x 3).toInt + ((255 : BitVec 8).toNat : Int) ∧
    (s.th.x 3 ).toInt + ((0 : BitVec 8).toNat : Int) = 1 := by decide +kernel
theorem witness_indirect_negative : let s := (placed 0x5A000000 []).withTh (·.setX 0 0xFFFF)
    (s.th.x 0).toInt + ((0 : BitVec 8).toNat : Int) < 0 ∧ s.bare = true ∧ s.canRun 0 none [] [255] = true := by decide +kernel
theorem witness_special : let s := placed 0x78010200 []
    s.canRun 1 (some .vector) [255] [255] = true ∧ s.unmasked = true ∧ s.flagRoom true = true := by decide +kernel
theorem witness_special_full : let s := placed 0x78010200 []
    let o := (s.addOp true [] none (.sfu 0 0)).ops
    ({ s with ops := o ++ o ++ o ++ o ++ o ++ o ++ o ++ o ++ o ++ o ++ o ++ o ++ o ++ o ++ o } : State).flagRoom true = false := by decide +kernel
theorem witness_special_masked : let s := { placed 0x78010200 [] with pfx := some (.operand 0 true 0) }
    s.canRun 1 (some .vector) [2] [1] = true ∧ s.maskedBy true = true := by decide +kernel
theorem witness_nan : (f32 0x7F800001).isNan = true := by decide +kernel
theorem witness_exit_waits : let s := (placed 0x5A000000 []).addOp true [] none (.sfu 0 0)
    s.flagsBusy s.th 0xFFF = true ∧ s.canRun 0 none [] [] = true ∧ s.bare = true := by decide +kernel
theorem witness_exit_unflagged : let s := (placed 0x5A000001 []).addOp true [] none (.sfu 0 0)
    let u : State := { s with ops := s.ops.map (fun o => { o with flag := none }) }
    (u.unflagged u.th).map Op.id = some 0 ∧ u.canRun 0 none [] [] = true ∧ u.bare = true := by decide +kernel
theorem witness_exit : let s := placed 0x5A000001 []
    s.flagsBusy s.th 0xFFF = false ∧ s.unflagged s.th = none ∧ s.firstFault s.th 0xFFF 0xFFF = none ∧ s.th.live = true := by decide +kernel
theorem witness_yield : let s := placed 0x5A000002 []
    s.tm.preempt = none ∧ ({ s with tm := { s.tm with preempt := some ⟨1⟩ } }).tm.preempt.isSome = true := by decide +kernel
theorem witness_trapEntry : let s := paged (placed 0x5A00FF03 [])
    s.th.trapActive = false ∧ s.th.key.group < s.tm.fgroups ∧
    good ((s.snapOnCause 0x0B).recPlace s.tm s.th.key) (fun x _ => x.2 % 64 == 0) = true := by decide +kernel
theorem witness_handlerFaults : let s := (placed 0x5A00FF03 []).withTh (fun t => { t with trapActive := true })
    s.th.trapActive = true ∧ ((s.tenantOf 0).fqtail + 1) % 2 ^ (s.tenantOf 0).lgfq ≠ (s.tenantOf 0).fqhead % 2 ^ (s.tenantOf 0).lgfq := by
  decide +kernel
theorem witness_noRecord : let s := { placed 0x5A00FF03 [] with tm := { Team.inert with fgroups := 0 } }
    let u := s.setTenant { s.tenantOf 0 with fqtail := 63 }
    u.tm.fgroups ≤ u.th.key.group ∧ ((u.tenantOf 0).fqtail + 1) % 2 ^ (u.tenantOf 0).lgfq = (u.tenantOf 0).fqhead % 2 ^ (u.tenantOf 0).lgfq := by
  decide +kernel

/-- A thread in its handler, trapped at word 2 of the clause at 0x4000 that has three words. -/
def inHandler (fpc : Addr) : State :=
  (placed 0x5A000007 []).withTh (fun t =>
    { t with trapActive := true, fpc := fpc, fpc0 := 0x4008, resume := { hdr := 0x4000, word := 2, clause := 0x4000, count := 3, own := true } })

theorem witness_return : (inHandler 0x4008).canRun 0 none [] [] = true ∧ (inHandler 0x4008).bare = true ∧
    (inHandler 0x4008).th.fpc = (inHandler 0x4008).th.fpc0 ∧ (inHandler 0x4008).th.replay = none := by decide +kernel
theorem witness_return_inside : let s := inHandler 0x400C
    s.th.fpc ≠ s.th.fpc0 ∧ s.th.resume.clause.toNat + 4 ≤ s.th.fpc.toNat ∧ s.th.fpc.toNat ≤ s.th.resume.clause.toNat + 4 * 3 := by
  decide +kernel
theorem witness_return_outside : let s := inHandler 0x4010
    s.th.fpc ≠ s.th.fpc0 ∧ ¬ s.th.fpc.toNat ≤ s.th.resume.clause.toNat + 4 * 3 ∧ s.th.fpc.toNat % 4 = 0 := by decide +kernel
theorem witness_return_misaligned : (inHandler 0x200000000000000).th.fpc.toNat = 2 ^ 57 ∧ (inHandler 0x4009).th.fpc.toNat % 4 = 1 := by
  decide +kernel
theorem witness_return_replay :
    let s : State := ((inHandler 0x4008).addOp false [1] none (.load 0 4 false 1 0 0 none)).withTh (fun t => { t with replay := some 0 })
    let u : State := { s with ops := s.ops.map (fun o => { o with fault := some { cause := 0x10, deferred := true } }) }
    ((u.th.replay.bind u.op?).bind Op.fault).map FaultRec.deferred = some true ∧ u.th.fpc = u.th.fpc0 ∧ u.canRun 0 none [] [] = true ∧
    u.bare = true := by decide +kernel
theorem test_tret_inside : after (inHandler 0x400C) (fun s => (s.th.pc, s.th.startAt, s.th.trapActive)) = some (0x400C, 3, false) := by
  decide +kernel
theorem witness_systemRegisters : let s := placed 0x5A010008 []
    s.bare = true ∧ s.isSup = true ∧ { s with ctxs := [] }.isSup = false ∧ (s.canRun 0 none [254, 255] [] = true) ∧
    (s.withTh (fun t => { t with trapActive := true })).th.trapActive = true := by decide +kernel
theorem witness_supervisor : let s := placed 0x5A010008 [15, 0, 0]
    s.bare = true ∧ s.isSup = true ∧ s.canRun 0 none [] [254, 255] = true ∧ (s.th.reg 0).toNat ≤ 15 := by decide +kernel
theorem witness_prng : let s := placed 0x5A050A0E []
    s.canRun 0 none [250, 251, 252, 253, 254, 255] [255] = true ∧ s.bare = true := by decide +kernel

/-- A team whose code lists an entry at 0x80 for VECTOR with 32 registers. -/
def spawner (tills : List (Option Till)) : State :=
  let s := placed 0x5D000020 [7]
  { s with tm := { s.tm with entries := [⟨0x80, 5, 2⟩], tills := tills } }

theorem witness_spawn_unlisted : let s := placed 0x5D000020 [7]
    s.canRun 0 none [0] [] = true ∧ s.bare = true ∧ s.tm.entryRec 0x80 .vector = none := by decide +kernel
theorem witness_spawn_free : let s := spawner (List.replicate 8 none)
    (s.header + 4 * (0x20 : BitVec 15).signExtend 64) &&& 0x1FFFFFFFFFFFFFF = 0x80 ∧ (s.tm.entryRec 0x80 .vector).isSome = true ∧
    s.tm.tillOf 0x80 .vector = none ∧ s.tm.freeTill = some 0 := by decide +kernel
theorem witness_spawn_joins : let t : Till := ⟨0x80, .vector, List.replicate 30 1, none, 64⟩
    let s := spawner (List.replicate 7 none ++ [some t])
    s.tm.tillOf 0x80 .vector = some 7 ∧ s.tm.till 7 = some t ∧ t.args.length < 31 ∧ t.due = none := by decide +kernel
theorem witness_spawn_last : let t (n : Nat) : Till := ⟨0x80, .vector, List.replicate n 1, none, 64⟩
    let s (n : Nat) := spawner (some (t n) :: List.replicate 7 none)
    (s 31).tm.tillOf 0x80 .vector = some 0 ∧ (s 32).tm.tillOf 0x80 .vector = some 0 := by decide +kernel
theorem witness_spawn_held : let s := spawner (List.replicate 8 none)
    (s.team? 0).isSome = true ∧ s.canRelease s.tm = none ∧ (s.threadsOf 0).map Thread.status = [.ready] := by decide +kernel
theorem test_spawn_fills : let t : Till := ⟨0x80, .vector, List.replicate 31 1, none, 64⟩
    after (spawner (some t :: List.replicate 7 none)) (fun s => (s.tm.till 0, s.allThreads.length)) = some (none, 33) := by
  decide +kernel
theorem witness_prefix_alone : (placed 0x5A000000 []).nextWord = none := by decide +kernel
theorem witness_prefix_add : let s := (placed 0xFE000000 []).withTh (fun t => { t with clause := t.clause.map (fun c => { c with words := [0, 0x02010203] }) })
    s.nextWord = some 0x02010203 ∧ s.opcodeOk 0x02010203 = true ∧ s.classOk 0x02010203 = true ∧ s.bare = true ∧
    operandPrefixable (majorOf 0x02010203) = true ∧ hintPrefixable (majorOf 0x02010203) 3 = false := by decide +kernel
theorem witness_prefix_second : ({ placed 0xFE000000 [] with pfx := some (.operand 0 false 0) } : State).bare = false := by decide
theorem witness_prefix_load : let s := (placed 0xFC000000 []).withTh (fun t =>
      { t with clause := t.clause.map (fun c => { c with cls := 2, words := [0, 0x84010203] }) })
    s.nextWord = some 0x84010203 ∧ s.opcodeOk 0x84010203 = true ∧ s.classOk 0x84010203 = true ∧
    hintPrefixable (majorOf 0x84010203) 3 = true ∧ isScratchWord (majorOf 0x84010203) 3 = false ∧
    isGlobalStore (majorOf 0x84010203) 3 = false ∧ operandPrefixable (majorOf 0x84010203) = false := by decide +kernel

/-- Seats 0 to 3 of a group wait with a mask of all ones; seat 0 acts last. -/
def fourSeats (w : Nat) (f : Nat → Thread → Thread) : State :=
  let s := placed w [0, 0, 0, 0xFFFFFFFF]
  let other (i : Nat) : Thread := { f i { s.th with key := ⟨0, 0, i⟩ } with status := .xlane 0xFFFFFFFF }
  { s with th := f 0 s.th, threads := [other 3, other 1, other 2],
           tm := { s.tm with groups := s.tm.groups.map (fun g => { g with live := 15, members := 15 }) } }

theorem witness_crossLane : let s := fourSeats 0x99010203 (fun _ t => t)
    s.bare = true ∧ s.canRun 2 none [3, 2, 1] [1] = true ∧
    s.meets 3 [2, 1] [1] ((s.arrived 3).waitingAt s.th.key s.th.pc) = true ∧
    (((s.arrived 3).waitingAt s.th.key s.th.pc).map (fun t => t.key.seat)) = [0, 1, 2, 3] := by decide +kernel
theorem witness_crossLane_waits : let s := fourSeats 0x9C010003 (fun _ t => t)
    let u : State := { s with threads := s.threads.tail }
    u.canRun 2 none [3] [1] = true ∧ ((u.arrived 3).complete? ((u.arrived 3).waitingAt u.th.key u.th.pc)).isNone = true := by
  decide +kernel
/-- The worked case of R163: weights 0.5, 0, 1.5 and 2. -/
def weights (r : Word) (i : Nat) (t : Thread) : Thread :=
  (t.setReg 2 ([0x3F000000, 0, 0x3FC00000, 0x40000000].getD i 0)).setReg 1 r
theorem test_sample_half : regAfter (fourSeats 0x99010203 (weights 0x80000000)) 1 = some 3 := by decide +kernel
theorem test_sample_below_half : regAfter (fourSeats 0x99010203 (weights 0x7FFFFFFF)) 1 = some 2 := by decide +kernel
theorem test_scan : after (fourSeats 0x98010203 (fun i t => t.setReg 2 (BitVec.ofNat 32 (10 + i))))
    (fun s => (s.thread? ⟨0, 0, 2⟩).map (fun t => t.reg 1)) = some (some 33) := by decide +kernel
theorem witness_sampling : let ws : List (Nat × Rat) := [(0, 1/2), (1, 0), (2, 3/2), (3, 2)]
    (∀ w ∈ ws, 0 ≤ w.2) ∧ 0 < (ws.map Prod.snd).sum := by decide +kernel

/-- A team with one granule of scratchpad. -/
def scratched (w : Nat) (r : List Word) (m : Cells) : State :=
  let s := placed w r
  { s with tm := { s.tm with sgran := 1, scratch := m } }

theorem witness_scratch_last : let s := scratched 0x80010200 [0, 0, 4092] []
    s.canRun 2 none [2] [1] = true ∧ s.hinted = true ∧ s.acqPending = false ∧
    s.scratchFree ((s.th.reg 2).toInt + 4 * s.kFm 0) 4 = true ∧ s.tm.badIn 4092 4 = false := by decide +kernel
theorem witness_scratch_outside : let s := scratched 0x80010200 [0, 0, 4092] []
    4096 * (s.tm.sgran : Int) < ((s.th.reg 2).toInt + 4 * s.kFm 1) + 4 := by decide +kernel
theorem witness_scratch_negative : let s := scratched 0x80010200 [0, 0, 0] [] ; (s.th.reg 2).toInt + 4 * s.kFm 0xFF < 0 := by
  decide +kernel
theorem witness_scratch_misaligned : let s := scratched 0x80010200 [0, 0, 4091] []
    ¬ ((s.th.reg 2).toInt + 4 * s.kFm 0 < 0 ∨ 4096 * (s.tm.sgran : Int) < (s.th.reg 2).toInt + 4 * s.kFm 0 + 4) ∧
    ((s.th.reg 2).toInt + 4 * s.kFm 0).toNat % 4 ≠ 0 := by decide +kernel
theorem test_lds_little_endian : regAfter (scratched 0x80010201 [0, 0, 4] [(8, 0x11), (9, 0x22), (11, 0x44)]) 1 = some 0x44002211 := by
  decide +kernel
theorem test_lds_signed : regAfter (scratched 0x8C010201 [0, 0, 4] [(4, 0x80)]) 1 = some 0xFFFFFF80 := by decide +kernel
theorem witness_stashMap : let s := scratched 0x8C000200 [0, 256, 0x10000, 0] []
    s.canRun 2 none [0, 1, 2, 3] [] = true ∧ s.bare = true ∧ s.free false = true := by decide +kernel
theorem witness_stash_window : let s := scratched 0x8C000013 [512] []
    let m := s.tm.setWindow 3 (Stash.mapped 512 256 0x10000 [(⟨0x1F, true⟩, 0x10000)])
    s.tm.windowAt 512 = none ∧ m.windowAt 512 = some 3 := by decide +kernel

/-- The acting team's window 0 holds a filled line at scratchpad 256 for the address 0x10000. -/
def stashed (w : Nat) (r : List Word) : State :=
  let s := scratched w r [(256, 0x5A)]
  let x := Stash.mapped 256 256 0x10000 [(⟨0x1F, true⟩, 0x10000)]
  { s with tm := s.tm.setWindow 0 (x.setLine 0 (.filled 0)) }

theorem witness_load_issue : let s := placed 0x84010200 [0, 0, 0xFFFC, 0]
    s.canRun 2 none [2, 3] [1] = true ∧ s.hinted = true ∧ s.free false = true ∧ s.wordOk 0xFFFC 4 = true ∧
    s.tlbHit s.tm.core s.tm.ctx 0xFFFC = none := by decide +kernel
theorem witness_load_known : let s := ((paged (placed 0x84010200 [])).translate 0 0 0xFFFC .read).2
    (s.tlbHit s.tm.core s.tm.ctx 0xFFFC).isSome = true ∧ good (s.translate s.tm.core s.tm.ctx 0xFFFC .read) (fun x _ => x.2 == 0xFFFC) = true := by
  decide +kernel
theorem witness_load_misaligned : addrOk 0xFFFE 4 = false ∧ addrOk 0x200000000000000 4 = false ∧ addrOk 0x1FFFFFFFFFFFFFC 4 = true := by
  decide +kernel
theorem witness_load_stash : let s := stashed 0x84010200 [0, 0, 0x10000, 0]
    s.tm.stashVa 0x100FC = some (0, 0) ∧ (s.tm.window 0).line 0 = .filled 0 ∧ mixedUnits 0 508 4 = [] ∧ s.tm.badIn 508 4 = false := by decide +kernel
theorem witness_window_settled : (stashed 0x84010200 [0, 0, 0x10000, 0]).settled = true ∧
    (stashed 0x80010200 []).awaited (fun o => o.kind.isRead) = [] := by decide +kernel
/-- R234: of a unit the first byte is the team's own and the others were filled; a word read there becomes whole first. -/
theorem test_stash_mixed : mixedUnits 1 256 4 = [0] ∧ mixedUnits 1 257 2 = [] ∧ mixedUnits 0xF 256 4 = [] := by decide +kernel
theorem test_load_from_stash : regAfter (stashed 0x84010200 [0, 0, 0x10000, 0]) 1 = some 0x5A := by decide +kernel
theorem witness_load_acquire : let s := placed 0xC8010280 [0, 0, 8, 0]
    s.bare = true ∧ s.canRun 4 none [2, 3] [1] = true ∧ s.canRun 4 none [2, 3] [1, 2] = true := by decide +kernel
theorem witness_store_issue : let s := paged (placed 0x86010200 [0, 0, 0xFFFC, 0])
    s.canRun 2 none [2, 3, 1] [] = true ∧ s.hinted = true ∧ s.free true = true ∧ s.wordOk 0xFFFC 4 = true ∧
    s.walkBusy s.tm.core s.tm.ctx 0xFFFC = false ∧
    good (s.translate s.tm.core s.tm.ctx 0xFFFC .write) (fun x _ => x.2 == 0xFFFC) = true := by decide +kernel
theorem witness_store_stash : let s := stashed 0x86010200 [0, 0, 0x10000, 0]
    s.tm.stashVa 0x10000 = some (0, 0) ∧ (s.tm.window 0).coded.getD 0 false = false ∧
    (s.tm.window 0).writable.getD 0 false = true := by decide +kernel
theorem witness_store_release : let s := placed 0xC8010282 [0, 0, 8, 0]
    s.bare = true ∧ s.canRun 4 none [2, 3, 1] [] = true ∧ s.canRun 4 none [2, 3, 1, 2] [] = true := by decide +kernel

/-- A team with a barrier register. -/
def barred (w : Nat) (r : List Word) (x : Bar) : State :=
  let s := placed w r
  { s with tm := { s.tm.setBar 15 x with rings := s.tm.rings.set 7 ⟨4, 14, 15, 0, 0, true⟩ } }

theorem witness_barrier : let s := barred 0xA000011F [0, 1, 0] ⟨2, 1, 65535, 0, 1, true⟩
    s.canRun 3 none [1] [] = true ∧ s.bare = true ∧ s.settled = true ∧ (s.tm.bar 15).valid = true ∧ (s.tm.bar 14).valid = false ∧
    s.th.held = none ∧ s.barFaultFor 15 0 = none ∧ s.canRun 3 none [1, 2] [] = true ∧ s.canRun 3 none [] [] = true := by decide +kernel
theorem witness_barrier_waits : let s := barred 0xA000014F [0, 0, 0] ⟨2, 1, 0, 0, 0, true⟩
    s.canRun 3 none [1] [] = true ∧ s.th.held = none ∧ s.barFaultFor 15 0 = none ∧ ((s.tm.bar 15).phase + 65536 - 0) % 65536 = 0 ∧
    s.tm.preempt = none ∧ ({ s with tm := { s.tm with preempt := some ⟨1⟩ } }).tm.preempt.isSome = true := by decide +kernel
theorem test_bar_phase_wraps : after (barred 0xA000011F [0, 1, 0] ⟨2, 1, 65535, 0, 1, true⟩)
    (fun s => ((s.tm.bar 15).phase, (s.tm.bar 15).arrived, (s.tm.bar 15).waiters)) = some (0, 0, 0) := by decide +kernel
theorem test_bar_wait_parks : after (barred 0xA000014F [0, 0, 0] ⟨2, 1, 0, 0, 0, true⟩)
    (fun s => (s.th.status, (s.tm.bar 15).waiters)) = some (.parked (.bar 15 0), 1) := by decide +kernel

/-- A team with ring 7 on barriers 14 and 15. -/
def ringed (w : Nat) (r : List Word) : State :=
  let s := barred w r ⟨2, 0, 1, 0, 0, true⟩
  { s with tm := s.tm.setBar 14 ⟨2, 0, 4, 0, 0, true⟩ }

theorem witness_ring : let s := ringed 0xA2010227 [0, 0, 3]
    let x := s.tm.ring 7
    s.bare = true ∧ s.th.held = none ∧ s.canRun 3 none [2] [1] = true ∧ x.valid = true ∧ (s.tm.bar x.full).valid = true ∧
    (s.tm.bar x.empty).valid = true ∧ s.barFaultFor x.full 3 = none ∧ 1 ≤ ((s.tm.bar x.full).phase + 65536 - 3) % 65536 ∧
    ((s.tm.bar x.full).phase + 65536 - 3) % 65536 ≤ 32768 := by decide +kernel
theorem witness_ring_acquire : let s := ringed 0xA2010207 [0, 0, 4]
    let x := s.tm.ring 7
    1 ≤ ((s.tm.bar x.empty).phase + 65536 - (4 + 65536 - x.slots) % 65536) % 65536 ∧ s.settled = true ∧
    (s.tm.bar x.empty).arrived + 1 < (s.tm.bar x.empty).expected := by decide +kernel
theorem witness_ring_undeclared : ((placed 0xA2010200 []).tm.ring 0).valid = false := by decide +kernel
/-- The acting thread in another role, inside a clause of another class. -/
def inClass (s : State) (cls : Nat) (role : Role) : State :=
  s.withTh (fun t => { t with role := role, clause := t.clause.map (fun c => { c with cls := cls }) })

/-- A copy thread with two granules of scratchpad and barrier 3. -/
def copying (r : List Word) : State :=
  let s := inClass (placed 0 r) 3 .copy
  { s with tm := { s.tm.setBar 3 ⟨2, 0, 0, 0, 0, true⟩ with sgran := 2 } }

theorem witness_copy_in : let s := copying [4096, 0x10000, 0, 0x4C000100]
    s.bare = true ∧ s.free false = true ∧ s.room OpKind.isCopy 32 = true ∧ s.canRun 3 (some .copy) [0, 1, 2, 3] [] = true ∧
    s.tm.ctlCheck .cpy (CopyCtl.of (s.th.reg 3)) = none ∧ s.rangeOk 4096 4096 = true ∧ addrOk (s.th.pair 1) 16 = true := by
  decide +kernel
theorem witness_copy_widened : let s := copying [4096 + 16, 0x10020, 0, 0x4C00FF01]
    s.canRun 3 (some .copy) [0, 1, 2, 3] [] = true ∧ s.tm.ctlCheck .cpw (CopyCtl.of (s.th.reg 3)) = none ∧
    s.settled = true ∧ s.tm.overlapsStash 4096 256 = false ∧ addrOk (s.th.pair 1) 32 = true := by decide +kernel
theorem witness_copy_list : let s := copying [0x10010, 0, 0x0000FFFF]
    s.canRun 3 (some .copy) [0, 1, 2] [] = true ∧ s.tm.ctlCheck .cpl (CopyCtl.of (s.th.reg 2)) = none ∧
    s.settled = true ∧ addrOk (s.th.pair 0) 16 = true := by decide +kernel
theorem witness_copy_peer : let s := copying [4096, 0, 0x00000100]
    let c := CopyCtl.of (s.th.reg 2)
    s.canRun 3 (some .copy) [0, 1, 2] [] = true ∧ s.tm.ctlCheck .peer c = none ∧ s.peerTeam c = some s.tm ∧
    s.tm.scratchCheck 4096 4096 16 = none ∧ s.rangeOk 0 4096 = true := by decide +kernel
theorem test_copy_detail : (copying []).tm.ctlCheck .cpy (CopyCtl.of 0x40000100) = some 1 ∧
    (copying []).tm.ctlCheck .cpy (CopyCtl.of 0x00008001) = some 6 ∧ (copying []).tm.ctlCheck .peer (CopyCtl.of 0x80000100) = some 6 := by
  decide +kernel

/-- A matrix thread with a window of 256 whose parameter block at 4096 names four tiles of zeros at 8192 and an
accumulator at 2048; its scratchpad is three granules. -/
def matrix (r : List Word) (m : Cells) : State :=
  let s := inClass (placed 0 []) 3 .matrix
  { s with th := { s.th with regs := r ++ List.replicate (256 - r.length) 0 },
           tm := { s.tm with sgran := 3, scratch := m } }

/-- The block: wofs 8192, aofs 2048, every tile all zeros, scales in v64. -/
def zeroBlock : Cells := [(4097, 0x20), (4101, 0x08), (4105, 4), (4107, 4), (4109, 4), (4111, 4), (4121, 64)]
/-- The block of a plain multiply: only aofs 2048 and the B block at v96. -/
def plainBlock : Cells := [(4101, 0x08), (4122, 96)]

/-- What the hypotheses of a matrix word say of a state. -/
def entersQueue (s : State) (a p : Nat) (mmf : Bool) (af wf : Elem) : Bool :=
  let o := (s.th.reg p).toNat
  let prm := MatParams.of (s.tm.scratchBytes o 32)
  let regs := prm.regs mmf a af wf
  let src := if mmf then [] else (prm.ranges false).filter (fun r => r.1 != prm.aofs)
  s.bare && s.free false && s.room OpKind.isMatrix 8 && s.canRun 3 (some .matrix) [p] [] && s.th.block.isNone && o % 32 == 0 &&
  decide (o + 32 ≤ 4096 * s.tm.sgran) && !s.absent s.tm.uid (o / 256) && !s.tm.badIn o 32 &&
  (s.tm.matChecks prm mmf o a s.th.window af wf).isNone && (s.matHazard regs).isNone && s.pendingSeats regs == 0 &&
  (s.firstAbsent s.tm.uid src).isNone && (s.tm.firstBad src).isNone

theorem witness_mmq : [(Elem.e4m3, Elem.int4), (.e5m2, .int4), (.bf16, .int4), (.e4m3, .int3), (.bf16, .int3), (.e4m3, .e2m1),
    (.bf16, .e2m1)].all (fun f => entersQueue (matrix [4096] zeroBlock) 1 0 false f.1 f.2) = true := by decide +kernel
theorem witness_mmq_tiles : let s := matrix [4096] zeroBlock
    let prm := MatParams.of (s.tm.scratchBytes 4096 32)
    prm.tiles = 4 ∧ (match s.tm.weightTiles prm false with | .ok ts => ts | .error _ => []) = List.replicate 4 (List.replicate 256 0) ∧
    s.tm.bitmapWords prm = [] := by decide +kernel
theorem witness_mmf : [Elem.e4m3, .e5m2, .bf16].all (fun f => entersQueue (matrix [4096] plainBlock) 1 0 true f f) = true := by
  decide +kernel
theorem witness_accClr : let s := matrix [2048] []
    s.canRun 3 (some .matrix) [0] [] = true ∧ s.free false = true ∧ s.room OpKind.isMatrix 8 = true ∧
    2048 + 2048 ≤ 4096 * s.tm.sgran ∧ s.tm.overlapsStash 2048 2048 = false := by decide +kernel

/-- Memory beside the page table. -/
def withBytes (s : State) (m : Cells) : State := { paged s with mem := (paged s).mem ++ m }

/-- A matrix thread and a code table of one symbol at 0x40000. -/
def codeTable : State := withBytes (matrix [0x40000] []) [(0x40002, 1)]

theorem witness_ctld : let s := codeTable
    s.canRun 3 (some .matrix) [0, 1] [] = true ∧ s.free false = true ∧ addrOk (s.th.pair 0) 32 = true ∧ s.written = true ∧
    s.tm.recordLine (s.th.pair 0) 9 = none ∧
    good (s.recordBytes (s.th.pair 0) 9) (fun r _ => (tableFault r).isNone && r.length == 288) = true := by decide +kernel
theorem witness_ctst : let s := codeTable
    s.tm.windowed (s.th.pair 0) 9 = false ∧ s.tm.recordLine (s.th.pair 0) 9 = none ∧
    good (s.storeParts (s.th.pair 0) ((s.tm.ctabs.getD 3 none).getD (List.replicate 288 0)) 9) (fun p _ => p.length == 9) = true := by
  decide +kernel
/-- A matrix thread whose registers 0 and 1 name the last line of a filled stash window of two lines. -/
def windowedTable : State :=
  let s := codeTable
  let x := { Stash.mapped 0 512 0x3FF00 [(⟨0x1F, true⟩, 0x3FF00), (⟨0x1F, true⟩, 0x40000)] with lines := [.filled 0, .filled 0] }
  { s with tm := { s.tm.setWindow 0 x with sgran := 1 } }
theorem witness_ctst_window : let s := windowedTable
    s.tm.windowed (s.th.pair 0) 9 = true ∧ s.settled = true ∧ s.tm.recordLine (s.th.pair 0) 9 = none ∧
    good (s.storeParts (s.th.pair 0) (List.replicate 288 1) 9) (fun p _ => p.length == 1) = true := by decide +kernel
theorem test_ctst_window : let m := windowedTable.tm.storeRecord 0x40000 (List.replicate 288 1) 9
    m.scratchByte 255 = 0 ∧ m.scratchByte 256 = 1 ∧ m.scratchByte 511 = 1 ∧ (m.window 0).line 1 = .filled (BitVec.allOnes 256) := by decide +kernel
theorem test_ctinv : (match exec (.ctinv 3) { codeTable with tm := { codeTable.tm with ctabs := List.replicate 8 (some [1]) } } with
    | .next t => t.tm.ctabs.map Option.isSome
    | _ => []) = [true, true, true, false, true, true, true, true] := by decide +kernel

/-- A state for the words of class 4 on the word at 0x40000, which holds 7. -/
def atomic (r : List Word) : State := withBytes (inClass (placed 0 r) 4 .vector) [(0x40000, 7)]

theorem witness_atomic : let s := atomic [5, 9, 1, 2, 0x40000, 0]
    s.bare = true ∧ s.free false = true ∧ s.canRun 4 none [4, 5, 0, 1, 2, 3] [0, 1] = true ∧ s.wordOk (s.th.pair 4) 8 = true ∧
    s.walkBusy s.tm.core s.tm.ctx (s.th.pair 4) = false ∧
    good (s.translateAll s.tm.core s.tm.ctx (s.th.pair 4) [.write, .read]) (fun x _ => x.2 == 0x40000) = true := by decide +kernel
theorem witness_badd : let s := atomic [5, 9, 1, 2, 0x40000, 0]
    let u (bf : Bool) : State := { s with ctxs := s.ctxs.map (fun c => { c with regions := [⟨true, 0x40000, bf, 256, 16⟩] }) }
    ((u false).regionOf s.tm.ctx (s.th.pair 4)).map Region.bf16 = some false ∧
    ((u true).regionOf s.tm.ctx (s.th.pair 4)).map Region.bf16 = some true ∧
    (s.regionOf s.tm.ctx (s.th.pair 4)).isNone = true ∧ s.tlbHit s.tm.core s.tm.ctx (s.th.pair 4) = none := by decide +kernel
theorem witness_bsettle : let s := atomic [5, 9, 1, 2, 0x40000, 0]
    s.canRun 4 none [4, 5] [] = true ∧ s.wordOk (s.th.pair 4) 1 = true ∧
    good (s.translate s.tm.core s.tm.ctx (s.th.pair 4) .read) (fun x _ => x.1.entry.getLsbD 3) = true := by decide +kernel
theorem witness_mwait : let s := atomic [7, 0, 0, 0, 0x40000, 0]
    s.bare = true ∧ s.acqPending = false ∧ s.th.held = none ∧ s.canRun 4 none [4, 5, 0] [] = true ∧ s.wordOk (s.th.pair 4) 4 = true ∧
    s.written = true ∧ s.walkBusy s.tm.core s.tm.ctx (s.th.pair 4) = false ∧
    good (s.translate s.tm.core s.tm.ctx (s.th.pair 4) .read) (fun x t =>
      t.homeReadable s.tm.core (s.th.pair 4) x.2 4 == .ok () && leWord (t.homeAt none s.tm.core x.2 4).1 == s.th.reg 0) = true := by
  decide +kernel
theorem test_mwait : (match exec (.mwaitEq 0 4) (atomic [7, 0, 0, 0, 0x40000, 0]), exec (.mwaitNe 0 4) (atomic [7, 0, 0, 0, 0x40000, 0]) with
    | .next t, .next u => decide (t.th.status = .ready) && decide (u.th.status = .parked (.mwait 0x40000 1 7))
    | _, _ => false) = true := by decide +kernel
theorem witness_fence : let s := atomic []
    s.bare = true ∧ s.canRun 4 none [] [] = true ∧ s.settled = true ∧ s.th.trapActive = false ∧ s.ops = [] ∧
    s.awaited (fun o => o.kind.isRead || o.kind.isWrite) = [] := by decide +kernel
theorem witness_fence_stalls : let s := (atomic []).addOp false [] (some 0x40000) (.store 0x40000 [1] none)
    (s.awaited (fun o => o.kind.isRead || o.kind.isWrite)).map Op.id = [0] ∧ s.heldBack s.th.key = [] := by decide +kernel
theorem witness_maintenance : let s := atomic [256, 0, 0, 0, 0xFFFFFF00, 0x01FFFFFF]
    s.canRun 4 none [4, 5, 0] [] = true ∧ s.free false = true ∧ (s.th.pair 4).toNat + (s.th.reg 0).toNat = 2 ^ 57 := by decide +kernel
/-- A tensor of rank 2, 64 by 32 elements: index at 0x50000, pool at 0x60000. -/
def flatTensor (num fmt scale : Nat) (w : Nat) : Desc :=
  { num := num, rank := 2, fmt := fmt, policy := 0, tslot := 0, dims := [w, 32, 1, 1], index := 0x50000, pool := 0x60000, scale := scale }

/-- A descriptor record at an address (R291). -/
def descBytes (at_ fmt w : Nat) : Cells :=
  [(at_, 2), (at_ + 1, BitVec.ofNat 8 fmt), (at_ + 4, BitVec.ofNat 8 w), (at_ + 8, 32), (at_ + 12, 1), (at_ + 16, 1),
   (at_ + 0x1A, 5), (at_ + 0x22, 6)]

/-- A thread for words of class 5 in role `ro`, handle 3 bound to descriptor 1 of format 5, and a scale tensor as
descriptor 2. -/
def tiled (ro : Role) (r : List Word) : State :=
  let s := withBytes (inClass (placed 0 r) 5 ro) (descBytes 0x40040 5 64 ++ descBytes 0x40080 2 2)
  { s with ctxs := s.ctxs.map (fun c => { c with dtab := 0x40000 }),
           tm := { s.tm with sgran := 2, handles := s.tm.handles.set 3 (some 1),
                             descs := s.tm.descs.set 3 (some (flatTensor 1 5 2 64)) } }

theorem witness_tdesc : let s := tiled .vector [1]
    s.bare = true ∧ s.canRun 5 none [0] [] = true ∧ s.acqPending = false ∧ s.written = true ∧
    good (s.deviceBytes ((((s.ctxOf s.tm.ctx).map Ctx.dtab).getD 0) + 64) 2)
      (fun b _ => decide (Desc.of 1 b = some (flatTensor 1 5 0 64))) = true := by decide +kernel
theorem test_tdesc_past : (match exec (.tdesc 0 3) (tiled .vector [4096]) with
    | .next t => decide (t.th.cause = 0x28)
    | _ => false) = true := by decide +kernel
theorem witness_tile_read : let s := tiled .vector [6, 31, 0]
    let t := flatTensor 1 5 2 64
    s.free false = true ∧ s.tileOk none [] [2] 0 3 t = true ∧ s.tileOk none [] [2, 3] 0 3 t = true ∧ t.width = 4 ∧
    t.tileOf (s.th.coords 0 2) = [0, 1, 0, 0] ∧ (s.th.coords 0 2).getD 0 0 % (8 / t.width) = 0 := by decide +kernel
theorem witness_tile_store : let s := tiled .vector [6, 31, 4096]
    let t := flatTensor 1 5 2 64
    let u := s
    s.tileOk none [2] [] 0 3 t = true ∧ u.room OpKind.isMint 16 = true ∧ u.tm.scratchCheck 4096 256 256 = none ∧
    u.tm.overlapsStash 4096 256 = false := by decide +kernel
theorem witness_tile_range : let s := tiled .vector [6, 31, 2]
    let t := flatTensor 1 5 2 64
    let r : TileRef := { handle := 3, desc := t, coords := t.tileOf (s.th.coords 0 t.rank) }
    s.tileOk none [2] [] 0 3 t = true ∧ t.tiles = 4 ∧ r.num = 2 ∧ r.num + (s.th.reg 2).toNat ≤ t.tiles := by decide +kernel
theorem witness_cpt : let s := tiled .copy [6, 31, 0, 0x80000002, 4096]
    let t := flatTensor 1 5 2 64
    let u := s
    let w := u.th.reg 3
    s.tileOk (some .copy) [2, 3, 4] [] 0 3 t = true ∧ u.room OpKind.isCopy 32 = true ∧ u.tm.cptCheck t w = none ∧
    (t.tileOf (s.th.coords 0 2)).getD 0 0 + 2 ≤ t.grid 0 ∧ u.tm.scratchCheck 0 512 256 = none ∧ u.tm.overlapsStash 0 512 = false ∧
    u.tm.scratchCheck 4096 8 8 = none ∧ u.tm.overlapsStash 4096 8 = false := by decide +kernel
theorem witness_spool : let s := tiled .vector [0x60000, 0, 6]
    s.canRun 5 none [0, 1, 2] [] = true ∧ s.tm.descOf 3 = some (flatTensor 1 5 2 64) ∧ (s.th.reg 2).toNat = 6 := by decide +kernel

theorem witness_tenc : let s := tiled .vector [32, 31, 0x3F80]
    let t := flatTensor 1 5 2 64
    let u : State := { s with th := { s.th with status := .xlane 0xFFFFFFFF } }
    s.bare = true ∧ s.free false = true ∧ s.room OpKind.isMint 16 = true ∧ s.written = true ∧ s.canRun 5 none [2, 0, 1] [] = true ∧
    u.complete? (u.waitingAt s.th.key s.th.pc) = some [u.th] ∧ u.team? s.th.key.team = some s.tm ∧ u.setsDiffer [u.th] = 0 ∧
    u.meetFault u.th s.tm [2, 0, 1] [] = none ∧ t.inside (s.th.coords 0 2) = true ∧ (s.th.coords 0 2).getD 0 0 % 32 = 0 ∧
    good ((u.issueTogether [u.th]).deviceBytes ((((s.ctxOf s.tm.ctx).map Ctx.dtab).getD 0) + 128) 2)
      (fun b _ => match Desc.of 2 b with | some sc => sc.suits t | none => false) = true := by decide +kernel

theorem witness_tlbinv : let s := tiled .vector [63, 0, 0xFFFFFFFF, 0x01FFFFFF]
    s.bare = true ∧ s.isSup = true ∧ s.free false = true ∧ s.settled = true ∧ (s.th.reg 0).toNat = 63 ∧
    s.canRun 5 none [2, 3, 0] [] = true ∧ s.canRun 5 none [0] [] = true ∧ (s.th.pair 2).toNat = 2 ^ 57 - 1 := by decide +kernel
theorem witness_tlbinv_tenant : let s := tiled .vector []
    ({ s with ctxs := s.ctxs.map (fun c => { c with supervisor := false }) } : State).isSup = false := by decide +kernel
theorem test_tlbinv_drops : let s := ((tiled .vector [0]).translate 0 0 0x40000 .read).2
    (s.tlbHit 0 0 0x40000).isSome = true ∧
    (match exec (.tlbinvCtx false 0) s with | .next t => (t.tlbHit 0 0 0x40000).isNone | _ => false) = true := by decide +kernel

/-- A thread for words of class 6 in role `ro`, in a module with number 5 and port 0 working. -/
def farther (ro : Role) (r : List Word) : State :=
  let s := withBytes (inClass (placed 0 r) 6 ro) [(0x40000, 1)]
  { s with fabric := { s.fabric with modid := 0x80000005, ports := 1 } }

theorem witness_teller : let s := farther .vector [0x40000, 0, 47]
    s.bare = true ∧ s.acqPending = false ∧ s.canRun 6 none [0, 1] [] = true ∧ addrOk (s.th.pair 0) 64 = true ∧ s.written = true ∧
    s.tm.recordLine (s.th.pair 0) 8 = none ∧ good (s.recordBytes (s.th.pair 0) 8) (fun b t => b.length == 256 && t.flagRoom false) = true ∧
    s.canRun 6 none [2] [3] = true ∧ s.flagRoom false = true := by decide +kernel
theorem test_tstat_past : (match exec (.tstat false 3 2) (farther .vector [0, 0, 48]) with
    | .next t => decide (t.th.cause = 2)
    | _ => false) = true := by decide +kernel
theorem witness_remote_copy : let s := farther .copy [511, 0x40010, 0, 0x40020, 0, 65536, 0x40040, 0, 0, 0]
    s.bare = true ∧ s.free false = true ∧ s.cannotSend = none ∧
    s.canRun 6 (some .copy) [0, 1, 2, 3, 4, 5, 6, 7, 8, 9] [8, 9] = true ∧ s.canRun 6 (some .copy) [0, 1, 2, 3, 4, 5, 6, 7] [] = true ∧
    s.room OpKind.isCopy 32 = true ∧ addrOk (s.th.pair 1) 16 = true ∧ addrOk (s.th.pair 3) 16 = true ∧
    (s.th.reg 5).toNat = 65536 ∧ addrOk (s.th.pair 6) 16 = true ∧ addrOk (s.th.pair 6) 4 = true := by decide +kernel
theorem witness_remote_signal : let s := farther .vector [0, 0x40004, 0, 9]
    let r : RemoteOp := remoteNow 0 (.signal (s.th.pair 1)) none
    let q : RemoteOp := remoteNow 0 (.add (s.th.pair 1) 9) (some 3)
    s.canRun 6 none [0, 1, 2] [] = true ∧ s.canRun 6 none [0, 1, 2, 3] [3] = true ∧ addrOk (s.th.pair 1) 4 = true ∧
    s.ops = [] ∧ s.settled = true ∧ s.awaited (fun o => o.accesses || o.isRemote) = [] ∧
    ((s.systemFork.addOp false [] none (.remote r)).op? s.systemFork.nextOp).isSome = true ∧
    ((s.systemFork.addOp false [3] none (.remote q)).op? s.systemFork.nextOp).isSome = true := by decide +kernel
theorem witness_frames_quiet : stored.registrations = [] ∧ (stored.coreAt 0).l1Line (.line 0) = none ∧ unitsOf 8 4 = [1] ∧
    stored.ownerOf 2 = none := by decide +kernel
theorem witness_return_other : let s := (inHandler 0x4008).withTh (fun t => { t with resume := { t.resume with own := false } })
    s.th.fpc = s.th.fpc0 ∧ s.th.replay = none ∧ s.th.resume.own = false ∧ s.canRun 0 none [] [] = true := by decide +kernel
theorem witness_spawn_others : let t (n : Nat) : Till := ⟨BitVec.ofNat 64 (0x100 * n), .copy, [1], none, 64⟩
    let s := spawner ((List.range 8).map (fun n => some (t n)))
    s.tm.tillOf 0x80 .vector = none ∧ (List.range 8).all (fun k => (s.tm.till k).isSome) = true ∧
    (s.tm.entryRec 0x80 .vector).isSome = true := by decide +kernel
theorem test_spawn_parks : let t (n : Nat) : Till := ⟨BitVec.ofNat 64 (0x100 * n), .copy, [1], none, 64⟩
    (match exec (.spawnf .vector 0 0x20) (spawner ((List.range 8).map (fun n => some (t n)))) with
     | .next u => decide (u.th.status = .parked (.spawn 0x80 .vector 7 true))
     | _ => false) = true := by decide +kernel
/-- A thread whose clause of class `c` holds the word `w` next. -/
def before (c : Nat) (w : Word) : State :=
  (placed 0xFC000000 []).withTh (fun t => { t with clause := t.clause.map (fun x => { x with cls := c, words := [0, w] }) })
theorem witness_prefix_fields : (before 2 0x86010203).nextWord = some 0x86010203 ∧ isGlobalStore 0x43 3 = true ∧
    hintPrefixable 0x43 3 = true ∧ isScratchWord 0x40 3 = true ∧ hintPrefixable 0x40 3 = true ∧ operandPrefixable 0x1B = true ∧
    usesAddend 0x01 = false ∧ (before 2 0x80010203).opcodeOk 0x80010203 = true ∧ (before 2 0x80010203).classOk 0x80010203 = true ∧
    (before 2 0x86010203).bare = true := by decide +kernel
theorem test_prefix_count_store : (match exec (.hintPrefix 1 0 0) (before 2 0x86010203) with
    | .next u => decide (u.th.status = .stopped)
    | _ => false) = true := by decide +kernel
theorem witness_rounding : (0 : Rat) ≤ 1 ∧ 1 ≤ fp32.mag fp32.maxCode ∧ (2 : Rat) ^ 128 - 2 ^ 103 ≤ 2 ^ 128 ∧ ¬ (61440 : Rat) ≤ 57344 ∧
    0xFF * 2 ^ 23 < (0x7F800001 : Word).toNat % 2 ^ 31 ∧ (Val.inf false ∈ [Val.inf false, Val.inf true]) := by
  decide +kernel
theorem test_group_step : groupStep 0x3F800000 (some (.fin true 2)) [.fin false 1, .fin true 3] = 0x40A00000 ∧
    groupStep 0x3F800000 none [.fin true 1] = 0 ∧ groupStep 0 (some (.fin false 0)) [.inf false] = 0x7FC00000 := by decide +kernel
theorem test_overflow : (toF32 .rne (.fin false (2 ^ 128 - 2 ^ 103))).toNat = 0x7F800000 ∧ e4m3.enc .rne .nan (.fin false 465) = 0x7F ∧
    e4m3.enc .rne .nan (.fin true 464) = 0xFE := by decide +kernel
theorem witness_mmq_faults : let m (x : Cells) (bad : List Nat) : Team := { (matrix [4096] x).tm with badWords := bad }
    let p (x : Cells) : MatParams := MatParams.of ((m x []).scratchBytes 4096 32)
    let raw : Cells := [(4097, 0x20), (4101, 0x08)]
    let map : Cells := [(4097, 0x20), (4101, 0x08), (4105, 4), (4107, 4), (4109, 4), (4111, 4), (4123, 1), (4125, 0x18)]
    (m zeroBlock [3]).weightTiles (p zeroBlock) false = .ok (List.replicate 4 (List.replicate 256 0)) ∧
    (m raw [2048]).weightTiles (p raw) false = .error (.bad 2048) ∧ (p raw).tiles = 4 ∧
    (m map []).weightTiles (p map) false = .error .bitmap ∧ (p map).sparsity = 1 ∧ (p map).tiles = 2 ∧
    (m map []).firstBad [((p map).mofs, 256)] = none ∧ keptOf 1 = 16 := by decide +kernel
/-- A thread with a load that has faulted and a store issued after it. -/
def owing : State :=
  let s := placed 0 []
  let u := timed ((s.addOp false [1] none (.load 0x40000 4 false 1 0 0 none)).addOp false [] (some 0x40100) (.store 0x40100 [1, 2, 3, 4] none))
  inClass { u with th := s.th, ops := u.ops.map (fun o =>
    if o.id = 0 then { o with fault := some { cause := 0x31 } } else { o with issue := 99 }) } 4 .vector
theorem witness_fence_held : let s := owing
    (s.heldBack s.th.key).map Op.id = [1] ∧ (s.awaited (fun o => o.kind.isRead || o.kind.isWrite)).map Op.id = [0, 1] ∧
    (s.ops.find? (fun p => p.fault.isSome && (s.awaited (fun o => o.kind.isRead || o.kind.isWrite)).contains p)).map
      (fun p => (p.id, s.faultReady p)) = some (0, true) ∧
    s.canRun 4 none [] [] = true ∧ s.th.trapActive = false := by decide +kernel
theorem test_fence_takes_fault : (match exec (.fenceRel .device) (owing) with
    | .next u => decide (u.th.status = .stopped)
    | _ => false) = true := by decide +kernel
theorem witness_atomic_denied : let s := atomic [5, 9, 1, 2, 0x40000, 0]
    let u : State := { s with mem := s.mem.map (fun c => if c.1 = 0x30000 then (c.1, 0x17) else c) }
    (match (u.translateAll 0 0 0x40000 [.write, .read]).1 with | .error x => x.cause | .ok _ => 0) = 0x11 ∧
    good (u.translate 0 0 0x40000 .read) (fun x _ => x.2 == 0x40000) = true := by decide +kernel
theorem witness_ldb_hit : let s := ((atomic [5, 9, 1, 2, 0x40000, 0]).translate 0 0 0x40000 .read).2
    (s.tlbHit 0 0 0x40000).isSome = true ∧ good (s.translate 0 0 0x40000 .read) (fun x _ => x.2 == 0x40000) = true := by decide +kernel
theorem witness_packet_line : let s := scratched 0 [0x10000, 0] []
    let x := Stash.mapped 256 256 0x10000 [(⟨0x1F, true⟩, 0x10000)]
    let u := inClass { s with tm := s.tm.setWindow 0 x } 6 .vector
    u.tm.recordLine 0x10000 8 = some (0, 0, 256) ∧ u.canRun 6 none [0, 1] [] = true ∧ u.written = true := by decide +kernel
theorem witness_signal_fault : let s := (farther .vector [0, 0x40004, 0, 9]).addOp false [] none (.remote (remoteNow 7 (.signal 0x50004) none))
    let u : State := { s with ops := s.ops.map (fun o => { o with fault := some { cause := 0x32, engine := true } }), th := { s.th with clause := (farther .vector []).th.clause } }
    u.awaited (fun o => o.accesses || o.isRemote) = [] ∧
    (u.ops.find? (fun p => p.key == u.th.key && p.isRemote && p.fault.isSome)).map Op.id = some 0 ∧
    u.canRun 6 none [0, 1, 2] [] = true ∧ u.th.trapActive = false := by decide +kernel

/-! ### Events -/

/-- The state after an instruction or event, or the one before where it does not apply. -/
noncomputable def ran (i : Instr) (s : State) : State :=
  match exec i s with
  | .next t => timed t
  | _ => s

/-- An event occurs: it changes the state. -/
noncomputable def applies (i : Instr) (s : State) : Bool := s.occurs i

/-- Walks of the pages below 0x80000 have ended for every operation. -/
def ended (s : State) : State :=
  { s with ops := s.ops.map (fun o => { o with walked := (List.range 32).map (fun i => (i / 8, 0, i % 8)) }) }

theorem witness_clause : let s := withBytes (placed 0 []) [(0x40003, 0x10), (0x40007, 0x5A)]
    let t : Thread := { s.th with clause := none, hdr := 0x40000, startAt := 0 }
    let u := s.withTh (fun _ => t)
    u.thread? t.key = some t ∧ u.team? 0 = some u.tm ∧ t.live = true ∧ u.tm.resident = true ∧ u.tm.preempt = none ∧
    u.unflagged t = none ∧
    good (u.fetchWord u.tm t.hdr) (fun h v => h == 0x10000000 && headerOk h.toNat && (v.headerWait t u.tm h.toNat).isNone &&
      good (v.fetchWords u.tm 1 0x40004) (fun ws _ => ws == [0x5A000000] && (clauseCheck ws).isNone)) = true := by decide +kernel
theorem witness_watchdog : let s := (placed 0 []).withTh (fun t => { t with watchdog := 2 ^ 24 })
    s.thread? ⟨0, 0, 0⟩ = some s.th ∧ s.th.status.counts = true ∧ ((s.ctxOf s.tm.ctx).map Ctx.wdog).getD (2 ^ 24) = 2 ^ 24 ∧
    s.tm.resident = true := by decide +kernel
theorem witness_till_timer : let s := spawner (some ⟨0x80, .vector, [1], none, 0⟩ :: List.replicate 7 none)
    (s.tm.till 0).isSome = true ∧ s.tm.resident = true ∧ (s.team? 0).isSome = true := by decide +kernel
theorem witness_till_release : let s := spawner (some ⟨0x80, .vector, [1], some 0, 0⟩ :: List.replicate 7 none)
    (s.canRelease s.tm).map (fun x => (x.1, x.2.2.1, x.2.2.2.2)) = some (0, 1, 32) := by decide +kernel

/-- A grid of two teams on die 0, running. -/
def aGrid (id queue cls : Nat) : Grid :=
  { id := id, queue := queue, ctx := 0, cls := cls, irq := false, teams := 2, next := 0, deadline := 0, deadlineHit := false,
    urgent := false, bmark := 0, heldFor := [], fgroups := 32, text := 0x40000, entries := [], live := [], farea := 0x50000,
    roles := [⟨0, 1, 256⟩, ⟨0, 0, 0⟩, ⟨0, 0, 0⟩], cword := 0x60000, waits := [], tcfg := List.replicate 64 0, regions := [],
    consts := [], done := false }

/-- The placed thread's team belongs to grid 7 of class 1. -/
def running (f : State → State) : State :=
  let s := placed 0 []
  f { s with tm := { s.tm with grid := 7 }, grids := [{ aGrid 7 0 1 with next := 1, teams := 1 }], issue := none }

/-- A team of another grid waits in die 0, which so can take no team of grid 8. -/
def crowdedDie (cls : Nat) (u : Bool) : State :=
  running (fun s => { s with grids := s.grids ++ [{ aGrid 8 1 cls with urgent := u }],
                             teams := [{ Team.inert with uid := 9, grid := 9, res := .waiting }] })
theorem witness_preemption : (crowdedDie 2 true).victim 0 = some (crowdedDie 2 true).tm ∧ (crowdedDie 2 true).tm.uid = 0 ∧
    ((crowdedDie 2 true).gridOfTeam (crowdedDie 2 true).tm).map Grid.bmark = some 0 := by decide +kernel
/-- The same with a grid 7 that is handed out in waves of four. -/
def waved : State := let s := crowdedDie 2 true; { s with grids := s.grids.map (fun g => if g.id = 7 then { g with bmark := 4 } else g) }
theorem witness_wave : waved.victim 0 = some waved.tm ∧ (waved.gridOfTeam waved.tm).map Grid.bmark = some 4 := by decide +kernel
/-- R379: the chosen team runs to exit, its grid is held for grid 8, and no other team is chosen for it. -/
theorem test_wave : let s := ran (.preemptionRequest 0) waved
    s.tm.preempt = none ∧ s.tm.toExit = true ∧ s.grids.map Grid.heldFor = [[8], []] ∧ s.victim 0 = none := by decide +kernel
theorem witness_grace : let s := running (fun s => { s with tm := { s.tm with preempt := some ⟨0⟩ } })
    s.tm.resident = true ∧ s.unstopped s.tm = true ∧ s.team? 0 = some s.tm := by decide +kernel
theorem witness_step_due : let s := running (fun s => s.withTh (fun t => { t with watchdog := 2 ^ 24 }))
    s.issue = none ∧ s.heldFault = none ∧ s.redoIssue = none ∧ s.occurs (.watchdog ⟨0, 0, 0⟩) = true := by decide +kernel
theorem witness_overflow_reads : let s := withBytes (running (fun s => s.withTh (fun t => { t with status := .parked (.mwaitOverflow 0x40000 0 7) }))) [(0x40000, 7)]
    (s.thread? ⟨0, 0, 0⟩).map Thread.status = some (.parked (.mwaitOverflow 0x40000 0 7)) ∧
    good (s.translate 0 0 0x40000 .read) (fun x t => t.homeReadable 0 0x40000 x.2 4 == .ok () &&
      cmpHolds 0 (leWord (t.homeAt none 0 x.2 4).1) 7) = true := by decide +kernel
theorem witness_compactor : let s := running (fun s => { s with tm := { s.tm with sgran := 2 } })
    s.runStill s.tm 0 = true ∧ (s.tm.groups.find? (fun g => g.num == 0)).map Group.blocks = some 32 ∧
    s.blocksFree s.tm.core 224 32 = true ∧ s.scratchStill s.tm = true ∧ granules 2 = 2 ∧ s.granulesFree s.tm.core 126 2 = true := by
  decide +kernel
theorem witness_overflow_poll : let s := running (fun s => s.withTh (fun t => { t with status := .parked (.mwaitOverflow 0x40000 0 1) }))
    applies (.mwaitOverflowPoll ⟨0, 0, 0⟩) s = true := by decide +kernel
theorem witness_coreReset : let s := running id
    s.allTeams.all (fun m => !(m.resident && m.core == 1535)) = true := by decide +kernel

theorem witness_sfu_return : let s := ran (.rcp false 1 2) (inClass (placed 0 [0, 0, 0x40000000]) 1 .vector)
    opThat s 0 (fun o => s.opReady 0 o && decide (o.kind = .sfu 1 0x3F000000)) = true := by decide +kernel

/-- A thread's load of the word 7 at 0x40000, walked. -/
noncomputable def loading : State :=
  let s := withBytes (inClass (placed 0 [0, 0, 0x40000, 0]) 2 .vector) [(0x40000, 7)]
  ran (.pageWalk 0) (ran (.pageWalk 0) (ran (.ldB32 false 1 2 0) s))

theorem witness_load_return : let s := loading
    opThat s 0 (fun o => s.opReady 0 o && decide (o.pa = some 0x40000) && s.readReady o 0x40000 4 &&
      s.tileGathered o 0x40000 && decide (s.tileReadable o 0x40000 0x40000 = .ok ())) = true := by decide +kernel
theorem witness_load_acquired : let s := ran (.pageWalk 0) (ran (.pageWalk 0) (ran (.ldAcqB32 false 0 4 .device) (atomic [5, 9, 1, 2, 0x40000, 0])))
    opThat s 0 (fun o => s.opReady 0 o && decide (o.pa = some 0x40000) && s.readReady o 0x40000 4 &&
      decide (s.acqReadable o 0x40000 0x40000 4 .device = .ok ())) = true := by decide +kernel
theorem witness_store_written : let s := ran (.stB32 false 1 2 0) (paged (inClass (placed 0 [0, 9, 0x40000, 0]) 2 .vector))
    opThat s 0 (fun o => s.opReady 0 o && decide (o.kind = .store 0x40000 [9, 0, 0, 0] none) && decide (o.pa = some 0x40000) &&
      s.writeReady o 0x40000 4 && s.releaseReady o) = true ∧ s.hasEscrow (lineOf 0x40000) = false := by decide +kernel
theorem test_store_written : let s := ran (.storeWritten 0) (ran (.stB32 false 1 2 0) (paged (inClass (placed 0 [0, 9, 0x40000, 0]) 2 .vector)))
    (s.cluster 0).bytes = (0x40000, 9) :: (List.range 3).map (fun i => (0x40001 + i, 0)) ∧ s.performByte 0x40000 = 0 := by decide +kernel
theorem witness_atomic_return : let s := ran (.atomAddB32 false 0 4 .device) (atomic [5, 9, 1, 2, 0x40000, 0])
    opThat s 0 (fun o => s.opReady 0 o && decide (o.pa = some 0x40000) && (s.atomLanes o).all (fun p => s.atomReady p 0x40000 4) &&
      decide (s.readable 0x40000 0x40000 4 = .ok ())) = true := by decide +kernel
theorem test_atomic_return : let s := ran (.atomicReturn 0) (ran (.atomAddB32 false 0 4 .device) (atomic [5, 9, 1, 2, 0x40000, 0]))
    s.th.reg 0 = 7 ∧ leWord (s.performBytes 0x40000 4) = 12 := by decide +kernel
theorem witness_allowance : let s := atomic [0x3F800000, 9, 1, 2, 0x40000, 0]
    let u := ran (.baddF32 false 0 4) { s with ctxs := s.ctxs.map (fun c => { c with regions := [⟨true, 0x40000, false, 256, 0x42000000⟩] }) }
    opThat u 0 (fun o => u.opReady 0 o && u.baddTurn o 0x40000 && u.baddAsks o false 0x3F800000 0x40000 0 &&
      decide (o.pa = some 0x40000)) = true := by decide +kernel
theorem witness_walk : let s := ran (.ldB32 false 1 2 0) (withBytes (inClass (placed 0 [0, 0, 0x40000, 0]) 2 .vector) [(0x40000, 7)])
    let u := ran (.pageWalk 0) s
    opThat s 0 (fun o => match s.walkKey o with
      | some k => !s.walks.contains k && decide ((s.walksOn k.1).length < 64) && u.walks.contains k &&
        decide ((u.walkers? k).map Op.id = [0]) && (match o.kind.walkKinds with
          | some (va, ks) => good (State.translateAll { u with walks := [] } o.core o.ctx va ks) (fun x _ => x.2 == 0x40000)
          | none => false)
      | none => false) = true := by decide +kernel
theorem witness_copy_landing : let s := ran (.pageWalk 0) (ran (.pageWalk 0) (ran (.cpy false 0 1 3) (paged (copying [4096, 0x40000, 0, 0x4C000001]))))
    opThat s 0 (fun o => s.opReady 0 o && s.copyBegun o && s.forked o && !o.begun && (match o.kind with
      | .copy [p] (some 3) =>
        let q : Op := { o with begun := true }
        let u := (s.releaseAt o.core o.key.team o.scope).setOp q
        u.pieceReady q p && good (State.readLoc { u with tick := u.tick + 1 } q p.src p.len)
          (fun b t => good (t.writeLoc q p.dst b) (fun x _ => x))
      | _ => false)) = true := by decide +kernel
theorem witness_matrix_execute : let s := ran (.mmfBf16 false 1 0) (matrix [4096] plainBlock)
    opThat s 0 (fun o => s.opReady 0 o && (match o.kind with
      | .mat x => s.matTurn o x.aofs && (s.matBad o s.tm x).isNone
      | _ => false)) = true := by decide +kernel
theorem witness_accClr_execute : let s := ran (.accClr false 0) (matrix [2048] [])
    opThat s 0 (fun o => s.opReady 0 o && decide (o.kind = .accClr 2048) && s.matTurn o 2048) = true := by decide +kernel
theorem witness_stash_map : let s := ended <| ran (.stashMap false 0 2) (paged (scratched 0x8C000200 [0, 256, 0x40000, 0] []))
    opThat s 0 (fun o => s.opReady 0 o && decide (o.kind = .stashMap 0 256 0x40000) && s.linesPresent (0, 0, 256) none && o.walk.isNone &&
      good ((s.walking o).mapLines o.core o.ctx 0x40000 1) (fun ls t => ls.length == 1 && t.missed.isNone) && (s.tm.mapCheck 0 256 0x40000).isNone) = true := by
  decide +kernel
theorem witness_stash_wb : let s := ran (.stashWb false 1) ((stashed 0x8C010013 [0, 256]).withTh (fun t => { t with clause := t.clause }))
    opThat s 0 (fun o => s.opReady 0 o && decide (o.kind = .stashWb 0 false) && !(s.tm.window 0).lines.contains .filling) = true := by
  decide +kernel
theorem witness_stash_fill : let s := stashed 0x8C010013 [0, 256]
    let u : State := { s with tm := s.tm.setWindow 0 ((s.tm.window 0).setLine 0 .filling) }
    (u.tm.window 0).valid = true ∧ (u.tm.window 0).line 0 = .filling ∧ (u.tm.window 0).retranslate.getD 0 false = false ∧
    u.hasEscrow 0x10000 = false ∧ (u.clusterLine 0 0x10000).2.lineSound 0 0x10000 = .ok () := by decide +kernel
/-- A team of grid 7 that waits in die 0, and its grid. -/
def handed : State :=
  let s := running id
  { s with th := Thread.inert, tm := { Team.inert with uid := 9, grid := 7, die := 0, res := .waiting, text := 0x40000, fgroups := 32,
                                                         budgets := [256, 256, 256], entries := [⟨0x40000, 5, 0⟩, ⟨0x40000, 5, 2⟩] } }

theorem witness_placement : let s := handed
    let l := s.tm.launchGroups { aGrid 7 0 1 with next := 1, teams := 1 }
    s.tm.waiting = true ∧ s.nextToPlace s.tm = true ∧ l.length = 1 ∧
    s.chooseCore s.tm { windows := l.map (fun x => x.2.2), sgran := 0 } = some 0 ∧
    ((s.takeSlot { s.tm with scratch := [] } 0 ((s.freeSlots 0).headD 0)).bind (fun u => u.formLaunch 9 l)).isSome = true := by
  decide +kernel
/-- A pre-empted team whose thread has stopped, and room for its image. -/
def stopped : State :=
  let s := running (fun s => s.withTh (fun t => { t with status := .saved true none }))
  { s with tm := { s.tm with preempt := some ⟨100⟩ }, ctxs := s.ctxs.map (fun c => { c with save := 0x100000, savelen := 0x100000 }) }
theorem witness_swap_out : let s := stopped
    let v := (s.releaseAt 0 0 .device).mapThreads s.tm.saveThread
    s.drained s.tm = true ∧ s.threadsOf 0 ≠ [] ∧ (s.threadsOf 0).all (fun t => t.status.stoppedFor) = true ∧
    (match v.team? 0, v.ctxOf 0 with
     | some m, some c => decide (v.imageBase c 0 (v.image m).length = some 0x100000)
     | _, _ => false) = true ∧ v.saveFaults 0x100000 0x3000 = false := by decide +kernel
theorem witness_resume : let s := stopped
    let u : State := { s with tm := { s.tm with res := .swapped 0 0 0x100000 0x3000 .place 3, preempt := none } }
    u.nextToResume u.tm = true ∧ u.resumePlace u.tm 0 0 = some (0, 0) ∧
    ((u.reload u.tm 0x100000 0x3000).bind (fun v => (v.team? 0).bind (fun m =>
      (v.takeSlot { m with groups := [] } 0 0).bind
        (fun w => w.allotGroups 0 m.groups)))).isSome = true := by decide +kernel
theorem witness_resume_unreadable : let s := stopped
    ({ s with poison := [0x100000 / 8] } : State).reload s.tm 0x100000 0x3000 = none := by decide +kernel
theorem witness_image_update : let s := stopped
    let u : State := { s with tm := { s.tm with sgran := 1, res := .swapped 0 0 0x100000 0x3000 .schedule 3, preempt := none },
                              imageUpdates := [⟨4, 0, 0, .scratch 0 [1]⟩] }
    u.outside 0 = true ∧ (u.team? 0).isSome = true := by decide +kernel
theorem witness_wait_condition : let c : WaitCond := ⟨0x40000, 0, 7, true, false, 0⟩
    let s := withBytes (running (fun s => { s with grids := [{ aGrid 7 0 1 with waits := [c] }] })) [(0x40000, 7)]
    s.waitHolds 0 c = some (0x40000, true) ∧ s.monitors.any (fun m => m.grid == some (7, 0)) = false ∧
    c.poll ≤ s.clocks.getD 0 0 := by decide +kernel
theorem witness_handout : let g := aGrid 8 0 1
    let s := running (fun s => { s with grids := s.grids ++ [g] })
    s.chooseGrid 0 = some g ∧ s.canTake 0 g = true := by decide +kernel
theorem witness_deadline : let s := running (fun s => { s with grids := [{ aGrid 7 0 1 with deadline := 5 }], clocks := [5, 0, 0, 0, 0] })
    applies (.deadlineExpiry 7) s = true := by decide +kernel
theorem witness_quantum : let s := crowdedDie 1 false
    let u := s.setTenant { s.tenantOf 0 with quantum := 10, slotTime := 11 }
    (u.quantumVictim 0).map Team.uid = some 0 ∧ (u.tenantOf 0).quantum < (u.tenantOf 0).slotTime := by decide +kernel
theorem witness_grid_complete : let s := running (fun s => { s with tm := { s.tm with res := .freed 0 } })
    (s.allTeams.filter (fun m => m.grid == 7)).all (fun m => match m.res with | .freed _ => true | _ => false) = true ∧
    applies (.gridComplete 7) s = true := by decide +kernel

/-- A launch record of two teams, each with one VECTOR group; the entry table of its code stands at 0x41000 (R61, R374). -/
def launchBytes : List Byte :=
  padTo 1024 ([1, 1, 0, 0] ++ leBytes 4 2 ++ leBytes 8 0 ++ leBytes 8 0x40000 ++ leBytes 8 0x41000 ++ leBytes 8 0x41100 ++
    leBytes 8 0x50000 ++ leBytes 16 0 ++ leBytes 4 0 ++ [1, 0, 32, 0] ++ leBytes 8 0x60000 ++ List.replicate 64 0 ++ [0, 0, 64, 0])

theorem test_doorbell : let s := State.reset
    ((ran (.doorbell 0 3) s).queue? 0).map Queue.tail = some 3 := by decide +kernel
theorem witness_doorbell_wrong : let s := State.reset
    (s.queue? 16).map (fun q => decide (2 ^ q.lg ≤ 65536)) = some true ∧ ((ran (.doorbell 16 65536) s).queue? 16).map Queue.tail = some 0 ∧
    ((ran (.doorbell 16 65536) s).queue? 16).map Queue.errors = some 1 := by decide +kernel
theorem witness_record_fetch : let s := ran (.doorbell 0 1) State.reset
    (s.queue? 0).map (fun q => (q.head != q.tail, q.fetched.isNone, q.host, (s.recordAt q).2)) = some (true, true, false, true) := by
  decide +kernel
/-- A queue with a record fetched. -/
def fetched (n : Nat) (r : List Byte) (s : State) : State :=
  match s.queue? n with
  | some q => s.setQueue { q with tail := 1, fetched := some r }
  | none => s
theorem witness_launch_refused : let s := fetched 0 (padTo 1024 [2]) State.reset
    (s.launchRecord 0).isSome = true ∧ (match s.checkLaunch 0 (padTo 1024 [2]) with | .error n => n | .ok _ => 0) = 1 ∧
    cwordOk (leAddr (slice (padTo 1024 [2]) 0x48 8)) = true := by decide +kernel
theorem witness_end_context : let s := fetched 16 (padTo 1024 [0x81]) (running id)
    (s.command 0x81).isSome = true ∧ (s.ctxOf 0).isSome = true ∧ (ran .endContext s).ctxs = [] := by decide +kernel
theorem witness_end_context_refused : let s := fetched 16 (padTo 1024 [0x81, 0, 9]) (running id)
    (s.command 0x81).isSome = true ∧ (s.ctxOf 9).isNone = true ∧ (ran .endContext s).ctxs.length = 1 := by decide +kernel
theorem witness_create_context : let s := fetched 16 (padTo 1024 ([0x80, 0, 5, 0] ++ List.replicate 12 0 ++ leBytes 8 0x40000)) State.reset
    (s.command 0x80).isSome = true ∧ s.ctxOf 5 = none ∧ inMap 0x40000 = true ∧ s.poisoned 0x40000 512 = false ∧
    s.linkDown 0x40000 = false := by decide +kernel
theorem witness_launch : let s := fetched 16 launchBytes (withBytes (running id) [(0x41000, 1), (0x41014, 5), (0x41015, 2)])
    (s.launchRecord 16).isSome = true ∧ (match s.checkLaunch 16 launchBytes with | .ok k => k.entries.length | .error _ => 0) = 1 := by
  decide +kernel
/-- A command of the supervisor on entry 3 of tenant 0's fault queue, with its action. -/
def resolving (action : Nat) (w : FaultWait) (s : State) : State :=
  let u := fetched 16 (padTo 1024 ([0x82, 0, 0, 0] ++ leBytes 4 0 ++ leBytes 4 3 ++ leBytes 4 action)) s
  u.setTenant { u.tenantOf 0 with fq := [⟨3, { cause := 0x10 }, w, none⟩] }
theorem witness_resolve_replay : let a : PageAccess := ⟨1, ⟨0, 0, 0⟩, none, none, { cause := 0x10 }, 0, none⟩
    let s := resolving 0 (.page 0 4 [1]) (running (fun s => { s with accesses := [a] }))
    (s.command 0x82).isSome = true ∧ (s.fqEntry 0 3).map FqEntry.wait = some (.page 0 4 [1]) ∧
    s.waitersOf ⟨3, { cause := 0x10 }, .page 0 4 [1], none⟩ = [a] ∧ s.fqEntry 0 4 = none ∧
    applies .resolveReplay s = true ∧ applies .resolveReplay (resolving 3 .none s) = true := by decide +kernel
theorem witness_resolve_deliver : let a : PageAccess := ⟨1, ⟨0, 0, 0⟩, none, none, { cause := 0x10 }, 0, none⟩
    let s := resolving 1 (.page 0 4 [1]) (running (fun s => { s with accesses := [a] }))
    applies .resolveDeliver s = true ∧ s.waitersOf ⟨3, { cause := 0x10 }, .page 0 4 [1], none⟩ ≠ [] := by decide +kernel
theorem witness_resolve_end : let s := resolving 2 (.stopped ⟨0, 0, 0⟩) (running id).unfocus
    (s.fqEntry 0 3).map FqEntry.wait = some (.stopped ⟨0, 0, 0⟩) ∧ (ran .resolveEndThread s).allThreads.isEmpty = true := by decide +kernel
theorem witness_fqhead : (State.reset.tenantOf 15).held = [] := by decide
theorem test_lgfq : ((ran (.supervisorRegisterWrite 0x20F 12) State.reset).tenantOf 15).lgfq = 12 ∧
    ((ran (.supervisorRegisterWrite 0x20F 13) State.reset).tenantOf 15).lgfq = 6 := by decide +kernel
/-- A graph of one node (R360, R361): descriptor at 0x41000, partition table at 0x42000, record at 0x43000; a query packet
at 0x40000 for one candidate, with the query vector at 0x44000 (R363). -/
def graphBytes : Cells :=
  [(0x40000, 1), (0x40002, 1), (0x40004, 1), (0x40006, 1), (0x40008, 2), (0x40009, 1), (0x40021, 0x10), (0x40022, 4),
   (0x40029, 0x50), (0x4002A, 4), (0x40031, 0x60), (0x40032, 4), (0x40039, 0x70), (0x4003A, 4), (0x40041, 0x40), (0x40042, 4),
   (0x41000, 1), (0x41004, 32), (0x41006, 1), (0x41008, 1), (0x4100C, 64), (0x41011, 0x20), (0x41012, 4),
   (0x42001, 0x30), (0x42002, 4), (0x43000, 0x38)]

def searching : State := withBytes (farther .vector []) graphBytes

/-- The query as `gq` leaves it, once it has come to a teller. -/
def aQuery (tl : Nat) : Query :=
  { teller := tl, routed := true, addr := 0x40000, packet := searching.memBytes 0x40000 256, running := false, graph := searching.memBytes 0x41000 64,
    vec := [], parts := [(0, searching.memBytes 0x42000 16)], visited := [], cands := [], expansions := 0, waiting := none, out := none }

/-- The state with one query outstanding. -/
def asked (q : Query) : State := ended (timed (searching.addOp false [] none (.gq q)))

/-- Its state in a step of its own. -/
def atWork (q : Query) (f : State → Bool) : Bool := opThat (asked q) 0 (fun o => f ((asked q).walking o))

theorem witness_query_comes : let q : Query := { aQuery 5 with routed := false, graph := [], parts := [] }
    let s := asked q
    gqCheck q.packet = none ∧ s.homeStack 0 q = 0 ∧
    opThat s 0 (fun o => s.opReady 0 o && (s.walking o).forked o.unwalked && o.walk.isNone && decide (o.kind = .gq q)) = true := by decide +kernel
theorem witness_query_route : let q : Query := { aQuery 5 with routed := false, graph := [], parts := [] }
    atWork q (fun s => good (s.gqRoute 0 0 q) (fun r t => r.routed && r.parts.length == 1 && t.missed.isNone)) = true := by
  have h : Config.homeTeller 0 % 4 < 4 := Nat.mod_lt _ (by decide)
  simp only [State.gqRoute]
  generalize Config.homeTeller 0 % 4 = x at h ⊢
  interval_cases x <;> decide +kernel
theorem witness_query : let s := asked (aQuery 5)
    opThat s 0 (fun o => s.opReady 0 o && (s.walking o).forked o.unwalked && decide (o.kind = .gq (aQuery 5)) &&
      (s.queriesAt 5 true).length == 0 && s.ops.all (fun p => decide (o.id ≤ p.id))) = true := by decide +kernel
theorem witness_query_free : ∃ o, (asked (aQuery 5)).op? 0 = some o ∧ (asked (aQuery 5)).tellerFree o (aQuery 5) = true := by
  have a : opThat (asked (aQuery 5)) 0 (fun o => (asked (aQuery 5)).ops.all (fun p =>
      decide (o.id ≤ p.id) || p.fault.isSome || p.waitPage.isSome ||
      (match p.kind.query? with
        | some r => r.running || (r.routed && r.teller != (aQuery 5).teller)
        | none => true))) = true := by decide +kernel
  have l : ((asked (aQuery 5)).queriesAt (aQuery 5).teller true).length = 0 := by decide +kernel
  unfold opThat at a
  split at a
  · rename_i o h
    exact ⟨o, h, by rw [State.tellerFree, l]; exact (Bool.and_eq_true_iff).2 ⟨decide_eq_true (by omega), a⟩⟩
  · cases a
theorem witness_query_start : atWork (aQuery 0) (fun s => good (s.gqStart 0 (aQuery 0))
    (fun q t => q.running && q.visited == [0] && q.out.isNone && t.missed.isNone)) = true := by
  decide +kernel

/-- The query after its start: node 0 is measured. -/
def going : Query :=
  { aQuery 0 with running := true, vec := List.replicate 32 0, visited := [0], cands := [⟨0, 0, false⟩] }

theorem witness_query_turn : atWork going (fun s => good (s.gqTurn 0 going) (fun q t => q.expansions == 1 && t.missed.isNone)) = true := by
  decide +kernel
theorem witness_query_end : let q : Query := { going with cands := [⟨0, 0, true⟩] }
    let s := asked q
    q.cands.find? (fun c => !c.expanded) = none ∧ opThat s 0 (fun o => s.opReady 0 o && decide (o.kind = .gq q)) = true := by
  decide +kernel
theorem witness_query_completion : let q : Query := { going with packet := going.packet.set 0x3A 0 |>.set 0x39 0,
                                                                 out := some (going.record 1) }
    let s := asked q
    q.cword = 0 ∧ atWork q (fun s => good (s.tellPlaces 0 q (going.record 1)) (fun x t => x.2.2.isNone && t.missed.isNone)) = true ∧
    opThat s 0 (fun o => s.orderFree o q) = true := by decide +kernel
/-- Two key-value tensors of 32 elements a row, descriptors 1 and 2 with scale tensors 3, and an `att` packet of no tokens. -/
def attBytes : Cells :=
  [(0x40000, 2), (0x40004, 1), (0x40006, 1), (0x40019, 0x40), (0x4001A, 4), (0x40021, 0x50), (0x40022, 4), (0x40029, 0x70), (0x4002A, 4),
   (0x40031, 0x60), (0x40032, 4), (0x40039, 0x60), (0x4003A, 4)] ++
  [(0x41040, 2), (0x41041, 5), (0x41044, 32), (0x41048, 32), (0x4104C, 1), (0x41050, 1), (0x41068, 2),
   (0x41080, 2), (0x41081, 2), (0x41084, 1), (0x41088, 32), (0x4108C, 1), (0x41090, 1), (0x46002, 1)]
theorem witness_att_start : let s := withBytes (farther .vector []) attBytes
    let u : State := { s with ctxs := s.ctxs.map (fun c => { c with dtab := 0x41000 }) }
    let q : Query := { aQuery 5 with packet := u.memBytes 0x40000 256 }
    let v := ended (u.addOp false [] none (.att q))
    opThat v 0 (fun o => good ((v.walking o).attRun 0 q) (fun r t => r.out.isSome && t.missed.isNone)) = true := by decide +kernel

/-- A list without repeats. -/
theorem eraseDups_of_nodup {α} [BEq α] [LawfulBEq α] (l : List α) (h : l.Nodup) : l.eraseDups = l := by
  induction l with
  | nil => rfl
  | cons a l ih =>
    rw [List.eraseDups_cons, List.filter_eq_self.2, ih h.of_cons]
    intro b hb
    have : b ≠ a := fun e => (List.nodup_cons.1 h).1 (e ▸ hb)
    simpa using this

/-- A cluster that holds 16384 lines, so that some set of its 1024 holds 16 of them, whatever the function of R214. -/
def crowded : Cluster := { Cluster.reset 0 with bytes := (List.range 16384).map (fun i => (256 * i, 0)) }

theorem crowded_tags : crowded.tags = (List.range 16384).map (fun i => Tag.line (256 * i)) := by
  have e : crowded.tags = ((List.range 16384).map (fun i => Tag.line (256 * i))).eraseDups := by
    unfold Cluster.tags crowded
    simp [Cluster.reset, lineOf, Function.comp_def, Nat.mul_comm]
  rw [e, eraseDups_of_nodup]
  exact List.nodup_range.map (fun a b h => by simpa using h)

theorem witness_eviction : ∃ l, crowded.mayEvict l = true := by
  let f (i : Nat) : Nat := (Tag.line (256 * i)).clusterSet
  obtain ⟨y, -, hy⟩ := Finset.exists_lt_card_fiber_of_mul_lt_card_of_maps_to (s := Finset.range 16384) (t := Finset.range 1024) (f := f) (n := 15)
    (fun i _ => Finset.mem_range.2 (Nat.mod_lt _ (by decide))) (by simp)
  obtain ⟨i, hi⟩ := Finset.card_pos.1 (Nat.lt_of_le_of_lt (Nat.zero_le _) hy)
  obtain ⟨hr, rfl⟩ := Finset.mem_filter.1 hi
  have hc : 16 ≤ (((List.range 16384).map (fun i => Tag.line (256 * i))).filter (fun t => t.clusterSet == f i)).length := by
    rw [List.filter_map, List.length_map]
    have : ((Finset.range 16384).filter (fun x => f x = f i)).card = ((List.range 16384).filter (fun x => decide (f x = f i))).length := rfl
    rw [this] at hy
    exact hy
  refine ⟨256 * i, ?_⟩
  rw [Cluster.mayEvict, crowded_tags]
  refine Bool.and_eq_true_iff.2 ⟨?_, decide_eq_true hc⟩
  have : i < 16384 := Finset.mem_range.1 hr
  simpa using this

/-- R216: the lines of a MiB do not all have one home slice. -/
theorem witness_two_slices : ∃ i, sliceOf (256 * i) ≠ sliceOf 0 := by
  by_contra h
  push Not at h
  by_cases b : sliceBalanced 0 = true
  · have e (i : Nat) (hi : i < 4096) : sliceMeant i = sliceMeant 0 := by
      have := h i
      unfold sliceOf at this
      rwa [show 256 * i / 2 ^ 20 = 0 by omega, show 0 / 2 ^ 20 = 0 from rfl, if_pos b, if_pos b, show 256 * i / 256 = i by omega] at this
    have b' := b
    unfold sliceBalanced at b'
    have c := List.all_eq_true.1 b' (sliceMeant 0) (List.mem_range.2 (Nat.mod_lt _ (by decide)))
    rw [List.filter_eq_self.2] at c
    · simp at c
    · intro i hi
      simp [e i (List.mem_range.1 hi)]
  · have := h 1
    unfold sliceOf at this
    rw [show 256 * 1 / 2 ^ 20 = 0 from rfl, show 0 / 2 ^ 20 = 0 from rfl, if_neg b, if_neg b] at this
    exact absurd this (by decide)

/-- The registration of one word on its way. -/
def reg (i : Nat) : Registration := ⟨0, [64 * i], 256 * i, 4, false, 5⟩
theorem witness_registration : ({ State.reset with registrations := [reg 0] } : State).nextRegs 0 = [reg 0] := by
  simp [State.nextRegs, reg, State.reset]
theorem witness_registrations : ∃ i, ({ State.reset with registrations := [reg 0, reg i] } : State).nextRegs 0 = [reg 0, reg i] := by
  obtain ⟨i, h⟩ := witness_two_slices
  refine ⟨i, ?_⟩
  have h' : (reg 0).slice ≠ (reg i).slice := by
    simpa [Registration.slice, reg, ← Nat.mul_assoc] using Ne.symm h
  simp [State.nextRegs, reg, State.reset] at h' ⊢
  simp [h']
theorem witness_forward : let s := ran (.pageWalk 0) (ran (.pageWalk 0) (ran (.ldB32 false 1 2 0)
      (withBytes (inClass (placed 0 [0, 0, 0x40000, 0]) 2 .vector) [(0x40000, 7)])))
    let u : State := { s with registry := [(0x10000, 95)] }
    u.ownerOf 0x10000 = some 95 ∧
    u.ops.any (fun o => o.cluster == 0 && o.fault.isNone && spanMeets o.readsAt 0x40000 4) = true := by decide +kernel
theorem witness_monitor : let m (u : Nat) : Monitor := ⟨3, 0x40000, 0, 7, 0, some u, 1, none, true, none⟩
    let s (u : Nat) : State := { placed 0 [] with monitors := [m u] }
    (s 9).monitors.find? (fun m => m.idx == 3) = some (m 9) ∧ (s 9).team? 9 = none ∧ ((s 0).team? 0).isSome = true := by decide +kernel
theorem witness_cacheError : inMap 0 = true ∧
    ((State.reset.setCluster { Cluster.reset 95 with bytes := [(0, 1)] }).cluster 95).bytes.any (fun b => b.1 / 8 == 0 / 8) = true := by
  decide +kernel
theorem witness_cmaint : let s := ended <| ran (.cflush false 0 4 .device) (atomic [256, 0, 0, 0, 0x40000, 0])
    opThat s 0 (fun o => s.opReady 0 o && decide (o.kind = .cmaint 2 .device 0x40000 256) &&
      (s.earlier o).all (fun p => !p.kind.isWrite) && (match (s.walking o).maintPages o.unwalked 2 .device 65538 0x40000 256 with | (r, t) => r.isNone && t.missed.isNone)) = true := by decide +kernel
theorem witness_tinval : let s := ended <| ran (.tinval false 2 0 3) (tiled .vector [6, 31, 2])
    opThat s 0 (fun o => s.opReady 0 o && (s.walking o).forked o.unwalked && !o.begun && (match o.kind with
      | .tinval t 2 2 => (((s.walking o).releaseAt 0 0 .device).invalTiles o t 2 2).missed.isNone
      | _ => false)) = true := by
  decide +kernel
theorem witness_tclean : let s := ended <| ran (.tclean false 2 0 3) (tiled .vector [6, 31, 2])
    opThat s 0 (fun o => s.opReady 0 o && (s.walking o).forked o.unwalked && (match o.kind with
      | .tclean t a k =>
        let q : Op := { o.unwalked with begun := true }
        let u := ((s.walking o).releaseAt o.core o.key.team .device).setOp q
        !u.updating q t a k && (match u.cleanTiles q t a k with | (r, v) => r.isNone && v.missed.isNone)
      | _ => false)) = true := by decide +kernel
theorem witness_tlbinv_done : let s := ran (.tlbinvCtx false 0) (tiled .vector [0])
    opThat s 0 (fun o => s.opReady 0 o && decide (o.kind = .tlbinv [])) = true := by decide +kernel
theorem witness_tile_update : let w := tiled .vector [6, 31, 4096]
    let s := ended <| ran (.tst false 2 0 3) { w with tm := { w.tm with descs := w.tm.descs.set 3 (some { flatTensor 1 5 2 64 with policy := 3 }) } }
    opThat s 0 (fun o => s.opReady 0 o && s.mintTurn o && (s.walking o).forked o.unwalked && (match o.kind with
      | .tst t 4096 =>
        let q : Op := { o.unwalked with begun := true }
        let u := ((s.walking o).releaseAt o.core o.key.team .device).setOp q
        u.linesPresent (0, 4096, 256) (some 0) &&
        good (u.tileUpdate q t false (fun _ => s.tm.scratchBytes 4096 256)) (fun _ v => v.missed.isNone)
      | _ => false)) = true := by decide +kernel
theorem witness_push : let p : Push := { idx := 4, core := 0, cluster := 0, ctx := 0, pool := 0x60000, cls := 6, slot := 0x70000,
                                         base := { cause := 0 }, op := none, wait := none }
    let w := tiled .vector []
    let s : State := { w with pushes := [p], mem := w.mem.map (fun c => if c.1 = 0x30000 then (c.1, 0x3F) else c) }
    s.pushes.find? (fun p => p.idx == 4) = some p ∧ good (s.pushSlot 0 0 0x60000 6 0x70000) (fun _ _ => true) = true := by decide +kernel
theorem witness_fab : (State.reset.fabOf 63) = (false, 0) := by decide
theorem witness_ports : let s := searching
    s.fabric.ports.getLsbD 31 = false ∧ s.fabric.ports.getLsbD 0 = true ∧ s.fabric.host ≠ .up 16 64 ∧ s.moduleNum = some 5 := by
  decide +kernel
theorem witness_remote_sent : let s := ran (.rsig false 1) (farther .vector [0, 7, 0x40004, 0])
    opThat s 0 (fun o => s.opReady 0 o && (match o.kind with
      | .remote r => r.sent && r.target != s.moduleNum.getD 0
      | _ => false)) = true := by decide +kernel
theorem test_modid : (ran (.modidWrite 0xFFFFFFFF) State.reset).moduleNum = some 511 := by decide +kernel
theorem test_ports_after_failure : (ran (.portFailure 0) searching).cannotSend = some 1 := by decide +kernel
theorem witness_roce : let q : RoceQp := { num := 3, ctx := 0, workBase := 0x50000, slots := 16, producer := 0x40000, fetched := 0,
                                           cqBase := 0x52000, countWord := 0x51000, entries := [], answers := [], rate := 0, port := 5 }
    let s : State := { searching with roce := [q] }
    s.roce.find? (fun q => q.num == 3) = some q ∧
    (match s.readVa 0 q.producer 4 .read, s.readVa 0 q.workBase 64 .read, s.readVa 0 q.countWord 4 .read with
     | .ok p, .ok _, .ok _ => decide (leNat p ≠ 0)
     | _, _, _ => false) = true := by decide +kernel

theorem witness_module : let s := State.reset
    (s.cluster 95).lost = false ∧ votedUnitOk (.walker 3) = true ∧ s.voteOf (.walker 3) = 3 ∧
    (s.setVote (.walker 3) 2).voteOf (.walker 3) = 2 ∧ s.links.dieLinksLost.contains (0, 3) = false ∧
    s.links.stacksLost.contains 11 = false ∧ s.links.cxlFailed.contains 3 = false ∧ s.debt (11, 0) < 8 ∧
    s.sup.latched = false ∧ (ran (.supervisorRegisterWrite 0x8A 1) s).sup.snapen.getLsbD 0 = true := by decide +kernel
theorem witness_snapshot_counts : let s := ran (.snapshotTrigger .hostWrite) (ran (.supervisorRegisterWrite 0x8A 1) State.reset)
    s.sup.latched = true ∧ s.sup.snapen.getLsbD 0 = true ∧ (s.snapBlock 3).sup.snapDue.length = 14 := by decide +kernel
theorem witness_spdm : let s := ran .getCapabilities (ran .getVersion State.reset)
    s.mgmt.spdmVersion = true ∧ s.mgmt.spdmCaps = true := by decide +kernel
theorem test_power : (ran (.powerLimitSet 1499) State.reset).mgmt.powerLimit = 3400 ∧
    (ran (.powerLimitSet 1500) State.reset).mgmt.powerLimit = 1500 := by decide +kernel
/-- An addition to the word at 8 of one lane. -/
def adding (v : BitVec 64) (d : Option Nat) : Op :=
  { id := 0, issue := 0, key := ⟨0, 0, 0⟩, flag := none, core := 0, cluster := 0, ctx := 0, base := { cause := 0 }, fpc := 0, count := 0,
    regs := [], pa := some 8, kind := .atom .addB32 .device 8 v 0 d, fault := none, waitPage := none, scope := .device, handler := false,
    due := 0 }
theorem witness_atom_fold : (atomFold 5 [adding 1 none, adding 2 (some 3)]).2.1 = 8 ∧ ((atomFold 5 [adding 1 none, adding 2 (some 3)]).1.map Prod.snd) = [5, 6] := by decide +kernel
theorem witness_atomic_quiet : let s := ran (.atomAddB32 false 0 4 .device) (atomic [5, 9, 1, 2, 0x40000, 0])
    s.registrations = [] ∧ opThat s 0 (fun o => decide ((s.beforeHome o.core 0x40000 4).readable 0x40000 0x40000 4 = .ok ()) &&
      (atomFold (leAddr ((s.beforeHome o.core 0x40000 4).performBytes 0x40000 4)) (s.atomLanes o)).2.2) = true := by decide +kernel
/-- The word at 0x40000 inside an escrow region of limit 32. -/
def escrowed : State :=
  let s := atomic [0x3F800000, 0xBF800000, 1, 2, 0x40000, 0]
  { s with ctxs := s.ctxs.map (fun c => { c with regions := [⟨true, 0x40000, false, 256, 0x42000000⟩] }) }
theorem witness_badd_return : let s := ran (.allowanceRequest 0) (ran (.baddF32 false 0 4) escrowed)
    opThat s 0 (fun o => s.opReady 0 o && decide (o.kind = .badd false 0x40000 0x3F800000 true 0) && decide (o.pa = some 0x40000) &&
      s.baddTurn o 0x40000 && decide ((s.flushRegs o.cluster 0x40000 4).readable 0x40000 0x40000 4 = .ok ()) &&
      !flt ((s.cluster 0).escrowAt 0x40000 false).alw 0x3F800000) = true := by decide +kernel
theorem test_badd_return : let s := ran (.atomicReturn 0) (ran (.allowanceRequest 0) (ran (.baddF32 false 0 4) escrowed))
    ((s.cluster 0).escrowAt 0x40000 false).parts = [(0, 0x3F800000)] ∧ s.ops = [] := by decide +kernel
theorem witness_ldb_return : let s (u : State) := ran (.pageWalk 0) (ran (.pageWalk 0) (ran (.ldbF32 false 1 4) u))
    opThat (s escrowed) 0 (fun o => (s escrowed).opReady 0 o && decide (o.kind = .ldb 0x40000 1 0xBF800000) && decide (o.pa = some 0x40000) &&
      (s escrowed).readReady o 0x40000 4 && decide ((s escrowed).readable 0x40000 0x40000 4 = .ok ())) = true := by decide +kernel
theorem witness_bsettle_return : let s := ran (.bsettle false 4) escrowed
    opThat s 0 (fun o => s.opReady 0 o && decide (o.kind = .bsettle 0x40000) && decide (o.pa = some 0x40000) && (s.earlier o).isEmpty &&
      (s.regionOf o.ctx 0x40000).isSome && !(s.flushRegs o.cluster 0x40000 4).poisonedEscrow o.cluster 0x40000) = true := by decide +kernel
theorem witness_ctld_return : let s := ran (.ctld false 0 3) codeTable
    opThat s 0 (fun o => s.opReady 0 o && (match o.kind with | .ctld 3 r => r.length == 288 | _ => false)) = true := by decide +kernel
theorem witness_ctst_return : let s := ran (.ctst false 0 3) codeTable
    opThat s 0 (fun o => s.opReady 0 o && (match o.kind with
      | .ctst ps => ps.length == 9 && ps.all (fun p => s.writeReady o p.2.1 p.2.2.length)
      | _ => false)) = true := by decide +kernel
theorem witness_stash_unmap : let s := ran (.stashUnmap false 1) (stashed 0x8C010014 [0, 256])
    opThat s 0 (fun o => s.opReady 0 o && decide (o.kind = .stashWb 0 true) && !(s.tm.window 0).lines.contains .filling &&
      (((s.stashBack 0 0).team? 0).map (fun m => (m.window 0).valid)).getD false) = true := by decide +kernel
theorem witness_tile_return : let s := ended <| ran (.tldB8 false 2 0 3) (tiled .vector [6, 31, 0])
    opThat s 0 (fun o => s.opReady 0 o && (s.walking o).forked o.unwalked && (s.tldLanes o { handle := 3, desc := flatTensor 1 5 2 64, coords := [0, 1, 0, 0] }).length == 1 && (match o.kind with
      | .tld t 2 _ _ =>
        let q : Op := { o.unwalked with begun := true }
        good ((((s.walking o).releaseAt o.core o.key.team o.scope).setOp q).fetchTile q t true) (fun b v => b.length == 256 && v.missed.isNone)
      | _ => false)) = true := by decide +kernel
/-- R317: a tile read whose index page no TLB holds waits for a walk, and is performed when the walk has ended. -/
theorem test_tile_walk : let s := ran (.loadReturn 0) (ran (.tldB8 false 2 0 3) (tiled .vector [6, 31, 0]))
    let u := ran (.loadReturn 0) (ran (.pageWalk 0) (ran (.pageWalk 0) s))
    s.ops.map Op.walk = [some (0, 0, 5)] ∧ (ran (.pageWalk 0) s).walks = [(0, 0, 5)] ∧ u.ops.length = 0 := by decide +kernel
theorem witness_query_return : let s := ended <| ran (.tq false 2 0 3) (tiled .vector [6, 31, 0])
    opThat s 0 (fun o => s.opReady 0 o && (s.walking o).forked o.unwalked && (match o.kind with
      | .tq t 2 => good ((((s.walking o).releaseAt o.core o.key.team o.scope).setOp { o.unwalked with begun := true }).readEntry o.core o.ctx t)
        (fun x v => x == 0 && v.missed.isNone)
      | _ => false)) = true := by decide +kernel
/-- The page of slots may be written by the index unit. -/
noncomputable def spooling : State :=
  let w := tiled .vector [0x70000, 0, 6]
  ended <| ran (.spool false 2 0 3) { w with mem := w.mem.map (fun c => if c.1 = 0x30000 then (c.1, 0x3F) else c) }
theorem witness_spool_return : spooling.pushes.map (fun p => p.op) = [some 0] ∧
    opThat spooling 0 (fun o => (spooling.walking o).forked o.unwalked &&
      good ((((spooling.walking o).releaseAt o.core o.key.team o.scope).setOp { o.unwalked with begun := true }).pushSlot 0 0 0x60000 6 0x70000)
        (fun _ s => (s.op? 0).isSome && s.missed.isNone)) = true := by decide +kernel
theorem witness_tstat_return : let s := ran (.tstat false 3 2) (farther .vector [0, 0, 47])
    opThat s 0 (fun o => s.opReady 0 o && decide (o.kind = .tstat 3 47)) = true := by decide +kernel
theorem test_regions_at_placement : let r : Region := ⟨true, 0x40000, false, 256, 0x42000000⟩
    let s : State := { handed with grids := handed.grids.map (fun g => { g with regions := [r] }) }
    (ran (.teamPlacement 9) s).ctxs.map Ctx.regions = [[r]] := by decide +kernel

/-- Cluster 1 owns the word 16 and holds its unit; cluster 0 has written one byte of it. -/
def contested : State :=
  let s := State.reset.setCluster { Cluster.reset 1 with bytes := (List.range 8).map (fun i => (64 + i, 5)), dirty := [64, 65, 66, 67], owned := [16] }
  { s.setCluster { Cluster.reset 0 with bytes := [(64, 9)], dirty := [64] } with registry := [(16, 1)] }
theorem witness_registration_home : contested.watched 64 = false ∧ contested.ownerOf 16 = some 1 ∧ contested.registry.length < 16 ∧
    contested.linkDown 64 = false := by decide +kernel
theorem test_registration_former : let u := contested.homeRegister ⟨0, [16], 64, 1, false, 5⟩
    u.ownerOf 16 = some 0 ∧ u.performBytes 64 4 = [9, 5, 5, 5] ∧ (u.cluster 1).owned = [] ∧ cellGet u.home 64 = some 5 := by decide +kernel
theorem test_registration_refused : let s : State := State.reset.setCluster { Cluster.reset 0 with bytes := [(64, 9)], dirty := [64] }
    let u := State.homeRegister { s with monitors := [⟨3, 64, 0, 7, 0, some 0, 1, none, false, none⟩] } ⟨0, [16], 64, 1, false, 5⟩
    u.registry = [] ∧ cellGet u.home 64 = some 9 ∧ (u.cluster 0).dirty = [] := by decide +kernel
theorem witness_tile_poison : let s := State.reset.setCluster { Cluster.reset 1 with tiles := [(.tile 0 1 2, ⟨0, [], false⟩)] }
    (s.cluster 1).tiles.any (fun y => y.1 == .tile 0 1 2) = true := by decide +kernel
theorem witness_fetch_error : let r : List Byte := padTo 1024 ([1, 0, 0, 0] ++ List.replicate 0x44 0 ++ leBytes 8 0x60000)
    let s : State := { running id with queues := (running id).queues.map (fun q : Queue => if q.num = 0 then { q with base := 0x80000, tail := 1 } else q) }
    let u : State := { s with mem := (r.zipIdx.filter (fun p => p.1 != 0)).map (fun p => (0x80000 + p.2, p.1)), poison := [0x80100 / 8] }
    (u.queue? 0).map (fun q => ((u.recordAt q).2, u.poisoned (q.base + 0x48) 8, u.linkDown q.base, cwordOk (leAddr (slice (u.recordAt q).1 0x48 8)))) =
      some (false, false, false, true) := by decide +kernel
theorem witness_cword : let q : Query := { going with packet := (going.packet.set 0x3A 4).set 0x39 0, out := some (going.record 1) }
    q.cword ≠ 0 ∧ atWork q (fun s => good (s.tellPlaces 0 q (going.record 1)) (fun x t => x.2.2.isSome && t.missed.isNone)) = true := by decide +kernel
theorem witness_sram : let s := asked going
    opThat s 0 (fun o => decide (o.kind = .gq going) && going.running && o.fault.isNone) = true := by decide +kernel
theorem test_inject : ((ran (.injectArm ⟨true, false, 3, 1, 0, 7⟩) State.reset).fabric.inject).armed = true ∧
    ((ran (.injectArm ⟨false, false, 3, 1, 0, 7⟩) State.reset).fabric.inject).armed = false := by decide +kernel
theorem witness_arrival : let s := searching
    s.moduleNum.isSome = true ∧ s.fabric.ports ≠ 0 := by decide +kernel
/-- R418: a module answers 4 for a context that it has lost, and 1 for one that it never had. -/
theorem test_refusal : let s := searching
    let q (c : Nat) : RemoteReq := { source := 9, tag := 3, ctx := c, key := 0, enabled := true, body := .signal 0x40000 }
    (ran (.remoteOpArrival (q 0)) (s.loseControl 1 0)).fabric.replies.map OutReply.reply = [.remoteFault 4 0 0x40000] ∧
    (ran (.remoteOpArrival (q 9)) s).fabric.replies.map OutReply.reply = [.remoteFault 1 0 0x40000] := by decide +kernel
theorem witness_resolve_end_page : let a : PageAccess := ⟨1, ⟨0, 0, 0⟩, none, none, { cause := 0x10 }, 0, none⟩
    let s := resolving 2 (.page 0 4 [1]) (running (fun s => { s.withTh (fun t => { t with status := .parked (.page 1) }) with accesses := [a] })).unfocus
    s.waitersOf ⟨3, { cause := 0x10 }, .page 0 4 [1], none⟩ = [a] ∧ (s.thread? a.key).map Thread.status = some (.parked (.page 1)) ∧
    (ran .resolveEndThread s).allThreads.isEmpty = true := by decide +kernel
theorem witness_image_update_op : let s := ran (.cpy false 0 1 3) (paged (copying [4096, 0x40000, 0, 0x4C000001]))
    let u : State := { s with tm := { s.tm with res := .swapped 0 0 0x100000 0x3000 .schedule 3 }, imageUpdates := [⟨4, 0, 0, .scratch 0 [1]⟩] }
    u.outside 0 = true ∧ opThat u 0 (fun o => o.fault.isNone) = true := by decide +kernel
theorem witness_roce_idle : let q : RoceQp := { num := 3, ctx := 0, workBase := 0x50000, slots := 16, producer := 0x40000, fetched := 0,
                                                cqBase := 0x52000, countWord := 0x51000, entries := [], answers := [], rate := 0, port := 5 }
    let s : State := { searching with roce := [q], mem := searching.mem.filter (fun c => decide (c.1 / 4 ≠ 0x10000)) }
    (match s.readVa 0 q.producer 4 .read, s.xlate 0 q.producer .read with
     | .ok p, .ok pa => decide (leNat p = 0) && decide (pa = 0x40000)
     | _, _ => false) = true ∧ s.monitors = [] := by decide +kernel

end Sys2Proof.Tests
end

section
/-! PROOF. Every step keeps the canonical form of memory (log entry 1): one lemma for each operation of the state, in
the order of the model's files, up to `step`. The four operations that write `mem` or `home` stand in Laws/Memory; every
other operation is built of them, of operations before it and of updates of other fields, which `State.memOk` does not
read. -/

namespace Sys2Proof.Machine

/-- The canonical form of memory in the state that an answer leads to. -/
def Out.memOk : Out → Bool
  | .next t => t.memOk
  | _ => true

/-- The canonical form of memory in the state that an event leads to, where its condition holds. -/
def Ev.memOk : Ev → Bool
  | some t => t.memOk
  | none => true

/-- The canonical form of memory in the state that a result carries beside an error. -/
def Except.memOk {ε α : Type} (p : α → State) : Except ε α → Bool
  | .ok a => (p a).memOk
  | .error _ => true

theorem snd_memOk {α : Type} {p : α × State} {a : α} {t : State} (e : p = (a, t)) (w : p.2.memOk = true) :
    t.memOk = true := by
  subst e
  exact w

theorem some_memOk {e : Option State} {t : State} (h : e = some t) (w : Ev.memOk e = true) : t.memOk = true := by
  subst h
  exact w

theorem ok_memOk {ε α : Type} {p : α → State} {x : Except ε α} {a : α} (e : x = .ok a)
    (w : Except.memOk p x = true) : (p a).memOk = true := by
  subst e
  exact w

theorem getD_memOk {e : Option State} {s : State} (h : Ev.memOk e = true) (w : s.memOk = true) :
    (e.getD s).memOk = true := by
  cases e with
  | none => exact w
  | some t => exact h

theorem foldl_snd_memOk {α β : Type} {f : α × State → β → α × State} {l : List β}
    (hf : ∀ x b, x.2.memOk = true → (f x b).2.memOk = true) {a : α} {s : State} (w : s.memOk = true) :
    (l.foldl f (a, s)).2.memOk = true :=
  List.foldlRecOn l f (motive := fun x => x.2.memOk = true) w (fun x hx b _ => hf x b hx)

section
variable {s : State}

/-! ### Memory, the home and what is asked of it -/

theorem viewBytes_memOk {v pa n} (w : s.memOk = true) : (s.viewBytes v pa n).2.memOk = true := by
  unfold State.viewBytes
  split
  · exact w
  · dsimp only
    refine foldl_snd_memOk (fun x u h => ?_) w
    exact viewUnit_memOk v u h

theorem cleanView_memOk {v pa n} (w : s.memOk = true) : (s.cleanView v pa n).memOk = true := w

theorem seeView_memOk {v hit} (w : s.memOk = true) : (s.seeView v hit).memOk = true := w

theorem flushSlice_memOk {c t} (w : s.memOk = true) : (s.flushSlice c t).memOk = true :=
  foldl_memOk _ _ (fun _ _ h => homeRegister_memOk _ h) w

/-! ### Walks and translations -/

theorem setTenant_memOk {t} (w : s.memOk = true) : (s.setTenant t).memOk = true := w

theorem tlbPut_memOk {size e l} (w : s.memOk = true) : (s.tlbPut size e l).2.memOk = true := by
  unfold State.tlbPut
  split
  · exact w
  · exact pick_memOk l.length w

theorem tlbFill_memOk {core ctx va l} (w : s.memOk = true) : (s.tlbFill core ctx va l).memOk = true := by
  unfold State.tlbFill
  extract_lets t
  have wt : t.memOk = true := by
    unfold t
    split
    · exact w
    · exact tlbPut_memOk w
  clear_value t
  split
  · exact wt
  · exact tlbPut_memOk wt

theorem holdPointers_memOk {die ctx va lv t} (w : s.memOk = true) : (s.holdPointers die ctx va lv t).memOk = true :=
  w

theorem dieWalk_memOk {die ctx va} (w : s.memOk = true) : (s.dieWalk die ctx va).2.memOk = true := by
  unfold State.dieWalk
  split
  · exact w
  · dsimp only
    split
    · exact w
    · exact holdPointers_memOk w

theorem coreWalk_memOk {core ctx va} (w : s.memOk = true) : (s.coreWalk core ctx va).2.memOk = true :=
  dieWalk_memOk w

theorem miss_memOk {α : Type} {k va} (w : s.memOk = true) : (s.miss (α := α) k va).2.memOk = true := w

theorem translate_memOk {core ctx va k} (w : s.memOk = true) : (s.translate core ctx va k).2.memOk = true := by
  unfold State.translate
  dsimp only
  split
  · split <;> exact tlbFill_memOk w
  · split
    · exact miss_memOk w
    · split <;> rename_i e
      · exact snd_memOk e (coreWalk_memOk w)
      · have w2 := snd_memOk e (coreWalk_memOk w)
        split
        · split
          · exact tlbFill_memOk w2
          · exact w2
        · split
          · exact tlbFill_memOk w2
          · exact w2

theorem leafAt_memOk {core ctx va} (w : s.memOk = true) : (s.leafAt core ctx va).2.memOk = true := by
  unfold State.leafAt
  split
  · exact w
  · split
    · exact miss_memOk w
    · split <;> rename_i e
      · exact snd_memOk e (coreWalk_memOk w)
      · exact tlbFill_memOk (snd_memOk e (coreWalk_memOk w))

/-! ### Faults, the rest of a word and the operations under way -/

theorem setThread_memOk {t} (w : s.memOk = true) : (s.setThread t).memOk = true := by
  unfold State.setThread
  split <;> exact w

theorem mapThreads_memOk {f} (w : s.memOk = true) : (s.mapThreads f).memOk = true := w

theorem setTeam_memOk {t} (w : s.memOk = true) : (s.setTeam t).memOk = true := by
  unfold State.setTeam
  split <;> exact w

theorem focus_memOk {k} (w : s.memOk = true) : Ev.memOk (s.focus k) = true := by
  unfold State.focus
  split
  · exact w
  · rfl

theorem unfocus_memOk (w : s.memOk = true) : s.unfocus.memOk = true := w

theorem pushEntry_memOk {tenant e} (w : s.memOk = true) : (s.pushEntry tenant e).memOk = true := by
  unfold State.pushEntry
  dsimp only
  split <;> exact setTenant_memOk w

theorem pushFault_memOk {tenant r x} (w : s.memOk = true) : (s.pushFault tenant r x).memOk = true :=
  pushEntry_memOk w

theorem noteLane_memOk {n k} (w : s.memOk = true) : (s.noteLane n k).memOk = true := w

theorem markLane_memOk {k pa} (w : s.memOk = true) : (s.markLane k pa).memOk = true := by
  unfold State.markLane
  split <;> exact w

theorem snapBlock_memOk {n} (w : s.memOk = true) : (s.snapBlock n).memOk = true := w

theorem snapshot_memOk {bit} (w : s.memOk = true) : (s.snapshot bit).memOk = true := by
  unfold State.snapshot
  split <;> exact w

theorem snapOnCause_memOk {cause} (w : s.memOk = true) : (s.snapOnCause cause).memOk = true := by
  unfold State.snapOnCause
  split
  · exact snapshot_memOk w
  · exact w

theorem deviceWriteAs_memOk {v core pa b} (w : s.memOk = true) : (s.deviceWriteAs v core pa b).memOk = true :=
  l1Take_memOk _ _ _ (setCluster_memOk _ (homeWriteAs_memOk _ _ _ (flushRegs_memOk _ _ _ w)))

theorem deviceWrite_memOk {core pa b} (w : s.memOk = true) : (s.deviceWrite core pa b).memOk = true :=
  deviceWriteAs_memOk w

theorem stopThread_memOk {t r} (w : s.memOk = true) : (s.stopThread t r).memOk = true := by
  unfold State.stopThread
  dsimp only
  split
  · exact markLane_memOk (pushEntry_memOk (setThread_memOk w))
  · exact pushEntry_memOk (setThread_memOk w)

theorem recPlace_memOk {m k} (w : s.memOk = true) : (s.recPlace m k).2.memOk = true := translate_memOk w

theorem trapThread_memOk {t m r fpc resume count replay} (w : s.memOk = true) :
    (s.trapThread t m r fpc resume count replay).memOk = true := by
  unfold State.trapThread
  dsimp only
  split
  · exact stopThread_memOk (snapOnCause_memOk w)
  · split <;> rename_i e
    · exact stopThread_memOk (snd_memOk e (recPlace_memOk (snapOnCause_memOk w)))
    · have w2 := snd_memOk e (recPlace_memOk (snapOnCause_memOk w))
      refine setThread_memOk ?_
      split
      · exact markLane_memOk (deviceWrite_memOk w2)
      · exact deviceWrite_memOk w2

theorem trap_memOk {r} (w : s.memOk = true) : (s.trap r).memOk = true := trapThread_memOk w

theorem orStay_memOk {e : Ev} (h : Ev.memOk e = true) (w : s.memOk = true) : Out.memOk (s.orStay e) = true :=
  getD_memOk h w

theorem fault_memOk {cause} (w : s.memOk = true) : Out.memOk (s.fault cause) = true := trap_memOk w

theorem faultDetail_memOk {cause detail} (w : s.memOk = true) : Out.memOk (s.faultDetail cause detail) = true :=
  trap_memOk w

theorem faultAt_memOk {cause va detail} (w : s.memOk = true) : Out.memOk (s.faultAt cause va detail) = true :=
  trap_memOk w

theorem advance_memOk (w : s.memOk = true) : s.advance.memOk = true := w

theorem stall_memOk (w : s.memOk = true) : s.stall.memOk = true := by
  unfold State.stall
  split <;> exact w

theorem park_memOk {p} (w : s.memOk = true) : (s.park p).memOk = true := stall_memOk w

theorem setOp_memOk {o} (w : s.memOk = true) : (s.setOp o).memOk = true := w

theorem dropOp_memOk {id} (w : s.memOk = true) : (s.dropOp id).memOk = true := w

theorem addOp_memOk {e regs pa kind scope} (w : s.memOk = true) : (s.addOp e regs pa kind scope).memOk = true := w

theorem finishOp_memOk {o} (w : s.memOk = true) : (s.finishOp o).memOk = true := by
  unfold State.finishOp
  extract_lets t
  have w : t.memOk = true := by
    unfold t
    split
    · exact w
    · exact setThread_memOk w
  clear_value t
  refine foldl_memOk _ _ (fun _ _ h1 => dropOp_memOk ?_) (dropOp_memOk w)
  split
  · exact h1
  · exact setThread_memOk h1

theorem writeRegs_memOk {k d ws} (w : s.memOk = true) : (s.writeRegs k d ws).memOk = true := by
  unfold State.writeRegs
  split
  · exact w
  · exact setThread_memOk w

theorem failOp1_memOk {o r} (w : s.memOk = true) : (s.failOp1 o r).memOk = true := by
  unfold State.failOp1
  split
  · exact dropOp_memOk w
  · split
    · extract_lets _ _ _ _ t
      have w : t.memOk = true := by
        unfold t
        split
        · exact setOp_memOk w
        · exact dropOp_memOk w
      clear_value t
      split
      · exact w
      · exact trapThread_memOk w
    · split
      · dsimp only
        split
        · exact setOp_memOk w
        · exact trapThread_memOk (setOp_memOk w)
      · exact setOp_memOk w

theorem failOp_memOk {o r} (w : s.memOk = true) : (s.failOp o r).memOk = true := by
  unfold State.failOp
  refine foldl_memOk _ _ (fun _ _ h2 => failOp1_memOk h2) (failOp1_memOk ?_)
  split
  · split
    · exact setTeam_memOk w
    · exact w
  · exact w

theorem deliver_memOk {t m o r at_} (w : s.memOk = true) : (s.deliver t m o r at_).memOk = true := by
  unfold State.deliver
  refine trapThread_memOk ?_
  split
  · exact setOp_memOk w
  · exact dropOp_memOk w

theorem waitFor_memOk {kind body} (h : Out.memOk (body s) = true) (w : s.memOk = true) :
    Out.memOk (s.waitFor kind body) = true := by
  unfold State.waitFor
  dsimp only
  split
  · exact h
  · split
    · split
      · exact deliver_memOk w
      · exact stall_memOk w
    · exact stall_memOk w

theorem hazardTrap_memOk {r} (w : s.memOk = true) : (s.hazardTrap r).memOk = true := by
  unfold State.hazardTrap
  split
  · split
    · exact deliver_memOk w
    · exact stall_memOk w
  · exact trap_memOk w

theorem withRegs_memOk {reads writes body} (h : Out.memOk (body s) = true) (w : s.memOk = true) :
    Out.memOk (s.withRegs reads writes body) = true := by
  unfold State.withRegs
  split
  · split
    · exact hazardTrap_memOk w
    · exact faultAt_memOk w
  · exact h

theorem checked_memOk {i body} (h : Out.memOk (body s) = true) (w : s.memOk = true) :
    Out.memOk (s.checked i body) = true := by
  unfold State.checked
  split
  · exact fault_memOk w
  · exact h

theorem word_memOk {i body} (h : Out.memOk (body s) = true) (w : s.memOk = true) :
    Out.memOk (s.word i body) = true :=
  checked_memOk (withRegs_memOk h w) w

theorem maskable_memOk {i ds body} (h : Out.memOk (body s) = true) (w : s.memOk = true) :
    Out.memOk (s.maskable i ds body) = true := by
  unfold State.maskable
  refine checked_memOk ?_ w
  split
  · exact w
  · exact withRegs_memOk w w
  · exact withRegs_memOk h w

theorem complete_memOk {f} (w : s.memOk = true) : Out.memOk (s.complete f) = true := w

theorem withTh_memOk {f} (w : s.memOk = true) : (s.withTh f).memOk = true := w

/-! ### Operands and results -/

theorem alu3_memOk {cls role d a b f} (w : s.memOk = true) : Out.memOk (s.alu3 cls role d a b f) = true :=
  maskable_memOk (complete_memOk w) w

theorem alu3d_memOk {cls role d a b f} (w : s.memOk = true) : Out.memOk (s.alu3d cls role d a b f) = true :=
  maskable_memOk (complete_memOk w) w

theorem alu4_memOk {cls role d a b f} (w : s.memOk = true) : Out.memOk (s.alu4 cls role d a b f) = true :=
  maskable_memOk (complete_memOk w) w

theorem alu2_memOk {cls role d a f} (w : s.memOk = true) : Out.memOk (s.alu2 cls role d a f) = true :=
  maskable_memOk (complete_memOk w) w

theorem aluBlock_memOk {d a n more f} (w : s.memOk = true) : Out.memOk (s.aluBlock d a n more f) = true :=
  maskable_memOk (complete_memOk w) w

theorem plain_memOk {reads writes f} (w : s.memOk = true) : Out.memOk (s.plain reads writes f) = true :=
  word_memOk (complete_memOk w) w

theorem alu64_memOk {d a b f} (w : s.memOk = true) : Out.memOk (s.alu64 d a b f) = true := plain_memOk w

theorem compare_memOk {cls role p a b f} (w : s.memOk = true) : Out.memOk (s.compare cls role p a b f) = true :=
  word_memOk (complete_memOk w) w

theorem compare64_memOk {p a b f} (w : s.memOk = true) : Out.memOk (s.compare64 p a b f) = true := plain_memOk w

theorem compareImm_memOk {p a i f} (w : s.memOk = true) : Out.memOk (s.compareImm p a i f) = true := plain_memOk w

theorem predOp_memOk {p a b f} (w : s.memOk = true) : Out.memOk (s.predOp p a b f) = true := plain_memOk w

theorem lea_memOk {scale d a b} (w : s.memOk = true) : Out.memOk (s.lea scale d a b) = true :=
  maskable_memOk (complete_memOk w) w

theorem jump_memOk {a} (w : s.memOk = true) : Out.memOk (s.jump a) = true := w

/-! ### Words of numbers -/

theorem special_memOk {f e d a} (w : s.memOk = true) : Out.memOk (s.special f e d a) = true := by
  unfold State.special
  refine maskable_memOk ?_ w
  split
  · exact addOp_memOk w
  · exact stall_memOk w

/-! ### Words of integers -/

theorem indirect_memOk {x i go} (h : ∀ n, Out.memOk (go n s) = true) (w : s.memOk = true) :
    Out.memOk (s.indirect x i go) = true := by
  unfold State.indirect
  dsimp only
  split
  · exact trap_memOk w
  · exact h _

theorem execPget_memOk {d} (w : s.memOk = true) : Out.memOk (execPget d s) = true :=
  maskable_memOk (complete_memOk w) w

theorem execRdk_memOk {d k} (w : s.memOk = true) : Out.memOk (execRdk d k s) = true :=
  maskable_memOk (complete_memOk w) w

theorem execRdx_memOk {d x i} (w : s.memOk = true) : Out.memOk (execRdx d x i s) = true :=
  checked_memOk (indirect_memOk (fun _ => withRegs_memOk (complete_memOk w) w) w) w

theorem execWrx_memOk {r x i} (w : s.memOk = true) : Out.memOk (execWrx r x i s) = true :=
  checked_memOk (indirect_memOk (fun _ => withRegs_memOk (complete_memOk w) w) w) w

/-! ### Tills, spawning and waking -/

theorem formGroup_memOk {m num run entry r window args} (w : s.memOk = true) :
    (s.formGroup m num run entry r window args).memOk = true :=
  setTeam_memOk w

theorem makeDue_memOk {u i} (w : s.memOk = true) : (s.makeDue u i).memOk = true := by
  unfold State.makeDue
  split
  · exact w
  · split
    · exact w
    · split
      · exact w
      · exact setTeam_memOk w

theorem placeSpawn_memOk {u entry r arg flush} (w : s.memOk = true) :
    Ev.memOk (s.placeSpawn u entry r arg flush) = true := by
  unfold State.placeSpawn
  split
  · rfl
  · dsimp only
    split
    · split
      · split
        · rfl
        · split
          · exact makeDue_memOk (setTeam_memOk w)
          · exact setTeam_memOk w
      · rfl
    · split
      · split
        · exact makeDue_memOk (setTeam_memOk w)
        · exact setTeam_memOk w
      · rfl

theorem trapAtWord_memOk {t m f} (w : s.memOk = true) : (s.trapAtWord t m f).memOk = true := trapThread_memOk w

theorem spawnDeadlock_memOk {u} (w : s.memOk = true) : (s.spawnDeadlock u).memOk = true := by
  unfold State.spawnDeadlock
  split
  · exact w
  · split
    · exact w
    · refine foldl_memOk _ _ (fun _ _ h => ?_) w
      split
      · exact trapAtWord_memOk h
      · exact h

theorem wakeSpawners_memOk {u} (w : s.memOk = true) : (s.wakeSpawners u).memOk = true := by
  unfold State.wakeSpawners
  refine foldl_memOk _ _ (fun _ _ h => ?_) w
  split
  · split <;> rename_i e1
    · exact setThread_memOk (some_memOk e1 (placeSpawn_memOk h))
    · exact h
  · exact h

theorem releaseNext_memOk {u} (w : s.memOk = true) : Ev.memOk (s.releaseNext u) = true := by
  unfold State.releaseNext
  cases s.team? u with
  | none => rfl
  | some m =>
    cases h : s.canRelease m with
    | none => simp [h, Ev.memOk]
    | some x => simpa [h, Ev.memOk] using wakeSpawners_memOk (formGroup_memOk w)

theorem releaseUpTo_memOk {u n} (w : s.memOk = true) : (s.releaseUpTo u n).memOk = true := by
  induction n generalizing s with
  | zero => exact w
  | succ n ih =>
    unfold State.releaseUpTo
    split <;> rename_i e
    · exact w
    · exact ih (some_memOk e (releaseNext_memOk w))

theorem releaseTills_memOk {u} (w : s.memOk = true) : (s.releaseTills u).memOk = true :=
  spawnDeadlock_memOk (releaseUpTo_memOk w)

theorem freeSlot_memOk {u} (w : s.memOk = true) : (s.freeSlot u).memOk = true := by
  unfold State.freeSlot
  split
  · exact w
  · split
    · exact w
    · exact setTeam_memOk w

theorem leave_memOk (w : s.memOk = true) : s.leave.memOk = true :=
  freeSlot_memOk (releaseTills_memOk (mapThreads_memOk w))

/-! ### Control words and traps -/

theorem branch_memOk {taken o} (w : s.memOk = true) : Out.memOk (s.branch taken o) = true :=
  word_memOk (jump_memOk w) w

theorem jumpPair_memOk {a} (w : s.memOk = true) : Out.memOk (s.jumpPair a) = true := by
  unfold State.jumpPair
  refine word_memOk ?_ w
  split
  · exact jump_memOk w
  · exact faultAt_memOk w

theorem dropReplay_memOk (w : s.memOk = true) : s.dropReplay.memOk = true := by
  unfold State.dropReplay
  split <;> exact w

theorem execExit_memOk (w : s.memOk = true) : Out.memOk (execExit s) = true := by
  unfold execExit
  refine word_memOk ?_ w
  extract_lets t
  have w : t.memOk = true := by
    unfold t
    split
    · exact dropReplay_memOk w
    · exact w
  clear_value t
  split
  · exact stall_memOk w
  · split
    · split
      · exact dropOp_memOk w
      · exact deliver_memOk w
    · exact leave_memOk w

theorem execYield_memOk (w : s.memOk = true) : Out.memOk (execYield s) = true := by
  unfold execYield
  refine word_memOk ?_ w
  split <;> exact w

theorem execTret_memOk (w : s.memOk = true) : Out.memOk (execTret s) = true := by
  unfold execTret
  refine word_memOk ?_ w
  split
  · exact fault_memOk w
  · dsimp only
    split
    · exact w
    · split
      · exact dropReplay_memOk (withTh_memOk w)
      · split
        · exact faultAt_memOk (dropReplay_memOk (withTh_memOk w))
        · exact dropReplay_memOk (withTh_memOk w)

theorem admitHeld_memOk {n k} (w : s.memOk = true) : (s.admitHeld n k).memOk = true := by
  induction k generalizing s with
  | zero => exact w
  | succ k ih =>
    unfold State.admitHeld
    dsimp only
    split
    · exact w
    · split
      · exact w
      · exact ih (pushEntry_memOk w)

theorem writeFqhead_memOk {n v} (w : s.memOk = true) : (s.writeFqhead n v).memOk = true :=
  admitHeld_memOk (setTenant_memOk w)

theorem supWrite_memOk {n v} (w : s.memOk = true) : Ev.memOk (s.supWrite n v) = true := by
  unfold State.supWrite
  dsimp only
  split
  · split
    · exact w
    · rfl
  · split
    · exact w
    · rfl
  · exact setTenant_memOk w
  · exact setTenant_memOk w
  · exact writeFqhead_memOk w
  · exact setTenant_memOk w
  · exact w
  · exact w
  · rfl

theorem execRdsr_memOk {d n} (w : s.memOk = true) : Out.memOk (execRdsr d n s) = true := by
  unfold execRdsr
  split
  · exact fault_memOk w
  · split <;> exact plain_memOk w

theorem execWrsr_memOk {r n} (w : s.memOk = true) : Out.memOk (execWrsr r n s) = true := by
  unfold execWrsr
  split
  · exact fault_memOk w
  · refine word_memOk ?_ w
    dsimp only
    split
    · exact complete_memOk w
    · split <;> rename_i e
      · exact advance_memOk (some_memOk e (supWrite_memOk w))
      · exact fault_memOk w

theorem spawnForm_memOk {flush r a o} (w : s.memOk = true) : Out.memOk (s.spawnForm flush r a o) = true := by
  unfold State.spawnForm
  refine word_memOk ?_ w
  dsimp only
  split
  · exact faultAt_memOk w
  · split <;> rename_i e
    · exact releaseTills_memOk (advance_memOk (some_memOk e (placeSpawn_memOk w)))
    · exact spawnDeadlock_memOk (park_memOk w)

theorem prefixWord_memOk {ok p} (w : s.memOk = true) : Out.memOk (s.prefixWord ok p) = true := by
  unfold State.prefixWord
  split
  · exact fault_memOk w
  · split
    · exact fault_memOk w
    · split
      · exact fault_memOk w
      · split
        · exact fault_memOk w
        · exact w

/-! ### Pages awaited and resolved -/

theorem addAccess_memOk {key op push r fpc va lane} (w : s.memOk = true) :
    (s.addAccess key op push r fpc va lane).2.memOk = true := by
  unfold State.addAccess
  dsimp only
  split
  · exact setTenant_memOk (snapOnCause_memOk w)
  · exact pushEntry_memOk (snapOnCause_memOk w)

theorem dropAccesses_memOk {gone} (w : s.memOk = true) : (s.dropAccesses gone).memOk = true := w

theorem waitOn_memOk {a n} (w : s.memOk = true) : (s.waitOn a n).memOk = true := w

theorem parkThread_memOk {t p} (w : s.memOk = true) : (s.parkThread t p).memOk = true := by
  unfold State.parkThread
  split <;> exact setThread_memOk w

theorem laneFaulted_memOk {lane} (w : s.memOk = true) : (s.laneFaulted lane).memOk = true := by
  unfold State.laneFaulted
  split
  · split
    · exact markLane_memOk w
    · exact noteLane_memOk w
  · exact w

theorem parkOnPage_memOk {t r fpc va lane} (w : s.memOk = true) : (s.parkOnPage t r fpc va lane).memOk = true :=
  parkThread_memOk (laneFaulted_memOk (addAccess_memOk w))

theorem pageFaultAs_memOk {r va} (w : s.memOk = true) : (s.pageFaultAs r va).memOk = true :=
  parkOnPage_memOk (stall_memOk w)

theorem pageFault_memOk {va} (w : s.memOk = true) : (s.pageFault va).memOk = true := pageFaultAs_memOk w

theorem pageWait_memOk {o r va} (w : s.memOk = true) : (s.pageWait o r va).memOk = true := by
  unfold State.pageWait
  dsimp only
  split
  · exact setOp_memOk (laneFaulted_memOk (addAccess_memOk w))
  · split
    · split
      · exact parkThread_memOk (setOp_memOk (laneFaulted_memOk (addAccess_memOk w)))
      · exact setOp_memOk (laneFaulted_memOk (addAccess_memOk w))
    · exact setOp_memOk (laneFaulted_memOk (addAccess_memOk w))

theorem pageFaultOp_memOk {o engine va} (w : s.memOk = true) : (s.pageFaultOp o engine va).memOk = true :=
  pageWait_memOk w

theorem memWord_memOk {i body} (h : Out.memOk (body s) = true) (w : s.memOk = true) :
    Out.memOk (s.memWord i body) = true :=
  word_memOk (waitFor_memOk h w) w

theorem tracked_memOk {e body} (h : Out.memOk (body s) = true) (w : s.memOk = true) :
    Out.memOk (s.tracked e body) = true := by
  unfold State.tracked
  split
  · exact h
  · exact stall_memOk w

theorem onOp_memOk {id body} (hb : ∀ a, Ev.memOk (body a) = true) (w : s.memOk = true) :
    Out.memOk (s.onOp id body) = true := by
  unfold State.onOp
  refine orStay_memOk ?_ w
  split
  · rfl
  · split
    · rfl
    · exact hb _

/-- A step of an engine's operation (R317). -/
theorem withWalks_memOk {o body} (hb : ∀ t p, t.memOk = true → Ev.memOk (body t p) = true) (w : s.memOk = true) :
    Ev.memOk (s.withWalks o body) = true := by
  unfold State.withWalks
  split
  · rfl
  · split <;> rename_i e
    · rfl
    · have w1 := some_memOk e (hb _ _ w)
      split
      · exact w
      · exact w1

theorem faultX_memOk {e} (w : s.memOk = true) : (s.faultX e).memOk = true := by
  unfold State.faultX
  split
  · exact pageFault_memOk w
  · exact trap_memOk w

theorem withPa_memOk {va k body} (hb : ∀ t b c, t.memOk = true → Out.memOk (body t b c) = true) (w : s.memOk = true)
    : Out.memOk (s.withPa va k body) = true := by
  unfold State.withPa
  split
  · exact stall_memOk w
  · split <;> rename_i e
    · exact faultX_memOk (snd_memOk e (translate_memOk w))
    · exact hb _ _ _ (snd_memOk e (translate_memOk w))

theorem failTogether_memOk {now} (w : s.memOk = true) : (s.failTogether now).memOk = true :=
  foldl_memOk _ _ (fun _ _ h => failOp_memOk h) (foldl_memOk _ _ (fun _ _ h1 => noteLane_memOk h1) w)

theorem failLanes_memOk {now} (w : s.memOk = true) : (s.failLanes now).memOk = true := failTogether_memOk w

theorem faultOp_memOk {o e} (w : s.memOk = true) : (s.faultOp o e).memOk = true := by
  unfold State.faultOp
  split
  · exact pageFaultOp_memOk w
  · exact failLanes_memOk w

/-! ### Pieces of an access -/

theorem engineRead_memOk {o va n} (w : s.memOk = true) : (s.engineRead o va n).2.memOk = true := by
  unfold State.engineRead
  split
  · exact w
  · split <;> rename_i e
    · exact snd_memOk e (translate_memOk w)
    · have w2 := snd_memOk e (translate_memOk w)
      split
      · exact w2
      · exact coreRead_memOk _ _ _ _ _ _ w2

/-! ### Presence and what holds a word back -/

theorem wakeLines_memOk (w : s.memOk = true) : s.wakeLines.memOk = true := mapThreads_memOk w

theorem barUpdate_memOk {u b count bytes} (w : s.memOk = true) :
    Except.memOk id (s.barUpdate u b count bytes) = true := by
  unfold State.barUpdate
  split
  · rfl
  · split
    · rfl
    · exact setTeam_memOk w

theorem wakeForFault_memOk {u b} (w : s.memOk = true) : (s.wakeForFault u b).memOk = true := by
  unfold State.wakeForFault
  split
  · exact w
  · exact setTeam_memOk (mapThreads_memOk w)

theorem engineFail_memOk {o r} (w : s.memOk = true) : (s.engineFail o r).memOk = true := by
  unfold State.engineFail
  refine wakeLines_memOk ?_
  split
  · exact wakeForFault_memOk (failOp_memOk w)
  · exact failOp_memOk w

theorem engineFault_memOk {o e} (w : s.memOk = true) : (s.engineFault o e).memOk = true := by
  unfold State.engineFault
  split
  · exact pageFaultOp_memOk w
  · exact engineFail_memOk w

theorem engineField_memOk {o cause detail} (w : s.memOk = true) : (s.engineField o cause detail).memOk = true :=
  engineFail_memOk w

theorem stashUnitBack_memOk {m x l d v} (w : s.memOk = true) : (s.stashUnitBack m x l d v).memOk = true :=
  foldl_memOk _ _ (fun _ _ h => clusterStore_memOk _ _ _ _ h) w

theorem stashLineBack_memOk {u x l} (w : s.memOk = true) : (s.stashLineBack u x l).memOk = true := by
  unfold State.stashLineBack
  split
  · exact w
  · split
    · exact setTeam_memOk (foldl_memOk _ _ (fun _ _ h => stashUnitBack_memOk h) w)
    · exact w

theorem stashMend_memOk {m n l d v} (w : s.memOk = true) :
    Except.memOk Prod.snd (s.stashMend m n l d v) = true := by
  unfold State.stashMend
  dsimp only
  split
  · rfl
  · exact coreRead_memOk _ _ _ _ _ _ (stashUnitBack_memOk w)

theorem stashBack_memOk {u x} (w : s.memOk = true) : (s.stashBack u x).memOk = true := by
  unfold State.stashBack
  split
  · exact w
  · split
    · exact foldl_memOk _ _ (fun _ _ h => stashLineBack_memOk h) w
    · exact w

theorem stashBackAll_memOk {u} (w : s.memOk = true) : (s.stashBackAll u).memOk = true :=
  foldl_memOk _ _ (fun _ _ h => stashBack_memOk h) w

theorem stashTakeUnit_memOk {u a} (w : s.memOk = true) : (s.stashTakeUnit u a).memOk = true := by
  unfold State.stashTakeUnit
  split
  · exact w
  · split
    · exact w
    · split
      · split <;> rename_i e
        · exact setTeam_memOk (ok_memOk e (stashMend_memOk w))
        · exact stashLineBack_memOk w
      · exact w

theorem stashTake_memOk {u va b} (w : s.memOk = true) : (s.stashTake u va b).memOk = true := by
  unfold State.stashTake
  split
  · exact foldl_memOk _ _ (fun _ _ h => stashTakeUnit_memOk h) w
  · exact w

theorem flushCluster_memOk {c} (w : s.memOk = true) : (s.flushCluster c).memOk = true :=
  foldl_memOk _ _ (fun _ _ h => homeRegister_memOk _ h) w

theorem releaseAt_memOk {core u sc} (w : s.memOk = true) : (s.releaseAt core u sc).memOk = true := by
  unfold State.releaseAt
  split
  · exact w
  · exact stashBackAll_memOk w
  · exact flushCluster_memOk (stashBackAll_memOk w)

theorem acquireStep_memOk {core u sc} (w : s.memOk = true) : (s.acquireStep core u sc).memOk = true := by
  unfold State.acquireStep
  split
  · exact w
  · exact acquireAt_memOk _ _ (stashBackAll_memOk w)

theorem joinOp_memOk {o} (w : s.memOk = true) : (s.joinOp o).memOk = true := finishOp_memOk (acquireStep_memOk w)

theorem landed_memOk {o bytes last} (w : s.memOk = true) : (s.landed o bytes last).memOk = true := by
  unfold State.landed
  split
  · split
    · exact joinOp_memOk w
    · exact w
  · split <;> rename_i e
    · exact engineField_memOk w
    · have w1 := ok_memOk e (barUpdate_memOk w)
      split
      · exact w1
      · split <;> rename_i e1
        · exact engineField_memOk w1
        · exact joinOp_memOk (ok_memOk e1 (barUpdate_memOk w1))

/-! ### Scratch -/

theorem stashTouch_memOk {x l off store flagged body} (hb : ∀ t b, t.memOk = true → Out.memOk (body t b) = true)
    (w : s.memOk = true) : Out.memOk (s.stashTouch x l off store flagged body) = true := by
  unfold State.stashTouch
  dsimp only
  split
  · exact park_memOk w
  · exact park_memOk w
  · split
    · exact faultAt_memOk w
    · split
      · exact faultAt_memOk w
      · exact hb _ _ w

theorem stashWhole_memOk {n l off flagged body vs} (hb : ∀ t, t.memOk = true → Out.memOk (body t) = true)
    (w : s.memOk = true) : Out.memOk (s.stashWhole n l off flagged body vs) = true := by
  induction vs generalizing s with
  | nil => exact hb _ w
  | cons v vs ih =>
    unfold State.stashWhole
    dsimp only
    split
    · split <;> rename_i e
      · have w1 := ok_memOk e (stashMend_memOk w)
        exact ih w1
      · exact park_memOk (foldl_memOk _ _ (fun _ _ h => stashUnitBack_memOk h) w)
    · exact hb _ w

theorem stashLoad_memOk {x l off n flagged body} (hb : ∀ t, t.memOk = true → Out.memOk (body t) = true)
    (w : s.memOk = true) : Out.memOk (s.stashLoad x l off n flagged body) = true :=
  stashTouch_memOk (fun _ _ h => stashWhole_memOk (fun _ h1 => hb _ h1) h) w

theorem stashStore_memOk {x l off n body} (hb : ∀ t, t.memOk = true → Out.memOk (body t) = true)
    (w : s.memOk = true) : Out.memOk (s.stashStore x l off n body) = true :=
  stashTouch_memOk (fun _ _ h => hb _ h) w

theorem scratchAccess_memOk {o n store body} (hb : ∀ t b, t.memOk = true → Out.memOk (body t b) = true)
    (w : s.memOk = true) : Out.memOk (s.scratchAccess o n store body) = true := by
  unfold State.scratchAccess
  split
  · exact faultAt_memOk w
  · dsimp only
    split
    · split
      · exact stashStore_memOk (fun _ h => hb _ _ h) w
      · exact stashLoad_memOk (fun _ h1 => hb _ _ h1) w
    · split
      · exact park_memOk w
      · exact hb _ _ w

theorem scratchLoad_memOk {off size signed d} (w : s.memOk = true) :
    Out.memOk (s.scratchLoad off size signed d) = true := by
  unfold State.scratchLoad
  split
  · exact faultAt_memOk w
  · exact complete_memOk w

theorem scratchStore_memOk {off b} (w : s.memOk = true) : Out.memOk (s.scratchStore off b) = true := advance_memOk w

theorem lds_memOk {size signed d b k} (w : s.memOk = true) : Out.memOk (s.lds size signed d b k) = true :=
  memWord_memOk (scratchAccess_memOk (fun _ _ h => scratchLoad_memOk h) w) w

theorem sts_memOk {size d b k} (w : s.memOk = true) : Out.memOk (s.sts size d b k) = true :=
  memWord_memOk (waitFor_memOk (scratchAccess_memOk (fun _ _ h => scratchStore_memOk h) w) w) w

theorem execPrsTest_memOk {p b} (w : s.memOk = true) : Out.memOk (execPrsTest p b s) = true := by
  unfold execPrsTest
  refine memWord_memOk ?_ w
  dsimp only
  split
  · exact faultAt_memOk w
  · exact complete_memOk w

theorem execStashMap_memOk {e d b} (w : s.memOk = true) : Out.memOk (execStashMap e d b s) = true := by
  unfold execStashMap
  refine memWord_memOk (tracked_memOk ?_ w) w
  dsimp only
  split
  · exact faultAt_memOk w
  · exact addOp_memOk w

theorem mapLines_memOk {core ctx va n} (w : s.memOk = true) : (s.mapLines core ctx va n).2.memOk = true := by
  induction n with
  | zero => exact w
  | succ n ih =>
    unfold State.mapLines
    split <;> rename_i e
    · exact snd_memOk e ih
    · split <;> rename_i e1 <;> exact snd_memOk e1 (translate_memOk (snd_memOk e ih))

theorem execStashMapComplete_memOk {op} (w : s.memOk = true) : Out.memOk (execStashMapComplete op s) = true := by
  unfold execStashMapComplete
  refine onOp_memOk (fun _ => ?_) w
  split
  · split
    · rfl
    · refine withWalks_memOk (fun _ _ h => ?_) w
      split <;> rename_i e1
      · exact faultOp_memOk (snd_memOk e1 (mapLines_memOk h))
      · have w3 := snd_memOk e1 (mapLines_memOk h)
        split
        · exact finishOp_memOk (setTeam_memOk w3)
        · exact failTogether_memOk w3
        · rfl
  · rfl

theorem stashEnd_memOk {e unmap d} (w : s.memOk = true) : Out.memOk (s.stashEnd e unmap d) = true := by
  unfold State.stashEnd
  refine memWord_memOk (tracked_memOk ?_ w) w
  split
  · exact faultAt_memOk w
  · exact addOp_memOk w

theorem execStashWbComplete_memOk {op} (w : s.memOk = true) : Out.memOk (execStashWbComplete op s) = true := by
  unfold execStashWbComplete
  refine onOp_memOk (fun _ => ?_) w
  split
  · split
    · rfl
    · refine wakeLines_memOk (finishOp_memOk ?_)
      split
      · split
        · exact setTeam_memOk (stashBack_memOk w)
        · exact stashBack_memOk w
      · exact stashBack_memOk w
  · rfl

theorem fillFails_memOk {u x l e} (w : s.memOk = true) : (s.fillFails u x l e).memOk = true := by
  unfold State.fillFails
  split
  · exact w
  · refine foldl_memOk _ _ (fun _ _ h => ?_) (foldl_memOk _ _ (fun _ _ h1 => noteLane_memOk h1) (setTeam_memOk w))
    split
    dsimp only
    split
    · exact parkOnPage_memOk h
    · exact trapAtWord_memOk h

theorem refreshLine_memOk {m x l} (w : s.memOk = true) : (s.refreshLine m x l).2.memOk = true := by
  unfold State.refreshLine
  dsimp only
  split
  · split <;> rename_i e <;> exact snd_memOk e (translate_memOk w)
  · exact w

theorem execStashFill_memOk {team window line} (w : s.memOk = true) :
    Out.memOk (execStashFill team window line s) = true := by
  unfold execStashFill
  refine orStay_memOk ?_ w
  split
  · rfl
  · split
    · rfl
    · split <;> rename_i e
      · exact fillFails_memOk (snd_memOk e (refreshLine_memOk w))
      · have w2 := snd_memOk e (refreshLine_memOk w)
        extract_lets _ t3
        have w3 : t3.memOk = true := by
          unfold t3
          split
          · exact settleLine_memOk _ (leaveLine_memOk _ _ w2)
          · exact w2
        clear_value t3
        dsimp only
        split
        · exact fillFails_memOk (clusterLine_memOk _ _ w3)
        · exact wakeLines_memOk (setTeam_memOk (l1Take_memOk _ _ _ (clusterLine_memOk _ _ w3)))

/-! ### Loads and stores -/

theorem withFork_memOk {o body} (hb : ∀ t b, t.memOk = true → Ev.memOk (body t b) = true) (w : s.memOk = true) :
    Ev.memOk (s.withFork o body) = true := by
  unfold State.withFork
  split
  · rfl
  · split
    · exact hb _ _ w
    · exact hb _ _ (setOp_memOk (releaseAt_memOk w))

theorem loadAt_memOk {e va size signed d acq} (w : s.memOk = true) :
    Out.memOk (s.loadAt e va size signed d acq) = true := by
  unfold State.loadAt
  dsimp only
  split
  · exact addOp_memOk w
  · exact withPa_memOk (fun _ _ _ h => addOp_memOk h) w

theorem withAddr_memOk {va size body} (hb : ∀ t, t.memOk = true → Out.memOk (body t) = true) (w : s.memOk = true) :
    Out.memOk (s.withAddr va size body) = true := by
  unfold State.withAddr
  split
  · exact hb _ w
  · exact faultAt_memOk w

theorem ldForm_memOk {e size signed d b k} (w : s.memOk = true) :
    Out.memOk (s.ldForm e size signed d b k) = true := by
  unfold State.ldForm
  refine memWord_memOk (tracked_memOk (withAddr_memOk (fun _ h => ?_) w) w) w
  split
  · exact waitFor_memOk (stashLoad_memOk (fun _ h1 => scratchLoad_memOk h1) h) h
  · exact loadAt_memOk h

theorem stForm_memOk {e size d b k} (w : s.memOk = true) : Out.memOk (s.stForm e size d b k) = true := by
  unfold State.stForm
  refine memWord_memOk (tracked_memOk (withAddr_memOk (fun _ h => ?_) w) w) w
  split
  · exact waitFor_memOk (stashStore_memOk (fun _ h1 => scratchStore_memOk h1) h) h
  · exact withPa_memOk (fun _ _ _ h2 => addOp_memOk h2) h

theorem clusterRead_memOk {core pa n} (w : s.memOk = true) : (s.clusterRead core pa n).2.memOk = true := by
  unfold State.clusterRead
  split
  · exact settleLine_memOk _ (leaveLine_memOk _ _ w)
  · exact fetch_memOk _ _ (makeRoom_memOk _ _ w)

theorem beforeHome_memOk {core pa n} (w : s.memOk = true) : (s.beforeHome core pa n).memOk = true := by
  unfold State.beforeHome
  dsimp only
  split
  · exact settleLine_memOk _ (leaveLine_memOk _ _ (flushRegs_memOk _ _ _ w))
  · exact flushRegs_memOk _ _ _ w

theorem homeAt_memOk {v core pa n} (w : s.memOk = true) : (s.homeAt v core pa n).2.memOk = true :=
  viewBytes_memOk (beforeHome_memOk w)

theorem homeRead_memOk {core pa n} (w : s.memOk = true) : (s.homeRead core pa n).2.memOk = true := by
  unfold State.homeRead
  dsimp only
  split
  · exact w
  · exact homeAt_memOk w

theorem acqValue_memOk {o pa n sc} (w : s.memOk = true) : (s.acqValue o pa n sc).2.memOk = true := by
  unfold State.acqValue
  split
  · exact clusterRead_memOk w
  · exact homeRead_memOk w

theorem loadDone_memOk {o d ws} (w : s.memOk = true) : (s.loadDone o d ws).memOk = true := by
  unfold State.loadDone
  dsimp only
  split
  · refine setOp_memOk ?_
    split
    · exact setThread_memOk (writeRegs_memOk w)
    · exact writeRegs_memOk w
  · exact finishOp_memOk (writeRegs_memOk w)

theorem loadLane_memOk {b o} (w : s.memOk = true) : (s.loadLane b o).memOk = true := by
  unfold State.loadLane
  split
  · exact loadDone_memOk w
  · exact w

theorem loadReturn_memOk {o va size signed d count policy acq} (w : s.memOk = true) :
    Ev.memOk (s.loadReturn o va size signed d count policy acq) = true := by
  unfold State.loadReturn
  split
  · rfl
  · split
    · rfl
    · split
      · split
        · rfl
        · split
          · exact failLanes_memOk w
          · exact foldl_memOk _ _ (fun _ _ h => loadLane_memOk h) (coreRead_memOk _ _ _ _ _ _ w)
      · dsimp only
        split
        · exact failLanes_memOk w
        · exact loadDone_memOk (acquireStep_memOk (acqValue_memOk w))

theorem storeWritten_memOk {o va b rel} (w : s.memOk = true) : Ev.memOk (s.storeWritten o va b rel) = true := by
  unfold State.storeWritten
  split
  · rfl
  · split
    · rfl
    · refine finishOp_memOk (stashTake_memOk (clusterStore_memOk _ _ _ _ ?_))
      split
      · exact w
      · exact releaseAt_memOk w

theorem translateAll_memOk {core ctx va ks} (w : s.memOk = true) :
    (s.translateAll core ctx va ks).2.memOk = true := by
  induction ks generalizing s with
  | nil => exact w
  | cons k ks ih =>
    cases ks with
    | nil => exact translate_memOk w
    | cons k' ks =>
      unfold State.translateAll
      split <;> rename_i e
      · exact snd_memOk e (translate_memOk w)
      · exact ih (snd_memOk e (translate_memOk w))

theorem walkDone_memOk {fails o} (w : s.memOk = true) : (s.walkDone fails o).2.memOk = true := by
  unfold State.walkDone
  split
  · exact setOp_memOk w
  · exact w
  · split <;> rename_i e
    · have w1 := snd_memOk e (translateAll_memOk w)
      split
      · exact engineFault_memOk w1
      · split
        · exact pageFaultOp_memOk w1
        · exact w1
    · have w2 := snd_memOk e (translateAll_memOk w)
      split
      · exact w2
      · exact setOp_memOk w2

theorem endWalk_memOk {k} (w : s.memOk = true) : (s.endWalk k).memOk = true := by
  unfold State.endWalk
  dsimp only
  split
  · exact foldl_snd_memOk (fun _ _ h => walkDone_memOk h) w
  · exact failLanes_memOk (foldl_snd_memOk (fun _ _ h1 => walkDone_memOk h1) w)

theorem execPageWalk_memOk {op} (w : s.memOk = true) : Out.memOk (execPageWalk op s) = true := by
  unfold execPageWalk
  refine onOp_memOk (fun _ => ?_) w
  split
  · rfl
  · split
    · exact endWalk_memOk w
    · split
      · exact w
      · rfl

/-! ### Atomics -/

theorem wordAddr_memOk {va size body} (hb : ∀ t, t.memOk = true → Out.memOk (body t) = true) (w : s.memOk = true) :
    Out.memOk (s.wordAddr va size body) = true := by
  unfold State.wordAddr
  refine withAddr_memOk (fun _ h => ?_) w
  split
  · exact faultDetail_memOk h
  · exact hb _ h

theorem withRw_memOk {va body} (hb : ∀ t b, t.memOk = true → Out.memOk (body t b) = true) (w : s.memOk = true) :
    Out.memOk (s.withRw va body) = true := by
  unfold State.withRw
  split
  · exact stall_memOk w
  · split <;> rename_i e
    · exact faultX_memOk (snd_memOk e (translateAll_memOk w))
    · exact hb _ _ (snd_memOk e (translateAll_memOk w))

theorem atomWord_memOk {returns f e d a sc} (w : s.memOk = true) :
    Out.memOk (s.atomWord returns f e d a sc) = true :=
  memWord_memOk (tracked_memOk (wordAddr_memOk (fun _ h => withRw_memOk (fun _ _ h1 => addOp_memOk h1) h) w) w) w

theorem seenAtHome_memOk {core pa n} (w : s.memOk = true) : (s.seenAtHome core pa n).memOk = true :=
  l1Take_memOk _ _ _ (setCluster_memOk _ w)

theorem atomPerform_memOk {o sc va pa n lanes} (w : s.memOk = true) :
    (s.atomPerform o sc va pa n lanes).2.memOk = true := by
  unfold State.atomPerform
  dsimp only
  split
  · refine l1Take_memOk _ _ _ ?_
    split
    · exact setCluster_memOk _ (markView_memOk _ _ _ w)
    · exact w
  · split
    · exact stashTake_memOk (deviceWrite_memOk w)
    · exact seenAtHome_memOk (revokeRange_memOk _ _ w)

theorem atomLeave_memOk {o old} (w : s.memOk = true) : (s.atomLeave o old).memOk = true := by
  unfold State.atomLeave
  split
  · exact finishOp_memOk (writeRegs_memOk w)
  · exact finishOp_memOk w

theorem atomReturn_memOk {o f sc va} (w : s.memOk = true) : Ev.memOk (s.atomReturn o f sc va) = true := by
  unfold State.atomReturn
  split
  · rfl
  · dsimp only
    split
    · rfl
    · split
      · exact failLanes_memOk (beforeHome_memOk w)
      · exact foldl_memOk _ _ (fun _ _ h => atomLeave_memOk h) (atomPerform_memOk (beforeHome_memOk w))

theorem baddWord_memOk {bf e d a} (w : s.memOk = true) : Out.memOk (s.baddWord bf e d a) = true := by
  unfold State.baddWord
  refine memWord_memOk (tracked_memOk (wordAddr_memOk (fun _ h => ?_) w) w) w
  split
  · exact faultDetail_memOk h
  · split
    · exact faultDetail_memOk h
    · exact withRw_memOk (fun _ _ h1 => addOp_memOk h1) h

theorem setEscrow_memOk {c e} (w : s.memOk = true) : (s.setEscrow c e).memOk = true := setCluster_memOk _ w

theorem revokeUntil_memOk {line c enough n} (w : s.memOk = true) :
    (s.revokeUntil line c enough n).memOk = true := by
  induction n generalizing s with
  | zero => exact w
  | succ n ih =>
    unfold State.revokeUntil
    split
    · exact w
    · split
      · exact w
      · exact ih (settleFrom_memOk _ _ w)

theorem execAllowanceRequest_memOk {op} (w : s.memOk = true) : Out.memOk (execAllowanceRequest op s) = true := by
  unfold execAllowanceRequest
  refine onOp_memOk (fun _ => ?_) w
  split
  · split
    · rfl
    · exact setOp_memOk (setEscrow_memOk (revokeUntil_memOk (makeRoom_memOk _ _ (flushRegs_memOk _ _ _ w))))
  · rfl

theorem baddElement_memOk {o bf x pa next} (w : s.memOk = true) : (s.baddElement o bf x pa next).memOk = true := by
  unfold State.baddElement
  dsimp only
  split
  · exact setEscrow_memOk (makeRoom_memOk _ _ (leaveLine_memOk _ _ (revokeRange_memOk _ _ w)))
  · exact settleElem_memOk
      _ _ _ _ (settleFrom_memOk _ _ (makeRoom_memOk _ _ (leaveLine_memOk _ _ (revokeRange_memOk _ _ w))))

theorem baddReturn_memOk {o bf va x asked next} (w : s.memOk = true) :
    Ev.memOk (s.baddReturn o bf va x asked next) = true := by
  unfold State.baddReturn
  split
  · rfl
  · split
    · rfl
    · dsimp only
      split
      · exact failLanes_memOk (flushRegs_memOk _ _ _ w)
      · split
        · exact setOp_memOk (baddElement_memOk (flushRegs_memOk _ _ _ w))
        · exact finishOp_memOk (baddElement_memOk (flushRegs_memOk _ _ _ w))

theorem execLdbF32_memOk {e d a} (w : s.memOk = true) : Out.memOk (execLdbF32 e d a s) = true := by
  unfold execLdbF32
  refine memWord_memOk (tracked_memOk (wordAddr_memOk (fun _ h => ?_) w) w) w
  dsimp only
  split
  · exact loadAt_memOk h
  · split
    · exact addOp_memOk h
    · exact withPa_memOk (fun _ _ _ h1 => addOp_memOk h1) h

theorem ldbReturn_memOk {o va d tol} (w : s.memOk = true) : Ev.memOk (s.ldbReturn o va d tol) = true := by
  unfold State.ldbReturn
  split
  · rfl
  · split
    · rfl
    · split
      · split
        · exact failLanes_memOk w
        · exact finishOp_memOk (writeRegs_memOk (coreRead_memOk _ _ _ _ _ _ w))
      · dsimp only
        split
        · exact failLanes_memOk (flushRegs_memOk _ _ _ w)
        · exact failLanes_memOk (flushRegs_memOk _ _ _ w)
        · refine finishOp_memOk (writeRegs_memOk (leaveLine_memOk _ _ ?_))
          split
          · exact flushRegs_memOk _ _ _ w
          · exact revokeUntil_memOk (flushRegs_memOk _ _ _ w)

theorem execBsettle_memOk {e a} (w : s.memOk = true) : Out.memOk (execBsettle e a s) = true := by
  unfold execBsettle
  refine memWord_memOk (tracked_memOk (wordAddr_memOk (fun _ h => withPa_memOk (fun _ _ _ h1 => ?_) h) w) w) w
  split
  · exact faultX_memOk h1
  · exact addOp_memOk h1

theorem bsettleReturn_memOk {o va} (w : s.memOk = true) : Ev.memOk (s.bsettleReturn o va) = true := by
  unfold State.bsettleReturn
  split
  · rfl
  · split
    · rfl
    · split
      · exact finishOp_memOk w
      · dsimp only
        split
        · exact failLanes_memOk (settleFrom_memOk _ _ (flushRegs_memOk _ _ _ w))
        · exact finishOp_memOk (settleFrom_memOk _ _ (flushRegs_memOk _ _ _ w))

theorem execAtomicReturn_memOk {op} (w : s.memOk = true) : Out.memOk (execAtomicReturn op s) = true := by
  unfold execAtomicReturn
  refine onOp_memOk (fun _ => ?_) w
  split
  · exact atomReturn_memOk w
  · exact baddReturn_memOk w
  · exact ldbReturn_memOk w
  · exact bsettleReturn_memOk w
  · rfl

/-! ### Barriers and rings -/

theorem teamRelease_memOk {body} (hb : ∀ t, t.memOk = true → Out.memOk (body t) = true) (w : s.memOk = true) :
    Out.memOk (s.teamRelease body) = true :=
  waitFor_memOk (hb _ w) w

theorem threadUpdate_memOk {b count bytes} (w : s.memOk = true) :
    Out.memOk (s.threadUpdate b count bytes) = true := by
  unfold State.threadUpdate
  split <;> rename_i e
  · exact faultDetail_memOk w
  · have w1 := ok_memOk e (barUpdate_memOk w)
    exact w1

theorem takeBarFault_memOk {f} (w : s.memOk = true) : (s.takeBarFault f).memOk = true := trapThread_memOk w

theorem waitPhase_memOk {faults b q p body} (hb : ∀ t, t.memOk = true → Out.memOk (body t) = true)
    (w : s.memOk = true) : Out.memOk (s.waitPhase faults b q p body) = true := by
  unfold State.waitPhase
  split
  · exact takeBarFault_memOk w
  · dsimp only
    split
    · exact hb _ w
    · exact park_memOk w

theorem barTest_memOk {p a b f} (w : s.memOk = true) : Out.memOk (s.barTest p a b f) = true := by
  unfold State.barTest
  refine word_memOk ?_ w
  dsimp only
  split
  · exact faultDetail_memOk w
  · exact complete_memOk w

theorem execBarInit_memOk {a n} (w : s.memOk = true) : Out.memOk (execBarInit a n s) = true := by
  unfold execBarInit
  refine word_memOk ?_ w
  dsimp only
  split
  · exact faultDetail_memOk w
  · split
    · exact faultDetail_memOk w
    · exact advance_memOk w

theorem execBarArr_memOk {a n} (w : s.memOk = true) : Out.memOk (execBarArr a n s) = true :=
  word_memOk (teamRelease_memOk (fun _ h => threadUpdate_memOk h) w) w

theorem execBarArx_memOk {d a n} (w : s.memOk = true) : Out.memOk (execBarArx d a n s) = true :=
  word_memOk (teamRelease_memOk (fun _ h => threadUpdate_memOk h) w) w

theorem barWait_memOk {n q} (w : s.memOk = true) : Out.memOk (s.barWait n q) = true :=
  waitPhase_memOk (fun _ h => advance_memOk h) w

theorem execBarWait_memOk {a n} (w : s.memOk = true) : Out.memOk (execBarWait a n s) = true := by
  unfold execBarWait
  split
  · exact barWait_memOk w
  · refine word_memOk ?_ w
    split
    · exact faultDetail_memOk w
    · exact barWait_memOk w

theorem execBarInv_memOk {n} (w : s.memOk = true) : Out.memOk (execBarInv n s) = true := by
  unfold execBarInv
  refine word_memOk ?_ w
  split
  · exact faultDetail_memOk w
  · exact advance_memOk w

theorem withRing_memOk {n body} (hb : ∀ t b, t.memOk = true → Out.memOk (body t b) = true) (w : s.memOk = true) :
    Out.memOk (s.withRing n body) = true := by
  unfold State.withRing
  dsimp only
  split
  · exact hb _ _ w
  · exact faultDetail_memOk w

theorem ringAcq_memOk {d r x n} (w : s.memOk = true) : Out.memOk (s.ringAcq d r x n) = true :=
  waitPhase_memOk (fun _ h => complete_memOk h) w

theorem execRingAcq_memOk {d a r} (w : s.memOk = true) : Out.memOk (execRingAcq d a r s) = true := by
  unfold execRingAcq
  split
  · exact ringAcq_memOk w
  · exact word_memOk (withRing_memOk (fun _ _ h => ringAcq_memOk h) w) w

theorem execRingCom_memOk {a r} (w : s.memOk = true) : Out.memOk (execRingCom a r s) = true :=
  word_memOk (withRing_memOk (fun _ _ h => teamRelease_memOk (fun _ h1 => threadUpdate_memOk h1) h) w) w

theorem ringGet_memOk {d r x n} (w : s.memOk = true) : Out.memOk (s.ringGet d r x n) = true :=
  waitPhase_memOk (fun _ h => complete_memOk h) w

theorem execRingGet_memOk {d a r} (w : s.memOk = true) : Out.memOk (execRingGet d a r s) = true := by
  unfold execRingGet
  split
  · exact ringGet_memOk w
  · exact word_memOk (withRing_memOk (fun _ _ h => ringGet_memOk h) w) w

theorem execRingRel_memOk {a r} (w : s.memOk = true) : Out.memOk (execRingRel a r s) = true :=
  word_memOk (withRing_memOk (fun _ _ h => teamRelease_memOk (fun _ h1 => threadUpdate_memOk h1) h) w) w

/-! ### Copies -/

theorem queued_memOk {which size body} (hb : ∀ t, t.memOk = true → Out.memOk (body t) = true) (w : s.memOk = true) :
    Out.memOk (s.queued which size body) = true := by
  unfold State.queued
  split
  · exact hb _ w
  · exact stall_memOk w

theorem copyRange_memOk {m o n body} (hb : ∀ t, t.memOk = true → Out.memOk (body t) = true) (w : s.memOk = true) :
    Out.memOk (s.copyRange m o n body) = true := by
  unfold State.copyRange
  split
  · exact faultAt_memOk w
  · exact hb _ w

theorem copyStash_memOk {o n body} (hb : ∀ t, t.memOk = true → Out.memOk (body t) = true) (w : s.memOk = true) :
    Out.memOk (s.copyStash o n body) = true := by
  unfold State.copyStash
  split
  · exact faultAt_memOk w
  · exact hb _ w

theorem copyWord_memOk {e f reads b body} (hb : ∀ t b, t.memOk = true → Out.memOk (body t b) = true)
    (w : s.memOk = true) : Out.memOk (s.copyWord e f reads b body) = true := by
  unfold State.copyWord
  refine memWord_memOk (tracked_memOk (queued_memOk (fun _ h => ?_) w) w) w
  dsimp only
  split
  · exact faultDetail_memOk h
  · exact hb _ _ h

theorem execCpy_memOk {e d a b} (w : s.memOk = true) : Out.memOk (execCpy e d a b s) = true :=
  copyWord_memOk (fun _ _ h => copyRange_memOk
    (fun _ h1 => copyStash_memOk (fun _ h2 => withAddr_memOk (fun _ h3 => addOp_memOk h3) h2) h1) h) w

theorem execCpyPeer_memOk {e d a b} (w : s.memOk = true) : Out.memOk (execCpyPeer e d a b s) = true := by
  unfold execCpyPeer
  refine copyWord_memOk (fun _ _ h => ?_) w
  split
  · exact faultDetail_memOk h
  · refine copyRange_memOk (fun _ h1 => copyRange_memOk (fun _ h2 => copyStash_memOk (fun _ h3 => ?_) h2) h1) h
    dsimp only
    split
    · exact engineFail_memOk (addOp_memOk h3)
    · exact addOp_memOk h3

theorem listed_memOk {body} (hb : ∀ t, t.memOk = true → Out.memOk (body t) = true) (w : s.memOk = true) :
    Out.memOk (s.listed body) = true :=
  waitFor_memOk (hb _ w) w

theorem execCpw_memOk {e d a b} (w : s.memOk = true) : Out.memOk (execCpw e d a b s) = true := by
  unfold execCpw
  refine copyWord_memOk (fun _ _ h => ?_) w
  dsimp only
  split
  · exact faultAt_memOk h
  · exact copyStash_memOk (fun _ h1 => withAddr_memOk (fun _ h2 => listed_memOk (fun _ h3 => addOp_memOk h3) h2) h1)
      h

theorem execCpl_memOk {e a b} (w : s.memOk = true) : Out.memOk (execCpl e a b s) = true :=
  copyWord_memOk (fun _ _ h => withAddr_memOk (fun _ h1 => listed_memOk (fun _ h2 => addOp_memOk h2) h1) h) w

theorem engineWrite_memOk {o va b} (w : s.memOk = true) : (s.engineWrite o va b).2.memOk = true := by
  unfold State.engineWrite
  split
  · exact w
  · split <;> rename_i e
    · exact snd_memOk e (translate_memOk w)
    · exact clusterStore_memOk _ _ _ _ (snd_memOk e (translate_memOk w))

theorem readLoc_memOk {o l n} (w : s.memOk = true) : (s.readLoc o l n).2.memOk = true := by
  unfold State.readLoc
  split
  · exact w
  · exact engineRead_memOk w
  · split
    · exact w
    · split <;> exact w

theorem scratchLand_memOk {o u off b} (w : s.memOk = true) : (s.scratchLand o u off b).2.memOk = true := by
  unfold State.scratchLand
  split
  · exact w
  · split
    · exact setTeam_memOk w
    · exact w
    · exact w

theorem writeLoc_memOk {o l b} (w : s.memOk = true) : (s.writeLoc o l b).2.memOk = true := by
  unfold State.writeLoc
  split
  · exact w
  · split <;> rename_i e <;> exact snd_memOk e (engineWrite_memOk w)
  · exact scratchLand_memOk w

theorem landPiece_memOk {o ps more mk} (w : s.memOk = true) : Ev.memOk (s.landPiece o ps more mk) = true := by
  unfold State.landPiece
  dsimp only
  split
  · rfl
  · split <;> rename_i e
    · exact engineFault_memOk (snd_memOk e (readLoc_memOk (pick_memOk _ w)))
    · have w2 := snd_memOk e (readLoc_memOk (pick_memOk _ w))
      split <;> rename_i e3
      · exact engineFault_memOk (snd_memOk e3 (writeLoc_memOk w2))
      · have w5 := snd_memOk e3 (writeLoc_memOk w2)
        split
        · exact landed_memOk (setOp_memOk w5)
        · exact setOp_memOk w5

theorem cpwRecord_memOk {o rec_ d dx dy bar} (w : s.memOk = true) :
    Ev.memOk (s.cpwRecord o rec_ d dx dy bar) = true := by
  have w1 := engineRead_memOk (o := o) (va := rec_) (n := 32) w
  unfold State.cpwRecord
  revert w1
  generalize s.engineRead o rec_ 32 = r
  intro w1
  split
  · exact engineFault_memOk w1
  · dsimp only
    split
    · exact engineField_memOk w1
    · split
      · exact engineFail_memOk w1
      · split
        · exact engineFail_memOk w1
        · exact setOp_memOk w1
  · exact dropOp_memOk w1

theorem cplEntry_memOk {o list next count bar} (w : s.memOk = true) :
    Ev.memOk (s.cplEntry o list next count bar) = true := by
  have w1 := engineRead_memOk (o := o) (va := entryAt list next) (n := 16) w
  unfold State.cplEntry
  revert w1
  generalize s.engineRead o (entryAt list next) 16 = r
  intro w1
  split
  · exact engineFault_memOk w1
  · dsimp only
    split
    · exact engineFail_memOk w1
    · split
      · exact engineFail_memOk w1
      · split
        · exact engineField_memOk w1
        · split
          · exact engineFail_memOk w1
          · split
            · exact engineFail_memOk w1
            · exact setOp_memOk w1
  · exact dropOp_memOk w1

theorem copyLanding_memOk {o} (w : s.memOk = true) : Ev.memOk (s.copyLanding o) = true := by
  unfold State.copyLanding
  split
  · rfl
  · refine withFork_memOk (fun _ _ h => ?_) w
    split
    · exact landPiece_memOk h
    · split
      · exact cpwRecord_memOk h
      · rfl
    · split
      · exact cplEntry_memOk h
      · rfl
    · exact landPiece_memOk h
    · rfl

/-! ### Words between lanes -/

theorem hazardOf_memOk {t m r} (w : s.memOk = true) : (s.hazardOf t m r).memOk = true := by
  unfold State.hazardOf
  split
  · exact deliver_memOk w
  · exact trapAtWord_memOk w

theorem offIssue_memOk {f} (hb : ∀ t, t.memOk = true → (f t).memOk = true) (w : s.memOk = true) :
    (s.offIssue f).memOk = true :=
  hb _ w

theorem meetFault_memOk {t m reads writes} (w : s.memOk = true) :
    Ev.memOk (s.meetFault t m reads writes) = true := by
  unfold State.meetFault
  cases t.badOperand reads writes with
  | none => rfl
  | some r =>
    dsimp only [Option.map_some, Ev.memOk]
    split
    · exact hazardOf_memOk w
    · exact trapAtWord_memOk w

theorem issueTogether_memOk {p} (w : s.memOk = true) : (s.issueTogether p).memOk = true :=
  mapThreads_memOk (setCore_memOk _ w)

theorem meet_memOk {p reads writes run} (hb : ∀ t b, t.memOk = true → (run t b).memOk = true) (w : s.memOk = true) :
    (s.meet p reads writes run).memOk = true := by
  unfold State.meet
  split
  · exact w
  · split
    · exact offIssue_memOk (fun _ h => foldl_memOk _ _ (fun _ _ h1 => trapAtWord_memOk h1) h) w
    · split
      · exact w
      · split
        · exact offIssue_memOk (fun _ h2 => foldl_memOk _ _ (fun _ _ h3 => getD_memOk (meetFault_memOk h3) h3) h2) w
        · exact hb _ _ w

theorem tryMeet_memOk {reads writes run} (hb : ∀ t b, t.memOk = true → (run t b).memOk = true) (w : s.memOk = true)
    : (s.tryMeet reads writes run).memOk = true := by
  unfold State.tryMeet
  split
  · exact w
  · exact meet_memOk (fun _ _ h => hb _ _ h) (issueTogether_memOk w)

theorem meeting_memOk {i m reads writes run} (hb : ∀ t b, t.memOk = true → (run t b).memOk = true)
    (w : s.memOk = true) : Out.memOk (s.meeting i m reads writes run) = true := by
  unfold State.meeting
  split
  · exact tryMeet_memOk (fun _ _ h => hb _ _ h) w
  · split
    · exact fault_memOk w
    · exact withRegs_memOk (tryMeet_memOk (fun _ _ h1 => hb _ _ h1) (withTh_memOk w)) w

theorem laneRun_memOk {f p} (w : s.memOk = true) : (laneRun f s p).memOk = true :=
  foldl_memOk _ _ (fun _ _ h => setThread_memOk h) w

theorem crossLane_memOk {m reads writes f} (w : s.memOk = true) : Out.memOk (s.crossLane m reads writes f) = true :=
  meeting_memOk (fun _ _ h => laneRun_memOk h) w

theorem sget_memOk {d a m src} (w : s.memOk = true) : Out.memOk (s.sget d a m src) = true := crossLane_memOk w

theorem vote_memOk {p q m f} (w : s.memOk = true) : Out.memOk (s.vote p q m f) = true := crossLane_memOk w

theorem redux_memOk {d a m f} (w : s.memOk = true) : Out.memOk (s.redux d a m f) = true := crossLane_memOk w

/-! ### Matrix words -/

theorem groupPend_memOk {k f} (w : s.memOk = true) : (s.groupPend k f).memOk = true := mapThreads_memOk w

theorem matHazard_memOk {regs} (w : s.memOk = true) : Ev.memOk (s.matHazard regs) = true := by
  unfold State.matHazard
  split
  · split
    · exact hazardTrap_memOk w
    · rfl
  · rfl

theorem matEnter_memOk {e mmf a sel af wf p tiles bitmap} (w : s.memOk = true) :
    Out.memOk (s.matEnter e mmf a sel af wf p tiles bitmap) = true :=
  groupPend_memOk (addOp_memOk w)

theorem matDecode_memOk {e mmf a sel af wf block} (w : s.memOk = true) :
    Out.memOk (s.matDecode e mmf a sel af wf block) = true := by
  unfold State.matDecode
  dsimp only
  split
  · exact park_memOk (withTh_memOk w)
  · split
    · exact matEnter_memOk w
    · split
      · exact faultDetail_memOk w
      · exact faultAt_memOk w
      · exact trap_memOk w
      · exact matEnter_memOk w

theorem matCheck_memOk {e mmf a sel o af wf} (w : s.memOk = true) :
    Out.memOk (s.matCheck e mmf a sel o af wf) = true := by
  unfold State.matCheck
  split
  · exact faultAt_memOk w
  · split
    · exact faultAt_memOk w
    · split
      · exact park_memOk w
      · split
        · exact faultAt_memOk w
        · dsimp only
          split
          · exact faultAt_memOk w
          · split <;> rename_i e
            · exact some_memOk e (matHazard_memOk w)
            · split
              · exact offIssue_memOk (fun _ h3 => trap_memOk h3) w
              · exact matDecode_memOk w

theorem matWord_memOk {e mmf a pr sel af wf} (w : s.memOk = true) :
    Out.memOk (s.matWord e mmf a pr sel af wf) = true := by
  unfold State.matWord
  refine memWord_memOk (tracked_memOk (queued_memOk (fun _ h => ?_) w) w) w
  split
  · exact matDecode_memOk h
  · exact matCheck_memOk h

theorem execAccClr_memOk {e p} (w : s.memOk = true) : Out.memOk (execAccClr e p s) = true := by
  unfold execAccClr
  refine memWord_memOk (tracked_memOk (queued_memOk (fun _ h => ?_) w) w) w
  dsimp only
  split
  · exact faultAt_memOk h
  · exact addOp_memOk h

theorem matTaken_memOk {o} (w : s.memOk = true) : (s.matTaken o).memOk = true := setOp_memOk (groupPend_memOk w)

theorem matLeave_memOk {o arrive} (w : s.memOk = true) : (s.matLeave o arrive).memOk = true := by
  unfold State.matLeave
  split
  · exact wakeLines_memOk (finishOp_memOk w)
  · split <;> rename_i e
    · exact engineField_memOk w
    · exact wakeLines_memOk (finishOp_memOk (ok_memOk e (barUpdate_memOk w)))

theorem execMatrixExecute_memOk {op} (w : s.memOk = true) : Out.memOk (execMatrixExecute op s) = true := by
  unfold execMatrixExecute
  refine onOp_memOk (fun _ => ?_) w
  split
  · split
    · rfl
    · split
      · exact engineFail_memOk (matTaken_memOk w)
      · exact matLeave_memOk (setTeam_memOk (matTaken_memOk w))
  · rfl

theorem execAccClrExecute_memOk {op} (w : s.memOk = true) : Out.memOk (execAccClrExecute op s) = true := by
  unfold execAccClrExecute
  refine onOp_memOk (fun _ => ?_) w
  split
  · split
    · rfl
    · exact matLeave_memOk (setTeam_memOk w)
  · rfl

theorem ownWrites_memOk {body} (hb : ∀ t, t.memOk = true → Out.memOk (body t) = true) (w : s.memOk = true) :
    Out.memOk (s.ownWrites body) = true :=
  waitFor_memOk (hb _ w) w

theorem deviceBytes_memOk {va n} (w : s.memOk = true) : (s.deviceBytes va n).2.memOk = true := by
  induction n with
  | zero => exact w
  | succ n ih =>
    unfold State.deviceBytes
    split <;> rename_i e
    · exact snd_memOk e ih
    · have w1 := snd_memOk e ih
      dsimp only
      split <;> rename_i e1
      · exact snd_memOk e1 (translate_memOk w1)
      · have w2 := snd_memOk e1 (translate_memOk w1)
        split
        · exact w2
        · exact homeAt_memOk w2

theorem foldl_ok_memOk {ε β : Type} {f : Except ε State → β → Except ε State} {l : List β}
    (hf : ∀ x b, Except.memOk id x = true → Except.memOk id (f x b) = true) {x : Except ε State}
    (w : Except.memOk id x = true) : Except.memOk id (l.foldl f x) = true :=
  List.foldlRecOn l f (motive := fun x => Except.memOk id x = true) w (fun x hx b _ => hf x b hx)

theorem map_ok_memOk {ε α : Type} {p : α → State} {f : α → State} {x : Except ε α}
    (hf : ∀ a, (p a).memOk = true → (f a).memOk = true) (w : Except.memOk p x = true) :
    Except.memOk id (x.map f) = true := by
  cases x with
  | error e => rfl
  | ok a => exact hf a w

theorem windowBytes_memOk {n l off d} (w : s.memOk = true) : (s.windowBytes n l off d).2.memOk = true := by
  unfold State.windowBytes
  extract_lets r
  have wr : Except.memOk id r = true := by
    refine foldl_ok_memOk (fun x v h => ?_) w
    cases x with
    | error e => rfl
    | ok t =>
      dsimp only
      split
      · exact map_ok_memOk (fun _ h => h) (stashMend_memOk h)
      · exact h
  clear_value r
  cases r with
  | error e => exact w
  | ok t =>
    dsimp only
    split <;> exact wr

theorem recordBytes_memOk {va n} (w : s.memOk = true) : (s.recordBytes va n).2.memOk = true := by
  induction n with
  | zero => exact w
  | succ n ih =>
    unfold State.recordBytes
    split <;> rename_i e
    · exact snd_memOk e ih
    · have w1 := snd_memOk e ih
      extract_lets a
      split
      rename_i r t e1
      have w2 : t.memOk = true := by
        refine snd_memOk e1 ?_
        split
        · split
          · exact windowBytes_memOk w1
          · exact deviceBytes_memOk w1
        · exact deviceBytes_memOk w1
      split <;> exact w2

theorem withRecord_memOk {va n body} (hb : ∀ t, t.memOk = true → Out.memOk (body t) = true) (w : s.memOk = true) :
    Out.memOk (s.withRecord va n body) = true := by
  unfold State.withRecord
  split
  · exact stashTouch_memOk (fun _ _ h => stall_memOk h) w
  · exact hb _ w

theorem execCtld_memOk {e a slot} (w : s.memOk = true) : Out.memOk (execCtld e a slot s) = true := by
  unfold execCtld
  refine memWord_memOk (tracked_memOk
    (withAddr_memOk (fun _ h => ownWrites_memOk (fun _ h1 => withRecord_memOk (fun _ h2 => ?_) h1) h) w) w) w
  split <;> rename_i e3
  · exact faultX_memOk (snd_memOk e3 (recordBytes_memOk h2))
  · have w5 := snd_memOk e3 (recordBytes_memOk h2)
    split
    · exact faultDetail_memOk w5
    · exact addOp_memOk w5

theorem storeParts_memOk {va b n} (w : s.memOk = true) : (s.storeParts va b n).2.memOk = true := by
  induction n with
  | zero => exact w
  | succ n ih =>
    unfold State.storeParts
    split <;> rename_i e
    · exact snd_memOk e ih
    · have w1 := snd_memOk e ih
      dsimp only
      split
      · split <;> exact w1
      · split <;> rename_i e1 <;> exact snd_memOk e1 (translate_memOk w1)

theorem execCtst_memOk {e a slot} (w : s.memOk = true) : Out.memOk (execCtst e a slot s) = true := by
  unfold execCtst
  refine memWord_memOk (tracked_memOk
    (withAddr_memOk (fun _ h => waitFor_memOk (withRecord_memOk (fun _ h1 => ?_) h) h)
    w) w) w
  dsimp only
  split <;> rename_i e2
  · exact faultX_memOk (snd_memOk e2 (storeParts_memOk h1))
  · have w2 := snd_memOk e2 (storeParts_memOk h1)
    exact w2

theorem ctldReturn_memOk {o slot r} (w : s.memOk = true) : Ev.memOk (s.ctldReturn o slot r) = true := by
  unfold State.ctldReturn
  split
  · exact dropOp_memOk w
  · exact finishOp_memOk (setTeam_memOk w)

theorem ctstWritten_memOk {o ps} (w : s.memOk = true) : Ev.memOk (s.ctstWritten o ps) = true := by
  unfold State.ctstWritten
  split
  · rfl
  · exact finishOp_memOk (foldl_memOk _ _ (fun _ _ h => stashTake_memOk (clusterStore_memOk _ _ _ _ h)) w)

/-! ### The cluster: waits, monitors, maintenance and errors -/

theorem armMonitor_memOk {pa cmp value ctx team group} (w : s.memOk = true) :
    Ev.memOk (s.armMonitor pa cmp value ctx team group) = true := by
  unfold State.armMonitor
  dsimp only
  split
  · exact w
  · split
    · rfl
    · exact revokeRange_memOk _ _ w

theorem mwaitWord_memOk {cmp d a} (w : s.memOk = true) : Out.memOk (s.mwaitWord cmp d a) = true := by
  unfold State.mwaitWord
  refine memWord_memOk ?_ w
  generalize s.th.heldWait.getD (s.th.pair a, s.th.reg d) = p
  obtain ⟨va, v⟩ := p
  refine wordAddr_memOk (fun _ h => ownWrites_memOk (fun _ h1 => withPa_memOk (fun t _ pa h2 => ?_) h1) h) w
  dsimp only
  split
  · exact faultX_memOk h2
  · generalize e2 : t.homeAt none t.tm.core pa 4 = p
    obtain ⟨b, s3⟩ := p
    have w3 : s3.memOk = true := snd_memOk e2 (homeAt_memOk h2)
    dsimp only
    split
    · exact acquireStep_memOk w3
    · split <;> rename_i e3
      · have w4 := some_memOk e3 (armMonitor_memOk w3)
        exact park_memOk w4
      · exact park_memOk w3

theorem execMonitorWake_memOk {idx} (w : s.memOk = true) : Out.memOk (execMonitorWake idx s) = true := by
  unfold execMonitorWake
  refine orStay_memOk ?_ w
  split
  · rfl
  · split
    · rfl
    · split
      · rfl
      · dsimp only
        split
        · exact w
        · exact setTeam_memOk (mapThreads_memOk w)

theorem pollMwait_memOk {m va cmp v} (w : s.memOk = true) : (s.pollMwait m va cmp v).2.memOk = true := by
  unfold State.pollMwait
  split <;> rename_i e
  · exact snd_memOk e (translate_memOk w)
  · have w2 := snd_memOk e (translate_memOk w)
    split
    · exact w2
    · exact homeAt_memOk w2

theorem execMwaitOverflowPoll_memOk {k} (w : s.memOk = true) : Out.memOk (execMwaitOverflowPoll k s) = true := by
  unfold execMwaitOverflowPoll
  refine orStay_memOk ?_ w
  split
  · split
    · split
      · exact setThread_memOk (pollMwait_memOk w)
      · rfl
    · rfl
  · rfl

theorem ldAcqWord_memOk {e size d a sc} (w : s.memOk = true) : Out.memOk (s.ldAcqWord e size d a sc) = true :=
  memWord_memOk (tracked_memOk (wordAddr_memOk (fun _ h => loadAt_memOk h) w) w) w

theorem stRelWord_memOk {e size d a sc} (w : s.memOk = true) : Out.memOk (s.stRelWord e size d a sc) = true :=
  memWord_memOk (tracked_memOk (wordAddr_memOk (fun _ h => withPa_memOk (fun _ _ _ h1 => addOp_memOk h1) h) w) w) w

theorem fence_memOk {writes body} (hb : ∀ t, t.memOk = true → (body t).memOk = true) (w : s.memOk = true) :
    Out.memOk (s.fence writes body) = true :=
  word_memOk (waitFor_memOk (advance_memOk (hb _ w)) w) w

theorem execFenceAcq_memOk {c} (w : s.memOk = true) : Out.memOk (execFenceAcq c s) = true :=
  fence_memOk (fun _ h => acquireStep_memOk h) w

theorem execFenceRel_memOk {c} (w : s.memOk = true) : Out.memOk (execFenceRel c s) = true :=
  fence_memOk (fun _ h => releaseAt_memOk h) w

theorem execFenceAr_memOk {c} (w : s.memOk = true) : Out.memOk (execFenceAr c s) = true :=
  fence_memOk (fun _ h => acquireStep_memOk (releaseAt_memOk h)) w

theorem maintWord_memOk {form e d a sc} (w : s.memOk = true) : Out.memOk (s.maintWord form e d a sc) = true := by
  unfold State.maintWord
  refine memWord_memOk (tracked_memOk ?_ w) w
  dsimp only
  split
  · exact faultAt_memOk w
  · exact addOp_memOk w

theorem l1Drop_memOk {core pa n} (w : s.memOk = true) : (s.l1Drop core pa n).memOk = true := setCore_memOk _ w

theorem stashClean_memOk {u va n} (w : s.memOk = true) : (s.stashClean u va n).memOk = true := by
  unfold State.stashClean
  split
  · exact w
  · refine foldl_memOk _ _ (fun _ _ h => foldl_memOk _ _ (fun _ _ h1 => ?_) h) w
    dsimp only
    split
    · exact stashLineBack_memOk h1
    · exact h1

theorem homeDropClean_memOk {a n} (w : s.memOk = true) : (s.homeDropClean a n).memOk = true := w

theorem clusterFlush_memOk {c a n} (w : s.memOk = true) : (s.clusterFlush c a n).memOk = true :=
  foldl_memOk _ _ (fun _ _ h => l1Drop_memOk h) (foldl_memOk _ _ (fun _ _ h1 => evictLine_memOk _ _ h1) w)

theorem flushRange_memOk {pa n} (w : s.memOk = true) : (s.flushRange pa n).memOk = true :=
  foldl_memOk _ _ (fun _ _ h => homeRegister_memOk _ h) w

theorem cleanRange_memOk {o sc va pa n} (w : s.memOk = true) : (s.cleanRange o sc va pa n).memOk = true := by
  unfold State.cleanRange
  dsimp only
  split
  · exact stashClean_memOk w
  · exact writeBack_memOk _ _ _ (flushRegs_memOk _ _ _ (stashClean_memOk w))
  · exact cleanView_memOk
      (homeToMem_memOk _ _ (foldl_memOk _ _ (fun _ _ h => writeBack_memOk _ _ _ h)
        (flushRange_memOk (stashClean_memOk w))))

theorem invalRange_memOk {o sc pa n} (w : s.memOk = true) : (s.invalRange o sc pa n).memOk = true := by
  unfold State.invalRange
  dsimp only
  split
  · exact l1Drop_memOk w
  · exact setCluster_memOk _ (l1Drop_memOk w)
  · exact seeView_memOk
      (foldl_memOk _ _ (fun _ _ h => l1Drop_memOk h)
        (homeDropClean_memOk (foldl_memOk _ _ (fun _ _ h1 => setCluster_memOk _ h1) (l1Drop_memOk w))))

theorem flushRangeAt_memOk {o sc va pa n} (w : s.memOk = true) : (s.flushRangeAt o sc va pa n).memOk = true := by
  unfold State.flushRangeAt
  dsimp only
  split
  · exact l1Drop_memOk (cleanRange_memOk w)
  · exact clusterFlush_memOk (cleanRange_memOk w)
  · exact seeView_memOk
      (homeToMem_memOk _ _ (foldl_memOk _ _ (fun _ _ h => l1Drop_memOk h)
        (foldl_memOk _ _ (fun _ _ h1 => clusterFlush_memOk h1) (cleanRange_memOk w))))

theorem maintPart_memOk {o form sc va pa n} (w : s.memOk = true) :
    (s.maintPart o form sc va pa n).memOk = true := by
  unfold State.maintPart
  split
  · exact cleanRange_memOk w
  · split
    · exact invalRange_memOk w
    · exact flushRangeAt_memOk w

theorem maintPages_memOk {o form sc fuel va n} (w : s.memOk = true) :
    (s.maintPages o form sc fuel va n).2.memOk = true := by
  induction fuel generalizing s va n with
  | zero => exact w
  | succ fuel ih =>
    unfold State.maintPages
    split
    · exact w
    · dsimp only
      split <;> rename_i e
      · have w1 := snd_memOk e (leafAt_memOk w)
        split
        · exact ih w1
        · exact w1
      · exact ih (maintPart_memOk (snd_memOk e (leafAt_memOk w)))

theorem execCacheMaintenanceComplete_memOk {op} (w : s.memOk = true) :
    Out.memOk (execCacheMaintenanceComplete op s) = true := by
  unfold execCacheMaintenanceComplete
  refine onOp_memOk (fun _ => ?_) w
  split
  · split
    · rfl
    · refine withWalks_memOk (fun _ _ h => ?_) w
      split <;> rename_i e1
      · exact faultOp_memOk (snd_memOk e1 (maintPages_memOk h))
      · exact finishOp_memOk (snd_memOk e1 (maintPages_memOk h))
  · rfl

theorem execHomeRegistration_memOk {cluster} (w : s.memOk = true) :
    Out.memOk (execHomeRegistration cluster s) = true := by
  unfold execHomeRegistration
  refine orStay_memOk ?_ w
  dsimp only
  split
  · rfl
  · exact homeRegister_memOk _ w
  · rename_i l _ _
    exact homeRegister_memOk _ (pick_memOk (l.length + 1) w)

theorem execHomeReadForward_memOk {cluster word} (w : s.memOk = true) :
    Out.memOk (execHomeReadForward cluster word s) = true := by
  unfold execHomeReadForward
  refine orStay_memOk ?_ w
  dsimp only
  split
  · split
    · rfl
    · exact fillUnit_memOk _ _ (makeRoom_memOk _ _ w)
  · rfl

theorem execLineEviction_memOk {cluster line} (w : s.memOk = true) :
    Out.memOk (execLineEviction cluster line s) = true := by
  unfold execLineEviction
  refine orStay_memOk ?_ w
  split
  · exact evictTag_memOk _ _ w
  · rfl

theorem badRegister_memOk {k r} (w : s.memOk = true) : Ev.memOk (s.badRegister k r) = true := by
  unfold State.badRegister
  split
  · rfl
  · split
    · exact setThread_memOk w
    · rfl

theorem badScratch_memOk {team x} (w : s.memOk = true) : Ev.memOk (s.badScratch team x) = true := by
  unfold State.badScratch
  split
  · rfl
  · split
    · exact setTeam_memOk w
    · rfl

theorem report_memOk (w : s.memOk = true) : s.report.memOk = true := w

theorem reportData_memOk {pa} (w : s.memOk = true) : (s.reportData pa).memOk = true := by
  unfold State.reportData
  split
  · exact w
  · exact report_memOk w

theorem execCacheUncorrectableError_memOk {err} (w : s.memOk = true) :
    Out.memOk (execCacheUncorrectableError err s) = true := by
  unfold execCacheUncorrectableError
  refine orStay_memOk ?_ w
  cases err with
  | data pa =>
    dsimp only
    split
    · exact reportData_memOk (addPoison_memOk _ w)
    · rfl
  | memory pa =>
    dsimp only
    split
    · exact reportData_memOk w
    · rfl
  | cluster c pa =>
    dsimp only
    split
    · exact reportData_memOk (setCluster_memOk _ w)
    · rfl
  | l1 core i =>
    dsimp only
    split
    · exact setCore_memOk _ w
    · rfl
  | tagBlock pa =>
    dsimp only
    split
    · exact reportData_memOk w
    · rfl
  | escrow c line elem =>
    dsimp only
    cases (s.cluster c).escrowOn line with
    | none => rfl
    | some e =>
      rw [Option.bind_some]
      generalize (if e.bf16 = true then 128 else 64) = n
      split
      · exact setEscrow_memOk w
      · rfl
  | tile c x tensor num =>
    dsimp only
    split
    · exact setCluster_memOk _ w
    · rfl
  | registry word => exact report_memOk (revokeRange_memOk _ _ w)
  | monitor idx =>
    dsimp only
    split
    · rfl
    · exact w
  | allowance line => exact report_memOk (settleLine_memOk _ w)
  | register k r => exact badRegister_memOk w
  | scratch team n => exact badScratch_memOk w
  | corrected => exact w

/-! ### The tile store -/

theorem index_memOk {tag pa n} (w : s.memOk = true) : (s.index tag pa n).memOk = true := by
  unfold State.index
  split <;> exact w

theorem indexRead_memOk {core ctx tag va n} (w : s.memOk = true) :
    (s.indexRead core ctx tag va n).2.memOk = true := by
  unfold State.indexRead
  split <;> rename_i e
  · exact snd_memOk e (translate_memOk w)
  · have w2 := snd_memOk e (translate_memOk w)
    split
    · exact w2
    · exact homeAt_memOk (index_memOk w2)

theorem readEntry_memOk {core ctx t} (w : s.memOk = true) : (s.readEntry core ctx t).2.memOk = true := by
  unfold State.readEntry
  split <;> rename_i e <;> exact snd_memOk e (indexRead_memOk w)

theorem slotPage_memOk {core ctx va read} (w : s.memOk = true) : (s.slotPage core ctx va read).2.memOk = true := by
  unfold State.slotPage
  split <;> rename_i e
  · exact snd_memOk e (translate_memOk w)
  · have w2 := snd_memOk e (translate_memOk w)
    split
    · exact w2
    · split <;> exact w2

theorem readStored_memOk {core ctx t} (w : s.memOk = true) : (s.readStored core ctx t).2.memOk = true := by
  unfold State.readStored
  split <;> rename_i e
  · exact snd_memOk e (readEntry_memOk (flushSlice_memOk w))
  · have w2 := snd_memOk e (readEntry_memOk (flushSlice_memOk w))
    split
    · exact w2
    · split
      · exact w2
      · split <;> rename_i e3
        · exact snd_memOk e3 (slotPage_memOk w2)
        · have w5 := snd_memOk e3 (slotPage_memOk w2)
          split <;> rename_i e6 <;> exact snd_memOk e6 (indexRead_memOk w5)

theorem holdTile_memOk {core tag x inL1 issue} (w : s.memOk = true) :
    (s.holdTile core tag x inL1 issue).memOk = true := by
  unfold State.holdTile
  extract_lets _ t
  have w : t.memOk = true := by
    unfold t
    split
    · exact l1Put_memOk _ _ w
    · exact w
  clear_value t
  split
  · exact w
  · exact setCluster_memOk _ (makeRoom_memOk _ _ w)

theorem fetchStored_memOk {o t} (w : s.memOk = true) : (s.fetchStored o t).2.memOk = true := by
  unfold State.fetchStored
  split
  · split <;> exact w
  · exact readStored_memOk w

theorem fetchTile_memOk {o t inL1} (w : s.memOk = true) : (s.fetchTile o t inL1).2.memOk = true := by
  unfold State.fetchTile
  split <;> rename_i e
  · exact snd_memOk e (fetchStored_memOk w)
  · have w2 := snd_memOk e (fetchStored_memOk w)
    split
    · exact w2
    · exact holdTile_memOk w2

theorem indexWrite_memOk {core ctx tag va b} (w : s.memOk = true) :
    (s.indexWrite core ctx tag va b).2.memOk = true := by
  unfold State.indexWrite
  split <;> rename_i e
  · exact snd_memOk e (translate_memOk w)
  · exact deviceWriteAs_memOk (index_memOk (snd_memOk e (translate_memOk w)))

theorem indexWritable_memOk {core ctx va} (w : s.memOk = true) : (s.indexWritable core ctx va).2.memOk = true := by
  unfold State.indexWritable
  split <;> rename_i e <;> exact snd_memOk e (translate_memOk w)

theorem readHead_memOk {core ctx pool c} (w : s.memOk = true) : (s.readHead core ctx pool c).2.memOk = true := by
  unfold State.readHead
  split <;> rename_i e
  · exact snd_memOk e (indexRead_memOk w)
  · have w2 := snd_memOk e (indexRead_memOk w)
    dsimp only
    split <;> exact w2

theorem slotRule_memOk {core ctx pool slot c read} (w : s.memOk = true) :
    (s.slotRule core ctx pool slot c read).2.memOk = true := by
  unfold State.slotRule
  split
  · exact w
  · split <;> rename_i e <;> exact snd_memOk e (slotPage_memOk w)

theorem popSlot_memOk {core ctx pool c} (w : s.memOk = true) : (s.popSlot core ctx pool c).2.memOk = true := by
  unfold State.popSlot
  split <;> rename_i e
  · exact snd_memOk e (readHead_memOk w)
  · have w2 := snd_memOk e (readHead_memOk w)
    split
    · exact w2
    · split <;> rename_i e3
      · exact snd_memOk e3 (slotRule_memOk w2)
      · have w5 := snd_memOk e3 (slotRule_memOk w2)
        split <;> rename_i e6
        · exact snd_memOk e6 (indexRead_memOk w5)
        · have w8 := snd_memOk e6 (indexRead_memOk w5)
          split <;> rename_i e9 <;> exact snd_memOk e9 (indexWrite_memOk w8)

theorem pushSlot_memOk {core ctx pool c slot} (w : s.memOk = true) :
    (s.pushSlot core ctx pool c slot).2.memOk = true := by
  unfold State.pushSlot
  split <;> rename_i e
  · exact snd_memOk e (readHead_memOk w)
  · have w2 := snd_memOk e (readHead_memOk w)
    split <;> rename_i e3
    · exact snd_memOk e3 (slotRule_memOk w2)
    · have w5 := snd_memOk e3 (slotRule_memOk w2)
      split <;> rename_i e6
      · exact snd_memOk e6 (indexWritable_memOk w5)
      · have w8 := snd_memOk e6 (indexWritable_memOk w5)
        split <;> rename_i e9
        · exact snd_memOk e9 (indexWrite_memOk w8)
        · exact indexWrite_memOk (snd_memOk e9 (indexWrite_memOk w8))

theorem updateRead_memOk {o t tenc} (w : s.memOk = true) : (s.updateRead o t tenc).2.memOk = true := by
  unfold State.updateRead
  split <;> rename_i e
  · exact snd_memOk e (readEntry_memOk w)
  · have w1 := snd_memOk e (readEntry_memOk w)
    split
    · exact w1
    · extract_lets page
      have wp : page.2.memOk = true := by
        unfold page
        split
        · split <;> rename_i e1 <;> exact snd_memOk e1 (slotPage_memOk w1)
        · exact w1
      clear_value page
      split
      · exact wp
      · rename_i t1
        have wt : t1.memOk = true := wp
        split <;> rename_i e2
        · exact snd_memOk e2 (indexWritable_memOk wt)
        · rename_i t2
          have w2 := snd_memOk e2 (indexWritable_memOk wt)
          have wm (c : Bool) (va : Addr) :
              (if c = true then t2.indexWritable o.core o.ctx va else (.ok (), t2)).2.memOk = true := by
            split
            · exact indexWritable_memOk w2
            · exact w2
          split <;> rename_i e3
          · exact snd_memOk e3 (wm _ _)
          · have w3 := snd_memOk e3 (wm _ _)
            split
            · exact w3
            · split <;> rename_i e4
              · exact snd_memOk e4 (readStored_memOk w3)
              · have w4 := snd_memOk e4 (readStored_memOk w3)
                split <;> exact w4

theorem updateWrite_memOk {o t old c slot} (w : s.memOk = true) :
    (s.updateWrite o t old c slot).2.memOk = true := by
  unfold State.updateWrite
  extract_lets wrote
  have w1 : wrote.2.memOk = true := by
    unfold wrote
    split
    · exact w
    · exact indexWrite_memOk w
  clear_value wrote
  split
  · exact w1
  · dsimp only
    split <;> rename_i e
    · exact snd_memOk e (indexWrite_memOk w1)
    · have w2 := snd_memOk e (indexWrite_memOk w1)
      split <;> exact w2

theorem tileUpdate_memOk {o t tenc form} (w : s.memOk = true) : (s.tileUpdate o t tenc form).2.memOk = true := by
  unfold State.tileUpdate
  split <;> rename_i e
  · exact snd_memOk e (updateRead_memOk w)
  · have w2 := snd_memOk e (updateRead_memOk w)
    split
    · exact w2
    · dsimp only
      split
      · split <;> rename_i e3
        · exact snd_memOk e3 (popSlot_memOk w2)
        · exact updateWrite_memOk (snd_memOk e3 (popSlot_memOk w2))
      · exact updateWrite_memOk w2

/-! ### Words of tiles -/

theorem tileFault_memOk {f t} (w : s.memOk = true) : Out.memOk (s.tileFault f t) = true := trap_memOk w

theorem handleFault_memOk {n handle num} (w : s.memOk = true) : Out.memOk (s.handleFault n handle num) = true :=
  trap_memOk w

theorem tileWord_memOk {e role reads writes a h body} (hb : ∀ t b c, t.memOk = true → Out.memOk (body t b c) = true)
    (w : s.memOk = true) : Out.memOk (s.tileWord e role reads writes a h body) = true := by
  unfold State.tileWord
  split
  · exact fault_memOk w
  · refine waitFor_memOk (tracked_memOk ?_ w) w
    split
    · exact handleFault_memOk w
    · split
      · exact fault_memOk w
      · refine withRegs_memOk ?_ w
        dsimp only
        split
        · exact tileFault_memOk w
        · exact hb _ _ _ w

theorem execTdesc_memOk {a h} (w : s.memOk = true) : Out.memOk (execTdesc a h s) = true := by
  unfold execTdesc
  refine memWord_memOk ?_ w
  dsimp only
  split
  · exact advance_memOk w
  · split
    · exact trap_memOk w
    · refine ownWrites_memOk (fun _ h => ?_) w
      split <;> rename_i e1
      · have w2 := snd_memOk e1 (deviceBytes_memOk h)
        split
        · exact pageFaultAs_memOk w2
        · exact trap_memOk w2
      · have w3 := snd_memOk e1 (deviceBytes_memOk h)
        split
        · exact handleFault_memOk w3
        · exact advance_memOk w3

theorem tldWord_memOk {x e d a h} (w : s.memOk = true) : Out.memOk (s.tldWord x e d a h) = true := by
  unfold State.tldWord
  refine tileWord_memOk (fun _ _ _ h => ?_) w
  dsimp only
  split
  · exact tileFault_memOk h
  · split
    · exact tileFault_memOk h
    · exact addOp_memOk h

theorem execTq_memOk {e d a h} (w : s.memOk = true) : Out.memOk (execTq e d a h s) = true :=
  tileWord_memOk (fun _ _ _ h => addOp_memOk h) w

theorem tileOpFault_memOk {o t f} (w : s.memOk = true) : (s.tileOpFault o t f).memOk = true := by
  unfold State.tileOpFault
  dsimp only
  split
  · exact pageWait_memOk w
  · exact failOp_memOk w

theorem tldLane_memOk {b o} (w : s.memOk = true) : (s.tldLane b o).memOk = true := by
  unfold State.tldLane
  split
  · exact joinOp_memOk (writeRegs_memOk w)
  · exact w

theorem tldReturn_memOk {o t} (w : s.memOk = true) : Ev.memOk (s.tldReturn o t) = true := by
  unfold State.tldReturn
  dsimp only
  split
  · rfl
  · refine withWalks_memOk (fun _ _ h => withFork_memOk (fun _ _ h1 => ?_) h) w
    split <;> rename_i e2
    · have w3 := snd_memOk e2 (fetchTile_memOk h1)
      split
      · exact tileOpFault_memOk w3
      · exact failTogether_memOk h1
    · exact foldl_memOk _ _ (fun _ _ h5 => tldLane_memOk h5) (snd_memOk e2 (fetchTile_memOk h1))

theorem tqReturn_memOk {o t d} (w : s.memOk = true) : Ev.memOk (s.tqReturn o t d) = true := by
  unfold State.tqReturn
  refine withWalks_memOk (fun _ _ h => withFork_memOk (fun _ _ h1 => ?_) h) w
  split <;> rename_i e2
  · have w3 := snd_memOk e2 (readEntry_memOk h1)
    split
    · exact tileOpFault_memOk w3
    · exact failTogether_memOk h1
  · have w4 := snd_memOk e2 (readEntry_memOk h1)
    split
    · exact failTogether_memOk w4
    · exact joinOp_memOk (writeRegs_memOk w4)

theorem tileRange_memOk {o n align body} (hb : ∀ t, t.memOk = true → Out.memOk (body t) = true) (w : s.memOk = true)
    : Out.memOk (s.tileRange o n align body) = true := by
  unfold State.tileRange
  split
  · exact faultAt_memOk w
  · exact copyStash_memOk (fun _ h => hb _ h) w

theorem execTst_memOk {e d a h} (w : s.memOk = true) : Out.memOk (execTst e d a h s) = true :=
  tileWord_memOk (fun _ _ _ h => queued_memOk (fun _ h1 => tileRange_memOk (fun _ h2 => addOp_memOk h2) h1) h) w

theorem updated_memOk {o t done} {r : Except TFault Unit × State} (hr : r.2.memOk = true)
    (hd : ∀ t, t.memOk = true → (done t).memOk = true) (w : s.memOk = true) : Ev.memOk (s.updated o t r done) = true
      := by
  unfold State.updated
  split
  · dsimp only [Ev.memOk]
    split
    · exact tileOpFault_memOk hr
    · exact tileOpFault_memOk w
  · exact hd _ hr

theorem tstUpdate_memOk {o t off} (w : s.memOk = true) : Ev.memOk (s.tstUpdate o t off) = true := by
  unfold State.tstUpdate
  split
  · exact dropOp_memOk w
  · split
    · rfl
    · split
      · exact tileOpFault_memOk w
      · dsimp only
        split
        · exact tileOpFault_memOk w
        · exact updated_memOk (tileUpdate_memOk w) (fun _ h => joinOp_memOk h) w

theorem allFault_memOk {p m f} (w : s.memOk = true) : (s.allFault p m f).memOk = true :=
  offIssue_memOk (fun _ h => foldl_memOk _ _ (fun _ _ h1 => trapAtWord_memOk h1) h) w

theorem allWait_memOk {p m f va} (w : s.memOk = true) : (s.allWait p m f va).memOk = true :=
  offIssue_memOk (fun _ h => foldl_memOk _ _ (fun _ _ h1 => parkOnPage_memOk h1) h) w

theorem addOpOf_memOk {t m e lanes kind} (w : s.memOk = true) : (s.addOpOf t m e lanes kind).memOk = true :=
  setThread_memOk w

theorem tencIssue_memOk {p m e kind} (w : s.memOk = true) : (s.tencIssue p m e kind).memOk = true :=
  foldl_memOk _ _ (fun _ _ h => addOpOf_memOk h) w

theorem tencGo_memOk {p m e d a h rank} (w : s.memOk = true) : (s.tencGo p m e d a h rank).memOk = true := by
  unfold State.tencGo
  split
  · exact w
  · dsimp only
    split
    · exact allFault_memOk w
    · split
      · exact allFault_memOk w
      · split
        · exact allFault_memOk w
        · split
          · exact allFault_memOk w
          · split
            · exact allFault_memOk w
            · split <;> rename_i e
              · have w1 := snd_memOk e (deviceBytes_memOk w)
                split
                · exact allWait_memOk w1
                · exact allFault_memOk w1
              · have w2 := snd_memOk e (deviceBytes_memOk w)
                split
                · exact allFault_memOk w
                · split
                  · exact tencIssue_memOk w2
                  · exact allFault_memOk w

theorem execTenc_memOk {e d a h} (w : s.memOk = true) : Out.memOk (execTenc e d a h s) = true := by
  unfold execTenc
  dsimp only
  split
  · exact fault_memOk w
  · refine waitFor_memOk (tracked_memOk (queued_memOk (fun _ h => ownWrites_memOk (fun _ h1 => ?_) h) w) w) w
    split
    · exact meet_memOk (fun _ _ h2 => tencGo_memOk h2) (issueTogether_memOk (withTh_memOk h1))
    · exact withTh_memOk h1

theorem tencUpdate_memOk {o t row xs sc elem second} (w : s.memOk = true) :
    Ev.memOk (s.tencUpdate o t row xs sc elem second) = true := by
  unfold State.tencUpdate
  split
  · exact updated_memOk (tileUpdate_memOk w) (fun _ h => joinOp_memOk h) w
  · exact updated_memOk (tileUpdate_memOk w) (fun _ h1 => setOp_memOk h1) w

theorem execTileUpdate_memOk {op} (w : s.memOk = true) : Out.memOk (execTileUpdate op s) = true := by
  unfold execTileUpdate
  refine onOp_memOk (fun _ => ?_) w
  split
  · rfl
  · refine withWalks_memOk (fun _ _ h => withFork_memOk (fun _ _ h1 => ?_) h) w
    split
    · exact tstUpdate_memOk h1
    · exact tencUpdate_memOk h1
    · rfl

theorem execCpt_memOk {e d a h} (w : s.memOk = true) : Out.memOk (execCpt e d a h s) = true := by
  unfold execCpt
  refine tileWord_memOk (fun _ _ _ h => queued_memOk (fun _ h1 => ?_) h) w
  dsimp only
  split
  · exact faultDetail_memOk h1
  · split
    · exact tileFault_memOk h1
    · refine tileRange_memOk (fun _ h2 => ?_) h1
      split
      · exact tileRange_memOk (fun _ h3 => addOp_memOk h3) h2
      · split
        · exact faultDetail_memOk h2
        · exact addOp_memOk h2

theorem cptPut_memOk {o puts last} (w : s.memOk = true) : Ev.memOk (s.cptPut o puts last) = true := by
  unfold State.cptPut
  split
  · exact dropOp_memOk w
  · exact landed_memOk (setOp_memOk (setTeam_memOk w))

theorem cptLanding_memOk {o t dim next n dst md stored bar} (w : s.memOk = true) :
    Ev.memOk (s.cptLanding o t dim next n dst md stored bar) = true := by
  unfold State.cptLanding
  split
  · rfl
  · refine withWalks_memOk (fun _ _ h => withFork_memOk (fun _ _ h1 => ?_) h) w
    dsimp only
    split
    · split <;> rename_i e
      · have w1 := snd_memOk e (fetchStored_memOk h1)
        dsimp only [Ev.memOk]
        split
        · exact tileOpFault_memOk w1
        · exact engineFail_memOk w1
      · exact cptPut_memOk (snd_memOk e (fetchStored_memOk h1))
    · split <;> rename_i e
      · have w1 := snd_memOk e (fetchTile_memOk h1)
        dsimp only [Ev.memOk]
        split
        · exact tileOpFault_memOk w1
        · exact engineFail_memOk w1
      · exact cptPut_memOk (snd_memOk e (fetchTile_memOk h1))

theorem tileRun_memOk {e d a h mk} (w : s.memOk = true) : Out.memOk (s.tileRun e d a h mk) = true := by
  unfold State.tileRun
  refine tileWord_memOk (fun _ _ _ h => ?_) w
  dsimp only
  split
  · exact tileFault_memOk h
  · exact addOp_memOk h

theorem cleanVa_memOk {o va n} (w : s.memOk = true) : (s.cleanVa o va n).2.memOk = true := by
  unfold State.cleanVa
  split <;> rename_i e
  · have w1 := snd_memOk e (leafAt_memOk w)
    split <;> exact w1
  · exact cleanView_memOk
      (homeToMem_memOk _ _ (foldl_memOk _ _ (fun _ _ h3 => writeBack_memOk _ _ _ h3)
        (flushRange_memOk (snd_memOk e (leafAt_memOk w)))))

theorem cleanTiles_memOk {o t i n} (w : s.memOk = true) : (s.cleanTiles o t i n).2.memOk = true := by
  induction n generalizing s i with
  | zero => exact w
  | succ n ih =>
    unfold State.cleanTiles
    dsimp only
    split <;> rename_i e
    · exact snd_memOk e (cleanVa_memOk w)
    · exact ih (snd_memOk e (cleanVa_memOk w))
    · have w1 := snd_memOk e (cleanVa_memOk w)
      split
      · exact ih w1
      · split <;> rename_i e1
        · exact snd_memOk e1 (cleanVa_memOk w1)
        · exact ih (snd_memOk e1 (cleanVa_memOk w1))

theorem tileUnits_memOk {o r} (w : s.memOk = true) : (s.tileUnits o r).2.memOk = true := by
  unfold State.tileUnits
  split <;> rename_i e
  · exact snd_memOk e (leafAt_memOk w)
  · have w2 := snd_memOk e (leafAt_memOk w)
    dsimp only
    split
    · exact w2
    · split <;> rename_i e3 <;> exact snd_memOk e3 (leafAt_memOk w2)

theorem dropTiles_memOk {ctx tensor first n} (w : s.memOk = true) : (s.dropTiles ctx tensor first n).memOk = true :=
  w

theorem invalTiles_memOk {o t first n} (w : s.memOk = true) : (s.invalTiles o t first n).memOk = true := by
  unfold State.invalTiles
  dsimp only
  refine seeView_memOk (dropTiles_memOk (foldl_snd_memOk (fun x i h => ?_) w))
  exact tileUnits_memOk h

theorem execTileMaintenanceComplete_memOk {op} (w : s.memOk = true) :
    Out.memOk (execTileMaintenanceComplete op s) = true := by
  unfold execTileMaintenanceComplete
  refine onOp_memOk (fun _ => withWalks_memOk (fun _ _ h => withFork_memOk (fun _ _ h1 => ?_) h) w) w
  split
  · split
    · rfl
    · split <;> rename_i e2
      · exact tileOpFault_memOk (snd_memOk e2 (cleanTiles_memOk h1))
      · exact finishOp_memOk (snd_memOk e2 (cleanTiles_memOk h1))
  · exact finishOp_memOk (invalTiles_memOk h1)
  · rfl

theorem execSpool_memOk {e d a h} (w : s.memOk = true) : Out.memOk (execSpool e d a h s) = true := by
  unfold execSpool
  refine memWord_memOk (tracked_memOk ?_ w) w
  split
  · exact handleFault_memOk w
  · dsimp only
    split
    · exact handleFault_memOk w
    · exact addOp_memOk w

theorem pushWaits_memOk {p va} (w : s.memOk = true) : (s.pushWaits p va).memOk = true := addAccess_memOk w

theorem pushFails_memOk {p f} (w : s.memOk = true) : (s.pushFails p f).memOk = true := by
  unfold State.pushFails
  dsimp only
  split
  · split
    · exact failOp_memOk w
    · exact w
  · exact pushFault_memOk (snapOnCause_memOk w)

theorem pushNow_memOk {p} (w : s.memOk = true) : Ev.memOk (s.pushNow p) = true := by
  unfold State.pushNow
  split <;> rename_i e
  · have w1 := snd_memOk e (pushSlot_memOk w)
    split
    · split
      · exact pageWait_memOk w1
      · exact pushWaits_memOk w1
    · exact pushFails_memOk w1
  · have w2 := snd_memOk e (pushSlot_memOk w)
    dsimp only
    split
    · exact joinOp_memOk w2
    · exact w2

theorem execSlotPush_memOk {idx} (w : s.memOk = true) : Out.memOk (execSlotPush idx s) = true := by
  unfold execSlotPush
  refine orStay_memOk ?_ w
  split
  · rfl
  · split
    · split
      · rfl
      · exact withWalks_memOk (fun _ _ h => withFork_memOk (fun _ _ h1 => pushNow_memOk h1) h) w
    · split
      · rfl
      · exact pushNow_memOk w

theorem dropTlb_memOk {ctx va} (w : s.memOk = true) : (s.dropTlb ctx va).memOk = true := w

theorem stashRetranslate_memOk {ctx va} (w : s.memOk = true) : (s.stashRetranslate ctx va).memOk = true := by
  unfold State.stashRetranslate
  refine foldl_memOk _ _ (fun _ _ h => ?_) w
  split
  · exact h
  · refine foldl_memOk _ _ (fun _ _ h1 => foldl_memOk _ _ (fun _ _ h2 => ?_) h1) h
    split
    · dsimp only
      split
      · exact setTeam_memOk (stashLineBack_memOk h2)
      · exact stashLineBack_memOk h2
    · exact h2

theorem tlbinvWord_memOk {e reads d va} (w : s.memOk = true) : Out.memOk (s.tlbinvWord e reads d va) = true := by
  unfold State.tlbinvWord
  split
  · exact fault_memOk w
  · refine memWord_memOk (tracked_memOk ?_ w) w
    dsimp only
    split
    · exact faultDetail_memOk w
    · split
      · exact faultAt_memOk w
      · exact waitFor_memOk (addOp_memOk (dropTlb_memOk (stashRetranslate_memOk (releaseAt_memOk w)))) w

theorem execTlbinvComplete_memOk {op} (w : s.memOk = true) : Out.memOk (execTlbinvComplete op s) = true := by
  unfold execTlbinvComplete
  refine onOp_memOk (fun _ => ?_) w
  split
  · split
    · rfl
    · exact finishOp_memOk w
  · rfl

/-! ### The teller -/

theorem tellThen_memOk {α β : Type} {r : Tell α} {k : α → State → Tell β} (hr : r.2.memOk = true)
    (hk : ∀ a t, t.memOk = true → (k a t).2.memOk = true) : (tellThen r k).2.memOk = true := by
  unfold tellThen
  split
  · exact hr
  · exact hk _ _ hr

theorem tellFail_memOk {α : Type} {cause va detail} (w : s.memOk = true) :
    (tellFail (α := α) s cause va detail).2.memOk = true := w

theorem tellerFault_memOk {α : Type} {n hi va} (w : s.memOk = true) :
    (tellerFault (α := α) s n hi va).2.memOk = true := w

theorem tellerXlate_memOk {tl ctx va k} (w : s.memOk = true) : (s.tellerXlate tl ctx va k).2.memOk = true := by
  unfold State.tellerXlate
  dsimp only
  split
  · split
    · exact tellFail_memOk w
    · exact w
  · split
    · exact tellFail_memOk (miss_memOk w)
    · split <;> rename_i e
      · exact tellFail_memOk (snd_memOk e (dieWalk_memOk w))
      · have w2 := snd_memOk e (dieWalk_memOk w)
        split
        · split
          · exact tellFail_memOk w2
          · exact w2
        · split
          · exact tellFail_memOk (tlbPut_memOk w2)
          · exact tlbPut_memOk w2

theorem tellerPage_memOk {tl ctx va n} (w : s.memOk = true) : (s.tellerPage tl ctx va n).2.memOk = true := by
  unfold State.tellerPage
  refine tellThen_memOk (tellerXlate_memOk w) (fun _ _ h => ?_)
  split
  · exact tellFail_memOk h
  · exact h

theorem tellerRead_memOk {tl ctx fuel va n} (w : s.memOk = true) :
    (s.tellerRead tl ctx fuel va n).2.memOk = true := by
  induction fuel generalizing s va n with
  | zero => exact w
  | succ fuel ih =>
    unfold State.tellerRead
    split
    · exact w
    · exact tellThen_memOk (tellerPage_memOk w) (fun _ _ h => tellThen_memOk (ih h) (fun _ _ h1 => h1))

theorem tellerPlaces_memOk {tl ctx fuel va n} (w : s.memOk = true) :
    (s.tellerPlaces tl ctx fuel va n).2.memOk = true := by
  induction fuel generalizing s va n with
  | zero => exact w
  | succ fuel ih =>
    unfold State.tellerPlaces
    split
    · exact w
    · exact tellThen_memOk (tellerXlate_memOk w) (fun _ _ h => tellThen_memOk (ih h) (fun _ _ h1 => h1))

theorem tellerPut_memOk {ps b} (w : s.memOk = true) : (s.tellerPut ps b).memOk = true := by
  induction ps generalizing s b with
  | nil => exact w
  | cons p ps ih => exact ih (tellerWrite_memOk _ _ w)

theorem tellPart_memOk {ctx q node} (w : s.memOk = true) : (s.tellPart ctx q node).2.memOk = true := by
  unfold State.tellPart
  dsimp only
  split
  · exact w
  · refine tellThen_memOk (tellerRead_memOk w) (fun _ _ h => ?_)
    split
    · exact h
    · exact tellerFault_memOk h

theorem inStack_memOk {tl ctx stack fuel va n} (w : s.memOk = true) :
    (s.inStack tl ctx stack fuel va n).2.memOk = true := by
  induction fuel generalizing s va n with
  | zero => exact w
  | succ fuel ih =>
    unfold State.inStack
    split
    · exact w
    · refine tellThen_memOk (tellerXlate_memOk w) (fun _ _ h => ?_)
      split
      · exact ih h
      · exact h

theorem tellerOf_memOk {q stack} (w : s.memOk = true) : (s.tellerOf q stack).2.memOk = true := by
  unfold State.tellerOf
  split
  · exact w
  · exact pick_memOk 4 w

theorem tellRecord_memOk {ctx tl q node} (w : s.memOk = true) : (s.tellRecord ctx tl q node).2.memOk = true := by
  unfold State.tellRecord
  refine tellThen_memOk (inStack_memOk w) (fun _ _ h => ?_)
  split
  · exact h
  · exact tellerFault_memOk h

theorem tellNeighbours_memOk {ctx q node} (w : s.memOk = true) : (s.tellNeighbours ctx q node).2.memOk = true := by
  unfold State.tellNeighbours
  refine tellThen_memOk (tellRecord_memOk (tellerOf_memOk w))
    (fun _ _ h => tellThen_memOk (tellerRead_memOk h) (fun _ _ h1 => ?_))
  dsimp only
  split
  · exact tellerFault_memOk h1
  · refine tellThen_memOk (tellerRead_memOk h1) (fun _ _ h2 => ?_)
    split
    · exact tellerFault_memOk h2
    · exact h2

theorem tellMeasure_memOk {ctx tl q ns} (w : s.memOk = true) : (s.tellMeasure ctx tl q ns).2.memOk = true := by
  induction ns generalizing s with
  | nil => exact w
  | cons n ns ih =>
    exact tellThen_memOk (tellRecord_memOk w) (fun _ _ h =>
      tellThen_memOk (tellerRead_memOk h) (fun _ _ h1 => tellThen_memOk (ih h1) (fun _ _ h2 => h2)))

theorem tellParts_memOk {ctx q ns} (w : s.memOk = true) : (s.tellParts ctx q ns).2.memOk = true := by
  induction ns generalizing s q with
  | nil => exact w
  | cons n ns ih => exact tellThen_memOk (tellPart_memOk w) (fun _ _ h => ih h)

theorem sendBatches_memOk {q nb ks} (w : s.memOk = true) : (s.sendBatches q nb ks).2.memOk = true := by
  induction ks generalizing s with
  | nil => exact w
  | cons k ks ih => exact ih (tellerOf_memOk w)

theorem tellAsk_memOk {ctx q nb} (w : s.memOk = true) : (s.tellAsk ctx q nb).2.memOk = true :=
  tellThen_memOk (tellParts_memOk w) (fun _ _ h => sendBatches_memOk h)

theorem gqRoute_memOk {ctx id q} (w : s.memOk = true) : (s.gqRoute ctx id q).2.memOk = true := by
  unfold State.gqRoute
  dsimp only
  split
  · exact tellerFault_memOk w
  · refine tellThen_memOk (tellerRead_memOk w) (fun _ _ h => ?_)
    split
    · exact tellerFault_memOk h
    · split
      · exact tellerFault_memOk h
      · exact tellThen_memOk (tellPart_memOk h) (fun _ _ h1 => h1)

theorem gqStart_memOk {ctx q} (w : s.memOk = true) : (s.gqStart ctx q).2.memOk = true :=
  tellThen_memOk (tellerRead_memOk w) (fun _ _ h => tellAsk_memOk h)

theorem gqTurn_memOk {ctx q} (w : s.memOk = true) : (s.gqTurn ctx q).2.memOk = true := by
  unfold State.gqTurn
  split
  · exact w
  · exact tellThen_memOk (tellMeasure_memOk w) (fun _ _ h => h)
  · split
    · exact w
    · split
      · exact w
      · refine tellThen_memOk (tellNeighbours_memOk w) (fun _ _ h1 => ?_)
        dsimp only
        split
        · exact h1
        · exact tellAsk_memOk h1

theorem tellDesc_memOk {tl ctx num who} (w : s.memOk = true) : (s.tellDesc tl ctx num who).2.memOk = true := by
  unfold State.tellDesc
  dsimp only
  split
  · exact tellerFault_memOk w
  · refine tellThen_memOk (tellerRead_memOk w) (fun _ _ h => ?_)
    split
    · exact h
    · exact tellerFault_memOk h

theorem tellTensor_memOk {tl ctx num} (w : s.memOk = true) : (s.tellTensor tl ctx num).2.memOk = true := by
  unfold State.tellTensor
  refine tellThen_memOk (tellDesc_memOk w) (fun _ _ h => ?_)
  dsimp only
  split
  · exact tellerFault_memOk h
  · refine tellThen_memOk (tellDesc_memOk h) (fun _ _ h1 => ?_)
    split
    · exact h1
    · exact tellerFault_memOk h1

theorem tellTable_memOk {tl ctx num va} (w : s.memOk = true) : (s.tellTable tl ctx num va).2.memOk = true := by
  unfold State.tellTable
  refine tellThen_memOk (tellerRead_memOk w) (fun _ _ h => ?_)
  split <;> exact h

theorem atTile_memOk {α : Type} {t} {r : Tell α} (w : r.2.memOk = true) : (atTile t r).2.memOk = true := by
  unfold atTile
  split <;> exact w

theorem offEntry_memOk {α : Type} {r : Tell α} (w : r.2.memOk = true) : (offEntry r).2.memOk = true := by
  unfold offEntry
  split <;> exact w

theorem tellTile_memOk {tl ctx t table} (w : s.memOk = true) : (s.tellTile tl ctx t table).2.memOk = true := by
  unfold State.tellTile
  refine atTile_memOk (tellThen_memOk (tellerRead_memOk w) (fun _ _ h => ?_))
  dsimp only
  split
  · exact h
  · refine tellThen_memOk ?_ (fun _ _ h2 => ?_)
    · split
      · exact h
      · refine tellThen_memOk (offEntry_memOk (tellerXlate_memOk h)) (fun _ _ h1 => ?_)
        split
        · exact offEntry_memOk (tellerRead_memOk h1)
        · exact h1
    · split <;> exact h2

theorem tellGroup_memOk {tl ctx q d sc table p g} (w : s.memOk = true) :
    (s.tellGroup tl ctx q d sc table p g).2.memOk = true :=
  tellThen_memOk (tellTile_memOk w) (fun _ _ h => tellThen_memOk (tellTile_memOk h) (fun _ _ h1 => h1))

theorem tellGroups_memOk {β : Type} {tl ctx q d sc table p n g} {f : β → Nat → List Val → Val → β} {acc : β}
    (w : s.memOk = true) : (s.tellGroups tl ctx q d sc table p f n g acc).2.memOk = true := by
  induction n generalizing s g acc with
  | zero => exact w
  | succ n ih => exact tellThen_memOk (tellGroup_memOk w) (fun _ _ h => ih h)

theorem tellPos_memOk {ctx q k v i} (w : s.memOk = true) : (s.tellPos ctx q k v i).2.memOk = true := by
  unfold State.tellPos
  refine tellThen_memOk (tellerRead_memOk w) (fun _ _ h => ?_)
  dsimp only
  split
  · exact tellerFault_memOk h
  · exact h

theorem tellScores_memOk {ctx q k ks v table n i} (w : s.memOk = true) :
    (s.tellScores ctx q k ks v table n i).2.memOk = true := by
  induction n generalizing s i with
  | zero => exact w
  | succ n ih =>
    exact tellThen_memOk (tellPos_memOk w) (fun _ _ h =>
      tellThen_memOk (tellGroups_memOk h) (fun _ _ h1 => tellThen_memOk (ih h1) (fun _ _ h2 => h2)))

theorem tellSum_memOk {ctx q v vs table m l a o} (w : s.memOk = true) :
    (s.tellSum ctx q v vs table m l a o).2.memOk = true := by
  induction l generalizing s a o with
  | nil => exact w
  | cons x l ih => exact tellThen_memOk (tellGroups_memOk w) (fun _ _ h => ih h)

theorem attRun_memOk {ctx q} (w : s.memOk = true) : (s.attRun ctx q).2.memOk = true := by
  unfold State.attRun
  split
  · exact tellerFault_memOk w
  · refine tellThen_memOk (tellTensor_memOk w) (fun _ _ h => tellThen_memOk (tellTensor_memOk h) (fun _ _ h1 => ?_))
    dsimp only
    split
    · exact tellerFault_memOk h1
    · refine tellThen_memOk (tellTable_memOk h1)
        (fun _ _ h2 => tellThen_memOk (tellTable_memOk h2)
          (fun _ _ h3 => tellThen_memOk (tellerRead_memOk h3) (fun _ _ h4 => ?_)))
      split
      · exact h4
      · refine tellThen_memOk (tellScores_memOk h4) (fun _ _ h5 => ?_)
        split
        · exact h5
        · exact tellThen_memOk (tellSum_memOk h5) (fun _ _ h6 => h6)

theorem tellerWord_memOk {e att a} (w : s.memOk = true) : Out.memOk (s.tellerWord e att a) = true := by
  unfold State.tellerWord
  refine memWord_memOk (withAddr_memOk
    (fun _ h => ownWrites_memOk (fun _ h1 => withRecord_memOk (fun _ h2 => ?_) h1) h) w) w
  split <;> rename_i e3
  · exact faultX_memOk (snd_memOk e3 (recordBytes_memOk h2))
  · have w5 := snd_memOk e3 (recordBytes_memOk h2)
    exact tracked_memOk (addOp_memOk w5) w5

theorem execTstat_memOk {e d a} (w : s.memOk = true) : Out.memOk (execTstat e d a s) = true := by
  unfold execTstat
  refine memWord_memOk (tracked_memOk ?_ w) w
  dsimp only
  split
  · exact faultDetail_memOk w
  · exact addOp_memOk w

theorem tstatReturn_memOk {o d n} (w : s.memOk = true) : Ev.memOk (s.tstatReturn o d n) = true :=
  finishOp_memOk (writeRegs_memOk w)

theorem tellFails_memOk {o q e} (w : s.memOk = true) : (s.tellFails o q e).memOk = true := by
  unfold State.tellFails
  split
  · exact pageWait_memOk w
  · exact failOp_memOk (dropAccesses_memOk w)

theorem tellTurn_memOk {o q} {r : Tell Query} (w : r.2.memOk = true) : Ev.memOk (State.tellTurn o q r) = true := by
  unfold State.tellTurn
  split
  · exact tellFails_memOk w
  · exact setOp_memOk w

theorem execTellerQueryStart_memOk {op} (w : s.memOk = true) : Out.memOk (execTellerQueryStart op s) = true := by
  unfold execTellerQueryStart
  refine onOp_memOk (fun _ => ?_) w
  split
  · rfl
  · split
    · rfl
    · refine withWalks_memOk (fun _ _ h => withFork_memOk (fun _ _ h1 => ?_) h) w
      split
      · exact tellTurn_memOk (gqRoute_memOk h1)
      · split
        · exact tellTurn_memOk (attRun_memOk h1)
        · exact tellTurn_memOk (gqStart_memOk h1)

theorem execBatchReturn_memOk {op} (w : s.memOk = true) : Out.memOk (execBatchReturn op s) = true := by
  unfold execBatchReturn
  refine onOp_memOk (fun _ => ?_) w
  split
  · split
    · rfl
    · exact withWalks_memOk (fun _ _ h => tellTurn_memOk (gqTurn_memOk h)) w
  · rfl

theorem tellPlaces_memOk {ctx q b} (w : s.memOk = true) : (s.tellPlaces ctx q b).2.memOk = true := by
  unfold State.tellPlaces
  refine tellThen_memOk ?_ (fun _ _ h => tellThen_memOk (tellerPlaces_memOk h) (fun _ _ h1 => ?_))
  · split
    · exact w
    · exact tellerPlaces_memOk w
  · split
    · exact h1
    · refine tellThen_memOk (tellerXlate_memOk h1) (fun _ _ h2 => ?_)
      split
      · exact tellFail_memOk h2
      · exact h2

theorem cwordAdd_memOk {pa} (w : s.memOk = true) : (s.cwordAdd pa).memOk = true := by
  unfold State.cwordAdd
  refine homeWrite_memOk _ _ ?_
  split
  · exact settleLine_memOk _ w
  · exact w

theorem execTellerCompletion_memOk {op} (w : s.memOk = true) : Out.memOk (execTellerCompletion op s) = true := by
  unfold execTellerCompletion
  refine onOp_memOk (fun _ => ?_) w
  split
  · rfl
  · split
    · rfl
    · split
      · rfl
      · refine withWalks_memOk (fun _ _ h => ?_) w
        split <;> rename_i e1
        · exact tellFails_memOk (snd_memOk e1 (tellPlaces_memOk h))
        · have w3 := snd_memOk e1 (tellPlaces_memOk h)
          refine joinOp_memOk ?_
          split
          · exact cwordAdd_memOk (tellerPut_memOk (tellerPut_memOk w3))
          · exact tellerPut_memOk (tellerPut_memOk w3)

theorem execTellerSramError_memOk {op} (w : s.memOk = true) : Out.memOk (execTellerSramError op s) = true := by
  unfold execTellerSramError
  refine orStay_memOk ?_ w
  split
  · rfl
  · split
    · rfl
    · exact tellFails_memOk w

/-! ### Progress of the operations under way -/

theorem fetchWord_memOk {m va} (w : s.memOk = true) : (s.fetchWord m va).2.memOk = true := by
  unfold State.fetchWord
  split <;> rename_i e
  · exact snd_memOk e (translate_memOk w)
  · have w2 := snd_memOk e (translate_memOk w)
    split <;> exact w2

theorem fetchWords_memOk {m n va} (w : s.memOk = true) : (s.fetchWords m n va).2.memOk = true := by
  induction n generalizing s va with
  | zero => exact w
  | succ n ih =>
    unfold State.fetchWords
    split <;> rename_i e
    · exact snd_memOk e (fetchWord_memOk w)
    · have w1 := snd_memOk e (fetchWord_memOk w)
      split <;> rename_i e1 <;> exact snd_memOk e1 (ih w1)

theorem headerTrap_memOk {t m f} (w : s.memOk = true) : (s.headerTrap t m f).memOk = true := trapThread_memOk w

theorem fetchFault_memOk {t m e} (w : s.memOk = true) : (s.fetchFault t m e).memOk = true := by
  unfold State.fetchFault
  split
  · exact parkOnPage_memOk w
  · exact headerTrap_memOk w

/-- What a header waits for is answered by an event that keeps the form. -/
theorem headerWait_memOk {t m h r} (w : s.memOk = true) (e : s.headerWait t m h = some r) : Ev.memOk r = true := by
  unfold State.headerWait at e
  extract_lets mask all at e
  split at e
  · obtain rfl := Option.some.inj e
    rfl
  · split at e
    · cases e
    · split at e <;> obtain rfl := Option.some.inj e
      · exact dropOp_memOk w
      · exact deliver_memOk w

theorem openClause_memOk {t m} (w : s.memOk = true) : Ev.memOk (s.openClause t m) = true := by
  unfold State.openClause
  split <;> rename_i e
  · exact fetchFault_memOk (snd_memOk e (fetchWord_memOk w))
  · have w1 := snd_memOk e (fetchWord_memOk w)
    split
    · exact headerTrap_memOk w1
    · split <;> rename_i e1
      · exact fetchFault_memOk (snd_memOk e1 (fetchWords_memOk w1))
      · have w2 := snd_memOk e1 (fetchWords_memOk w1)
        split
        · exact headerTrap_memOk w2
        · split
          · exact trapThread_memOk w2
          · split <;> rename_i e2
            · exact headerWait_memOk w2 e2
            · exact setThread_memOk w2

theorem execClauseIssue_memOk {k} (w : s.memOk = true) : Out.memOk (execClauseIssue k s) = true := by
  unfold execClauseIssue
  refine orStay_memOk ?_ w
  split
  · split
    · rfl
    · split
      · exact setThread_memOk w
      · split
        · split
          · exact setThread_memOk w
          · exact deliver_memOk w
        · exact openClause_memOk w
  · rfl

theorem execTillTimerExpiry_memOk {team till} (w : s.memOk = true) :
    Out.memOk (execTillTimerExpiry team till s) = true := by
  unfold execTillTimerExpiry
  refine orStay_memOk ?_ w
  split
  · rfl
  · split
    · rfl
    · split
      · exact releaseTills_memOk (makeDue_memOk w)
      · rfl

theorem execTillRelease_memOk {team till} (w : s.memOk = true) :
    Out.memOk (execTillRelease team till s) = true := by
  unfold execTillRelease
  refine orStay_memOk ?_ w
  split
  · rfl
  · split
    · exact spawnDeadlock_memOk (getD_memOk (releaseNext_memOk w) w)
    · rfl

theorem execWatchdog_memOk {k} (w : s.memOk = true) : Out.memOk (execWatchdog k s) = true := by
  unfold execWatchdog
  refine orStay_memOk ?_ w
  split
  · dsimp only
    split
    · rfl
    · split
      · exact headerTrap_memOk w
      · exact trapAtWord_memOk w
  · rfl

theorem execGraceBudgetExpiry_memOk {team} (w : s.memOk = true) :
    Out.memOk (execGraceBudgetExpiry team s) = true := by
  unfold execGraceBudgetExpiry
  refine orStay_memOk ?_ w
  split
  · rfl
  · split
    · rfl
    · split
      · exact mapThreads_memOk w
      · rfl

theorem execLoadReturn_memOk {op} (w : s.memOk = true) : Out.memOk (execLoadReturn op s) = true := by
  unfold execLoadReturn
  refine onOp_memOk (fun _ => ?_) w
  split
  · exact loadReturn_memOk w
  · split
    · rfl
    · exact finishOp_memOk w
  · exact ctldReturn_memOk w
  · exact tldReturn_memOk w
  · exact tqReturn_memOk w
  · exact tstatReturn_memOk w
  · rfl

theorem execStoreWritten_memOk {op} (w : s.memOk = true) : Out.memOk (execStoreWritten op s) = true := by
  unfold execStoreWritten
  refine onOp_memOk (fun _ => ?_) w
  split
  · exact storeWritten_memOk w
  · exact ctstWritten_memOk w
  · rfl

theorem execSpecialFunctionResult_memOk {op} (w : s.memOk = true) :
    Out.memOk (execSpecialFunctionResult op s) = true := by
  unfold execSpecialFunctionResult
  refine onOp_memOk (fun _ => ?_) w
  split
  · exact finishOp_memOk (writeRegs_memOk w)
  · rfl

theorem execCompactorMove_memOk {team group dest} (w : s.memOk = true) :
    Out.memOk (execCompactorMove team group dest s) = true := by
  unfold execCompactorMove
  refine orStay_memOk ?_ w
  split
  · rfl
  · split
    · rfl
    · split
      · split
        · rfl
        · split
          · exact setTeam_memOk w
          · rfl
      · split
        · exact setTeam_memOk w
        · rfl

theorem execCoreReset_memOk {core} (w : s.memOk = true) : Out.memOk (execCoreReset core s) = true := by
  unfold execCoreReset
  refine orStay_memOk ?_ w
  split
  · exact setCore_memOk _ w
  · rfl

/-! ### Lost engines and resets -/

theorem hostPut_memOk {a b} (w : s.memOk = true) : (s.hostPut a b).memOk = true := w

theorem putWord_memOk {host a v} (w : s.memOk = true) : (s.putWord host a v).memOk = true := by
  unfold State.putWord
  split
  · exact hostPut_memOk w
  · exact homeWrite_memOk _ _ w

theorem queueError_memOk {q} (w : s.memOk = true) : (s.queueError q).memOk = true := by
  unfold State.queueError
  dsimp only
  split
  · exact setTenant_memOk w
  · exact w

theorem putStatus_memOk {q ctx cword status reason late} (w : s.memOk = true) :
    (s.putStatus q ctx cword status reason late).memOk = true := by
  unfold State.putStatus
  dsimp only
  split
  · exact w
  · split
    · exact putWord_memOk w
    · split
      · exact queueError_memOk w
      · exact putWord_memOk w

theorem raise_memOk {tenant v} (w : s.memOk = true) : (s.raise tenant v).memOk = true := setTenant_memOk w

theorem haltCtx_memOk {c} (w : s.memOk = true) : (s.haltCtx c).memOk = true := w

theorem endGrids_memOk {c status} (w : s.memOk = true) : (s.endGrids c status).memOk = true :=
  foldl_memOk _ _ (fun _ _ h => putStatus_memOk h) w

theorem loseControl_memOk {detail c} (w : s.memOk = true) : (s.loseControl detail c).memOk = true := by
  unfold State.loseControl
  split
  · exact w
  · extract_lets s1 s2 s3 s4
    have w3 : s3.memOk = true := pushFault_memOk (snapOnCause_memOk (endGrids_memOk (haltCtx_memOk w)))
    have w4 : s4.memOk = true := raise_memOk w3
    clear_value s4
    exact w4

theorem loseAll_memOk {detail hit} (w : s.memOk = true) : (s.loseAll detail hit).memOk = true :=
  foldl_memOk _ _ (fun _ _ h => loseControl_memOk h) w

theorem setVote_memOk {u n} (w : s.memOk = true) : (s.setVote u n).memOk = true := w

theorem execVoteDissent_memOk {u} (w : s.memOk = true) : Out.memOk (execVoteDissent u s) = true := by
  unfold execVoteDissent
  refine orStay_memOk ?_ w
  split
  · rfl
  · exact w

theorem execVoteReadmission_memOk {u} (w : s.memOk = true) : Out.memOk (execVoteReadmission u s) = true := by
  unfold execVoteReadmission
  refine orStay_memOk ?_ w
  split
  · rfl
  · exact w

theorem resetWalker_memOk {die} (w : s.memOk = true) : (s.resetWalker die).memOk = true := w

theorem execComparedPairDisagreement_memOk {u} (w : s.memOk = true) :
    Out.memOk (execComparedPairDisagreement u s) = true := by
  unfold execComparedPairDisagreement
  refine orStay_memOk ?_ w
  split
  · rfl
  · split
    · exact setVote_memOk (resetWalker_memOk (loseAll_memOk w))
    · exact setVote_memOk (loseAll_memOk w)
    · rfl

theorem execCpVoteDisagreement_memOk {cp} (w : s.memOk = true) :
    Out.memOk (execCpVoteDisagreement cp s) = true := by
  unfold execCpVoteDisagreement
  refine orStay_memOk ?_ w
  dsimp only
  split
  · rfl
  · exact loseAll_memOk w

theorem execClusterUnresponsive_memOk {cluster} (w : s.memOk = true) :
    Out.memOk (execClusterUnresponsive cluster s) = true := by
  unfold execClusterUnresponsive
  refine orStay_memOk ?_ w
  split
  · rfl
  · exact loseAll_memOk w

theorem execDieLinkFlitRetry_memOk {a b} (w : s.memOk = true) : Out.memOk (execDieLinkFlitRetry a b s) = true := by
  unfold execDieLinkFlitRetry
  refine orStay_memOk ?_ w
  split
  · rfl
  · exact w

theorem execDieLinkFailure_memOk {a b} (w : s.memOk = true) : Out.memOk (execDieLinkFailure a b s) = true := by
  unfold execDieLinkFailure
  refine orStay_memOk ?_ w
  dsimp only
  split
  · rfl
  · exact report_memOk (loseAll_memOk w)

theorem stackFails_memOk {stack o} (w : s.memOk = true) : (s.stackFails stack o).memOk = true := by
  unfold State.stackFails
  split
  · extract_lets awaits
    split
    · exact tellFails_memOk w
    · exact w
  · exact w

theorem execStackUnresponsive_memOk {stack} (w : s.memOk = true) :
    Out.memOk (execStackUnresponsive stack s) = true := by
  unfold execStackUnresponsive
  refine orStay_memOk ?_ w
  split
  · rfl
  · exact report_memOk (loseAll_memOk (foldl_memOk _ _ (fun _ _ h => stackFails_memOk h) w))

theorem execCxlLinkFailed_memOk {link} (w : s.memOk = true) : Out.memOk (execCxlLinkFailed link s) = true := by
  unfold execCxlLinkFailed
  refine orStay_memOk ?_ w
  split
  · rfl
  · exact report_memOk w

theorem setDebt_memOk {b n} (w : s.memOk = true) : (s.setDebt b n).memOk = true := w

theorem execRefresh_memOk {stack bank postpone} (w : s.memOk = true) :
    Out.memOk (execRefresh stack bank postpone s) = true := by
  unfold execRefresh
  refine orStay_memOk ?_ w
  split
  · rfl
  · split
    · exact w
    · split
      · rfl
      · exact setDebt_memOk w

theorem execAlertBackOff_memOk {stack bank} (w : s.memOk = true) :
    Out.memOk (execAlertBackOff stack bank s) = true := by
  unfold execAlertBackOff
  refine orStay_memOk ?_ w
  split
  · rfl
  · split
    · exact setDebt_memOk w
    · exact w

/-! ### The dispatcher and the teams -/

theorem takeSlot_memOk {m core slot} (w : s.memOk = true) : Ev.memOk (s.takeSlot m core slot) = true := by
  unfold State.takeSlot
  cases s.allocGranules core m.sgran with
  | none => rfl
  | some run => exact setTeam_memOk w

theorem bind_memOk {e : Option State} {f : State → Option State} (hf : ∀ t, t.memOk = true → Ev.memOk (f t) = true)
    (w : Ev.memOk e = true) : Ev.memOk (e.bind f) = true := by
  cases e with
  | none => rfl
  | some t => exact hf t w

theorem formLaunch_memOk {u l} (w : s.memOk = true) : Ev.memOk (s.formLaunch u l) = true := by
  induction l generalizing s with
  | nil => exact w
  | cons g l ih =>
    unfold State.formLaunch
    split
    · rfl
    · split
      · exact ih (formGroup_memOk w)
      · rfl

theorem putRegions_memOk {g} (w : s.memOk = true) : (s.putRegions g).memOk = true := w

theorem execTeamPlacement_memOk {team} (w : s.memOk = true) : Out.memOk (execTeamPlacement team s) = true := by
  unfold execTeamPlacement
  refine orStay_memOk ?_ w
  split
  · rfl
  · split
    · rfl
    · dsimp only
      split
      · rfl
      · split
        · rfl
        · split <;> rename_i e1
          · rfl
          · have w3 := some_memOk e1 (bind_memOk (fun _ h => formLaunch_memOk h) (takeSlot_memOk w))
            refine acquireAt_memOk _ _ ?_
            split
            · exact putRegions_memOk w3
            · exact w3

theorem letGo_memOk {u} (w : s.memOk = true) : (s.letGo u).memOk = true := w

theorem execTeamSwapOut_memOk {team} (w : s.memOk = true) : Out.memOk (execTeamSwapOut team s) = true := by
  unfold execTeamSwapOut
  refine orStay_memOk ?_ w
  split
  · rfl
  · split
    · split
      · rfl
      · split
        · exact letGo_memOk w
        · extract_lets want s1 s2 m img
          have w1 : s1.memOk = true := releaseAt_memOk w
          have w2 : s2.memOk = true := w1
          clear_value img m s2
          split
          · exact loseControl_memOk w2
          · split
            · exact loseControl_memOk w2
            · extract_lets s3 m3
              have w3 : s3.memOk = true := homeWrite_memOk _ _ w2
              clear_value s3 m3
              exact setTeam_memOk w3
    · rfl

theorem reloadFaults_memOk {k b} (w : s.memOk = true) : (s.reloadFaults k b).memOk = true :=
  foldl_memOk _ _ (fun _ _ h => setOp_memOk h) w

theorem reloadThreads_memOk {m ts b} (w : s.memOk = true) : (s.reloadThreads m ts b).memOk = true := by
  induction ts generalizing s b with
  | nil => exact w
  | cons t ts ih => exact ih (reloadFaults_memOk (setThread_memOk w))

theorem replaceThreads_memOk {u ts} (w : s.memOk = true) : (s.replaceThreads u ts).memOk = true := w

theorem reload_memOk {m base len} (w : s.memOk = true) : Ev.memOk (s.reload m base len) = true := by
  unfold State.reload
  split
  · rfl
  · exact reloadThreads_memOk (replaceThreads_memOk (setTeam_memOk (setTeam_memOk w)))

theorem rewriteImage_memOk {u} (w : s.memOk = true) : (s.rewriteImage u).memOk = true := by
  unfold State.rewriteImage
  split
  · exact w
  · split
    · dsimp only
      split
      · exact homeWrite_memOk _ _ (setTeam_memOk w)
      · split
        · exact homeWrite_memOk _ _ (setTeam_memOk w)
        · exact loseControl_memOk w
    · exact w

theorem onImage_memOk {u f} (hb : ∀ t, t.memOk = true → (f t).memOk = true) (w : s.memOk = true) :
    (s.onImage u f).memOk = true := by
  unfold State.onImage
  split
  · exact hb _ w
  · split
    · split <;> rename_i e
      · exact loseControl_memOk w
      · exact rewriteImage_memOk (hb _ (some_memOk e (reload_memOk w)))
    · exact hb _ w

theorem accessAgain_memOk {a} (w : s.memOk = true) : (s.accessAgain a).memOk = true := by
  unfold State.accessAgain
  split
  · split
    · exact w
    · exact waitOn_memOk (dropAccesses_memOk w)
  · exact waitOn_memOk (dropAccesses_memOk w)

theorem accessesAgain_memOk {u core slot} (w : s.memOk = true) : (s.accessesAgain u core slot).memOk = true :=
  foldl_memOk _ _ (fun _ _ h => accessAgain_memOk h) w

theorem allotGroups_memOk {u gs} (w : s.memOk = true) : Ev.memOk (s.allotGroups u gs) = true := by
  induction gs generalizing s with
  | nil => exact w
  | cons g gs ih =>
    unfold State.allotGroups
    split
    · rfl
    · split
      · rfl
      · exact ih (setTeam_memOk w)

theorem schedule_memOk {u} (w : s.memOk = true) : (s.schedule u).memOk = true := by
  unfold State.schedule
  split
  · exact w
  · split
    · exact setTeam_memOk w
    · exact w

theorem moveOps_memOk {u core} (w : s.memOk = true) : (s.moveOps u core).memOk = true := w

theorem takePlace_memOk {m core slot} (w : s.memOk = true) : Ev.memOk (s.takePlace m core slot) = true :=
  bind_memOk (fun _ h => allotGroups_memOk h) (takeSlot_memOk w)

theorem waitersBack_memOk {u} (w : s.memOk = true) : (s.waitersBack u).memOk = true := by
  unfold State.waitersBack
  split
  · exact w
  · exact setTeam_memOk w

theorem comeBack_memOk {m core slot} (w : s.memOk = true) : (s.comeBack m core slot).memOk = true :=
  spawnDeadlock_memOk (wakeSpawners_memOk
    (waitersBack_memOk (mapThreads_memOk (acquireAt_memOk _ _ (accessesAgain_memOk (moveOps_memOk w))))))

theorem execTeamResume_memOk {team} (w : s.memOk = true) : Out.memOk (execTeamResume team s) = true := by
  unfold execTeamResume
  refine orStay_memOk ?_ w
  split
  · rfl
  · split
    · split
      · rfl
      · split <;> rename_i e
        · rfl
        · exact loseControl_memOk w
        · have w3 := some_memOk e (reload_memOk w)
          dsimp only
          split <;> rename_i e4
          · rfl
          · exact comeBack_memOk (some_memOk e4 (takePlace_memOk w3))
    · rfl

theorem applyUpdate_memOk {m u} (w : s.memOk = true) : Except.memOk Prod.snd (s.applyUpdate m u) = true := by
  unfold State.applyUpdate
  split
  · exact setTeam_memOk w
  · split
    · rfl
    · exact setTeam_memOk w

theorem imageUpdate_memOk {u} (w : s.memOk = true) : (s.imageUpdate u).memOk = true := by
  unfold State.imageUpdate
  split
  · exact w
  · rename_i m _
    have wu := applyUpdate_memOk (m := m) (u := u.what) w
    revert wu
    generalize s.applyUpdate m u.what = x
    intro wu
    split
    · exact engineField_memOk w
    · exact w
    · rename_i woke t o
      extract_lets t1
      have w1 : t1.memOk = true := by
        unfold t1
        split
        · exact landed_memOk wu
        · exact wu
      clear_value t1
      split
      · exact setTeam_memOk w1
      · exact w1

theorem execImageUpdate_memOk {idx} (w : s.memOk = true) : Out.memOk (execImageUpdate idx s) = true := by
  unfold execImageUpdate
  refine orStay_memOk ?_ w
  split
  · rfl
  · split
    · rfl
    · dsimp only
      split
      · exact w
      · exact onImage_memOk (fun _ h => imageUpdate_memOk h) w

/-! ### Launches -/

theorem setQueue_memOk {q} (w : s.memOk = true) : (s.setQueue q).memOk = true := w

theorem execDoorbell_memOk {queue tail} (w : s.memOk = true) : Out.memOk (execDoorbell queue tail s) = true := by
  unfold execDoorbell
  refine orStay_memOk ?_ w
  split
  · rfl
  · dsimp only
    split
    · exact setQueue_memOk w
    · exact queueError_memOk w

theorem passHead_memOk {q} (w : s.memOk = true) : (s.passHead q).memOk = true := putWord_memOk (setQueue_memOk w)

theorem execRecordFetch_memOk {queue} (w : s.memOk = true) : Out.memOk (execRecordFetch queue s) = true := by
  unfold execRecordFetch
  refine orStay_memOk ?_ w
  split
  · rfl
  · split
    · rfl
    · split
      · exact setQueue_memOk w
      · extract_lets s1 c a
        have w1 : s1.memOk = true := queueError_memOk w
        clear_value s1
        split
        rename_i came s2 e
        have w2 : s2.memOk = true := by
          refine snd_memOk e ?_
          split
          · exact pick_memOk 2 w1
          · exact w1
        extract_lets arrived clean _ s3 s4
        have w3 : s3.memOk = true := by
          unfold s3
          split <;> exact w2
        have w4 : s4.memOk = true := by
          unfold s4
          split
          · exact putStatus_memOk w3
          · exact w3
        clear_value s4
        split
        · exact passHead_memOk w4
        · exact w4

theorem armWait_memOk {g i x pa} (w : s.memOk = true) : (s.armWait g i x pa).memOk = true := by
  unfold State.armWait
  split
  · exact w
  · exact revokeRange_memOk _ _ w

theorem setGrid_memOk {g} (w : s.memOk = true) : (s.setGrid g).memOk = true := w

theorem armWaits_memOk {g} (w : s.memOk = true) : (s.armWaits g).memOk = true := by
  unfold State.armWaits
  refine foldl_memOk _ _ (fun _ _ h => ?_) w
  dsimp only
  split
  · exact h
  · exact setGrid_memOk h
  · exact armWait_memOk (setGrid_memOk h)

theorem execWaitConditionMet_memOk {grid i} (w : s.memOk = true) :
    Out.memOk (execWaitConditionMet grid i s) = true := by
  unfold execWaitConditionMet
  refine orStay_memOk ?_ w
  split
  · rfl
  · split
    · rfl
    · rename_i c _
      extract_lets mine watched now
      generalize (if watched = true then !s.monitors.any (fun m => mine m && m.fired) else decide (now < c.poll)) =
        early
      split
      · rfl
      · split
        · rfl
        · split
          · exact setGrid_memOk w
          · dsimp only [Ev.memOk]
            split
            · exact w
            · exact setGrid_memOk w

theorem execLaunch_memOk {queue} (w : s.memOk = true) : Out.memOk (execLaunch queue s) = true := by
  unfold execLaunch
  refine orStay_memOk ?_ w
  split
  · rfl
  · split
    · dsimp only
      split
      · exact putStatus_memOk (passHead_memOk w)
      · exact passHead_memOk w
    · exact armWaits_memOk (passHead_memOk w)

theorem execTeamHandout_memOk {die} (w : s.memOk = true) : Out.memOk (execTeamHandout die s) = true := by
  unfold execTeamHandout
  refine orStay_memOk ?_ w
  split
  · rfl
  · split
    · rfl
    · split
      · rfl
      · exact w

theorem execDeadlineExpiry_memOk {grid} (w : s.memOk = true) : Out.memOk (execDeadlineExpiry grid s) = true := by
  unfold execDeadlineExpiry
  refine orStay_memOk ?_ w
  split
  · rfl
  · split
    · rfl
    · split
      · rfl
      · exact setGrid_memOk w

theorem preemptTeam_memOk {m} (w : s.memOk = true) : (s.preemptTeam m).memOk = true :=
  mapThreads_memOk (setTeam_memOk w)

theorem giveUp_memOk {m} (w : s.memOk = true) : (s.giveUp m).memOk = true := by
  unfold State.giveUp
  split
  · exact w
  · split
    · exact preemptTeam_memOk w
    · exact setGrid_memOk (setTeam_memOk w)

theorem execPreemptionRequest_memOk {team} (w : s.memOk = true) :
    Out.memOk (execPreemptionRequest team s) = true := by
  unfold execPreemptionRequest
  refine orStay_memOk ?_ w
  split
  · rfl
  · split
    · split
      · exact giveUp_memOk w
      · rfl
    · rfl

theorem execQuantumExpiry_memOk {tenant} (w : s.memOk = true) : Out.memOk (execQuantumExpiry tenant s) = true := by
  unfold execQuantumExpiry
  refine orStay_memOk ?_ w
  dsimp only
  split
  · rfl
  · split
    · exact preemptTeam_memOk w
    · rfl

theorem execGridComplete_memOk {grid} (w : s.memOk = true) : Out.memOk (execGridComplete grid s) = true := by
  unfold execGridComplete
  refine orStay_memOk ?_ w
  split
  · rfl
  · dsimp only
    split
    · rfl
    · split
      · exact putStatus_memOk (foldl_memOk _ _ (fun _ _ h => releaseAt_memOk h) w)
      · split
        · exact raise_memOk (putStatus_memOk (foldl_memOk _ _ (fun _ _ h1 => releaseAt_memOk h1) w))
        · exact putStatus_memOk (foldl_memOk _ _ (fun _ _ h2 => releaseAt_memOk h2) w)

/-! ### Supervisor events -/

theorem commandDone_memOk {q r reason} (w : s.memOk = true) : (s.commandDone q r reason).memOk = true := by
  unfold State.commandDone
  refine passHead_memOk ?_
  split
  · exact putStatus_memOk w
  · exact w

theorem execCreateContext_memOk (w : s.memOk = true) : Out.memOk (execCreateContext s) = true := by
  unfold execCreateContext
  refine orStay_memOk ?_ w
  split
  · rfl
  · dsimp only
    split <;> exact commandDone_memOk w

theorem removeCtx_memOk {c} (w : s.memOk = true) : (s.removeCtx c).memOk = true := by
  unfold State.removeCtx
  dsimp only
  split <;> exact w

theorem execEndContext_memOk (w : s.memOk = true) : Out.memOk (execEndContext s) = true := by
  unfold execEndContext
  refine orStay_memOk ?_ w
  split
  · rfl
  · dsimp only
    split
    · exact commandDone_memOk w
    · exact removeCtx_memOk (commandDone_memOk (endGrids_memOk (haltCtx_memOk w)))

theorem settleEntry_memOk {tenant index} (w : s.memOk = true) : (s.settleEntry tenant index).memOk = true :=
  setTenant_memOk w

theorem unpark_memOk {a} (w : s.memOk = true) : (s.unpark a).memOk = true := by
  unfold State.unpark
  split
  · exact w
  · split
    · split
      · exact setThread_memOk w
      · exact w
    · split
      · exact setThread_memOk w
      · exact w
    · exact w

theorem repark_memOk {a n} (w : s.memOk = true) : (s.repark a n).memOk = true := by
  unfold State.repark
  split
  · exact w
  · split
    · split
      · exact setThread_memOk w
      · exact w
    · split
      · exact setThread_memOk w
      · exact w
    · exact w

theorem retry_memOk {a} (w : s.memOk = true) : (s.retry a).memOk = true := by
  unfold State.retry
  dsimp only
  split <;> rename_i e
  · have w1 := snd_memOk e (coreWalk_memOk w)
    split
    · exact repark_memOk (waitOn_memOk (addAccess_memOk w1))
    · exact unpark_memOk (waitOn_memOk w1)
  · have w2 := snd_memOk e (coreWalk_memOk w)
    refine unpark_memOk (waitOn_memOk ?_)
    split
    · exact w2
    · exact tlbFill_memOk w2

theorem deliverParked_memOk {a t m o} (w : s.memOk = true) : (s.deliverParked a t m o).memOk = true := by
  unfold State.deliverParked
  split
  · exact trapThread_memOk (setOp_memOk w)
  · exact trapThread_memOk (dropOp_memOk w)

theorem stillSaved_memOk {was} (w : s.memOk = true) : (s.stillSaved was).memOk = true := by
  unfold State.stillSaved
  split
  · split
    · exact setThread_memOk w
    · exact w
  · exact w

theorem deliverThread_memOk {a t m} (w : s.memOk = true) : (s.deliverThread a t m).memOk = true := by
  unfold State.deliverThread
  split
  · dsimp only
    split
    · exact stillSaved_memOk (deliverParked_memOk w)
    · exact failOp_memOk (setOp_memOk w)
  · split
    · exact stillSaved_memOk (trapThread_memOk w)
    · exact w

theorem deliverPage_memOk {a} (w : s.memOk = true) : (s.deliverPage a).memOk = true := by
  unfold State.deliverPage
  dsimp only
  split
  · split
    · exact engineFail_memOk (setOp_memOk w)
    · exact w
  · refine onImage_memOk (fun _ h => ?_) w
    split
    · exact deliverThread_memOk h
    · exact h

theorem endSaved_memOk {u} (w : s.memOk = true) : (s.endSaved u).memOk = true := by
  unfold State.endSaved
  split
  · exact w
  · split
    · split
      · exact w
      · split <;> exact setTeam_memOk w
    · exact w

theorem removeThread_memOk {k} (w : s.memOk = true) : (s.removeThread k).memOk = true := by
  unfold State.removeThread
  refine onImage_memOk (fun _ h => ?_) w
  split <;> rename_i e1
  · exact h
  · have w3 := some_memOk e1 (focus_memOk h)
    exact endSaved_memOk (unfocus_memOk (leave_memOk (dropAccesses_memOk w3)))

theorem execResolveReplay_memOk (w : s.memOk = true) : Out.memOk (execResolveReplay s) = true := by
  unfold execResolveReplay
  refine orStay_memOk ?_ w
  split
  · rfl
  · split
    · split
      · split
        · exact commandDone_memOk w
        · split
          · exact commandDone_memOk w
          · exact commandDone_memOk (foldl_memOk _ _ (fun _ _ h => retry_memOk h) (settleEntry_memOk w))
      · exact commandDone_memOk w
    · exact commandDone_memOk w

theorem execResolveDeliver_memOk (w : s.memOk = true) : Out.memOk (execResolveDeliver s) = true := by
  unfold execResolveDeliver
  refine orStay_memOk ?_ w
  split
  · rfl
  · split
    · exact commandDone_memOk w
    · dsimp only
      split
      · exact commandDone_memOk w
      · exact commandDone_memOk (foldl_memOk _ _ (fun _ _ h => deliverPage_memOk h) (settleEntry_memOk w))

theorem execResolveEndThread_memOk (w : s.memOk = true) : Out.memOk (execResolveEndThread s) = true := by
  unfold execResolveEndThread
  refine orStay_memOk ?_ w
  split
  · rfl
  · split
    · exact commandDone_memOk w
    · split
      · exact commandDone_memOk (removeThread_memOk (settleEntry_memOk w))
      · split
        · exact commandDone_memOk w
        · dsimp only
          split
          · exact commandDone_memOk w
          · exact commandDone_memOk
              (foldl_memOk _ _ (fun _ _ h => retry_memOk h) (removeThread_memOk (settleEntry_memOk w)))
      · exact commandDone_memOk w

theorem execFqheadWrite_memOk {tenant v} (w : s.memOk = true) : Out.memOk (execFqheadWrite tenant v s) = true := by
  unfold execFqheadWrite
  refine orStay_memOk ?_ w
  split
  · rfl
  · exact writeFqhead_memOk (snapshot_memOk w)

theorem setUp_memOk {n v} (w : s.memOk = true) : (s.setUp n v).memOk = true := by
  unfold State.setUp
  dsimp only
  split
  · split
    · exact w
    · split
      · split
        · exact setQueue_memOk w
        · exact w
      · split
        · exact setQueue_memOk w
        · exact w
      · exact setQueue_memOk w
  · split
    · split
      · exact setTenant_memOk w
      · exact w
    · split <;> exact w

theorem execSupervisorRegisterWrite_memOk {num v} (w : s.memOk = true) :
    Out.memOk (execSupervisorRegisterWrite num v s) = true := by
  unfold execSupervisorRegisterWrite
  dsimp only
  split
  · exact getD_memOk (supWrite_memOk (snapshot_memOk w)) (snapshot_memOk w)
  · exact setUp_memOk (snapshot_memOk w)

theorem execSnapshotTrigger_memOk {src} (w : s.memOk = true) : Out.memOk (execSnapshotTrigger src s) = true := by
  unfold execSnapshotTrigger
  split <;> exact snapshot_memOk w

theorem respond_memOk {b f} (w : s.memOk = true) : (s.respond b f).memOk = true := snapshot_memOk w

theorem spdmError_memOk {code} (w : s.memOk = true) : (s.spdmError code).memOk = true := respond_memOk w

theorem afterNegotiation_memOk {ok b f} (w : s.memOk = true) : Out.memOk (s.afterNegotiation ok b f) = true := by
  unfold State.afterNegotiation
  split
  · exact respond_memOk w
  · exact spdmError_memOk w

theorem execGetMeasurements_memOk {index} (w : s.memOk = true) :
    Out.memOk (execGetMeasurements index s) = true := by
  unfold execGetMeasurements
  dsimp only
  split
  · exact spdmError_memOk w
  · exact afterNegotiation_memOk w

theorem execFirmwareLoad_memOk {unit images} (w : s.memOk = true) :
    Out.memOk (execFirmwareLoad unit images s) = true := by
  unfold execFirmwareLoad
  refine orStay_memOk ?_ w
  split
  · rfl
  · exact w

theorem execPowerLimitSet_memOk {watts} (w : s.memOk = true) : Out.memOk (execPowerLimitSet watts s) = true := by
  unfold execPowerLimitSet
  dsimp only
  split <;> exact snapshot_memOk w

theorem execThermalThrottle_memOk {steps} (w : s.memOk = true) :
    Out.memOk (execThermalThrottle steps s) = true := by
  unfold execThermalThrottle
  refine orStay_memOk ?_ w
  split
  · rfl
  · exact w

/-! ### The fabric -/

theorem execFabContextWrite_memOk {ctx v} (w : s.memOk = true) :
    Out.memOk (execFabContextWrite ctx v s) = true := by
  unfold execFabContextWrite
  refine orStay_memOk ?_ w
  split
  · rfl
  · exact snapshot_memOk w

theorem setPorts_memOk {p} (w : s.memOk = true) : (s.setPorts p).memOk = true := w

theorem execPortTrained_memOk {port} (w : s.memOk = true) : Out.memOk (execPortTrained port s) = true := by
  unfold execPortTrained
  refine orStay_memOk ?_ w
  split
  · rfl
  · exact setPorts_memOk w

theorem execWaconFlitRetry_memOk {port} (w : s.memOk = true) : Out.memOk (execWaconFlitRetry port s) = true := by
  unfold execWaconFlitRetry
  refine orStay_memOk ?_ w
  split
  · rfl
  · exact w

theorem execHostLinkTraining_memOk {st} (w : s.memOk = true) : Out.memOk (execHostLinkTraining st s) = true := by
  unfold execHostLinkTraining
  refine orStay_memOk ?_ w
  extract_lets ok
  split
  · rfl
  · exact w

theorem remoteFail_memOk {o cause va detail} (w : s.memOk = true) :
    (s.remoteFail o cause va detail).memOk = true := by
  unfold State.remoteFail
  refine failOp_memOk ?_
  split
  · exact setThread_memOk w
  · exact w

theorem sendTo_memOk {o target body} (w : s.memOk = true) : (s.sendTo o target body).memOk = true := w

theorem sendRemote_memOk {o r body} (w : s.memOk = true) : (s.sendRemote o r body).memOk = true :=
  sendTo_memOk (setOp_memOk w)

theorem injected_memOk {f b} (w : s.memOk = true) : (s.injected f b).2.memOk = true := by
  unfold State.injected
  split
  · exact w
  · split <;> exact w

theorem sendCopy_memOk {o r dst b arr chain rec_} (w : s.memOk = true) :
    (s.sendCopy o r dst b arr chain rec_).memOk = true :=
  sendRemote_memOk (injected_memOk w)

theorem remoteLanding_memOk {o r} (w : s.memOk = true) : Ev.memOk (s.remoteLanding o r) = true := by
  unfold State.remoteLanding
  split
  · split
    · rfl
    · refine withWalks_memOk (fun _ _ h => withFork_memOk (fun _ _ h1 => ?_) h) w
      dsimp only
      split <;> rename_i e2
      · have w3 := snd_memOk e2 (engineRead_memOk h1)
        split
        · exact pageFaultOp_memOk w3
        · refine remoteFail_memOk ?_
          split
          · exact injected_memOk w3
          · exact sendTo_memOk (injected_memOk w3)
      · have w4 := snd_memOk e2 (engineRead_memOk h1)
        split
        · exact sendCopy_memOk w4
        · exact setOp_memOk w4
  · rfl

theorem execCopyLanding_memOk {op} (w : s.memOk = true) : Out.memOk (execCopyLanding op s) = true := by
  unfold execCopyLanding
  refine onOp_memOk (fun o => ?_) w
  extract_lets r
  have wr : Ev.memOk r = true := by
    unfold r
    split
    · exact cptLanding_memOk w
    · exact remoteLanding_memOk w
    · exact copyLanding_memOk w
  clear_value r
  split
  · exact foldl_memOk _ _ (fun _ _ h => freeSlot_memOk h) wr
  · exact wr

theorem blockAddr_memOk {a size body} (hb : ∀ t, t.memOk = true → Out.memOk (body t) = true) (w : s.memOk = true) :
    Out.memOk (s.blockAddr a size body) = true := by
  unfold State.blockAddr
  split
  · exact hb _ w
  · exact faultAt_memOk w

theorem remoteWord_memOk {e role n a own body} (hb : ∀ t b, t.memOk = true → Out.memOk (body t b) = true)
    (w : s.memOk = true) : Out.memOk (s.remoteWord e role n a own body) = true := by
  unfold State.remoteWord
  refine memWord_memOk (tracked_memOk ?_ w) w
  dsimp only
  split
  · exact faultDetail_memOk w
  · exact hb _ _ w

theorem issueRemote_memOk {e regs r go} (hb : ∀ t b, t.memOk = true → (go t b).memOk = true) (w : s.memOk = true) :
    Out.memOk (s.issueRemote e regs r go) = true := by
  unfold State.issueRemote
  dsimp only
  split
  · exact remoteFail_memOk (addOp_memOk w)
  · exact hb _ _ (addOp_memOk w)
  · exact addOp_memOk w

theorem countCopy_memOk (w : s.memOk = true) : s.countCopy.2.memOk = true := by
  unfold State.countCopy
  dsimp only
  split <;> exact w

theorem remoteCopy_memOk {e d rec_ a} (w : s.memOk = true) : Out.memOk (s.remoteCopy e d rec_ a) = true := by
  unfold State.remoteCopy
  refine remoteWord_memOk
    (fun _ _ h => queued_memOk (fun _ h1 => blockAddr_memOk (fun _ h2 => blockAddr_memOk (fun _ h3 => ?_) h2) h1) h)
      w
  split
  · exact faultDetail_memOk h3
  · split
    · exact faultDetail_memOk h3
    · exact blockAddr_memOk (fun _ h4 => issueRemote_memOk (fun _ _ h5 => h5) (countCopy_memOk h4)) h3

theorem systemFork_memOk (w : s.memOk = true) : s.systemFork.memOk = true := releaseAt_memOk w

theorem beforeSignal_memOk {body} (hb : ∀ t, t.memOk = true → Out.memOk (body t) = true) (w : s.memOk = true) :
    Out.memOk (s.beforeSignal body) = true := by
  unfold State.beforeSignal
  refine waitFor_memOk ?_ w
  split
  · split
    · exact hb _ w
    · exact deliver_memOk w
  · exact hb _ w

theorem execRsig_memOk {e a} (w : s.memOk = true) : Out.memOk (execRsig e a s) = true :=
  remoteWord_memOk (fun _ _ h => blockAddr_memOk
    (fun _ h1 => beforeSignal_memOk
      (fun _ h2 => issueRemote_memOk (fun _ _ h3 => sendRemote_memOk h3) (systemFork_memOk h2)) h1) h) w

theorem execRatomAdd_memOk {e d a} (w : s.memOk = true) : Out.memOk (execRatomAdd e d a s) = true :=
  remoteWord_memOk (fun _ _ h => blockAddr_memOk
    (fun _ h1 => waitFor_memOk (issueRemote_memOk (fun _ _ h2 => sendRemote_memOk h2) (systemFork_memOk h1)) h1) h)
      w

theorem remotePut_memOk {ctx fuel va b} (w : s.memOk = true) : (s.remotePut ctx fuel va b).2.memOk = true := by
  induction fuel generalizing s va b with
  | zero => exact w
  | succ fuel ih =>
    unfold State.remotePut
    split
    · exact w
    · dsimp only
      split
      · exact w
      · exact ih (homeWrite_memOk _ _ w)

theorem addPlace_memOk {ctx va} (w : s.memOk = true) : (s.addPlace ctx va).2.memOk = true := by
  unfold State.addPlace
  split
  · exact w
  · exact w
  · extract_lets t
    have w : t.memOk = true := by
      unfold t
      split
      · exact settleLine_memOk _ w
      · exact w
    clear_value t
    split <;> exact w

theorem remoteAdd_memOk {ctx va v} (w : s.memOk = true) : (s.remoteAdd ctx va v).2.memOk = true := by
  unfold State.remoteAdd
  split <;> rename_i e
  · exact snd_memOk e (addPlace_memOk w)
  · exact homeWrite_memOk _ _ (snd_memOk e (addPlace_memOk w))

theorem putRecord_memOk {ctx arr rec_ d} (w : s.memOk = true) : (s.putRecord ctx arr rec_ d).memOk = true := by
  unfold State.putRecord
  split
  · exact w
  · exact remotePut_memOk (remotePut_memOk w)

theorem performCopy_memOk {ctx dst b arr chain rec_} (w : s.memOk = true) :
    (s.performCopy ctx dst b arr chain rec_).2.memOk = true := by
  unfold State.performCopy
  split <;> rename_i e
  · exact snd_memOk e (remotePut_memOk w)
  · have w2 := snd_memOk e (remotePut_memOk w)
    dsimp only
    split
    · exact w2
    · split <;> rename_i e3
      · exact snd_memOk e3 (addPlace_memOk w2)
      · exact remoteAdd_memOk (putRecord_memOk (snd_memOk e3 (addPlace_memOk w2)))

theorem performRemote_memOk {q} (w : s.memOk = true) : (s.performRemote q).2.memOk = true := by
  unfold State.performRemote
  split
  · exact performCopy_memOk w
  · split <;> rename_i e <;> exact snd_memOk e (remoteAdd_memOk w)
  · split <;> rename_i e3 <;> exact snd_memOk e3 (remoteAdd_memOk w)

theorem takeOut_memOk {q} (w : s.memOk = true) : (s.takeOut q).memOk = true := w

theorem execRemoteOpArrival_memOk {req} (w : s.memOk = true) : Out.memOk (execRemoteOpArrival req s) = true := by
  unfold execRemoteOpArrival
  refine orStay_memOk ?_ w
  split
  · rfl
  · have wt := takeOut_memOk (q := req) w
    extract_lets t
    have wr : (if t.accepts req = true then t.performRemote req else (t.refusal req, t)).2.memOk = true := by
      split
      · exact performRemote_memOk wt
      · exact wt
    exact wr

theorem execRemoteAck_memOk {op reply} (w : s.memOk = true) : Out.memOk (execRemoteAck op reply s) = true := by
  unfold execRemoteAck
  refine onOp_memOk (fun _ => ?_) w
  split
  · split
    · rfl
    · dsimp only
      split
      · rfl
      · split
        · refine finishOp_memOk (acquireStep_memOk ?_)
          split
          · refine writeRegs_memOk ?_
            split <;> exact w
          · split <;> exact w
        · refine remoteFail_memOk ?_
          split <;> exact w
        · refine remoteFail_memOk ?_
          split <;> exact w
  · rfl

theorem execRemoteTimeout_memOk {op} (w : s.memOk = true) : Out.memOk (execRemoteTimeout op s) = true := by
  unfold execRemoteTimeout
  refine onOp_memOk (fun _ => ?_) w
  split
  · split
    · exact remoteFail_memOk w
    · rfl
  · rfl

theorem dropLoop_memOk (w : s.memOk = true) : s.dropLoop.memOk = true := w

theorem execPortFailure_memOk {port} (w : s.memOk = true) : Out.memOk (execPortFailure port s) = true := by
  unfold execPortFailure
  refine orStay_memOk ?_ w
  split
  · rfl
  · dsimp only
    split
    · exact setPorts_memOk w
    · refine foldl_memOk _ _ (fun _ _ h => ?_) (dropLoop_memOk (setPorts_memOk w))
      split
      · split
        · exact remoteFail_memOk h
        · exact h
      · exact h

theorem setQp_memOk {q} (w : s.memOk = true) : (s.setQp q).memOk = true := w

theorem watchProducer_memOk {q pa} (w : s.memOk = true) : Ev.memOk (s.watchProducer q pa) = true := by
  unfold State.watchProducer
  split
  · rfl
  · exact revokeRange_memOk _ _ w

theorem execRoceWorkFetch_memOk {qp} (w : s.memOk = true) : Out.memOk (execRoceWorkFetch qp s) = true := by
  unfold execRoceWorkFetch
  refine orStay_memOk ?_ w
  split
  · rfl
  · split
    · rfl
    · dsimp only
      split
      · split
        · split <;> rename_i e
          · exact some_memOk e (watchProducer_memOk w)
          · rfl
        · split
          · exact setQp_memOk w
          · rfl
      · rfl

theorem completeQp_memOk {q n entry} (w : s.memOk = true) : (s.completeQp q n entry).memOk = true :=
  remoteAdd_memOk (remotePut_memOk w)

theorem execRoceCompletion_memOk {qp} (w : s.memOk = true) : Out.memOk (execRoceCompletion qp s) = true := by
  unfold execRoceCompletion
  refine orStay_memOk ?_ w
  split
  · rfl
  · split
    · split
      refine setQp_memOk (completeQp_memOk ?_)
      split
      · exact w
      · exact remotePut_memOk w
    · rfl

theorem execRdmaInbound_memOk {qp request bytes} (w : s.memOk = true) :
    Out.memOk (execRdmaInbound qp request bytes s) = true := by
  unfold execRdmaInbound
  refine orStay_memOk ?_ w
  split
  · rfl
  · dsimp only
    split
    · exact remotePut_memOk w
    · split
      · exact completeQp_memOk (remotePut_memOk w)
      · exact remotePut_memOk w

theorem remoteGet_memOk {ctx fuel va n} (w : s.memOk = true) : (s.remoteGet ctx fuel va n).2.memOk = true := by
  induction fuel generalizing s va n with
  | zero => exact w
  | succ fuel ih =>
    unfold State.remoteGet
    split
    · exact w
    · extract_lets k
      split
      · exact w
      · extract_lets t
        have wt : t.memOk = true := by
          unfold t
          split
          · exact settleLine_memOk _ w
          · exact w
        clear_value t
        split
        · exact wt
        · split <;> rename_i e <;> exact snd_memOk e (ih wt)

theorem execRdmaReadRequest_memOk {qp va length} (w : s.memOk = true) :
    Out.memOk (execRdmaReadRequest qp va length s) = true := by
  unfold execRdmaReadRequest
  refine orStay_memOk ?_ w
  split
  · rfl
  · split
    rename_i e
    exact setQp_memOk (snd_memOk e (remoteGet_memOk w))

theorem execCnpReceived_memOk {qp} (w : s.memOk = true) : Out.memOk (execCnpReceived qp s) = true := by
  unfold execCnpReceived
  refine orStay_memOk ?_ w
  split
  · rfl
  · exact setQp_memOk w

/-! ### The arm of each instruction and event -/

theorem exec_memOk {i} (w : s.memOk = true) : Out.memOk (exec i s) = true := by
  unfold exec
  cases i with
  | add | sub | mul | mulhI32 | mulhN32 | divI32 | divN32 | remI32 | remN32 | minI32 | minN32 | maxI32 | maxN32
  | and | or | xor | andn | shl | shr | sar | rotl | bfxI32 | bfxN32 | fadd | faddRz | fsub | fsubRz | fmul
  | fmulRz | fmin | fminNan | fmax | fmaxNan | hadd2Bf16 | hmul2Bf16 | hmax2Bf16 => exact alu3_memOk w
  | mad | ffma | ffmaRz | hfma2Bf16 => exact alu4_memOk w
  | fsh | bfi => exact alu3d_memOk w
  | sel => exact word_memOk (complete_memOk w) w
  | lea1 | lea2 | lea4 | lea8 | lea16 => exact lea_memOk w
  | addi | shli | shri | sari | mov | not | abs | neg | clz | ctz | popc | brev | fabs | fneg | fclass
  | cvtF32I32 | cvtF32N32 | cvtI32F32Rz | cvtI32F32Rne | cvtN32F32Rz | cvtF32Bf16Lo | cvtF32Bf16Hi | cvtF32E4m3
  | cvtF32E5m2 | cvtF32E2m1 => exact alu2_memOk w
  | movi | movhi | setx | incx | nop | rdcyc | prng => exact plain_memOk w
  | add64 | sub64 | mul64 | shl64 | shr64 | sar64 => exact alu64_memOk w
  | cmpEq | cmpNe | cmpLtI32 | cmpLtN32 | cmpLeI32 | cmpLeN32 | fcmpEq | fcmpLt | fcmpLe | fcmpUn =>
    exact compare_memOk w
  | cmp64Eq | cmp64LtI64 | cmp64LtN64 => exact compare64_memOk w
  | cmpiEq | cmpiLtI32 => exact compareImm_memOk w
  | pand | por | pxor | pandn | pnot | pmov => exact predOp_memOk w
  | pget => exact execPget_memOk w
  | rdk => exact execRdk_memOk w
  | rdx => exact execRdx_memOk w
  | wrx => exact execWrx_memOk w
  | bp | bnp | br => exact branch_memOk w
  | call => exact word_memOk w w
  | exit => exact execExit_memOk w
  | yield => exact execYield_memOk w
  | trap => exact word_memOk (faultDetail_memOk w) w
  | brk => exact word_memOk (faultDetail_memOk (snapshot_memOk w)) w
  | ret | jr => exact jumpPair_memOk w
  | tret => exact execTret_memOk w
  | rdsr => exact execRdsr_memOk w
  | wrsr => exact execWrsr_memOk w
  | spawn | spawnf => exact spawnForm_memOk w
  | cvtBf16x2F32 | cvtE4m3x4F32Sat | cvtE4m3x4F32Nan | cvtE5m2x4F32Sat | cvtE5m2x4F32Inf | cvtE2m1x8F32 =>
    exact aluBlock_memOk w
  | rcp | rsqrt | sqrt | exp2 | log2 | sinpi | cospi | tanh => exact special_memOk w
  | ldsB32 | ldsB128 | ldsN8 | ldsI8 | ldsN16 | ldsI16 | ldsB64 => exact lds_memOk w
  | stsB32 | stsB128 | stsB8 | stsB16 | stsB64 => exact sts_memOk w
  | ldB32 | ldN8 | ldI8 | ldN16 | ldI16 | ldB64 | ldB128 => exact ldForm_memOk w
  | stB32 | stB8 | stB16 | stB64 | stB128 => exact stForm_memOk w
  | prsTest => exact execPrsTest_memOk w
  | stashMap => exact execStashMap_memOk w
  | stashUnmap | stashWb => exact stashEnd_memOk w
  | sgetAt | sgetXor | sgetBelow | sgetAbove => exact sget_memOk w
  | reduxAddI32 | reduxAddF32 | reduxMinI32 | reduxMaxI32 => exact redux_memOk w
  | scanAddI32 | sample | matchSeats | ballot | seat => exact crossLane_memOk w
  | voteAny | voteAll | voteEq => exact vote_memOk w
  | barInit => exact execBarInit_memOk w
  | barArr => exact execBarArr_memOk w
  | barExp => exact word_memOk (threadUpdate_memOk w) w
  | barArx => exact execBarArx_memOk w
  | barWait => exact execBarWait_memOk w
  | barTry | barPar => exact barTest_memOk w
  | barInv => exact execBarInv_memOk w
  | ringAcq => exact execRingAcq_memOk w
  | ringCom => exact execRingCom_memOk w
  | ringGet => exact execRingGet_memOk w
  | ringRel => exact execRingRel_memOk w
  | cpy => exact execCpy_memOk w
  | cpyPeer => exact execCpyPeer_memOk w
  | cpw => exact execCpw_memOk w
  | cpl => exact execCpl_memOk w
  | mmqI4E4m3 | mmqI4E5m2 | mmqI4Bf16 | mmqI3E4m3 | mmqI3Bf16 | mmqF4E4m3 | mmqF4Bf16 | mmfE4m3 | mmfE5m2
  | mmfBf16 => exact matWord_memOk w
  | accClr => exact execAccClr_memOk w
  | ctld => exact execCtld_memOk w
  | ctst => exact execCtst_memOk w
  | ctinv => exact word_memOk (advance_memOk w) w
  | atomAddB32 | atomAddB64 | atomAddF32 | atomAddBf16x2 | atomMinI32 | atomMinN32 | atomMaxI32 | atomMaxN32
  | atomAnd | atomOr | atomXor | atomXchg | atomCas | atomCasB64 | redAddB32 | redAddF32 | redMinI32 | redMaxI32
  | redOr => exact atomWord_memOk w
  | baddF32 | baddBf16x2 => exact baddWord_memOk w
  | ldbF32 => exact execLdbF32_memOk w
  | bsettle => exact execBsettle_memOk w
  | mwaitEq | mwaitNe | mwaitGeI32 | mwaitLtI32 | mwaitGeN32 | mwaitLtN32 => exact mwaitWord_memOk w
  | ldAcqB32 | ldAcqB64 => exact ldAcqWord_memOk w
  | stRelB32 | stRelB64 => exact stRelWord_memOk w
  | fenceAcq => exact execFenceAcq_memOk w
  | fenceRel => exact execFenceRel_memOk w
  | fenceAr => exact execFenceAr_memOk w
  | cclean | cinval | cflush => exact maintWord_memOk w
  | tldB8 | tldB16 | tldB32 => exact tldWord_memOk w
  | tst => exact execTst_memOk w
  | tenc => exact execTenc_memOk w
  | tq => exact execTq_memOk w
  | tclean | tinval => exact tileRun_memOk w
  | cpt => exact execCpt_memOk w
  | tdesc => exact execTdesc_memOk w
  | spool => exact execSpool_memOk w
  | tlbinvVa | tlbinvCtx => exact tlbinvWord_memOk w
  | gq | att => exact tellerWord_memOk w
  | tstat => exact execTstat_memOk w
  | rcpy | rcpyCk | rcpyCkv => exact remoteCopy_memOk w
  | rsig => exact execRsig_memOk w
  | ratomAdd => exact execRatomAdd_memOk w
  | operandPrefix | hintPrefix => exact prefixWord_memOk w
  | clauseIssue => exact execClauseIssue_memOk w
  | tillTimerExpiry => exact execTillTimerExpiry_memOk w
  | tillRelease => exact execTillRelease_memOk w
  | watchdog => exact execWatchdog_memOk w
  | preemptionRequest => exact execPreemptionRequest_memOk w
  | graceBudgetExpiry => exact execGraceBudgetExpiry_memOk w
  | loadReturn => exact execLoadReturn_memOk w
  | storeWritten => exact execStoreWritten_memOk w
  | atomicReturn => exact execAtomicReturn_memOk w
  | specialFunctionResult => exact execSpecialFunctionResult_memOk w
  | compactorMove => exact execCompactorMove_memOk w
  | stashFill => exact execStashFill_memOk w
  | copyLanding => exact execCopyLanding_memOk w
  | matrixExecute => exact execMatrixExecute_memOk w
  | accClrExecute => exact execAccClrExecute_memOk w
  | homeRegistration => exact execHomeRegistration_memOk w
  | homeReadForward => exact execHomeReadForward_memOk w
  | lineEviction => exact execLineEviction_memOk w
  | monitorWake => exact execMonitorWake_memOk w
  | mwaitOverflowPoll => exact execMwaitOverflowPoll_memOk w
  | allowanceRequest => exact execAllowanceRequest_memOk w
  | cacheUncorrectableError => exact execCacheUncorrectableError_memOk w
  | clusterUnresponsive => exact execClusterUnresponsive_memOk w
  | pageWalk => exact execPageWalk_memOk w
  | teamPlacement => exact execTeamPlacement_memOk w
  | teamSwapOut => exact execTeamSwapOut_memOk w
  | teamResume => exact execTeamResume_memOk w
  | imageUpdate => exact execImageUpdate_memOk w
  | voteDissent => exact execVoteDissent_memOk w
  | voteReadmission => exact execVoteReadmission_memOk w
  | comparedPairDisagreement => exact execComparedPairDisagreement_memOk w
  | tileUpdate => exact execTileUpdate_memOk w
  | slotPush => exact execSlotPush_memOk w
  | dieLinkFlitRetry => exact execDieLinkFlitRetry_memOk w
  | dieLinkFailure => exact execDieLinkFailure_memOk w
  | alertBackOff => exact execAlertBackOff_memOk w
  | refresh => exact execRefresh_memOk w
  | cxlLinkFailed => exact execCxlLinkFailed_memOk w
  | tellerQueryStart => exact execTellerQueryStart_memOk w
  | batchReturn => exact execBatchReturn_memOk w
  | tellerCompletion => exact execTellerCompletion_memOk w
  | tellerSramError => exact execTellerSramError_memOk w
  | stackUnresponsive => exact execStackUnresponsive_memOk w
  | doorbell => exact execDoorbell_memOk w
  | recordFetch => exact execRecordFetch_memOk w
  | launch => exact execLaunch_memOk w
  | createContext => exact execCreateContext_memOk w
  | endContext => exact execEndContext_memOk w
  | resolveReplay => exact execResolveReplay_memOk w
  | resolveDeliver => exact execResolveDeliver_memOk w
  | resolveEndThread => exact execResolveEndThread_memOk w
  | waitConditionMet => exact execWaitConditionMet_memOk w
  | teamHandout => exact execTeamHandout_memOk w
  | deadlineExpiry => exact execDeadlineExpiry_memOk w
  | quantumExpiry => exact execQuantumExpiry_memOk w
  | gridComplete => exact execGridComplete_memOk w
  | fqheadWrite => exact execFqheadWrite_memOk w
  | supervisorRegisterWrite => exact execSupervisorRegisterWrite_memOk w
  | cpVoteDisagreement => exact execCpVoteDisagreement_memOk w
  | snapshotTrigger => exact execSnapshotTrigger_memOk w
  | snapshotRearm | thermalTrip | hostLinkError => exact w
  | getVersion => exact respond_memOk w
  | getCapabilities | negotiateAlgorithms | getDigests | getCertificate | challenge =>
    exact afterNegotiation_memOk w
  | getMeasurements => exact execGetMeasurements_memOk w
  | firmwareLoad => exact execFirmwareLoad_memOk w
  | powerLimitSet => exact execPowerLimitSet_memOk w
  | thermalThrottle => exact execThermalThrottle_memOk w
  | moduleReset => exact rfl
  | modidWrite | injectArm => exact snapshot_memOk w
  | fabContextWrite => exact execFabContextWrite_memOk w
  | waconFlitRetry => exact execWaconFlitRetry_memOk w
  | portFailure => exact execPortFailure_memOk w
  | remoteOpArrival => exact execRemoteOpArrival_memOk w
  | remoteAck => exact execRemoteAck_memOk w
  | remoteTimeout => exact execRemoteTimeout_memOk w
  | roceWorkFetch => exact execRoceWorkFetch_memOk w
  | roceCompletion => exact execRoceCompletion_memOk w
  | rdmaInbound => exact execRdmaInbound_memOk w
  | coreReset => exact execCoreReset_memOk w
  | cacheMaintenanceComplete => exact execCacheMaintenanceComplete_memOk w
  | tileMaintenanceComplete => exact execTileMaintenanceComplete_memOk w
  | tlbinvComplete => exact execTlbinvComplete_memOk w
  | stashMapComplete => exact execStashMapComplete_memOk w
  | stashWbComplete => exact execStashWbComplete_memOk w
  | portTrained => exact execPortTrained_memOk w
  | hostLinkTraining => exact execHostLinkTraining_memOk w
  | rdmaReadRequest => exact execRdmaReadRequest_memOk w
  | cnpReceived => exact execCnpReceived_memOk w

/-! ### Issue of a word -/

theorem mapNext_memOk {f x} (hf : ∀ t, t.memOk = true → (f t).memOk = true) (w : Out.memOk x = true) :
    Out.memOk (mapNext f x) = true := by
  unfold mapNext
  split
  · exact hf _ w
  · rfl
  · rfl

theorem illegal_memOk {x e} (w : s.memOk = true) : Out.memOk (s.illegal x e) = true := by
  unfold State.illegal
  split
  · exact fault_memOk w
  · exact prefixWord_memOk w
  · split
    · exact fault_memOk w
    · split <;> exact fault_memOk w

theorem runWord_memOk {x} (w : s.memOk = true) : Out.memOk (s.runWord x) = true := by
  unfold State.runWord
  split
  · exact exec_memOk w
  · exact illegal_memOk w

theorem popLane_memOk (w : s.memOk = true) : s.popLane.memOk = true := w

theorem laneDone_memOk (w : s.memOk = true) : s.laneDone.memOk = true := by
  unfold State.laneDone
  split
  · exact w
  · exact popLane_memOk w

theorem closeIssue_memOk {i} (w : s.memOk = true) : (s.closeIssue i).memOk = true := by
  unfold State.closeIssue
  refine foldl_memOk _ _ (fun _ _ h2 => ?_) w
  split
  · exact deviceWrite_memOk h2
  · exact h2

theorem stepLane_memOk {k} (w : s.memOk = true) : Out.memOk (s.stepLane k) = true := by
  unfold State.stepLane
  split
  · split
    · exact mapNext_memOk (fun _ h => laneDone_memOk h) (runWord_memOk w)
    · exact popLane_memOk w
  · split <;> rename_i e1
    · exact some_memOk e1 (focus_memOk (unfocus_memOk w))
    · exact popLane_memOk w

theorem stepIssue_memOk {i} (w : s.memOk = true) : Out.memOk (s.stepIssue i) = true := by
  unfold State.stepIssue
  split
  · exact closeIssue_memOk w
  · exact stepLane_memOk w

theorem redoIssue_memOk (w : s.memOk = true) : Ev.memOk s.redoIssue = true := by
  unfold State.redoIssue
  cases s.allThreads.find? s.redoes with
  | none => rfl
  | some t => exact w

theorem pipe_memOk {c second} (w : s.memOk = true) : (s.pipe c second).memOk = true := by
  unfold State.pipe
  dsimp only
  split
  · exact setCore_memOk _ w
  · split
    · exact w
    · exact setTeam_memOk w

theorem cycleEnd_memOk {c} (w : s.memOk = true) : (s.cycleEnd c).memOk = true := w

theorem coreMove_memOk {n} (w : s.memOk = true) : (s.coreMove n).memOk = true := by
  unfold State.coreMove
  dsimp only
  split
  · exact pipe_memOk w
  · exact pipe_memOk w
  · exact cycleEnd_memOk w

/-! ### Moves and the step -/

theorem commandCycle_memOk {cp} (w : s.memOk = true) : (s.commandCycle cp).memOk = true := w

theorem takeInput_memOk (w : s.memOk = true) : Out.memOk s.takeInput = true := by
  unfold State.takeInput
  split
  · exact w
  · dsimp only
    split
    · exact w
    · exact exec_memOk w

theorem makeMove_memOk {m} (w : s.memOk = true) : Out.memOk (s.makeMove m) = true := by
  unfold State.makeMove
  split
  · exact exec_memOk w
  · exact takeInput_memOk w
  · exact coreMove_memOk w
  · exact commandCycle_memOk w
  · exact w
  · exact setCore_memOk _ w
  · exact setCluster_memOk _ w
  · exact w
  · exact w
  · exact homeToMem_memOk _ _ w
  · exact schedule_memOk w
  · exact snapBlock_memOk w

theorem stepMove_memOk (w : s.memOk = true) : Out.memOk s.stepMove = true := by
  unfold State.stepMove
  extract_lets t
  have wt : t.memOk = true := w
  clear_value t
  split
  · exact freeSlot_memOk wt
  · have wr := redoIssue_memOk wt
    revert wr
    generalize t.redoIssue = r
    intro wr
    split
    · exact wr
    · exact failOp1_memOk wt
    · split
      · exact exec_memOk wt
      · split
        · exact makeMove_memOk wt
        · exact wt

theorem step_memOk (w : s.memOk = true) : Out.memOk (step s) = true := by
  unfold step
  split
  · exact stepIssue_memOk w
  · exact stepMove_memOk w

end

/-- Settles O8: the step is an issue or a move, and each answers with a state that keeps the form. -/
theorem stepKeepsMemOk : Obligations.StepKeepsMemOk := by
  unfold Obligations.StepKeepsMemOk
  intro s t w e
  have h := step_memOk w
  rw [e] at h
  exact h

end Sys2Proof.Machine
end

section
/-! PROOF. Rounding (R69 to R73): the values of a format's codes rise with the code, rounding toward zero finds the
greatest code whose value does not exceed the magnitude, and rounding to nearest chooses between that code and the
next. -/

namespace Sys2Proof.Machine

/-! ### Powers of two and the binary exponent of a magnitude -/

theorem pow2_eq_zpow (e : Int) : pow2 e = (2 : Rat) ^ e := by
  unfold pow2
  split
  · next h =>
    obtain ⟨n, hn⟩ := Int.eq_ofNat_of_zero_le (show 0 ≤ -e by omega)
    rw [hn, show e = -(n : Int) by omega]
    simp
  · next h =>
    obtain ⟨n, rfl⟩ := Int.eq_ofNat_of_zero_le (show 0 ≤ e by omega)
    simp

theorem pow2_pos (e : Int) : 0 < pow2 e := by
  rw [pow2_eq_zpow]
  positivity

theorem pow2_add (a b : Int) : pow2 (a + b) = pow2 a * pow2 b := by
  simp only [pow2_eq_zpow]
  exact zpow_add₀ two_ne_zero a b

theorem pow2_natCast (n : Nat) : pow2 n = ((2 ^ n : Nat) : Rat) := by
  simp [pow2_eq_zpow]

theorem pow2_succ (e : Int) : pow2 (e + 1) = 2 * pow2 e := by
  rw [pow2_add, mul_comm]
  rfl

theorem pow2_mono {a b : Int} (h : a ≤ b) : pow2 a ≤ pow2 b := by
  simp only [pow2_eq_zpow]
  exact zpow_le_zpow_right₀ one_le_two h

/-- The test of `floorLog2` compares with the power whose exponent is the difference of the two logarithms. -/
theorem floorLog2_test (n d : Nat) (k : Int) (hd : 0 < d) :
    (if k < 0 then decide (d ≤ n * 2 ^ (-k).toNat) else decide (d * 2 ^ k.toNat ≤ n)) = true ↔
      pow2 k ≤ (n : Rat) / d := by
  have hd' : (0 : Rat) < d := by exact_mod_cast hd
  rw [le_div_iff₀ hd']
  unfold pow2
  split
  · rw [decide_eq_true_iff, div_mul_eq_mul_div, one_mul, div_le_iff₀ (by positivity)]
    exact_mod_cast Iff.rfl
  · rw [decide_eq_true_iff, mul_comm d]
    exact_mod_cast Iff.rfl

theorem natCast_between_pow2_log2 {n : Nat} (h : 0 < n) :
    pow2 (Nat.log2 n) ≤ n ∧ (n : Rat) < pow2 (Nat.log2 n + 1) := by
  constructor
  · rw [pow2_natCast]
    exact_mod_cast Nat.log2_self_le h.ne'
  · have h2 := (Nat.log2_lt h.ne' (k := Nat.log2 n + 1)).1 (Nat.lt_succ_self _)
    have : pow2 ((Nat.log2 n : Int) + 1) = ((2 ^ (Nat.log2 n + 1) : Nat) : Rat) := by exact_mod_cast pow2_natCast _
    rw [this]
    exact_mod_cast h2

theorem pow2_floorLog2 {n d : Nat} (hn : 0 < n) (hd : 0 < d) :
    pow2 (floorLog2 n d) ≤ (n : Rat) / d ∧ (n : Rat) / d < pow2 (floorLog2 n d + 1) := by
  have hd' : (0 : Rat) < d := by exact_mod_cast hd
  obtain ⟨n1, n2⟩ := natCast_between_pow2_log2 hn
  obtain ⟨d1, d2⟩ := natCast_between_pow2_log2 hd
  unfold floorLog2
  dsimp only
  simp only [floorLog2_test n d _ hd]
  split
  · next h =>
    refine ⟨h, ?_⟩
    rw [div_lt_iff₀ hd']
    calc (n : Rat) < pow2 (Nat.log2 n + 1) := n2
      _ = pow2 (Nat.log2 n - Nat.log2 d + 1) * pow2 (Nat.log2 d) := by rw [← pow2_add]; congr 1; ring
      _ ≤ _ := mul_le_mul_of_nonneg_left d1 (pow2_pos _).le
  · next h =>
    rw [not_le] at h
    refine ⟨?_, by rwa [sub_add_cancel]⟩
    rw [le_div_iff₀ hd']
    calc pow2 ((Nat.log2 n : Int) - Nat.log2 d - 1) * (d : Rat)
        ≤ pow2 (Nat.log2 n - Nat.log2 d - 1) * pow2 (Nat.log2 d + 1) := mul_le_mul_of_nonneg_left d2.le (pow2_pos _).le
      _ = pow2 (Nat.log2 n) := by rw [← pow2_add]; congr 1; ring
      _ ≤ n := n1

/-! ### The values of a format's codes -/

/-- The value of a code as a count of quanta: `k` counts the binades above the least, and `n` quanta of that binade
reach from its lower to its upper end, both included. -/
theorem mag_quanta (f : Fmt) {k n : Nat} (lo : k = 0 ∨ 2 ^ f.mbits ≤ n) (hi : n ≤ 2 ^ (f.mbits + 1)) :
    f.mag (k * 2 ^ f.mbits + n) = n * pow2 (1 - f.bias - f.mbits + k) := by
  have p : 0 < 2 ^ f.mbits := by positivity
  have hq : (k * 2 ^ f.mbits + n) / 2 ^ f.mbits = k + n / 2 ^ f.mbits := by
    rw [add_comm, Nat.add_mul_div_right _ _ p, add_comm]
  have hr : (k * 2 ^ f.mbits + n) % 2 ^ f.mbits = n % 2 ^ f.mbits := by
    rw [add_comm, Nat.add_mul_mod_self_right]
  unfold Fmt.mag
  dsimp only
  rw [hq, hr]
  rcases lt_or_ge n (2 ^ f.mbits) with h | h
  · have hk : k = 0 := lo.resolve_right (by omega)
    simp [hk, Nat.div_eq_of_lt h, Nat.mod_eq_of_lt h]
  · obtain ⟨r, rfl⟩ := Nat.exists_eq_add_of_le h
    rw [Nat.add_div_left _ p, Nat.add_mod_left, if_neg (show k + (r / 2 ^ f.mbits + 1) ≠ 0 from Nat.succ_ne_zero _)]
    rw [pow_succ] at hi
    rcases Nat.lt_or_eq_of_le (show r ≤ 2 ^ f.mbits by omega) with hr | rfl
    · rw [Nat.div_eq_of_lt hr, Nat.mod_eq_of_lt hr, Nat.add_comm r]
      congr 2
      push_cast
      ring
    · have e : ((k + (1 + 1) : Nat) : Int) - f.bias - f.mbits = 1 - f.bias - f.mbits + k + 1 := by
        push_cast
        ring
      rw [Nat.div_self p, Nat.mod_self, Nat.zero_add, e, pow2_succ]
      push_cast
      ring

/-- Every code is a count of quanta, with the upper end left to the next binade. -/
theorem code_quanta (f : Fmt) (c : Nat) :
    ∃ k n, c = k * 2 ^ f.mbits + n ∧ (k = 0 ∨ 2 ^ f.mbits ≤ n) ∧ n < 2 ^ (f.mbits + 1) := by
  have p : 0 < 2 ^ f.mbits := by positivity
  have r := Nat.mod_lt c p
  have e := Nat.div_add_mod' c (2 ^ f.mbits)
  rw [pow_succ]
  rcases h : c / 2 ^ f.mbits with _ | k
  · rw [h] at e
    exact ⟨0, c, by omega, .inl rfl, by omega⟩
  · rw [h, Nat.succ_mul] at e
    exact ⟨k, 2 ^ f.mbits + c % 2 ^ f.mbits, by omega, .inr (by omega), by omega⟩

theorem mag_strictMono (f : Fmt) : StrictMono f.mag := by
  refine strictMono_nat_of_lt_succ fun c => ?_
  obtain ⟨k, n, rfl, lo, hi⟩ := code_quanta f c
  rw [Nat.add_assoc, mag_quanta f lo hi.le, mag_quanta f (lo.imp_right (by omega)) hi]
  exact mul_lt_mul_of_pos_right (by exact_mod_cast Nat.lt_succ_self n) (pow2_pos _)

/-! ### Rounding to a code with unbounded exponent -/

/-- To nearest even between two neighbours: `n` counts the lower one, `lo` and `hi` are their values. -/
def nearestEven (n : Nat) (lo hi q : Rat) : Nat :=
  if 2 * q < lo + hi then n else if lo + hi < 2 * q then n + 1 else n + n % 2

theorem num_toNat_div_den {q : Rat} (h : 0 ≤ q) : (q.num.toNat : Rat) / q.den = q := by
  conv_rhs => rw [← Rat.num_div_den q]
  rw [← Int.toNat_of_nonneg (Rat.num_nonneg.2 h)]
  rfl

theorem roundNat_rz_eq_floor {q : Rat} (h : 0 ≤ q) : roundNat .rz q = ⌊q⌋₊ := by
  rw [← congrArg Nat.floor (num_toNat_div_den h), Rat.natFloor_natCast_div_natCast]
  rfl

theorem roundNat_rne_eq {q : Rat} (h : 0 ≤ q) : roundNat .rne q = nearestEven ⌊q⌋₊ ⌊q⌋₊ (⌊q⌋₊ + 1) q := by
  generalize hn : ⌊q⌋₊ = n
  rw [← roundNat_rz_eq_floor h] at hn
  have d : (0 : Rat) < q.den := by exact_mod_cast q.den_pos
  have e : (q.den : Rat) * n + (q.num.toNat % q.den : Nat) = q * q.den := by
    rw [← div_eq_iff d.ne'.symm.symm, ← hn]
    conv_rhs => rw [← num_toNat_div_den h]
    congr 1
    exact_mod_cast Nat.div_add_mod q.num.toNat q.den
  have lt : 2 * (q.num.toNat % q.den) < q.den ↔ 2 * q < n + (n + 1) := by
    rw [← mul_lt_mul_iff_left₀ d, ← Nat.cast_lt (α := Rat)]
    push_cast
    constructor <;> intro <;> linarith
  have gt : q.den < 2 * (q.num.toNat % q.den) ↔ (n + (n + 1) : Rat) < 2 * q := by
    rw [← mul_lt_mul_iff_left₀ d, ← Nat.cast_lt (α := Rat)]
    push_cast
    constructor <;> intro <;> linarith
  unfold nearestEven
  simp only [← lt, ← gt]
  rw [← hn]
  rfl

theorem nearestEven_cases (n : Nat) (lo hi q : Rat) :
    (nearestEven n lo hi q = n ∧ 2 * q ≤ lo + hi ∧ (2 * q = lo + hi → n % 2 = 0)) ∨
      (nearestEven n lo hi q = n + 1 ∧ lo + hi ≤ 2 * q ∧ (2 * q = lo + hi → (n + 1) % 2 = 0)) := by
  unfold nearestEven
  split
  · next h => exact .inl ⟨rfl, h.le, fun e => absurd e h.ne⟩
  · next h =>
    split
    · next h2 => exact .inr ⟨rfl, h2.le, fun e => absurd e h2.ne'⟩
    · next h2 =>
      rcases Nat.mod_two_eq_zero_or_one n with p | p
      · exact .inl ⟨by omega, not_lt.1 h2, fun _ => p⟩
      · exact .inr ⟨by omega, not_lt.1 h, fun _ => by omega⟩

/-- A common factor of the values does not change the choice. -/
theorem nearestEven_mul (n : Nat) (lo hi q : Rat) {u : Rat} (h : 0 < u) :
    nearestEven n (lo * u) (hi * u) (q * u) = nearestEven n lo hi q := by
  unfold nearestEven
  simp only [← add_mul, ← mul_assoc, mul_lt_mul_iff_left₀ h]

/-- An even count below the neighbours does not change the choice. -/
theorem nearestEven_add_even {m : Nat} (n : Nat) (lo hi q : Rat) (h : m % 2 = 0) :
    nearestEven (m + n) lo hi q = m + nearestEven n lo hi q := by
  unfold nearestEven
  split_ifs <;> omega

/-- The binade of a magnitude: its quantum, and the count `x` of quanta, which reaches from the lower end of the binade
to below its upper end. -/
theorem roundCode_quanta (f : Fmt) {q : Rat} (h : 0 ≤ q) :
    ∃ k : Nat, ∃ x : Rat, 0 ≤ x ∧ q = x * pow2 (1 - f.bias - f.mbits + k) ∧ (k = 0 ∨ 2 ^ f.mbits ≤ x) ∧
      x < 2 ^ (f.mbits + 1) ∧ ∀ rm, f.roundCode rm q = k * 2 ^ f.mbits + roundNat rm x := by
  rcases h.eq_or_lt with rfl | h
  · exact ⟨0, 0, le_rfl, by simp, .inl rfl, by positivity, fun rm => by cases rm <;> simp [Fmt.roundCode, roundNat]⟩
  have num : 0 < q.num.toNat := by
    have := Rat.num_pos.2 h
    omega
  obtain ⟨lo, hi⟩ := pow2_floorLog2 num q.den_pos
  rw [num_toNat_div_den h.le] at lo hi
  obtain ⟨k, hk⟩ := Int.eq_ofNat_of_zero_le
    (show 0 ≤ max (floorLog2 q.num.toNat q.den) (1 - f.bias) - (1 - f.bias) by omega)
  have he : max (floorLog2 q.num.toNat q.den) (1 - f.bias) = 1 - f.bias + k := by omega
  have p := pow2_pos (f.mbits - (1 - f.bias + k))
  refine ⟨k, q * pow2 (f.mbits - (1 - f.bias + k)), mul_nonneg h.le p.le, ?_, ?_, ?_, fun rm => ?_⟩
  · rw [mul_assoc, ← pow2_add, show (f.mbits - (1 - f.bias + k) + (1 - f.bias - f.mbits + k) : Int) = 0 by ring]
    exact (mul_one q).symm
  · refine (Nat.eq_zero_or_pos k).imp_right fun hk => ?_
    have hl : floorLog2 q.num.toNat q.den = 1 - f.bias + k := by omega
    rw [hl] at lo
    calc (2 : Rat) ^ f.mbits = pow2 (1 - f.bias + k) * pow2 (f.mbits - (1 - f.bias + k)) := by
          rw [← pow2_add, add_sub_cancel, pow2_eq_zpow, zpow_natCast]
      _ ≤ _ := mul_le_mul_of_nonneg_right lo p.le
  · calc q * pow2 (f.mbits - (1 - f.bias + k)) < pow2 (1 - f.bias + k + 1) * pow2 (f.mbits - (1 - f.bias + k)) :=
          mul_lt_mul_of_pos_right (hi.trans_le (pow2_mono (by omega))) p
      _ = pow2 ((f.mbits + 1 : Nat) : Int) := by
          rw [← pow2_add]
          congr 1
          push_cast
          ring
      _ = _ := by rw [pow2_eq_zpow, zpow_natCast]
  · unfold Fmt.roundCode
    rw [if_neg h.not_ge]
    dsimp only
    rw [he, add_sub_cancel_left, Int.toNat_natCast]

/-- The two codes about a magnitude: counts `n` and `n + 1` of its binade's quantum. -/
theorem roundCode_neighbours (f : Fmt) {q : Rat} (h : 0 ≤ q) :
    ∃ k : Nat, ∃ x : Rat, 0 ≤ x ∧ q = x * pow2 (1 - f.bias - f.mbits + k) ∧
      (∀ rm, f.roundCode rm q = k * 2 ^ f.mbits + roundNat rm x) ∧
      f.mag (f.roundCode .rz q) = ⌊x⌋₊ * pow2 (1 - f.bias - f.mbits + k) ∧
      f.mag (f.roundCode .rz q + 1) = (⌊x⌋₊ + 1) * pow2 (1 - f.bias - f.mbits + k) := by
  obtain ⟨k, x, hx, hq, lo, hi, hc⟩ := roundCode_quanta f h
  have lo' : k = 0 ∨ 2 ^ f.mbits ≤ ⌊x⌋₊ := lo.imp_right fun h => Nat.le_floor (by exact_mod_cast h)
  have hi' : ⌊x⌋₊ < 2 ^ (f.mbits + 1) := (Nat.floor_lt hx).2 (by exact_mod_cast hi)
  refine ⟨k, x, hx, hq, hc, ?_, ?_⟩
  · rw [hc, roundNat_rz_eq_floor hx, mag_quanta f lo' hi'.le]
  · rw [hc, roundNat_rz_eq_floor hx, Nat.add_assoc, mag_quanta f (lo'.imp_right Nat.le_succ_of_le) hi']
    push_cast
    rfl

theorem roundCode_rz_bounds (f : Fmt) {q : Rat} (h : 0 ≤ q) :
    f.mag (f.roundCode .rz q) ≤ q ∧ q < f.mag (f.roundCode .rz q + 1) := by
  obtain ⟨k, x, hx, hq, _, lo, hi⟩ := roundCode_neighbours f h
  rw [lo, hi, hq]
  have u := pow2_pos (1 - f.bias - f.mbits + k)
  exact ⟨mul_le_mul_of_nonneg_right (Nat.floor_le hx) u.le, mul_lt_mul_of_pos_right (Nat.lt_floor_add_one x) u⟩

/-- Toward zero: the codes up to the rounded one are those whose value does not exceed the magnitude. -/
theorem le_roundCode_rz_iff (f : Fmt) {q : Rat} (h : 0 ≤ q) (j : Nat) : j ≤ f.roundCode .rz q ↔ f.mag j ≤ q := by
  obtain ⟨lo, hi⟩ := roundCode_rz_bounds f h
  refine ⟨fun hj => ((mag_strictMono f).monotone hj).trans lo, fun hj => ?_⟩
  exact Nat.lt_succ_iff.1 ((mag_strictMono f).lt_iff_lt.1 (hj.trans_lt hi))

theorem roundCode_rne_eq (f : Fmt) (hm : 0 < f.mbits) {q : Rat} (h : 0 ≤ q) :
    f.roundCode .rne q =
      nearestEven (f.roundCode .rz q) (f.mag (f.roundCode .rz q)) (f.mag (f.roundCode .rz q + 1)) q := by
  obtain ⟨k, x, hx, hq, hc, lo, hi⟩ := roundCode_neighbours f h
  have even : k * 2 ^ f.mbits % 2 = 0 := Nat.mod_eq_zero_of_dvd ((dvd_pow_self 2 hm.ne').mul_left k)
  rw [lo, hi, hc, hc, roundNat_rz_eq_floor hx, roundNat_rne_eq hx, hq, nearestEven_mul _ _ _ _ (pow2_pos _),
    nearestEven_add_even _ _ _ _ even]

/-! ### Nearest among rising values -/

/-- The choice between two neighbours of a strictly rising sequence is nearest among all its values, and where another
value is as near it is even. -/
theorem nearestEven_nearest {g : Nat → Rat} (hg : StrictMono g) {c : Nat} {q : Rat} (lo : g c ≤ q) (hi : q < g (c + 1))
    (j : Nat) :
    let k := nearestEven c (g c) (g (c + 1)) q
    |g k - q| ≤ |g j - q| ∧ (j ≠ k → |g k - q| = |g j - q| → k % 2 = 0) := by
  intro k
  have below (i : Nat) (h : i ≤ c) : |g i - q| = q - g i := by
    rw [abs_sub_comm, abs_of_nonneg (sub_nonneg.2 ((hg.monotone h).trans lo))]
  have above (i : Nat) (h : c + 1 ≤ i) : |g i - q| = g i - q :=
    abs_of_nonneg (sub_nonneg.2 (hi.le.trans (hg.monotone h)))
  obtain ⟨hk, mid, tie⟩ | ⟨hk, mid, tie⟩ : _ ∨ _ := nearestEven_cases c (g c) (g (c + 1)) q <;>
    rw [show k = _ from hk] <;> rcases Nat.lt_or_ge c j with hj | hj
  · rw [below c le_rfl, above j hj]
    have := hg.monotone hj
    exact ⟨by linarith, fun _ e => tie (by linarith)⟩
  · rw [below c le_rfl, below j hj]
    have := hg.monotone hj
    exact ⟨by linarith, fun n e => absurd (hg.injective (by linarith)) n⟩
  · rw [above (c + 1) le_rfl, above j hj]
    have := hg.monotone hj
    exact ⟨by linarith, fun n e => absurd (hg.injective (by linarith)) n⟩
  · rw [above (c + 1) le_rfl, below j hj]
    have := hg.monotone hj
    exact ⟨by linarith, fun _ e => tie (by linarith)⟩

theorem roundCode_rne_le_iff (f : Fmt) (hm : 0 < f.mbits) {q : Rat} (h : 0 ≤ q) (c : Nat) :
    f.roundCode .rne q ≤ c ↔ 2 * q < f.mag c + f.mag (c + 1) ∨ 2 * q = f.mag c + f.mag (c + 1) ∧ c % 2 = 0 := by
  have mono := mag_strictMono f
  have step := mono (Nat.lt_succ_self c)
  obtain ⟨lo, hi⟩ := roundCode_rz_bounds f h
  rw [roundCode_rne_eq f hm h]
  generalize f.roundCode .rz q = r at *
  have near := nearestEven_cases r (f.mag r) (f.mag (r + 1)) q
  rcases lt_trichotomy c r with hr | rfl | hr
  · have := mono.monotone (Nat.succ_le_of_lt hr)
    refine iff_of_false (by omega) ?_
    rintro (_ | ⟨_, _⟩) <;> linarith
  · obtain ⟨hk, mid, tie⟩ | ⟨hk, mid, tie⟩ := near
    · exact iff_of_true hk.le (mid.lt_or_eq.imp_right fun e => ⟨e, tie e⟩)
    · refine iff_of_false (by omega) ?_
      rintro (_ | ⟨e, _⟩)
      · linarith
      · have := tie e
        omega
  · have := mono.monotone (Nat.succ_le_of_lt hr)
    exact iff_of_true (by omega) (.inl (by linarith))

end Sys2Proof.Machine
end

section
/-! PROOF. Encodings (R69 to R73): what rounding to nearest and toward zero give below the largest finite value, and the
thresholds of R73's table above it. -/

namespace Sys2Proof.Machine

/-! ### A magnitude rounded to an encoding, below and above the largest finite value -/

theorem enc_fin_of_le {f : Fmt} {rm : Rm} {q : Rat} (h : f.roundCode rm q ≤ f.maxCode) (ov : Ovf) (neg : Bool) :
    f.enc rm ov (.fin neg q) = (if neg then f.signBit else 0) + f.roundCode rm q := by
  unfold Fmt.enc
  dsimp only
  rw [if_pos h]

theorem enc_rz_of_gt {f : Fmt} {q : Rat} (h : ¬ f.roundCode .rz q ≤ f.maxCode) (ov : Ovf) (neg : Bool) :
    f.enc .rz ov (.fin neg q) = (if neg then f.signBit else 0) + f.maxCode := by
  unfold Fmt.enc
  dsimp only
  rw [if_neg h, if_pos rfl]

/-- Overflow under `rne` answers as for an infinity. -/
theorem enc_rne_of_gt {f : Fmt} {q : Rat} (h : ¬ f.roundCode .rne q ≤ f.maxCode) (ov : Ovf) (neg : Bool) :
    f.enc .rne ov (.fin neg q) = f.enc .rne ov (.inf neg) := by
  unfold Fmt.enc
  dsimp only
  rw [if_neg h, if_neg nofun]

theorem enc_rz_spec (f : Fmt) {q : Rat} (h : 0 ≤ q) (ov : Ovf) (neg : Bool) :
    ∃ k, f.enc .rz ov (.fin neg q) = (if neg then f.signBit else 0) + k ∧ k ≤ f.maxCode ∧ f.mag k ≤ q ∧
      ∀ j, j ≤ f.maxCode → f.mag j ≤ q → f.mag j ≤ f.mag k := by
  have mono := (mag_strictMono f).monotone
  by_cases hc : f.roundCode .rz q ≤ f.maxCode
  · exact ⟨_, enc_fin_of_le hc ov neg, hc, (roundCode_rz_bounds f h).1,
      fun j _ hj => mono ((le_roundCode_rz_iff f h j).2 hj)⟩
  · exact ⟨_, enc_rz_of_gt hc ov neg, le_rfl, (le_roundCode_rz_iff f h _).1 (le_of_not_ge hc), fun j hj _ => mono hj⟩

theorem enc_rne_spec (f : Fmt) (hm : 0 < f.mbits) {q : Rat} (h : 0 ≤ q) (top : q ≤ f.mag f.maxCode) (ov : Ovf)
    (neg : Bool) :
    ∃ k, f.enc .rne ov (.fin neg q) = (if neg then f.signBit else 0) + k ∧ k ≤ f.maxCode ∧
      ∀ j, j ≤ f.maxCode → |f.mag k - q| ≤ |f.mag j - q| ∧ (j ≠ k → |f.mag k - q| = |f.mag j - q| → k % 2 = 0) := by
  have mono := mag_strictMono f
  have hc : f.roundCode .rne q ≤ f.maxCode := by
    have := mono (Nat.lt_succ_self f.maxCode)
    exact (roundCode_rne_le_iff f hm h _).2 (.inl (by linarith))
  obtain ⟨lo, hi⟩ := roundCode_rz_bounds f h
  refine ⟨_, enc_fin_of_le hc ov neg, hc, fun j _ => ?_⟩
  rw [roundCode_rne_eq f hm h]
  exact nearestEven_nearest mono lo hi j

theorem mag_nonneg (f : Fmt) (c : Nat) : 0 ≤ f.mag c := by
  refine le_trans ?_ ((mag_strictMono f).monotone (Nat.zero_le c))
  simp [Fmt.mag]

/-- From the largest finite value up, rounding to nearest gives that value or overflows. -/
theorem enc_rne_from_top (f : Fmt) (hm : 0 < f.mbits) {q : Rat} (top : f.mag f.maxCode ≤ q) (ov : Ovf) (neg : Bool) :
    (f.roundCode .rne q ≤ f.maxCode ∧ f.enc .rne ov (.fin neg q) = (if neg then f.signBit else 0) + f.maxCode) ∨
      (¬ f.roundCode .rne q ≤ f.maxCode ∧ f.enc .rne ov (.fin neg q) = f.enc .rne ov (.inf neg)) := by
  have h : 0 ≤ q := (mag_nonneg f _).trans top
  by_cases hc : f.roundCode .rne q ≤ f.maxCode
  · have ge := (le_roundCode_rz_iff f h _).2 top
    have near := nearestEven_cases (f.roundCode .rz q) (f.mag (f.roundCode .rz q)) (f.mag (f.roundCode .rz q + 1)) q
    rw [← roundCode_rne_eq f hm h] at near
    exact .inl ⟨hc, by rw [enc_fin_of_le hc]; omega⟩
  · exact .inr ⟨hc, enc_rne_of_gt hc ov neg⟩

/-- The threshold of R73 under an odd largest code: halfway to the next value already overflows. -/
theorem enc_rne_odd_top (f : Fmt) (hm : 0 < f.mbits) (odd : f.maxCode % 2 = 1) {q t : Rat} (top : f.mag f.maxCode ≤ q)
    (ht : f.mag f.maxCode + f.mag (f.maxCode + 1) = 2 * t) (ov : Ovf) (neg : Bool) :
    (t ≤ q → f.enc .rne ov (.fin neg q) = f.enc .rne ov (.inf neg)) ∧
      (¬ t ≤ q → f.enc .rne ov (.fin neg q) = (if neg then f.signBit else 0) + f.maxCode) := by
  have hle := roundCode_rne_le_iff f hm ((mag_nonneg f _).trans top) f.maxCode
  rw [ht, odd] at hle
  have hlt : f.roundCode .rne q ≤ f.maxCode ↔ ¬ t ≤ q := by simp [hle]
  obtain ⟨hc, e⟩ | ⟨hc, e⟩ := enc_rne_from_top f hm top ov neg
  · exact ⟨fun h => absurd h (hlt.1 hc), fun _ => e⟩
  · exact ⟨fun _ => e, fun h => absurd (hlt.2 h) hc⟩

/-- The threshold of R73 under an even largest code: halfway to the next value still gives it. -/
theorem enc_rne_even_top (f : Fmt) (hm : 0 < f.mbits) (even : f.maxCode % 2 = 0) {q t : Rat}
    (top : f.mag f.maxCode ≤ q) (ht : f.mag f.maxCode + f.mag (f.maxCode + 1) = 2 * t) (ov : Ovf) (neg : Bool) :
    (q ≤ t → f.enc .rne ov (.fin neg q) = (if neg then f.signBit else 0) + f.maxCode) ∧
      (t < q → f.enc .rne ov (.fin neg q) = f.enc .rne ov (.inf neg)) := by
  have hle := roundCode_rne_le_iff f hm ((mag_nonneg f _).trans top) f.maxCode
  rw [ht, even] at hle
  have hlt : f.roundCode .rne q ≤ f.maxCode ↔ q ≤ t := by simp [hle, le_iff_lt_or_eq]
  obtain ⟨hc, e⟩ | ⟨hc, e⟩ := enc_rne_from_top f hm top ov neg
  · exact ⟨fun _ => e, fun h => absurd (hlt.1 hc) h.not_ge⟩
  · exact ⟨fun h => absurd (hlt.2 h) hc, fun _ => e⟩

theorem enc_sat_from_top (f : Fmt) (hm : 0 < f.mbits) {q : Rat} (top : f.mag f.maxCode ≤ q) (neg : Bool) :
    f.enc .rne .sat (.fin neg q) = (if neg then f.signBit else 0) + f.maxCode := by
  obtain ⟨_, e⟩ | ⟨_, e⟩ := enc_rne_from_top f hm top .sat neg <;> exact e

theorem enc_rz_from_top (f : Fmt) {q : Rat} (top : f.mag f.maxCode ≤ q) (ov : Ovf) (neg : Bool) :
    f.enc .rz ov (.fin neg q) = (if neg then f.signBit else 0) + f.maxCode := by
  have h : 0 ≤ q := (mag_nonneg f _).trans top
  by_cases hc : f.roundCode .rz q ≤ f.maxCode
  · rw [enc_fin_of_le hc, hc.antisymm ((le_roundCode_rz_iff f h _).2 top)]
  · exact enc_rz_of_gt hc ov neg

/-! ### The largest finite value of each format and the value after it -/

theorem mag_top_fp32 : fp32.mag fp32.maxCode = 2 ^ 128 - 2 ^ 104 ∧ fp32.mag (fp32.maxCode + 1) = 2 ^ 128 := by
  constructor <;> norm_num [Fmt.mag, Fmt.maxCode, Fmt.limit, fp32, pow2_eq_zpow]

theorem mag_top_bf16 : bf16.mag bf16.maxCode = 2 ^ 128 - 2 ^ 120 ∧ bf16.mag (bf16.maxCode + 1) = 2 ^ 128 := by
  constructor <;> norm_num [Fmt.mag, Fmt.maxCode, Fmt.limit, bf16, pow2_eq_zpow]

theorem mag_top_e5m2 : e5m2.mag e5m2.maxCode = 57344 ∧ e5m2.mag (e5m2.maxCode + 1) = 65536 := by
  constructor <;> norm_num [Fmt.mag, Fmt.maxCode, Fmt.limit, e5m2, pow2_eq_zpow]

theorem mag_top_e4m3 : e4m3.mag e4m3.maxCode = 448 ∧ e4m3.mag (e4m3.maxCode + 1) = 480 := by
  constructor <;> norm_num [Fmt.mag, Fmt.maxCode, Fmt.limit, Fmt.width, e4m3, pow2_eq_zpow]

theorem mag_top_e2m1 : e2m1.mag e2m1.maxCode = 6 := by
  norm_num [Fmt.mag, Fmt.maxCode, Fmt.limit, Fmt.width, e2m1, pow2_eq_zpow]

end Sys2Proof.Machine
end

section
/-! PROOF. Exact sums and products and the group step of R78. -/

namespace Sys2Proof.Machine

/-! ### Finite values -/

theorem ofRat_fin (q : Rat) : ∃ c p, Val.ofRat q = .fin c p ∧ 0 ≤ p ∧ signed c p = q := by
  unfold Val.ofRat
  split
  · next h => exact ⟨true, -q, rfl, by linarith, neg_neg q⟩
  · next h => exact ⟨false, q, rfl, not_lt.1 h, rfl⟩

theorem plusZero_fin (n : Bool) {m : Rat} (h : 0 ≤ m) : (Val.fin n m).plusZero = Val.ofRat (signed n m) := by
  unfold Val.plusZero Val.ofRat signed
  rcases h.eq_or_lt with rfl | h
  · cases n <;> simp
  · cases n
    · simp [h.ne', h.le]
    · simp [h.ne', h]

theorem signed_zero (n : Bool) : signed n 0 = 0 := by
  cases n
  · rfl
  · exact neg_zero

theorem signed_mul (a b : Bool) (m n : Rat) : signed (a != b) (m * n) = signed a m * signed b n := by
  cases a <;> cases b <;> simp [signed]

theorem add_fin_fin (a b : Bool) (m n : Rat) : (Val.fin a m).add (.fin b n) =
    if m = 0 ∧ n = 0 then .fin (a && b) 0 else Val.ofRat (signed a m + signed b n) := rfl

/-- An exact sum of finite values is finite, and its real is the sum of theirs. -/
theorem add_fin (a b : Bool) (m n : Rat) :
    ∃ c p, (Val.fin a m).add (.fin b n) = .fin c p ∧ 0 ≤ p ∧ signed c p = signed a m + signed b n := by
  rw [add_fin_fin]
  split
  · next h =>
    obtain ⟨rfl, rfl⟩ := h
    exact ⟨_, 0, rfl, le_rfl, by simp [signed_zero]⟩
  · exact ofRat_fin _

theorem add_fin_of_sum_zero (a b : Bool) {m n : Rat} (h : signed a m + signed b n = 0) :
    (Val.fin a m).add (.fin b n) = .fin (a && b && m == 0 && n == 0) 0 := by
  rw [add_fin_fin]
  split
  · next z => simp [z]
  · next z =>
    have e : (m == 0 && n == 0) = false := by simpa using z
    rw [h, Bool.and_assoc, e, Bool.and_false]
    rfl

/-! ### Exact sums -/

theorem exactSum_eq_plusZero (l : List Val) : exactSum l = (l.foldl Val.add (.fin false 0)).plusZero := rfl

theorem foldl_add_fin {l : List Val} (hl : ∀ v ∈ l, ∃ c p, v = .fin c p ∧ 0 ≤ p) (n : Bool) {m : Rat} (hm : 0 ≤ m) :
    ∃ c p, l.foldl Val.add (.fin n m) = .fin c p ∧ 0 ≤ p ∧ signed c p = signed n m + (l.map Val.real).sum := by
  induction l generalizing n m with
  | nil => exact ⟨n, m, rfl, hm, by simp⟩
  | cons v t ih =>
    obtain ⟨⟨b, x, rfl, hx⟩, ht⟩ := List.forall_mem_cons.1 hl
    obtain ⟨c, p, e, hp, hs⟩ := add_fin n b m x
    obtain ⟨c', p', e', hp', hs'⟩ := ih ht c hp
    refine ⟨c', p', by rw [List.foldl_cons, e, e'], hp', ?_⟩
    rw [hs', hs, List.map_cons, List.sum_cons, add_assoc]
    rfl

theorem exactSum_fin {l : List Val} (hl : ∀ v ∈ l, ∃ c p, v = .fin c p ∧ 0 ≤ p) :
    exactSum l = Val.ofRat (l.map Val.real).sum := by
  obtain ⟨c, p, e, hp, hs⟩ := foldl_add_fin hl false le_rfl
  rw [exactSum_eq_plusZero, e, plusZero_fin c hp, hs, signed_zero, zero_add]

/-- Terms whose sum is invalid (R70): a NaN, or infinities of both signs. -/
def InvalidTerms (l : List Val) : Prop := .nan ∈ l ∨ .inf false ∈ l ∧ .inf true ∈ l

/-- Terms whose sum is an infinity: that infinity, and neither the other nor a NaN. -/
def InfiniteTerms (c : Bool) (l : List Val) : Prop := .inf c ∈ l ∧ ∀ v ∈ l, v ≠ .nan ∧ v ≠ .inf (!c)

theorem add_invalidTerms {x v : Val} {t : List Val} (h : InvalidTerms (x :: v :: t)) : InvalidTerms (x.add v :: t) := by
  unfold InvalidTerms at *
  cases x with
  | nan => exact .inl List.mem_cons_self
  | inf a =>
    cases v with
    | nan => exact .inl List.mem_cons_self
    | inf b => cases a <;> cases b <;> simp [Val.add] at h ⊢ <;> tauto
    | fin b n => cases a <;> simp [Val.add] at h ⊢ <;> tauto
  | fin a m =>
    cases v with
    | nan => exact .inl List.mem_cons_self
    | inf b => cases b <;> simp [Val.add] at h ⊢ <;> tauto
    | fin b n =>
      obtain ⟨c, p, e, _⟩ := add_fin a b m n
      simpa [e] using h

theorem eq_of_inf_ne_inf_not {a c : Bool} (h : Val.inf a ≠ .inf (!c)) : a = c := by
  cases a <;> cases c <;> simp_all

theorem add_infiniteTerms {c : Bool} {x v : Val} {t : List Val} (h : InfiniteTerms c (x :: v :: t)) :
    InfiniteTerms c (x.add v :: t) := by
  unfold InfiniteTerms at *
  simp only [List.forall_mem_cons] at *
  obtain ⟨mem, ⟨xn, xi⟩, ⟨vn, vi⟩, ht⟩ := h
  have inf (e : x.add v = .inf c) : .inf c ∈ x.add v :: t ∧ (x.add v ≠ .nan ∧ x.add v ≠ .inf (!c)) ∧
      ∀ v ∈ t, v ≠ .nan ∧ v ≠ .inf (!c) := by
    rw [e]
    exact ⟨List.mem_cons_self, by simp, ht⟩
  cases x with
  | nan => exact absurd rfl xn
  | inf a =>
    obtain rfl := eq_of_inf_ne_inf_not xi
    cases v with
    | nan => exact absurd rfl vn
    | inf b =>
      obtain rfl := eq_of_inf_ne_inf_not vi
      exact inf (if_pos rfl)
    | fin b n => exact inf rfl
  | fin a m =>
    cases v with
    | nan => exact absurd rfl vn
    | inf b =>
      obtain rfl := eq_of_inf_ne_inf_not vi
      exact inf rfl
    | fin b n =>
      obtain ⟨d, p, e, _⟩ := add_fin a b m n
      rw [e]
      exact ⟨by simpa using mem, by simp, ht⟩

theorem foldl_add_invalid {x : Val} {l : List Val} (h : InvalidTerms (x :: l)) : l.foldl Val.add x = .nan := by
  induction l generalizing x with
  | nil =>
    simp only [InvalidTerms, List.mem_singleton] at h
    obtain h | ⟨h, h2⟩ := h
    · exact h.symm
    · exact absurd (h.trans h2.symm) nofun
  | cons v t ih => exact ih (add_invalidTerms h)

theorem foldl_add_infinite {c : Bool} {x : Val} {l : List Val} (h : InfiniteTerms c (x :: l)) :
    l.foldl Val.add x = .inf c := by
  induction l generalizing x with
  | nil => exact (List.mem_singleton.1 h.1).symm
  | cons v t ih => exact ih (add_infiniteTerms h)

theorem exactSum_invalid {l : List Val} (h : InvalidTerms l) : exactSum l = .nan := by
  have h' : InvalidTerms (.fin false 0 :: l) := by simpa [InvalidTerms] using h
  rw [exactSum_eq_plusZero, foldl_add_invalid h']
  rfl

theorem exactSum_infinite {c : Bool} {l : List Val} (h : InfiniteTerms c l) : exactSum l = .inf c := by
  have h' : InfiniteTerms c (.fin false 0 :: l) := by simpa [InfiniteTerms] using h
  rw [exactSum_eq_plusZero, foldl_add_infinite h']
  rfl

/-! ### The group step -/

/-- One rounding of the accumulator and a term, an exact zero giving +0 (R78). -/
def accumulate (acc : Word) (t : Val) : Word :=
  let r := toF32 .rne ((f32 acc).add t)
  if r = 0x80000000 then 0 else r

theorem mul_nan (v : Val) : v.mul .nan = .nan := by
  cases v <;> rfl

theorem mul_one32 (v : Val) : v.mul (.fin false 1) = v := by
  cases v <;> simp [Val.mul]

/-- A form without a scale is one of scale 1. -/
theorem groupStep_of_nan {acc : Word} {k : Option Val} {l : List Val}
    (h : (exactSum l).mul (k.getD (.fin false 1)) = .nan) : groupStep acc k l = nan32 := by
  unfold groupStep
  split
  · rfl
  · dsimp only
    cases k with
    | none =>
      rw [Option.getD_none, mul_one32] at h
      rw [h]
    | some k =>
      rw [Option.getD_some] at h
      split
      · rfl
      · simp only [h]

theorem groupStep_of_ne_nan {acc : Word} {k : Option Val} {l : List Val}
    (h : (exactSum l).mul (k.getD (.fin false 1)) ≠ .nan) :
    groupStep acc k l = accumulate acc ((exactSum l).mul (k.getD (.fin false 1))).plusZero := by
  have hk : (k.map Val.isNan).getD false = false := by
    cases k with
    | none => rfl
    | some k =>
      cases k with
      | nan => exact absurd (mul_nan _) h
      | inf _ => rfl
      | fin _ _ => rfl
  have hs : exactSum l ≠ .nan := fun e => h (by rw [e]; rfl)
  unfold groupStep
  rw [hk, if_neg Bool.false_ne_true]
  split
  · next e => exact absurd e hs
  · cases k with
    | none =>
      rw [Option.getD_none, mul_one32]
      dsimp only
      split
      · next e => exact absurd e hs
      · rfl
    | some k =>
      rw [Option.getD_some] at *
      dsimp only
      split
      · next e => exact absurd e h
      · rfl

theorem groupStep_invalid {acc : Word} {k : Option Val} {l : List Val} (h : k = some .nan ∨ InvalidTerms l) :
    groupStep acc k l = nan32 := by
  refine groupStep_of_nan ?_
  obtain rfl | h := h
  · exact mul_nan _
  · rw [exactSum_invalid h]
    rfl

theorem groupStep_finite {acc : Word} {k : Option Val} {l : List Val} {b : Bool} {m : Rat}
    (hk : k.getD (.fin false 1) = .fin b m) (hm : 0 ≤ m) (hl : ∀ v ∈ l, ∃ c p, v = .fin c p ∧ 0 ≤ p) :
    groupStep acc k l = accumulate acc (Val.ofRat ((l.map Val.real).sum * signed b m)) := by
  obtain ⟨c, p, e, hp, hs⟩ := ofRat_fin (l.map Val.real).sum
  have prod : (exactSum l).mul (k.getD (.fin false 1)) = .fin (c != b) (p * m) := by
    rw [exactSum_fin hl, e, hk]
    rfl
  rw [groupStep_of_ne_nan (by rw [prod]; exact nofun), prod, plusZero_fin _ (mul_nonneg hp hm), signed_mul, hs]

theorem groupStep_infinite {acc : Word} {k : Option Val} {l : List Val} {b c : Bool} {m : Rat}
    (hk : k.getD (.fin false 1) = .fin b m) (hl : InfiniteTerms c l) :
    groupStep acc k l = if m = 0 then nan32 else accumulate acc (.inf (c != b)) := by
  have prod : (exactSum l).mul (k.getD (.fin false 1)) = if m = 0 then .nan else .inf (c != b) := by
    rw [exactSum_infinite hl, hk]
    rfl
  split
  · next h => exact groupStep_of_nan (by rw [prod, if_pos h])
  · next h =>
    rw [if_neg h] at prod
    rw [groupStep_of_ne_nan (by rw [prod]; exact nofun), prod]
    rfl

/-! ### The statement -/

theorem toF32_toNat {rm : Rm} {v : Val} {c : Nat} (e : fp32.enc rm .inf v = c) (h : c < 2 ^ 32) :
    (toF32 rm v).toNat = c := by
  rw [toF32, e, BitVec.toNat_ofNat, Nat.mod_eq_of_lt h]

theorem toB16_toNat {v : Val} {c : Nat} (e : bf16.enc .rne .inf v = c) (h : c < 2 ^ 16) : (toB16 v).toNat = c := by
  rw [toB16, e, BitVec.toNat_ofNat, Nat.mod_eq_of_lt h]

/-- R69, R73: rounding below the largest finite value, and toward zero everywhere, in every format. -/
theorem enc_spec : ∀ f ∈ [fp32, bf16, e5m2, e4m3, e2m1], ∀ (neg : Bool) (q : Rat) (ov : Ovf), 0 ≤ q →
    (q ≤ f.mag f.maxCode → ∃ k, f.enc .rne ov (.fin neg q) = (if neg then f.signBit else 0) + k ∧ k ≤ f.maxCode ∧
      ∀ j, j ≤ f.maxCode → |f.mag k - q| ≤ |f.mag j - q| ∧ (j ≠ k → |f.mag k - q| = |f.mag j - q| → k % 2 = 0)) ∧
    (∃ k, f.enc .rz ov (.fin neg q) = (if neg then f.signBit else 0) + k ∧ k ≤ f.maxCode ∧ f.mag k ≤ q ∧
      ∀ j, j ≤ f.maxCode → f.mag j ≤ q → f.mag j ≤ f.mag k) := by
  intro f hf neg q ov h
  have hm : 0 < f.mbits := by
    revert f
    decide
  exact ⟨fun top => enc_rne_spec f hm h top ov neg, enc_rz_spec f h ov neg⟩

/-- R73 for FP32. -/
theorem toF32_from_top (neg : Bool) {q : Rat} (top : fp32.mag 0x7F7FFFFF ≤ q) :
    (2 ^ 128 - 2 ^ 103 ≤ q → (toF32 .rne (.fin neg q)).toNat = (if neg then 2 ^ 31 else 0) + 0x7F800000) ∧
      (¬ 2 ^ 128 - 2 ^ 103 ≤ q → (toF32 .rne (.fin neg q)).toNat = (if neg then 2 ^ 31 else 0) + 0x7F7FFFFF) ∧
      (toF32 .rz (.fin neg q)).toNat = (if neg then 2 ^ 31 else 0) + 0x7F7FFFFF := by
  obtain ⟨above, below⟩ := enc_rne_odd_top fp32 (by decide) (by decide) (t := 2 ^ 128 - 2 ^ 103) top
    (by rw [mag_top_fp32.1, mag_top_fp32.2]; norm_num) .inf neg
  refine ⟨fun h => toF32_toNat (above h) ?_, fun h => toF32_toNat (below h) ?_,
    toF32_toNat (enc_rz_from_top fp32 top .inf neg) ?_⟩ <;> cases neg <;> decide

/-- R73 for BF16. -/
theorem toB16_from_top (neg : Bool) {q : Rat} (top : bf16.mag 0x7F7F ≤ q) :
    (2 ^ 128 - 2 ^ 119 ≤ q → (toB16 (.fin neg q)).toNat = (if neg then 2 ^ 15 else 0) + 0x7F80) ∧
      (¬ 2 ^ 128 - 2 ^ 119 ≤ q → (toB16 (.fin neg q)).toNat = (if neg then 2 ^ 15 else 0) + 0x7F7F) := by
  obtain ⟨above, below⟩ := enc_rne_odd_top bf16 (by decide) (by decide) (t := 2 ^ 128 - 2 ^ 119) top
    (by rw [mag_top_bf16.1, mag_top_bf16.2]; norm_num) .inf neg
  refine ⟨fun h => toB16_toNat (above h) ?_, fun h => toB16_toNat (below h) ?_⟩ <;> cases neg <;> decide

/-- R73 for E5M2. -/
theorem e5m2_from_top (neg : Bool) {q : Rat} (top : 57344 ≤ q) :
    e5m2.enc .rne .sat (.fin neg q) = (if neg then 128 else 0) + 0x7B ∧
      (61440 ≤ q → e5m2.enc .rne .inf (.fin neg q) = (if neg then 128 else 0) + 0x7C) ∧
      (¬ 61440 ≤ q → e5m2.enc .rne .inf (.fin neg q) = (if neg then 128 else 0) + 0x7B) := by
  rw [← mag_top_e5m2.1] at top
  exact ⟨enc_sat_from_top e5m2 (by decide) top neg, enc_rne_odd_top e5m2 (by decide) (by decide) top
    (by rw [mag_top_e5m2.1, mag_top_e5m2.2]; norm_num) .inf neg⟩

/-- R73 for E4M3. -/
theorem e4m3_from_top (neg : Bool) {q : Rat} (top : 448 ≤ q) :
    e4m3.enc .rne .sat (.fin neg q) = (if neg then 128 else 0) + 0x7E ∧
      (q ≤ 464 → e4m3.enc .rne .nan (.fin neg q) = (if neg then 128 else 0) + 0x7E) ∧
      (464 < q → e4m3.enc .rne .nan (.fin neg q) = 0x7F) := by
  rw [← mag_top_e4m3.1] at top
  exact ⟨enc_sat_from_top e4m3 (by decide) top neg, enc_rne_even_top e4m3 (by decide) (by decide) top
    (by rw [mag_top_e4m3.1, mag_top_e4m3.2]; norm_num) .nan neg⟩

/-- R73 for E2M1. -/
theorem e2m1_from_top (neg : Bool) {q : Rat} (top : 6 ≤ q) :
    e2m1.enc .rne .sat (.fin neg q) = (if neg then 8 else 0) + 7 := by
  rw [← mag_top_e2m1] at top
  exact enc_sat_from_top e2m1 (by decide) top neg

/-- R67: a code above that of infinity is a NaN. -/
theorem f32_nan {w : Word} (h : 0xFF * 2 ^ 23 < w.toNat % 2 ^ 31) : f32 w = .nan := by
  have limit : fp32.limit = 0xFF * 2 ^ 23 := rfl
  have sign : fp32.signBit = 2 ^ 31 := rfl
  unfold f32 Fmt.val
  dsimp only
  rw [limit, sign, if_neg h.not_gt, if_neg (fun e => h.ne' e.2)]

/-- Settles O36, from the neighbours of a magnitude among a format's codes, its thresholds, and exact sums. -/
theorem rounding : Obligations.Rounding := by
  unfold Obligations.Rounding
  refine ⟨enc_spec, fun neg q => ?_, fun rm => rfl, rfl, fun w => f32_nan, rfl, rfl, fun a b m n hm hn => ?_,
    fun acc l k => ?_⟩
  · intro v pm at_
    refine ⟨fun top => ?_, toB16_from_top neg, fun top => ?_, e4m3_from_top neg, e2m1_from_top neg, fun top => ?_⟩
    · obtain ⟨above, below, _⟩ := toF32_from_top neg top
      exact ⟨above, below⟩
    · obtain ⟨sat, inf⟩ := e5m2_from_top neg top
      exact ⟨⟨fun _ => sat, fun _ => sat⟩, inf⟩
    · obtain ⟨_, _, rz⟩ := toF32_from_top neg top
      exact rz
  · obtain ⟨c, p, e, _, sum⟩ := add_fin a b m n
    refine ⟨?_, add_fin_of_sum_zero a b, rfl⟩
    rw [e]
    exact sum
  · refine ⟨groupStep_invalid, fun b m hk hm => ⟨groupStep_finite hk hm, fun c hc hl => ?_⟩⟩
    exact groupStep_infinite hk ⟨hc, hl⟩

end Sys2Proof.Machine
end

section
/-! PROOF. The machine as a whole: what reset leaves, and what one step performs. -/

namespace Sys2Proof.Machine

/-! ### Reset -/

/-- What holds of every listed tenant and of one at reset holds of every tenant. -/
theorem tenantOf_cases {p : Tenant → Prop} (s : State) (n : Nat) (hr : p (Tenant.reset n)) (hl : ∀ t ∈ s.tenants, p t) :
    p (s.tenantOf n) := by
  unfold State.tenantOf
  cases h : s.tenants.find? (fun t => t.num == n) with
  | none => exact hr
  | some t => exact hl t (List.mem_of_find?_eq_some h)

theorem reset_queue_idle {q : Queue} (h : q ∈ State.reset.queues) : q.head = q.tail ∧ q.fetched = none := by
  obtain ⟨n, -, rfl⟩ := List.mem_map.1 h
  exact ⟨rfl, rfl⟩

theorem reset_tenant_fq (n : Nat) : (State.reset.tenantOf n).fq = [] := by
  refine tenantOf_cases (p := fun t => t.fq = []) State.reset n rfl fun t h => ?_
  obtain ⟨m, -, rfl⟩ := List.mem_map.1 h
  rfl

/-- Settles O7: each field of the state after reset is written out, and every queue and tenant is one at reset. -/
theorem resetState : Obligations.ResetState := by
  unfold Obligations.ResetState
  exact ⟨rfl, rfl, rfl, rfl, rfl, rfl, rfl, rfl, rfl, rfl, rfl, rfl, rfl, rfl, rfl, rfl, rfl, rfl, rfl, fun _ => rfl,
    fun _ => ⟨rfl, rfl, rfl, rfl⟩, fun _ => reset_queue_idle, fun _ => rfl, rfl, rfl, reset_tenant_fq⟩

/-! ### A lane of a gang issue -/

theorem step_issue {s : State} {g : Issue} {k : ThreadKey} {rest : List ThreadKey} (h : s.issue = some g)
    (hl : g.lanes = k :: rest) : step s = s.stepLane k := by
  unfold step State.stepIssue
  rw [h]
  dsimp only
  rw [hl]

/-- A lane whose thread acts, is ready and stands at a word performs it. -/
theorem stepLane_ready {s : State} {k : ThreadKey} {w : Nat} (hk : s.th.key = k) (hr : s.th.status = .ready)
    (hw : s.wordNow = some w) : s.stepLane k = mapNext State.laneDone (s.runWord w) := by
  have acts : s.th.acts = true := by simp [Thread.acts, hr, Status.isReady]
  unfold State.stepLane
  rw [if_pos hk, acts, hw]

/-- A word that modifies the next one keeps its lane for it (R48). -/
theorem laneDone_eq (t : State) : t.laneDone =
    if t.pfx.isSome then t else { t with issue := t.issue.map (fun x => { x with lanes := x.lanes.tail }) } := by
  unfold State.laneDone State.popLane
  split
  · rfl
  · next h =>
    have e : t.pfx = none := by simpa using h
    rw [← e]

theorem performBytes_four (s : State) (pa : Nat) :
    s.performBytes pa 4 = [s.performByte pa, s.performByte (pa + 1), s.performByte (pa + 2), s.performByte (pa + 3)] := rfl

/-- The word of four bytes, little-endian (R4). -/
theorem leWord_four (a b c d : Byte) : leWord [a, b, c, d] = (d ++ c ++ b ++ a : BitVec 32) := by
  apply BitVec.eq_of_toNat_eq
  simp only [leWord, leNat, BitVec.toNat_ofNat, BitVec.toNat_append]
  rw [← Nat.shiftLeft_add_eq_or_of_lt c.isLt, ← Nat.shiftLeft_add_eq_or_of_lt b.isLt, ← Nat.shiftLeft_add_eq_or_of_lt a.isLt]
  simp only [Nat.shiftLeft_eq]
  omega

theorem fetchWord_readable {s s' : State} {m : Team} {va : Addr} {l : Leaf} {pa : Nat}
    (ht : s.translate m.core m.ctx va .execute = (.ok (l, pa), s')) (hr : s'.readable va pa 4 = .ok ()) :
    s.fetchWord m va = (.ok (s'.performWord pa), s') := by
  unfold State.fetchWord
  rw [ht]
  dsimp only
  rw [hr]

/-! ### What may happen next -/

theorem step_noIssue {s : State} (h : s.issue = none) : step s = s.stepMove := by
  unfold step
  rw [h]

section
variable {s t : State} (ht : { s with tick := s.tick + 1 } = t)
include ht

theorem stepMove_slot {m : Team} (h : t.allTeams.find? t.slotDone = some m) : s.stepMove = .next (t.freeSlot m.uid) := by
  simp only [State.stepMove, ht, h]

variable (noSlot : t.allTeams.find? t.slotDone = none)
include noSlot

theorem stepMove_redo {u : State} (h : t.redoIssue = some u) : s.stepMove = .next u := by
  simp only [State.stepMove, ht, noSlot, h]

variable (noRedo : t.redoIssue = none)
include noRedo

theorem stepMove_fault {o : Op} {r : FaultRec} (h : t.heldFault = some (o, r)) : s.stepMove = .next (t.failOp1 o r) := by
  simp only [State.stepMove, ht, noSlot, noRedo, h]

variable (noFault : t.heldFault = none)
include noFault

theorem stepMove_due {i : Instr} (h : t.dueNow = some i) : s.stepMove = exec i t := by
  simp only [State.stepMove, ht, noSlot, noRedo, noFault, h]

variable (noDue : t.dueNow = none)
include noDue

theorem stepMove_idle (h : t.moves = []) : s.stepMove = .next t := by
  simp only [State.stepMove, ht, noSlot, noRedo, noFault, noDue, h, List.getElem?_nil]

/-- A free choice among the moves finds one of them. -/
theorem stepMove_move (h : t.moves ≠ []) : ∃ m ∈ t.moves, s.stepMove = t.makeMove m := by
  have hn : Config.choice s.tick % t.moves.length < t.moves.length := Nat.mod_lt _ (List.length_pos_iff.2 h)
  refine ⟨_, List.getElem_mem hn, ?_⟩
  simp only [State.stepMove, ht, noSlot, noRedo, noFault, noDue, List.getElem?_eq_getElem hn]

end

theorem dueNow_mem {s : State} {i : Instr} (h : s.dueNow = some i) : i ∈ s.dueEvents := by
  unfold State.dueNow at h
  split at h
  · cases h
  · exact List.mem_of_find?_eq_some h

/-- Settles O6: the step is the next lane's word, or the first thing that may happen in the model's order. -/
theorem stepRunsDecodedInstruction : Obligations.StepRunsDecodedInstruction := by
  unfold Obligations.StepRunsDecodedInstruction
  refine ⟨fun s g k rest w hg hl hk hr hw => ?_, fun s s' m va l pa ht hr => ?_, fun s h => ?_, fun _ _ => rfl⟩
  · rw [step_issue hg hl, stepLane_ready hk hr hw]
    unfold State.runWord
    refine ⟨fun i hi => ?_, fun hi => ?_⟩
    · rw [hi]
      dsimp only
      cases exec i s with
      | next t => exact congrArg _ (laneDone_eq t)
      | fault | refused => rfl
    · rw [hi]
      exact ⟨_, rfl, rfl⟩
  · rw [fetchWord_readable ht hr, State.performWord, performBytes_four, leWord_four]
  · rw [step_noIssue h]
    intro t
    exact ⟨fun _ => stepMove_slot rfl, fun hs => ⟨fun _ => stepMove_redo rfl hs, fun hr => ⟨fun _ _ =>
      stepMove_fault rfl hs hr, fun hf => ⟨fun _ hi => ⟨dueNow_mem hi, stepMove_due rfl hs hr hf hi⟩, fun hd =>
      ⟨stepMove_idle rfl hs hr hf hd, stepMove_move rfl hs hr hf hd⟩⟩⟩⟩⟩

end Sys2Proof.Machine
end

section
/-! PROOF. System registers (R16, R107, R108). -/

namespace Sys2Proof.Machine

section
variable {s : State} {d n : Nat}

/-- A number that names no register of the thread or the supervisor. -/
theorem rdsr_unlisted (h : s.sysRead n = none) : exec (.rdsr d n) s = .next (s.trap { s.here with cause := 0x02 }) := by
  show execRdsr d n s = _
  unfold execRdsr
  rw [h]
  rfl

theorem wrsr_refused (h : s.sysWritable n = none) : exec (.wrsr d n) s = .next (s.trap { s.here with cause := 0x02 }) := by
  show execWrsr d n s = _
  unfold execWrsr
  rw [h]
  rfl

theorem rdsr_word {v : BitVec 64} (h : s.sysRead n = some (v, false)) (hb : s.bare = true)
    (hc : s.canRun 0 none [] [d] = true) : exec (.rdsr d n) s = .next (s.after (fun t => t.setReg d (lo32 v))) := by
  show execRdsr d n s = _
  unfold execRdsr
  rw [h]
  exact plain_runs _ hc hb

theorem rdsr_pair {v : BitVec 64} (h : s.sysRead n = some (v, true)) (hb : s.bare = true)
    (hc : s.canRun 0 none [] [d, d + 1] = true) : exec (.rdsr d n) s = .next (s.after (fun t => t.setPair d v)) := by
  show execRdsr d n s = _
  unfold execRdsr
  rw [h]
  exact plain_runs _ hc hb

theorem lo32_ofNat (x : Nat) : lo32 (BitVec.ofNat 64 x) = BitVec.ofNat 32 x := by
  apply BitVec.eq_of_toNat_eq
  simp only [lo32, BitVec.toNat_setWidth, BitVec.toNat_ofNat]
  omega

theorem rdsr_nat {x : Nat} (h : s.sysRead n = some (BitVec.ofNat 64 x, false)) (hb : s.bare = true)
    (hc : s.canRun 0 none [] [d] = true) :
    exec (.rdsr d n) s = .next (s.after (fun t => t.setReg d (BitVec.ofNat 32 x))) := by
  rw [rdsr_word h hb hc, lo32_ofNat]

/-- The supervisor's registers have the numbers from 0x80 on (R382). -/
theorem supRead_low (h : n < 0x80) : s.supRead n = none := by
  unfold State.supRead
  split <;> simp_all

theorem sysRead_unlisted (hn : n ∉ [0x00, 0x01, 0x02, 0x03, 0x04, 0x05, 0x06, 0x07, 0x10, 0x11, 0x12, 0x13]) :
    s.sysRead n = if s.isSup then s.supRead n else none := by
  simp only [List.mem_cons, List.not_mem_nil, or_false, not_or] at hn
  unfold State.sysRead
  split <;> simp_all

theorem sysWritable_low (h : n < 0x80) (hf : n ≠ 0x11 ∨ s.th.trapActive = false) : s.sysWritable n = none := by
  unfold State.sysWritable
  split
  · next e => simp [hf.resolve_left (not_not.2 e)]
  · split
    · rfl
    · rw [if_neg (by omega), if_neg (by omega)]

theorem sysWritable_tenant (h : 0x80 ≤ n) (ht : s.isSup = false) : s.sysWritable n = none := by
  unfold State.sysWritable
  rw [if_neg (by omega), ht]
  rfl

end

/-- Settles O29: each register by its arm of `sysRead`; a number without an arm is refused before anything is read. -/
theorem systemRegisters : Obligations.SystemRegisters := by
  unfold Obligations.SystemRegisters
  intro s d hb
  refine ⟨fun hc => ?_, fun hc => ?_, fun hc ht => ?_, fun n hn hl => ?_, fun n hn hf => ?_, fun n hn hs => ⟨?_, ?_⟩⟩
  · exact ⟨rdsr_nat rfl hb hc, rdsr_nat rfl hb hc, rdsr_nat rfl hb hc, rdsr_nat rfl hb hc, rdsr_nat rfl hb hc,
      rdsr_nat rfl hb hc, rdsr_nat rfl hb hc, rdsr_nat rfl hb hc, rdsr_nat rfl hb hc⟩
  · exact ⟨rdsr_pair rfl hb hc, rdsr_pair rfl hb hc, rdsr_pair rfl hb hc, plain_runs _ hc hb⟩
  · have hw : s.sysWritable 0x11 = some true := if_pos ht
    show execWrsr d 0x11 s = _
    unfold execWrsr
    rw [hw]
    exact word_runs _ hc (prefixOk_bare hb)
  · refine rdsr_unlisted ?_
    rw [sysRead_unlisted hl, supRead_low hn, ite_self]
  · exact wrsr_refused (sysWritable_low hn hf)
  · refine rdsr_unlisted ?_
    have hl : n ∉ [0x00, 0x01, 0x02, 0x03, 0x04, 0x05, 0x06, 0x07, 0x10, 0x11, 0x12, 0x13] := by
      simp
      omega
    rw [sysRead_unlisted hl, hs]
    rfl
  · exact wrsr_refused (sysWritable_tenant hn hs)

end Sys2Proof.Machine
end

section
/-! PROOF. Return from a trap (R30, R106, R186). -/

namespace Sys2Proof.Machine

theorem clearPendings_fpc (t : Thread) (rs : List Nat) : (t.clearPendings rs).fpc = t.fpc := by
  induction rs generalizing t with
  | nil => rfl
  | cons r rs ih => exact ih (t.clearPending r)

theorem clearPendings_resume (t : Thread) (rs : List Nat) : (t.clearPendings rs).resume = t.resume := by
  induction rs generalizing t with
  | nil => rfl
  | cons r rs ih => exact ih (t.clearPending r)

theorem dropReplay_fpc (s : State) : s.dropReplay.th.fpc = s.th.fpc := by
  unfold State.dropReplay
  split
  · rfl
  · exact clearPendings_fpc _ _

theorem dropReplay_resume (s : State) : s.dropReplay.th.resume = s.th.resume := by
  unfold State.dropReplay
  split
  · rfl
  · exact clearPendings_resume _ _

/-- A word address of 57 bits, as R100 and R106 ask it. -/
theorem targetOk_iff (a : Addr) : targetOk a = true ↔ a.toNat % 4 = 0 ∧ a.toNat < 2 ^ 57 := by
  simp only [targetOk, Bool.and_eq_true, decide_eq_true_eq]

/-! ### The load that is performed again -/

theorem toReplay_again {s : State} {o : Op} (h : s.th.replay.bind s.op? = some o)
    (ha : ∃ x, o.fault = some x ∧ x.deferred = true) : s.toReplay = some o := by
  obtain ⟨x, hx, hd⟩ := ha
  simp [State.toReplay, h, hx, hd]

theorem toReplay_none {s : State} (h : ∀ o, s.th.replay.bind s.op? = some o → ¬ ∃ x, o.fault = some x ∧ x.deferred = true) :
    s.toReplay = none := by
  unfold State.toReplay
  cases e : s.th.replay.bind s.op? with
  | none => rfl
  | some o =>
    have ho := h o e
    cases f : o.fault with
    | none => simp [f]
    | some x =>
      have hx : x.deferred = false := by simpa [f] using ho
      simp [f, hx]

/-! ### The ways on -/

section
variable {s : State} (hc : s.canRun 0 none [] [] = true) (hb : s.bare = true)
include hc hb

theorem tret_outside (h : s.th.trapActive = false) : exec .tret s = .next (s.trap { s.here with cause := 0x01 }) := by
  refine (word_runs _ hc (prefixOk_bare hb)).trans ?_
  rw [h]
  rfl

variable (ht : s.th.trapActive = true) {u : State} (hu : s.withTh (fun t => { t with trapActive := false }) = u)
include ht hu

/-- The deferred load is performed again, by a thread that goes on where it was (R30). -/
theorem tret_again {o : Op} (hf : s.th.fpc = s.th.fpc0) (ho : u.toReplay = some o) : exec .tret s =
    .next { u.setOp { o with fault := none, pa := none, issue := s.nextIssue } with
      th := { u.th.resumeSet with status := .replay o.id }, pfx := none, nextIssue := s.nextIssue + 1 } := by
  subst hu
  refine (word_runs _ hc (prefixOk_bare hb)).trans ?_
  simp only [ht, Bool.not_true, Bool.false_eq_true, if_false, State.withTh_th, hf, beq_self_eq_true, ho]
  rfl

/-- A thread that took an engine's fault goes on at its place (R186). -/
theorem tret_own (hf : s.th.fpc = s.th.fpc0) (ho : u.toReplay = none) (hr : s.th.resume.own = true) :
    exec .tret s = .next { u.dropReplay with th := u.dropReplay.th.resumeSet, pfx := none } := by
  subst hu
  refine (word_runs _ hc (prefixOk_bare hb)).trans ?_
  simp only [ht, Bool.not_true, Bool.false_eq_true, if_false, State.withTh_th, hf, beq_self_eq_true, ho, dropReplay_resume, hr,
    Bool.and_self, if_true]

/-- Else it goes on at %fpc, the replay dropped (R106). -/
theorem tret_elsewhere (h : s.th.fpc ≠ s.th.fpc0 ∨ u.toReplay = none ∧ s.th.resume.own = false) :
    exec .tret s = if targetOk s.th.fpc then .next { u.dropReplay with th := u.dropReplay.th.resumeAt s.th.fpc, pfx := none }
      else .next (u.dropReplay.trap { u.dropReplay.here with cause := 0x09, vaddr := s.th.fpc }) := by
  subst hu
  refine (word_runs _ hc (prefixOk_bare hb)).trans ?_
  have fpc : (s.withTh (fun t => { t with trapActive := false })).dropReplay.th.fpc = s.th.fpc := dropReplay_fpc _
  have own : (s.withTh (fun t => { t with trapActive := false })).dropReplay.th.resume.own = s.th.resume.own :=
    congrArg Resume.own (dropReplay_resume _)
  obtain hf | ⟨ho, hr⟩ := h
  · have hf' : (s.th.fpc == s.th.fpc0) = false := by simpa using hf
    simp only [ht, Bool.not_true, Bool.false_eq_true, if_false, State.withTh_th, hf', fpc, own, Bool.false_and]
    cases targetOk s.th.fpc <;> rfl
  · simp only [ht, Bool.not_true, Bool.false_eq_true, if_false, State.withTh_th, ho, fpc, own, hr, Bool.and_false]
    cases s.th.fpc == s.th.fpc0 <;> cases targetOk s.th.fpc <;> rfl

end

theorem resumeAt_inside {t : Thread} {a : Addr} (h : t.resume.clause.toNat + 4 ≤ a.toNat ∧
    a.toNat ≤ t.resume.clause.toNat + 4 * t.resume.count) (h4 : a.toNat % 4 = 0) :
    t.resumeAt a = { t.goto t.resume.clause with pc := a, startAt := (a.toNat - t.resume.clause.toNat) / 4 } :=
  if_pos ⟨h.1, h.2, h4⟩

theorem resumeAt_outside {t : Thread} {a : Addr} (h : ¬ (t.resume.clause.toNat + 4 ≤ a.toNat ∧
    a.toNat ≤ t.resume.clause.toNat + 4 * t.resume.count)) : t.resumeAt a = t.goto a :=
  if_neg (fun ⟨lo, hi, _⟩ => h ⟨lo, hi⟩)

/-- Settles O28: whether %fpc stands as set and what the replay is decide between the three ways on. -/
theorem returnFromTrap : Obligations.ReturnFromTrap := by
  unfold Obligations.ReturnFromTrap
  intro s hc hb r f wordAddress inside returned fresh resumed owed u again
  have hu : (s.withTh (fun t => { t with trapActive := false })).dropReplay = u := by
    unfold u State.dropReplay
    show (match owed with | none => _ | some o => _) = _
    cases owed <;> rfl
  have fpc : u.th.fpc = f := by
    rw [← hu]
    exact dropReplay_fpc _
  have resume : u.th.resume = r := by
    rw [← hu]
    exact dropReplay_resume _
  refine ⟨tret_outside hc hb, fun ht => ⟨fun o hf ho ha => tret_again hc hb ht rfl hf (toReplay_again ho ha),
    fun hf ho hr => ?_, fun h => ?_⟩⟩
  · have set : u.th.resumeSet = resumed u.th := by
      unfold Thread.resumeSet
      rw [resume]
      rfl
    rw [tret_own hc hb ht rfl hf (toReplay_none ho) hr, hu, set]
  · rw [tret_elsewhere hc hb ht rfl (h.imp_right (And.imp_left toReplay_none)), hu]
    refine ⟨fun hw => ?_, fun hw hi => ?_, fun hw hi => ?_⟩
    · rw [if_neg (mt (targetOk_iff f).1 hw)]
    · rw [if_pos ((targetOk_iff f).2 hw), resumeAt_inside (by rw [resume]; exact hi) hw.1, resume]
      rfl
    · rw [if_pos ((targetOk_iff f).2 hw), resumeAt_outside (by rw [resume]; exact hi)]
      rfl

end Sys2Proof.Machine
end

section
/-! PROOF. Faults that stop a thread: the record in the tenant's fault queue (R29, R31, R176, R381). -/

namespace Sys2Proof.Machine

/-! ### Tenants -/

theorem find?_upsert {α : Type} {p : α → Bool} {x : α} (l : List α) (h : p x = true) : (upsert p x l).find? p = some x := by
  induction l with
  | nil => simp [upsert, h]
  | cons y l ih =>
    unfold upsert
    split
    · simp [h]
    · next hy => rw [List.find?_cons_of_neg hy, ih]

theorem tenantOf_num (s : State) (n : Nat) : (s.tenantOf n).num = n := by
  unfold State.tenantOf
  cases h : s.tenants.find? (fun t => t.num == n) with
  | none => rfl
  | some t => simpa using List.find?_some h

theorem tenantOf_setTenant (s : State) {t : Tenant} {n : Nat} (h : t.num = n) : (s.setTenant t).tenantOf n = t := by
  subst h
  unfold State.tenantOf
  rw [State.setTenant_tenants, find?_upsert _ (by simp)]
  rfl

/-- A change of every tenant that keeps its number and leaves one at reset as it is. -/
theorem tenantOf_map {s u : State} {f : Tenant → Tenant} (h : u.tenants = s.tenants.map f) (hn : ∀ t, (f t).num = t.num)
    (hr : ∀ n, f (Tenant.reset n) = Tenant.reset n) (n : Nat) : u.tenantOf n = f (s.tenantOf n) := by
  unfold State.tenantOf
  rw [h, List.find?_map]
  simp only [Function.comp_def, hn]
  cases s.tenants.find? (fun t => t.num == n) with
  | none => exact (hr n).symm
  | some t => rfl

/-! ### The fault queue -/

/-- The queue of 2^n records is full at 2^n - 1 of them (log entry 69). -/
def Tenant.full (q : Tenant) : Prop := (q.fqtail + 1) % 2 ^ q.lgfq = q.fqhead % 2 ^ q.lgfq

theorem pushEntry_full {s : State} {n : Nat} (e : FqEntry) (h : (s.tenantOf n).full) :
    (s.pushEntry n e).tenantOf n = { s.tenantOf n with held := (s.tenantOf n).held ++ [e] } := by
  unfold Tenant.full at h
  unfold State.pushEntry
  dsimp only
  rw [if_pos h]
  exact tenantOf_setTenant s (tenantOf_num s n)

theorem pushEntry_room {s : State} {n : Nat} (e : FqEntry) (h : ¬ (s.tenantOf n).full) :
    (s.pushEntry n e).tenantOf n = { s.tenantOf n with
      fq := (s.tenantOf n).fq ++ [{ e with index := (s.tenantOf n).fqtail }],
      fqtail := ((s.tenantOf n).fqtail + 1) % 2 ^ (s.tenantOf n).lgfq, irqs := (s.tenantOf n).irqs ++ [1] } := by
  unfold Tenant.full at h
  unfold State.pushEntry
  dsimp only
  rw [if_neg h]
  exact tenantOf_setTenant s (tenantOf_num s n)

/-- An entry changes the tenants alone. -/
theorem pushEntry_tenants (s : State) (n : Nat) (e : FqEntry) :
    s.pushEntry n e = { s with tenants := (s.pushEntry n e).tenants } := by
  unfold State.pushEntry
  dsimp only
  split <;> rfl

/-! ### The seats that a record names -/

theorem foldl_seats_absorb {m b : Word} (l : List ThreadKey) (h : m ||| b = m) :
    l.foldl (fun m x => m ||| (1#32 <<< x.seat)) m ||| b = l.foldl (fun m x => m ||| (1#32 <<< x.seat)) m := by
  induction l generalizing m with
  | nil => exact h
  | cons x l ih =>
    refine ih ?_
    rw [BitVec.or_assoc, BitVec.or_comm _ b, ← BitVec.or_assoc, h]

theorem sameGroup_self (k : ThreadKey) : sameGroup k k = true := by
  simp [sameGroup]

/-- The seats known to have faulted in an issue hold the seat of the thread that asks. -/
theorem laneSeats_self (s : State) (n : Nat) (k : ThreadKey) : s.laneSeats n k ||| (1#32 <<< k.seat) = s.laneSeats n k := by
  unfold State.laneSeats seatMaskOf
  rw [List.filter_cons_of_pos (sameGroup_self k), List.foldl_cons]
  refine foldl_seats_absorb _ ?_
  rw [BitVec.or_assoc, BitVec.or_self]

/-- The record of a lane names its own seat already when the lane is noted. -/
theorem addLane_withLanes {s : State} {n : Nat} {k : ThreadKey} {r : FaultRec} {i : Nat} {w : FaultWait} :
    FqEntry.addLane n k ⟨i, s.withLanes (some (n, k)) r, w, some (n, k)⟩ =
      ⟨i, s.withLanes (some (n, k)) r, w, some (n, k)⟩ := by
  simp only [FqEntry.addLane, sameGroup_self, and_self, if_true, FaultRec.addLane, State.withLanes, BitVec.or_assoc, laneSeats_self]

/-! ### A thread that stops -/

/-- A trigger of the snapshot registers changes the supervisor's registers alone (R387). -/
theorem snapOnCause_sup (s : State) (c : Nat) : s.snapOnCause c = { s with sup := (s.snapOnCause c).sup } := by
  unfold State.snapOnCause State.snapshot
  split
  · split <;> rfl
  · rfl

theorem trapThread_stops {s : State} {t : Thread} {m : Team} {r : FaultRec} {fpc : Addr} {resume : Addr × Nat} {count : Nat}
    {replay : Option Nat} (h : t.trapActive = true ∨ m.fgroups ≤ t.key.group) :
    s.trapThread t m r fpc resume count replay = (s.snapOnCause r.cause).stopThread t r := by
  unfold State.trapThread
  exact if_pos (by simpa using h)

/-- What a fault of a gang issue adds to the entries of its thread's group, for the lane that it names (R176). -/
def FqEntry.noted (lane : Option (Nat × ThreadKey)) (e : FqEntry) : FqEntry :=
  match lane with
  | some (n, k) => e.addLane n k
  | none => e

def Tenant.noted (lane : Option (Nat × ThreadKey)) (q : Tenant) : Tenant :=
  { q with fq := q.fq.map (FqEntry.noted lane), held := q.held.map (FqEntry.noted lane) }

theorem Tenant.noted_none (q : Tenant) : q.noted none = q := by
  have h : FqEntry.noted none = id := rfl
  simp [Tenant.noted, h]

theorem markLane_tenantOf (s : State) (k : ThreadKey) (pa : Option Nat) (n : Nat) :
    (s.markLane k pa).tenantOf n = (s.tenantOf n).noted (s.laneOf k) := by
  unfold State.markLane State.laneOf
  cases s.issue with
  | none => exact (Tenant.noted_none _).symm
  | some i => exact tenantOf_map (f := Tenant.noted (some (i.num, k))) rfl (fun _ => rfl) (fun _ => rfl) n

/-- The lanes change neither the acting thread nor anything of memory. -/
theorem markLane_frame (s : State) (k : ThreadKey) (pa : Option Nat) :
    (s.markLane k pa).th = s.th ∧ (s.markLane k pa).mem = s.mem ∧ (s.markLane k pa).home = s.home ∧
      (s.markLane k pa).clusters = s.clusters ∧ (s.markLane k pa).cores = s.cores := by
  unfold State.markLane
  cases s.issue with
  | none => exact ⟨rfl, rfl, rfl, rfl, rfl⟩
  | some i => exact ⟨rfl, rfl, rfl, rfl, rfl⟩

section
variable (s : State) (r : FaultRec)

/-- The gang issue and thread that a record of the acting thread names: those of a precise fault. -/
def State.laneFor : Option (Nat × ThreadKey) := if r.precise then s.laneOf s.th.key else none

/-- The entry of a thread that stops, before it has its place in the queue (R31). -/
def State.stopEntry : FqEntry :=
  { index := 0, record := s.withLanes (s.laneFor r) { r with nested := s.th.trapActive }, wait := .stopped s.th.key,
    lane := s.laneFor r }

/-- The acting thread stopped. -/
def State.stopped : State := s.withTh (fun t => { t with status := .stopped })

/-- The stopped thread's entry comes first, then the lane is noted in every entry. -/
theorem stopThread_eq : s.stopThread s.th r =
    let u := s.stopped.pushEntry r.tenant (s.stopEntry r)
    if r.precise then u.markLane s.th.key none else u := by
  unfold State.stopThread State.setThread
  dsimp only
  rw [if_pos rfl]
  rfl

theorem stopThread_frame : (s.stopThread s.th r).th = { s.th with status := .stopped } ∧ (s.stopThread s.th r).mem = s.mem ∧
    (s.stopThread s.th r).home = s.home ∧ (s.stopThread s.th r).clusters = s.clusters ∧
    (s.stopThread s.th r).cores = s.cores := by
  rw [stopThread_eq, pushEntry_tenants]
  dsimp only
  split
  · exact markLane_frame _ _ _
  · exact ⟨rfl, rfl, rfl, rfl, rfl⟩

theorem stopThread_tenantOf (n : Nat) : (s.stopThread s.th r).tenantOf n =
    ((s.stopped.pushEntry r.tenant (s.stopEntry r)).tenantOf n).noted
      (s.laneFor r) := by
  rw [stopThread_eq]
  unfold State.laneFor
  dsimp only
  split
  · rw [markLane_tenantOf, pushEntry_tenants]
    rfl
  · exact (Tenant.noted_none _).symm

/-- The new entry is not changed by its own lane, at whatever place. -/
theorem stopEntry_noted (i : Nat) :
    FqEntry.noted (s.laneFor r) { s.stopEntry r with index := i } = { s.stopEntry r with index := i } := by
  unfold State.stopEntry
  cases s.laneFor r with
  | none => rfl
  | some l => exact addLane_withLanes

theorem stopThread_full (h : (s.tenantOf r.tenant).full) : (s.stopThread s.th r).tenantOf r.tenant =
    { (s.tenantOf r.tenant).noted (s.laneFor r) with
      held := ((s.tenantOf r.tenant).noted (s.laneFor r)).held ++ [s.stopEntry r] } := by
  have e : FqEntry.noted (s.laneFor r) (s.stopEntry r) = s.stopEntry r := stopEntry_noted s r 0
  rw [stopThread_tenantOf, pushEntry_full (s := s.stopped) _ h]
  simp only [Tenant.noted, List.map_append, List.map_cons, List.map_nil, e]
  rfl

theorem stopThread_room (h : ¬ (s.tenantOf r.tenant).full) : (s.stopThread s.th r).tenantOf r.tenant =
    { (s.tenantOf r.tenant).noted (s.laneFor r) with
      fq := ((s.tenantOf r.tenant).noted (s.laneFor r)).fq ++ [{ s.stopEntry r with index := (s.tenantOf r.tenant).fqtail }],
      fqtail := ((s.tenantOf r.tenant).fqtail + 1) % 2 ^ (s.tenantOf r.tenant).lgfq,
      irqs := (s.tenantOf r.tenant).irqs ++ [1] } := by
  rw [stopThread_tenantOf, pushEntry_room (s := s.stopped) _ h]
  simp only [Tenant.noted, List.map_append, List.map_cons, List.map_nil, stopEntry_noted]
  rfl

end

theorem laneFor_eq (s : State) (r : FaultRec) : s.laneFor r =
    if r.deferred = false ∧ r.engine = false then s.issue.map (fun i => (i.num, s.th.key)) else none := by
  unfold State.laneFor FaultRec.precise
  cases r.deferred <;> cases r.engine <;> rfl

/-- Settles O27: the entry of the stopped thread by the two cases of the queue, with the lane noted in every entry. -/
theorem handlerFaults : Obligations.HandlerFaults := by
  unfold Obligations.HandlerFaults
  intro s r h u q q' w r' lane named noted
  let v : State := { s with sup := (s.snapOnCause r.cause).sup }
  have hu : u = { v.stopThread v.th r with pfx := none } := by
    unfold u State.trap
    rw [trapThread_stops h, snapOnCause_sup]
  have hl : v.laneFor r = lane := laneFor_eq v r
  have hn : FqEntry.noted lane = noted := rfl
  have he : v.stopEntry r = ⟨0, named, w, lane⟩ := by
    unfold State.stopEntry
    rw [hl]
    rfl
  have hq : q' = (v.stopThread v.th r).tenantOf r.tenant := by
    unfold q'
    rw [hu]
    rfl
  obtain ⟨th, mem, home, clusters, cores⟩ := stopThread_frame v r
  rw [hu]
  refine ⟨th, mem, home, clusters, cores, fun room => ?_, fun full => ?_⟩
  · rw [hq, stopThread_room v r room, hl, he, ← hn]
    exact ⟨rfl, rfl, rfl⟩
  · rw [hq, stopThread_full v r full, hl, he, ← hn]
    exact ⟨rfl, rfl, rfl⟩

end Sys2Proof.Machine
end

section
/-! PROOF. What the memory system changes: its own fields alone, so that threads, teams, operations and contexts stay as they
were. One lemma for each operation, in the order of the model's files. -/

namespace Sys2Proof.Machine

/-- The state without what reads, writes and translations of memory may change. -/
def State.outer (s : State) : State :=
  { s with mem := [], home := [], poison := [], homePoison := [], viewMarks := [], registry := [], revoking := [],
           registrations := [], monitors := [], clusters := [], cores := [], walkCache := [], missed := none, tick := 0 }

theorem th_of_outer {s t : State} (h : t.outer = s.outer) : t.th = s.th :=
  (congrArg State.th h : t.outer.th = s.outer.th)

theorem ctxs_of_outer {s t : State} (h : t.outer = s.outer) : t.ctxs = s.ctxs :=
  (congrArg State.ctxs h : t.outer.ctxs = s.outer.ctxs)

theorem foldl_outer {α : Type} {f : State → α → State} (l : List α) (hf : ∀ s a, (f s a).outer = s.outer) (s : State) :
    (l.foldl f s).outer = s.outer := by
  induction l generalizing s with
  | nil => rfl
  | cons a l ih => exact (ih _).trans (hf s a)

section
variable (s : State)

/-! ### Memory and the home -/

theorem homePut_outer (pa : Nat) (b : List Byte) : (s.homePut pa b).outer = s.outer := by
  induction b generalizing s pa with
  | nil => rfl
  | cons x b ih => exact ih _ _

theorem homeToMem_outer (pa n : Nat) : (s.homeToMem pa n).outer = s.outer := by
  unfold State.homeToMem
  dsimp only
  split <;> rfl

theorem homeRoom_outer (l : Nat) : (s.homeRoom l).outer = s.outer := by
  unfold State.homeRoom
  dsimp only
  split
  · rfl
  · split
    · rfl
    · exact homeToMem_outer _ _ _

theorem homeStore_outer (pa : Nat) (b : List Byte) : (s.homeStore pa b).outer = s.outer :=
  (foldl_outer _ homeRoom_outer _).trans (homePut_outer s pa b)

theorem backUnit_outer (k : Cluster) (ds : List Nat) (u : Nat) : (s.backUnit k ds u).outer = s.outer := by
  have stored (c : Prop) [Decidable c] (b : List Byte) : (if c then s.homeStore (8 * u) b
      else (ds.filter (fun a => a / 8 == u)).foldl (fun s a => s.homeStore a [(cellGet k.bytes a).getD 0]) s).outer = s.outer := by
    split
    · exact homeStore_outer _ _ _
    · exact foldl_outer _ (fun s a => homeStore_outer s a _) s
  unfold State.backUnit
  dsimp only
  split
  · rfl
  · split
    · exact stored _ _
    · exact stored _ _

theorem writeBack_outer (c pa n : Nat) : (s.writeBack c pa n).outer = s.outer := by
  unfold State.writeBack
  dsimp only
  split
  · rfl
  · exact foldl_outer (f := fun s u => s.backUnit _ _ u) _ (fun s u => backUnit_outer s _ _ u) s

theorem revokeWord_outer (w : Nat) : (s.revokeWord w).outer = s.outer := by
  unfold State.revokeWord
  split
  · rfl
  · exact writeBack_outer _ _ _ _

theorem revokeRange_outer (pa n : Nat) : (s.revokeRange pa n).outer = s.outer := foldl_outer _ revokeWord_outer s

/-! ### Registrations and escrow -/

theorem settleElem_outer (l : Nat) (bf : Bool) (e : Nat) (p : Word) : (s.settleElem l bf e p).outer = s.outer := by
  unfold State.settleElem
  split
  · exact (homeStore_outer _ _ _).trans (revokeRange_outer _ _ _)
  · exact (homeStore_outer _ _ _).trans (revokeRange_outer _ _ _)

theorem poisonElement_outer (l : Nat) (bf : Bool) (i : Nat) : (s.poisonElement l bf i).outer = s.outer :=
  (homeStore_outer _ _ _).trans (revokeRange_outer _ _ _)

theorem registryRoom_outer (l : Nat) : (s.registryRoom l).outer = s.outer := by
  unfold State.registryRoom
  dsimp only
  split
  · rfl
  · split
    · rfl
    · exact revokeRange_outer _ _ _

theorem refreshWord_outer (c w : Nat) : (s.refreshWord c w).outer = s.outer := rfl

theorem grant_outer (c w : Nat) : (s.grant c w).outer = s.outer := by
  have room := (refreshWord_outer _ c w).trans (registryRoom_outer s (lineOf (4 * w)))
  unfold State.grant
  generalize (s.registryRoom (lineOf (4 * w))).refreshWord c w = t at room
  exact room

theorem takeWord_outer (c w : Nat) : (s.takeWord c w).outer = s.outer := by
  unfold State.takeWord
  split
  · rfl
  · exact (grant_outer _ _ _).trans (revokeWord_outer _ _)

theorem refuseWord_outer (c w : Nat) : (s.refuseWord c w).outer = s.outer := by
  unfold State.refuseWord
  split
  · exact writeBack_outer _ _ _ _
  · exact (writeBack_outer _ _ _ _).trans (revokeWord_outer _ _)

theorem takeUnit_outer (c u : Nat) (b : List Byte) : (s.takeUnit c u b).outer = s.outer := rfl

theorem homeRegister_outer (r : Registration) : (s.homeRegister r).outer = s.outer := by
  unfold State.homeRegister
  split
  · rfl
  · extract_lets t
    have handled : t.outer = s.outer := by
      unfold t
      split
      · exact foldl_outer _ (fun s w => refuseWord_outer s r.cluster w) s
      · exact foldl_outer _ (fun s w => takeWord_outer s r.cluster w) s
    exact (takeUnit_outer _ _ _ _).trans handled

theorem flushRegs_outer (c pa n : Nat) : (s.flushRegs c pa n).outer = s.outer :=
  foldl_outer _ (fun s r => homeRegister_outer s r) _

theorem settleFrom_outer (c l : Nat) : (s.settleFrom c l).outer = s.outer := by
  have flushed : (if ((s.cluster c).escrowOn l).isSome = true then s.flushRegs c l 256 else s).outer = s.outer := by
    split
    · exact flushRegs_outer _ _ _ _
    · rfl
  unfold State.settleFrom
  dsimp only
  split
  · exact flushed
  · refine (foldl_outer _ (fun s i => poisonElement_outer s l _ i) _).trans ?_
    exact (foldl_outer _ (fun s p => settleElem_outer s l _ _ _) _).trans flushed

theorem settleLine_outer (l : Nat) : (s.settleLine l).outer = s.outer := foldl_outer _ (fun s c => settleFrom_outer s c l) s

theorem homeWriteAs_outer (v : View) (pa : Nat) (b : List Byte) : (s.homeWriteAs v pa b).outer = s.outer := by
  unfold State.homeWriteAs
  dsimp only
  refine (homeStore_outer _ _ _).trans ((revokeRange_outer _ _ _).trans ?_)
  split
  · exact settleLine_outer _ _
  · rfl

theorem l1Take_outer (core pa : Nat) (b : List Byte) : (s.l1Take core pa b).outer = s.outer := by
  unfold State.l1Take
  dsimp only
  split
  · rfl
  · split <;> rfl

theorem deviceWrite_outer (core pa : Nat) (b : List Byte) : (s.deviceWrite core pa b).outer = s.outer :=
  (l1Take_outer _ _ _ _).trans ((homeWriteAs_outer _ _ _ _).trans (flushRegs_outer _ _ _ _))

/-! ### Translations -/

theorem tlbPut_outer (size : Nat) (e : TlbEntry) (l : List TlbEntry) : (s.tlbPut size e l).2.outer = s.outer := by
  unfold State.tlbPut
  split <;> rfl

theorem tlbFill_outer (core ctx : Nat) (va : Addr) (l : Leaf) : (s.tlbFill core ctx va l).outer = s.outer := by
  unfold State.tlbFill
  extract_lets t
  have filled : t.outer = s.outer := by
    unfold t
    split
    · rfl
    · exact tlbPut_outer s _ _ _
  clear_value t
  split
  · exact filled
  · exact (tlbPut_outer t _ _ _).trans filled

theorem dieWalk_outer (die ctx : Nat) (va : Addr) : (s.dieWalk die ctx va).2.outer = s.outer := by
  unfold State.dieWalk
  split
  · rfl
  · dsimp only
    split <;> rfl

theorem translate_outer (core ctx : Nat) (va : Addr) (k : Access) : (s.translate core ctx va k).2.outer = s.outer := by
  unfold State.translate
  dsimp only
  split
  · split <;> exact tlbFill_outer _ _ _ _ _
  · split
    · rfl
    · have walked := dieWalk_outer s (dieOf core) ctx va
      split
      · next e =>
        rw [State.coreWalk] at e
        rw [e] at walked
        exact walked
      · next l t e =>
        rw [State.coreWalk] at e
        rw [e] at walked
        have held : (if l.mayHold k = true then t.tlbFill core ctx va l else t).outer = s.outer := by
          split
          · exact (tlbFill_outer _ _ _ _ _).trans walked
          · exact walked
        split <;> exact held

end

end Sys2Proof.Machine
end

section
/-! PROOF. A write at home is what every reader finds (R221, R248), and the entry of a trap (R28, R29). -/

namespace Sys2Proof.Machine

/-! ### Bytes of the shared cache -/

theorem homePut_frame (s : State) (pa : Nat) (b : List Byte) :
    s.homePut pa b = { s with home := (s.homePut pa b).home } := by
  induction b generalizing s pa with
  | nil => rfl
  | cons x b ih => exact ih _ _

theorem cellGet_homePut_outside {s : State} {pa a : Nat} {b : List Byte} (h : a < pa ∨ pa + b.length ≤ a) :
    cellGet (s.homePut pa b).home a = cellGet s.home a := by
  induction b generalizing s pa with
  | nil => rfl
  | cons x b ih =>
    rw [List.length_cons] at h
    rw [State.homePut, ih (by omega), cellGet_cellPut_other _ _ (by omega)]

theorem cellGet_homePut {s : State} {pa i : Nat} {b : List Byte} (h : i < b.length) :
    cellGet (s.homePut pa b).home (pa + i) = some (b.getD i 0) := by
  induction b generalizing s pa i with
  | nil => exact absurd h (Nat.not_lt_zero _)
  | cons x b ih =>
    cases i with
    | zero =>
      rw [State.homePut, cellGet_homePut_outside (.inl (by omega))]
      exact cellGet_cellPut_same _ _ _
    | succ i =>
      have hi : i < b.length := by simpa using h
      rw [State.homePut, show pa + (i + 1) = pa + 1 + i by omega, ih hi]
      rfl

/-- A listed byte that a filter keeps is found as before. -/
theorem cellGet_filter_some {c : Cells} {p : Host.Cell → Bool} {a : Nat} {v : Byte} (h : cellGet c a = some v)
    (hp : p (a, v) = true) : cellGet (c.filter p) a = some v := by
  induction c with
  | nil => cases h
  | cons x c ih =>
    obtain ⟨b, w⟩ := x
    unfold cellGet at h
    split at h
    · next e =>
      cases h
      subst e
      rw [List.filter_cons_of_pos hp]
      simp [cellGet]
    · next ne =>
      split at h
      · cases h
      · next le =>
        cases hb : p (b, w) with
        | false => rw [List.filter_cons_of_neg (by simp [hb])]; exact ih h
        | true =>
          rw [List.filter_cons_of_pos hb, cellGet, if_neg ne, if_neg le]
          exact ih h

/-- What the shared cache holds outside a range stays there when the range goes to memory. -/
theorem cellGet_homeToMem {s : State} {l n a : Nat} {v : Byte} (h : cellGet s.home a = some v) (ha : a < l ∨ l + n ≤ a) :
    cellGet (s.homeToMem l n).home a = some v := by
  have kept : cellGet (s.home.filter (fun c => !(decide (l ≤ c.1) && decide (c.1 < l + n)))) a = some v :=
    cellGet_filter_some h (by simp; omega)
  unfold State.homeToMem
  dsimp only
  split <;> exact kept

theorem homeLines_aligned {s : State} {l : Nat} (h : l ∈ s.homeLines) : l % 256 = 0 := by
  unfold State.homeLines at h
  rw [List.mem_eraseDups] at h
  obtain ⟨c, -, rfl⟩ := List.mem_map.1 h
  simp [lineOf]

/-- A line that makes room for another leaves that one where it is (R1). -/
theorem cellGet_homeRoom {s : State} {a : Nat} {v : Byte} (h : cellGet s.home a = some v) :
    cellGet (s.homeRoom (lineOf a)).home a = some v := by
  unfold State.homeRoom
  split
  · exact h
  · extract_lets others
    split
    · exact h
    · next room =>
      have hi : (s.pick others.length).1 < others.length := by
        unfold State.pick
        dsimp only
        rw [if_neg (by omega)]
        exact Nat.mod_lt _ (by omega)
      have mem : others.getD (s.pick others.length).1 (lineOf a) ∈ others := by
        rw [List.getD_eq_getElem _ _ hi]
        exact List.getElem_mem hi
      dsimp only
      generalize others.getD (s.pick others.length).1 (lineOf a) = l at mem ⊢
      obtain ⟨held, other⟩ := List.mem_filter.1 mem
      have ne : l ≠ lineOf a := by
        intro e
        simp [e] at other
      have al := homeLines_aligned held
      refine cellGet_homeToMem h ?_
      unfold lineOf at ne
      omega

/-- The lines of bytes that lie in one line. -/
theorem linesOf_one {pa n : Nat} (h : 0 < n) (hl : pa % 256 + n ≤ 256) : linesOf pa n = [lineOf pa] := by
  have e : (pa + n - 1) / 256 - pa / 256 + 1 = 1 := by omega
  unfold linesOf lineOf
  rw [if_neg (by omega), e]
  simp [Nat.mul_comm]

theorem cellGet_homeStore {s : State} {pa i : Nat} {b : List Byte} (h : i < b.length) (hl : pa % 256 + b.length ≤ 256) :
    cellGet (s.homeStore pa b).home (pa + i) = some (b.getD i 0) := by
  have line : lineOf pa = lineOf (pa + i) := by
    unfold lineOf
    omega
  unfold State.homeStore
  rw [linesOf_one (by omega) hl, line]
  exact cellGet_homeRoom (cellGet_homePut h)

/-! ### Owners -/

theorem homeToMem_registry (s : State) (l n : Nat) : (s.homeToMem l n).registry = s.registry := by
  unfold State.homeToMem
  dsimp only
  split <;> rfl

theorem homeRoom_registry (s : State) (l : Nat) : (s.homeRoom l).registry = s.registry := by
  unfold State.homeRoom
  dsimp only
  split
  · rfl
  · split
    · rfl
    · exact homeToMem_registry _ _ _

theorem foldl_registry {α : Type} {f : State → α → State} (l : List α) (hf : ∀ s a, (f s a).registry = s.registry) (s : State) :
    (l.foldl f s).registry = s.registry := by
  induction l generalizing s with
  | nil => rfl
  | cons a l ih => exact (ih _).trans (hf s a)

theorem homeStore_registry (s : State) (pa : Nat) (b : List Byte) : (s.homeStore pa b).registry = s.registry := by
  refine (foldl_registry _ homeRoom_registry _).trans ?_
  rw [homePut_frame]

theorem backUnit_registry (s : State) (k : Cluster) (ds : List Nat) (u : Nat) : (s.backUnit k ds u).registry = s.registry := by
  have stored (c : Prop) [Decidable c] (b : List Byte) : (if c then s.homeStore (8 * u) b else
      (ds.filter (fun a => a / 8 == u)).foldl (fun s a => s.homeStore a [(cellGet k.bytes a).getD 0]) s).registry = s.registry := by
    split
    · exact homeStore_registry _ _ _
    · exact foldl_registry _ (fun s a => homeStore_registry s a _) s
  unfold State.backUnit
  dsimp only
  split
  · rfl
  · split
    · exact stored _ _
    · exact stored _ _

theorem writeBack_registry (s : State) (c pa n : Nat) : (s.writeBack c pa n).registry = s.registry := by
  unfold State.writeBack
  dsimp only
  split
  · rfl
  · exact foldl_registry (f := fun s u => s.backUnit _ _ u) _ (fun s u => backUnit_registry s _ _ u) s

/-- A revoked word has no owner (R218 step 2). -/
theorem revokeWord_registry (s : State) (w : Nat) (h : s.ownerOf w ≠ none) :
    (s.revokeWord w).registry = s.registry.filter (fun e => e.1 != w) := by
  unfold State.revokeWord
  split
  · next e => exact absurd e h
  · exact congrArg (List.filter _) (writeBack_registry _ _ _ _)

theorem ownerOf_none_iff (s : State) (w : Nat) : s.ownerOf w = none ↔ ∀ e ∈ s.registry, e.1 ≠ w := by
  simp [State.ownerOf]

theorem revokeWord_ownerOf (s : State) (w : Nat) : (s.revokeWord w).ownerOf w = none := by
  by_cases h : s.ownerOf w = none
  · simp [State.revokeWord, h]
  · rw [ownerOf_none_iff, revokeWord_registry s w h]
    simp

theorem revokeWord_keeps_none {s : State} {x : Nat} (w : Nat) (h : s.ownerOf x = none) : (s.revokeWord w).ownerOf x = none := by
  by_cases hw : s.ownerOf w = none
  · simpa [State.revokeWord, hw] using h
  · rw [ownerOf_none_iff] at h ⊢
    rw [revokeWord_registry s w hw]
    exact fun e he => h e (List.mem_of_mem_filter he)

theorem revokeRange_ownerOf {s : State} {pa n w : Nat} (h : w ∈ wordsOf pa n) : (s.revokeRange pa n).ownerOf w = none := by
  have keeps (l : List Nat) {s : State} (hs : s.ownerOf w = none) : (l.foldl State.revokeWord s).ownerOf w = none := by
    induction l generalizing s with
    | nil => exact hs
    | cons x l ih => exact ih (revokeWord_keeps_none x hs)
  unfold State.revokeRange
  generalize wordsOf pa n = l at h
  induction l generalizing s with
  | nil => cases h
  | cons x l ih =>
    obtain rfl | h := List.mem_cons.1 h
    · exact keeps l (revokeWord_ownerOf s w)
    · exact ih h

theorem mem_wordsOf {pa n i : Nat} (h : i < n) : wordOf (pa + i) ∈ wordsOf pa n := by
  unfold wordsOf wordOf
  rw [if_neg (by omega), List.mem_map]
  exact ⟨(pa + i) / 4 - pa / 4, List.mem_range.2 (by omega), by omega⟩

/-! ### A write at home -/

/-- A byte that its word's owner does not hold and the shared cache does. -/
theorem performByte_home {s : State} {a : Nat} {v : Byte} (ho : s.ownerOf (wordOf a) = none) (hc : cellGet s.home a = some v) :
    s.performByte a = v := by
  simp [State.performByte, State.homeByte, ho, hc]

theorem performByte_congr {s t : State} (hr : t.registry = s.registry) (hk : t.clusters = s.clusters) (hh : t.home = s.home)
    (hm : t.mem = s.mem) (a : Nat) : t.performByte a = s.performByte a := by
  unfold State.performByte State.ownerOf State.homeByte State.cluster
  rw [hr, hk, hh, hm]

/-- A write at home leaves its words without an owner and its bytes in the shared cache. -/
theorem homeWriteAs_written {s : State} {v : View} {pa i : Nat} {b : List Byte} (h : i < b.length)
    (hl : pa % 256 + b.length ≤ 256) : (s.homeWriteAs v pa b).ownerOf (wordOf (pa + i)) = none ∧
      cellGet (s.homeWriteAs v pa b).home (pa + i) = some (b.getD i 0) := by
  unfold State.homeWriteAs
  extract_lets s1 s2 s3
  have own : s3.ownerOf (wordOf (pa + i)) = none := revokeRange_ownerOf (mem_wordsOf h)
  refine ⟨?_, cellGet_homeStore (s := s3) h hl⟩
  rw [ownerOf_none_iff] at own ⊢
  exact fun e he => own e (by rwa [← homeStore_registry s3 pa b])

theorem l1Take_memory (s : State) (core pa : Nat) (b : List Byte) :
    (s.l1Take core pa b).registry = s.registry ∧ (s.l1Take core pa b).clusters = s.clusters ∧
      (s.l1Take core pa b).home = s.home ∧ (s.l1Take core pa b).mem = s.mem := by
  unfold State.l1Take
  dsimp only
  split
  · exact ⟨rfl, rfl, rfl, rfl⟩
  · split <;> exact ⟨rfl, rfl, rfl, rfl⟩

/-- What a core's device-scope write inside a line leaves for every reader (R221). -/
theorem deviceWrite_performByte {s : State} {core pa i : Nat} {b : List Byte} (h : i < b.length)
    (hl : pa % 256 + b.length ≤ 256) : (s.deviceWrite core pa b).performByte (pa + i) = b.getD i 0 := by
  unfold State.deviceWrite State.deviceWriteAs
  extract_lets s1 s2 s3
  obtain ⟨own, cell⟩ : s2.ownerOf (wordOf (pa + i)) = none ∧ cellGet s2.home (pa + i) = some (b.getD i 0) :=
    homeWriteAs_written h hl
  obtain ⟨registry, clusters, home, mem⟩ := l1Take_memory s3 core pa b
  rw [performByte_congr registry clusters home mem]
  exact performByte_home (s := s3) own cell

/-! ### The entry of a trap -/

theorem leBytes_length (n x : Nat) : (leBytes n x).length = n := by
  induction n generalizing x with
  | zero => rfl
  | succ n ih => simp [leBytes, ih]

/-- R29: a record has 64 bytes. -/
theorem toBytes_length (r : FaultRec) : r.toBytes.length = 64 := by
  simp [FaultRec.toBytes, leBytes_length]

theorem setThread_th {s : State} {t : Thread} (h : s.th.key = t.key) : (s.setThread t).th = t := by
  unfold State.setThread
  rw [if_pos h]

theorem setThread_performByte (s : State) (t : Thread) (a : Nat) : (s.setThread t).performByte a = s.performByte a :=
  performByte_congr (by simp) (by simp) (by simp) (by simp) a

theorem markLane_kept (s : State) (k : ThreadKey) (pa : Option Nat) : (s.markLane k pa).th = s.th ∧
    (s.markLane k pa).ctxs = s.ctxs ∧ (s.markLane k pa).registry = s.registry ∧ (s.markLane k pa).clusters = s.clusters ∧
    (s.markLane k pa).home = s.home ∧ (s.markLane k pa).mem = s.mem := by
  unfold State.markLane
  cases s.issue with
  | none => exact ⟨rfl, rfl, rfl, rfl, rfl, rfl⟩
  | some i => exact ⟨rfl, rfl, rfl, rfl, rfl, rfl⟩

/-- The state whose record of a trap stands in the fault area (R28): the thread has still to enter its handler. -/
def State.recorded (s : State) (m : Team) (k : ThreadKey) (r : FaultRec) (pa : Nat) : State :=
  if r.precise then (s.deviceWrite m.core pa r.toBytes).markLane k (some pa) else s.deviceWrite m.core pa r.toBytes

theorem recorded_kept (s : State) (m : Team) (k : ThreadKey) (r : FaultRec) (pa : Nat) :
    (s.recorded m k r pa).th = s.th ∧ (s.recorded m k r pa).ctxs = s.ctxs ∧
      ∀ a, (s.recorded m k r pa).performByte a = (s.deviceWrite m.core pa r.toBytes).performByte a := by
  have outer := deviceWrite_outer s m.core pa r.toBytes
  unfold State.recorded
  split
  · obtain ⟨th, ctxs, registry, clusters, home, mem⟩ := markLane_kept (s.deviceWrite m.core pa r.toBytes) k (some pa)
    exact ⟨th.trans (th_of_outer outer), ctxs.trans (ctxs_of_outer outer), performByte_congr registry clusters home mem⟩
  · exact ⟨th_of_outer outer, ctxs_of_outer outer, fun _ => rfl⟩

/-- A thread outside a handler, whose record has a place, enters its handler (R28). -/
theorem trapThread_enters {s s' : State} {t : Thread} {m : Team} {r : FaultRec} {fpc : Addr} {resume : Addr × Nat}
    {count : Nat} {replay : Option Nat} {l : Leaf} {pa : Nat} (ha : t.trapActive = false) (hg : t.key.group < m.fgroups)
    (hp : (s.snapOnCause r.cause).recPlace m t.key = (.ok (l, pa), s')) :
    let u := s'.recorded m t.key r pa
    s.trapThread t m r fpc resume count replay = u.setThread
      { (t.progress.goto (((u.ctxOf m.ctx).map Ctx.tvec).getD 0)) with
        cause := BitVec.ofNat 32 r.cause, fpc := fpc, fpc0 := fpc, trapActive := true, replay := replay, status := .ready,
        resume := { own := !r.precise, hdr := resume.1, word := resume.2, clause := r.clause, count := count } } := by
  have here : (t.trapActive || decide (m.fgroups ≤ t.key.group)) = false := by simp [ha, hg]
  unfold State.trapThread
  dsimp only
  rw [here, hp]
  rfl

/-- Settles O26: the record is written at its place by a device-scope write, which leaves the thread and its context alone. -/
theorem trapEntry : Obligations.TrapEntry := by
  unfold Obligations.TrapEntry
  intro s s' r l pa ha hg hp h64 u t tvec
  obtain ⟨th, ctxs, bytes⟩ := recorded_kept s' s.tm s.th.key r pa
  have outer : s'.outer = (s.snapOnCause r.cause).outer := by
    have h := translate_outer (s.snapOnCause r.cause) s.tm.core s.tm.ctx (frecOf s.tm s.th.key) .write
    rwa [← State.recPlace, hp] at h
  have hth : (s'.recorded s.tm s.th.key r pa).th = s.th := by
    rw [th, th_of_outer outer, snapOnCause_sup]
  have hv : (((s'.recorded s.tm s.th.key r pa).ctxOf s.tm.ctx).map Ctx.tvec).getD 0 = tvec := by
    unfold tvec State.ctxOf
    rw [ctxs, ctxs_of_outer outer, snapOnCause_sup]
  have hu : u = { s.trapThread s.th s.tm r s.wordPc (s.header, s.wordIdx) s.clauseCount none with pfx := none } := rfl
  rw [trapThread_enters ha hg hp, hv] at hu
  have key : (s'.recorded s.tm s.th.key r pa).th.key = s.th.key := by rw [hth]
  have ht : t = _ := (congrArg State.th hu).trans (setThread_th key)
  rw [ht, hu]
  refine ⟨rfl, rfl, rfl, rfl, rfl, rfl, rfl, rfl, rfl, rfl, rfl, rfl, rfl, rfl, rfl, fun i hi => ?_⟩
  have hi' : i < r.toBytes.length := by rwa [toBytes_length]
  refine (setThread_performByte _ _ _).trans ((bytes _).trans (deviceWrite_performByte hi' ?_))
  rw [toBytes_length]
  omega

end Sys2Proof.Machine
end

section
/-! PROOF. Spawns (R17 to R20, R101). -/

namespace Sys2Proof.Machine

/-! ### Tills -/

theorem till_some {m : Team} {i : Nat} {t : Till} (h : m.till i = some t) : i < m.tills.length := by
  by_contra hi
  simp [Team.till, not_lt.1 hi] at h

theorem freeTill_some {m : Team} {i : Nat} (h : m.freeTill = some i) : i < m.tills.length := by
  have hi := List.find?_some h
  simp only [decide_eq_true_eq] at hi
  exact (List.getElem?_eq_some_iff.1 hi).1

theorem freeTill_none {m : Team} (h : ∀ k, k < 8 → (m.till k).isSome = true) : m.freeTill = none := by
  unfold Team.freeTill
  rw [List.find?_eq_none]
  intro k hk e
  have hs := h k (List.mem_range.1 hk)
  simp only [decide_eq_true_eq] at e
  simp [Team.till, List.getD, e] at hs

theorem till_setTill {m : Team} {i : Nat} (t : Option Till) (h : i < m.tills.length) : (m.setTill i t).till i = t := by
  simp [Team.till, Team.setTill, h]

theorem setTill_setTill (m : Team) (i : Nat) (t u : Option Till) : (m.setTill i t).setTill i u = m.setTill i u := by
  simp [Team.setTill]

/-! ### The team of the acting thread -/

theorem team?_self (s : State) : s.team? s.tm.uid = some s.tm := if_pos rfl

theorem setTeam_setTill (s : State) (i : Nat) (t : Option Till) :
    s.setTeam (s.tm.setTill i t) = { s with tm := s.tm.setTill i t } := if_pos rfl

/-- A till of the acting team becomes due (R18). -/
theorem makeDue_self {s : State} {i : Nat} {t : Till} (h : s.tm.till i = some t) (hd : t.due = none) :
    s.makeDue s.tm.uid i = { s with tm := s.tm.setTill i (some { t with due := some s.dueOrder }), dueOrder := s.dueOrder + 1 } := by
  unfold State.makeDue
  rw [team?_self]
  dsimp only
  rw [h]
  dsimp only
  rw [hd, setTeam_setTill]
  rfl

/-- An argument comes into a till of the acting team, which becomes due with its 32nd or at a flush (R17, R18). -/
def State.fill (s : State) (i : Nat) (t : Till) (x : Word) (flush : Bool) : State :=
  let u := s.setTeam (s.tm.setTill i (some { t with args := t.args ++ [x] }))
  if (t.args ++ [x]).length = 32 ∨ flush = true then u.makeDue s.tm.uid i else u

theorem fill_quiet {s : State} {i : Nat} {t : Till} {x : Word} (h : t.args.length < 31) :
    s.fill i t x false = { s with tm := s.tm.setTill i (some { t with args := t.args ++ [x] }) } := by
  unfold State.fill
  rw [if_neg (by simp; omega)]
  exact setTeam_setTill s i _

/-- The 32nd argument makes the till due, with a flush or without. -/
theorem fill_last {s : State} {i : Nat} {t : Till} {x : Word} (h : t.args.length = 31) :
    s.fill i t x false = s.fill i t x true := by
  have len : (t.args ++ [x]).length = 32 := by simp [h]
  unfold State.fill
  rw [if_pos (.inl len), if_pos (.inl len)]

theorem fill_due {s : State} {i : Nat} {t : Till} {x : Word} {flush : Bool} (hi : i < s.tm.tills.length) (hd : t.due = none)
    (h : t.args.length = 31 ∨ flush = true) : s.fill i t x flush =
      { s with tm := s.tm.setTill i (some { t with args := t.args ++ [x], due := some s.dueOrder }), dueOrder := s.dueOrder + 1 } := by
  unfold State.fill
  dsimp only
  rw [if_pos (by simpa using h), setTeam_setTill]
  have e := makeDue_self (s := { s with tm := s.tm.setTill i (some { t with args := t.args ++ [x] }) })
    (till_setTill _ hi) hd
  rw [setTill_setTill] at e
  exact e

/-! ### Where the argument goes -/

section
variable {s : State} {entry : Addr} {r : Role} {i : Nat} {x : Word} {flush : Bool}

theorem placeSpawn_listed {t : Till} (h : s.tm.tillOf entry r = some i) (ht : s.tm.till i = some t) :
    s.placeSpawn s.tm.uid entry r x flush = if 32 ≤ t.args.length then none else some (s.fill i t x flush) := by
  unfold State.placeSpawn
  rw [team?_self]
  dsimp only
  rw [h]
  dsimp only
  rw [ht]
  rfl

theorem placeSpawn_new (h : s.tm.tillOf entry r = none) (hf : s.tm.freeTill = some i) :
    s.placeSpawn s.tm.uid entry r x flush =
      some (s.fill i { entry := entry, role := r, args := [], due := none, timer := s.tm.tillp } x flush) := by
  unfold State.placeSpawn
  rw [team?_self]
  dsimp only
  rw [h]
  dsimp only
  rw [hf]
  rfl

theorem placeSpawn_taken (h : s.tm.tillOf entry r = none) (hf : s.tm.freeTill = none) :
    s.placeSpawn s.tm.uid entry r x flush = none := by
  unfold State.placeSpawn
  rw [team?_self]
  dsimp only
  rw [h]
  dsimp only
  rw [hf]

end

/-! ### The words -/

section
variable {s : State} {r : Role} {a : Nat} {o : BitVec 15} {flush : Bool}
  (hc : s.canRun 0 none [a] [] = true) (hb : s.bare = true)
include hc hb

theorem spawnForm_unlisted (h : s.tm.entryRec (branchTarget s.header o) r = none) : s.spawnForm flush r a o =
    .next (s.trap { s.here with cause := 0x0D, vaddr := branchTarget s.header o }) := by
  refine (word_runs _ hc (prefixOk_bare hb)).trans ?_
  dsimp only
  rw [h]
  rfl

theorem spawnForm_placed {u : State} (h : (s.tm.entryRec (branchTarget s.header o) r).isSome = true)
    (hp : s.placeSpawn s.tm.uid (branchTarget s.header o) r (s.th.reg a) flush = some u) :
    s.spawnForm flush r a o = .next (u.advance.releaseTills u.tm.uid) := by
  refine (word_runs _ hc (prefixOk_bare hb)).trans ?_
  obtain ⟨e, he⟩ := Option.isSome_iff_exists.1 h
  dsimp only
  rw [he]
  dsimp only
  rw [hp]

theorem spawnForm_parks (h : (s.tm.entryRec (branchTarget s.header o) r).isSome = true)
    (hp : s.placeSpawn s.tm.uid (branchTarget s.header o) r (s.th.reg a) flush = none) : s.spawnForm flush r a o =
      .next ((s.park (.spawn (branchTarget s.header o) r (s.th.reg a) flush)).spawnDeadlock s.tm.uid) := by
  refine (word_runs _ hc (prefixOk_bare hb)).trans ?_
  obtain ⟨e, he⟩ := Option.isSome_iff_exists.1 h
  dsimp only
  rw [he]
  dsimp only
  rw [hp]

end

/-! ### Releases -/

theorem releaseUpTo_held {u : State} {m : Team} (hm : u.team? m.uid = some m) (h : u.canRelease m = none) (n : Nat) :
    u.releaseUpTo m.uid n = u := by
  have none : u.releaseNext m.uid = none := by simp [State.releaseNext, hm, h]
  cases n with
  | zero => rfl
  | succ n => simp [State.releaseUpTo, none]

/-- A team with a thread that is not parked on a spawn is in no deadlock (R20). -/
theorem spawnDeadlock_quiet {u : State} {m : Team} (hm : u.team? m.uid = some m) {v : Thread} (hv : v ∈ u.threadsOf m.uid)
    (h : ∀ en ro ar fl, v.status ≠ .parked (.spawn en ro ar fl)) : u.spawnDeadlock m.uid = u := by
  have quiet : u.spawnDeadlocked m = false := by
    unfold State.spawnDeadlocked
    simp only [Bool.and_eq_false_iff, List.all_eq_false]
    refine .inl (.inl (.inr ⟨v, hv, ?_⟩))
    split
    · next e => exact absurd e (h _ _ _ _)
    · exact Bool.false_ne_true
  unfold State.spawnDeadlock
  rw [hm]
  dsimp only
  rw [quiet]
  rfl

/-- Settles O32: the till that takes the argument by the cases of `placeSpawn`, then the word's own releases. -/
theorem spawns : Obligations.Spawns := by
  unfold Obligations.Spawns
  intro s r a i o hc hb entry x
  have parks (h : (s.tm.entryRec entry r).isSome = true) (hp : ∀ flush, s.placeSpawn s.tm.uid entry r x flush = none) :
      exec (.spawn r a o) s = .next ((s.park (.spawn entry r x false)).spawnDeadlock s.tm.uid) ∧
        exec (.spawnf r a o) s = .next ((s.park (.spawn entry r x true)).spawnDeadlock s.tm.uid) :=
    ⟨spawnForm_parks hc hb h (hp false), spawnForm_parks hc hb h (hp true)⟩
  refine ⟨fun h => ?_, fun h hn hf => ?_, fun h hn ht => ?_, fun t h hi ht => ?_, fun u m hm h => ?_⟩
  · have unlisted (flush : Bool) := spawnForm_unlisted (flush := flush) hc hb h
    exact ⟨unlisted false, (unlisted true).trans (unlisted false).symm⟩
  · intro t
    have hi := freeTill_some hf
    refine ⟨spawnForm_placed hc hb h ((placeSpawn_new hn hf).trans (congrArg some (fill_quiet (by simp)))),
      spawnForm_placed hc hb h ((placeSpawn_new hn hf).trans (congrArg some (fill_due hi rfl (.inr rfl))))⟩
  · exact parks h fun flush => placeSpawn_taken hn (freeTill_none ht)
  · have placed (flush : Bool) := placeSpawn_listed (x := x) (flush := flush) hi ht
    have room (flush : Bool) (n : t.args.length < 32) : s.placeSpawn s.tm.uid entry r x flush = some (s.fill i t x flush) := by
      rw [placed flush, if_neg (by omega)]
    refine ⟨fun n => ?_, fun n => ?_, fun n => ?_, fun n hd => ?_⟩
    · exact spawnForm_placed hc hb h ((room false (by omega)).trans (congrArg some (fill_quiet n)))
    · show s.spawnForm false r a o = s.spawnForm true r a o
      rw [spawnForm_placed hc hb h (room false (by omega)), spawnForm_placed hc hb h (room true (by omega)), fill_last n]
    · exact parks h fun flush => by rw [placed flush, if_pos (by omega)]
    · exact spawnForm_placed hc hb h ((room true n).trans (congrArg some (fill_due (till_some ht) hd (.inr rfl))))
  · have held : u.releaseTills m.uid = u.spawnDeadlock m.uid := by
      rw [State.releaseTills, releaseUpTo_held hm h]
    exact ⟨held, fun ⟨v, hv, hs⟩ => held.trans (spawnDeadlock_quiet hm hv hs)⟩

end Sys2Proof.Machine
end

section
/-! PROOF. Events of threads, tills and teams on a core (R18 to R26, R37, R38, R133, R225, R379). -/

namespace Sys2Proof.Machine

/-! ### The opening of a clause -/

theorem bitsAt_top (w : Word) : bitsAt w.toNat 28 4 = w.toNat / 2 ^ 28 := by
  have := w.isLt
  unfold bitsAt
  omega

theorem openClause_opens {s s₁ s₂ : State} {t : Thread} {m : Team} {h : Word} {ws : List Word}
    (hh : s.fetchWord m t.hdr = (.ok h, s₁)) (hn : bitsAt h.toNat 28 4 ≠ 0)
    (hw : s₁.fetchWords m (bitsAt h.toNat 28 4) (addr57 (t.hdr + 4)) = (.ok ws, s₂)) (ho : headerOk h.toNat = true)
    (hc : clauseCheck ws = none) (wait : s₂.headerWait t m h.toNat = none) : s.openClause t m =
      some (s₂.setThread { t with clause := some (clauseOf t.hdr h.toNat ws (max t.startAt 1)),
                                  pc := addr57 (t.hdr + BitVec.ofNat 64 (4 * max t.startAt 1)) }) := by
  unfold State.openClause
  rw [hh]
  dsimp only
  rw [if_neg hn, hw]
  dsimp only
  rw [ho, hc]
  dsimp only
  rw [wait]
  rfl

/-- A ready thread at a header with nothing to wait for opens its clause (R38). -/
theorem clauseIssue_opens {s : State} {k : ThreadKey} {t : Thread} {m : Team} (ht : s.thread? k = some t)
    (hm : s.team? k.team = some m) (live : t.live = true) (ready : t.status = .ready) (hc : t.clause = none)
    (res : m.resident = true) (pre : m.preempt = none) (hu : s.unflagged t = none) :
    exec (.clauseIssue k) s = s.orStay (s.openClause t m) := by
  show execClauseIssue k s = _
  unfold execClauseIssue
  rw [ht, hm]
  dsimp only
  rw [live, ready, hc, res, pre, hu]
  rfl

/-! ### The watchdog and tills -/

/-- R24: the trap at the word, or at the header where no clause is open. -/
theorem watchdog_traps {s : State} {k : ThreadKey} {t : Thread} {m : Team} (ht : s.thread? k = some t)
    (hm : s.team? k.team = some m) (live : t.live = true) (counts : t.status.counts = true) (res : m.resident = true)
    (late : ((s.ctxOf m.ctx).map Ctx.wdog).getD (2 ^ 24) ≤ t.watchdog.toNat) : exec (.watchdog k) s =
      .next (if t.clause.isNone then s.headerTrap t m (fun r => { r with cause := 0x0A })
        else s.trapAtWord t m (fun r => { r with cause := 0x0A })) := by
  show execWatchdog k s = _
  unfold execWatchdog
  rw [ht, hm]
  dsimp only
  rw [live, counts, res, decide_eq_true late]
  cases t.clause <;> rfl

theorem tillTimer_due {s : State} {u i : Nat} {m : Team} {t : Till} (hm : s.team? u = some m) (ht : m.till i = some t)
    (res : m.resident = true) (timer : t.timer = 0) (due : t.due = none) (args : t.args ≠ []) :
    exec (.tillTimerExpiry u i) s = .next ((s.makeDue u i).releaseTills u) := by
  have some_ : t.args.isEmpty = false := by simpa using args
  show execTillTimerExpiry u i s = _
  unfold execTillTimerExpiry
  rw [hm]
  dsimp only
  rw [ht]
  dsimp only
  rw [res, timer, due, some_]
  rfl

/-- R19: the till's arguments become a group of their own. -/
theorem tillRelease_forms {s : State} {u i g run w : Nat} {m : Team} {t : Till} (hm : s.team? u = some m)
    (hr : s.canRelease m = some (i, t, g, run, w)) : exec (.tillRelease u i) s =
      .next (((s.formGroup (m.setTill i none) g run t.entry t.role w t.args).wakeSpawners u).spawnDeadlock u) := by
  have next : s.releaseNext u = some ((s.formGroup (m.setTill i none) g run t.entry t.role w t.args).wakeSpawners u) := by
    unfold State.releaseNext
    rw [hm, Option.bind_some, hr]
    rfl
  show execTillRelease u i s = _
  unfold execTillRelease
  rw [hm]
  dsimp only
  rw [hr, next]
  exact congrArg (State.orStay s) (if_pos rfl)

/-! ### Pre-emption -/

/-- The chosen team is one of those to choose from. -/
theorem firstVictim_mem {s : State} {l : List Team} {v : Team} (h : s.firstVictim l = some v) : v ∈ l := by
  unfold State.firstVictim at h
  refine List.foldlRecOn l _ (motive := fun best => ∀ v, best = some v → v ∈ l)
    (fun w (e : none = some w) => nomatch e) (fun best hb m hm v hv => ?_) v h
  split at hv
  · cases hv
    exact hm
  · next b =>
    split at hv
    · cases hv
      exact hm
    · exact hb v hv

theorem victim_gridOfTeam {s : State} {die : Nat} {v : Team} (h : s.victim die = some v) : ∃ g, s.gridOfTeam v = some g := by
  unfold State.victim at h
  split at h
  · cases h
  · obtain ⟨-, chosen⟩ := List.mem_filter.1 (firstVictim_mem h)
    unfold State.choosable at chosen
    cases hg : s.gridOfTeam v with
    | none => simp [hg] at chosen
    | some g => exact ⟨g, rfl⟩

theorem preemptionRequest_gives {s : State} {u : Nat} {m v : Team} (hm : s.team? u = some m) (hv : s.victim m.die = some v)
    (huid : v.uid = u) : exec (.preemptionRequest u) s = .next (s.giveUp v) := by
  show execPreemptionRequest u s = _
  unfold execPreemptionRequest
  rw [hm]
  dsimp only
  rw [hv]
  exact congrArg (State.orStay s) (if_pos huid)

theorem graceBudget_stops {s : State} {u : Nat} {m : Team} (hm : s.team? u = some m) (res : m.resident = true)
    (pre : m.preempt = some ⟨0⟩) (left : s.unstopped m = true) :
    exec (.graceBudgetExpiry u) s = .next (s.mapThreads m.stopWhole) := by
  show execGraceBudgetExpiry u s = _
  unfold execGraceBudgetExpiry
  rw [hm]
  dsimp only
  rw [pre]
  dsimp only
  rw [res, left]
  rfl

/-! ### The compactor -/

theorem compactorMove_run {s : State} {u n d : Nat} {m : Team} {g : Group} (hm : s.team? u = some m) (res : m.resident = true)
    (hg : m.groups.find? (fun g => g.num == n) = some g) (still : s.runStill m n = true) (aligned : d % g.blocks = 0)
    (inside : d + g.blocks ≤ 256) (free : s.blocksFree m.core d g.blocks = true) : exec (.compactorMove u (some n) d) s =
      .next (s.setTeam { m with groups := m.groups.map (fun x => if x.num = n then { x with run := d } else x) }) := by
  show execCompactorMove u (some n) d s = _
  unfold execCompactorMove
  rw [hm]
  dsimp only
  rw [res, hg]
  dsimp only
  rw [still, aligned, decide_eq_true inside, free]
  rfl

theorem compactorMove_scratch {s : State} {u d : Nat} {m : Team} (hm : s.team? u = some m) (res : m.resident = true)
    (some_ : m.sgran ≠ 0) (still : s.scratchStill m = true) (aligned : d % granules m.sgran = 0)
    (inside : d + granules m.sgran ≤ 128) (free : s.granulesFree m.core d (granules m.sgran) = true) :
    exec (.compactorMove u none d) s = .next (s.setTeam { m with srun := d }) := by
  have held : (m.sgran != 0) = true := by simpa using some_
  show execCompactorMove u none d s = _
  unfold execCompactorMove
  rw [hm]
  dsimp only
  rw [res, held, still, aligned, decide_eq_true inside, free]
  rfl

/-! ### Waits in overflow mode -/

theorem mwaitOverflowPoll_reads {s : State} {k : ThreadKey} {t : Thread} {m : Team} {va : Addr} {c : Nat} {v : Word}
    (ht : s.thread? k = some t) (hs : t.status = .parked (.mwaitOverflow va c v)) (hm : s.team? k.team = some m)
    (res : m.resident = true) : exec (.mwaitOverflowPoll k) s =
      .next ((s.pollMwait m va c v).2.setThread
        (if (s.pollMwait m va c v).1 then { t with status := .ready } else { t with poll := 4096 })) := by
  show execMwaitOverflowPoll k s = _
  unfold execMwaitOverflowPoll
  rw [ht, hm]
  dsimp only
  rw [hs]
  dsimp only
  rw [if_pos res]
  rfl

theorem pollMwait_readable {s s' : State} {m : Team} {va : Addr} {c : Nat} {v : Word} {l : Leaf} {pa : Nat}
    (ht : s.translate m.core m.ctx va .read = (.ok (l, pa), s')) (hr : s'.homeReadable m.core va pa 4 = .ok ()) :
    s.pollMwait m va c v = (cmpHolds c (leWord (s'.homeAt none m.core pa 4).1) v, (s'.homeAt none m.core pa 4).2) := by
  unfold State.pollMwait
  rw [ht]
  dsimp only
  rw [hr]

end Sys2Proof.Machine

namespace Sys2Proof
open Machine

/-- Settles O53: one lemma for each event. -/
theorem threadEvents : Obligations.ThreadEvents := by
  unfold Obligations.ThreadEvents
  intro s
  refine ⟨fun k t m h ws s₁ s₂ ht hm live ready hc res pre hu hh hn hw ho hk wait => ?_,
    fun k t m ht hm live counts res late => watchdog_traps ht hm live counts res late,
    fun u m i t hm ht res => ⟨fun timer due args => tillTimer_due hm ht res timer due args,
      fun g run w hr => tillRelease_forms hm hr⟩,
    fun u m hm => ⟨fun v hv hid => ?_, fun res pre left => graceBudget_stops hm res pre left,
      fun n g d res hg still aligned inside free => compactorMove_run hm res hg still aligned inside free,
      fun d res held still aligned inside free => compactorMove_scratch hm res held still aligned inside free⟩,
    fun k t m va c v ht hs hm res => ⟨mwaitOverflowPoll_reads ht hs hm res, fun l pa s' hx hr => pollMwait_readable hx hr⟩,
    fun n hn free => ?_⟩
  · rw [← bitsAt_top] at hn hw ⊢
    rw [clauseIssue_opens ht hm live ready hc res pre hu, openClause_opens hh hn hw ho hk wait]
    rfl
  · obtain ⟨g, hg⟩ := victim_gridOfTeam hv
    rw [preemptionRequest_gives hm hv hid]
    unfold State.giveUp
    rw [hg]
    dsimp only
    exact ⟨g, rfl, fun b => by rw [if_pos b]; rfl, fun b => by rw [if_neg b]⟩
  · exact congrArg (State.orStay s) (if_pos (by rw [decide_eq_true hn, free]; rfl))

end Sys2Proof
end

section
/-! PROOF. Every state has a next one (R28): each word and each event answers with a state. One lemma for each shared
operation that goes on with a rest of a word, then one for each word that chooses between answers. -/

namespace Sys2Proof.Machine

/-- The answer is a next state. -/
def Out.Answers (o : Out) : Prop := ∃ t, o = .next t

theorem answers_next {t : State} : Out.Answers (.next t) := ⟨t, rfl⟩

section
variable {s : State}

/-! ### What goes on with the rest of a word -/

section
variable {body : State → Out} (h : ∀ t, Out.Answers (body t))
include h

theorem waitFor_answers {kind} : Out.Answers (s.waitFor kind body) := by
  unfold State.waitFor
  dsimp only
  split
  · exact h _
  · split
    · split <;> exact answers_next
    · exact answers_next

theorem withRegs_answers {reads writes} : Out.Answers (s.withRegs reads writes body) := by
  unfold State.withRegs
  split
  · split <;> exact answers_next
  · exact h _

theorem checked_answers {i} : Out.Answers (s.checked i body) := by
  unfold State.checked
  split
  · exact answers_next
  · exact h _

theorem word_answers {i} : Out.Answers (s.word i body) := checked_answers (fun _ => withRegs_answers h)

theorem maskable_answers {i ds} : Out.Answers (s.maskable i ds body) := by
  refine checked_answers (fun t => ?_)
  split
  · exact answers_next
  · exact withRegs_answers (fun _ => answers_next)
  · exact withRegs_answers h

theorem memWord_answers {i} : Out.Answers (s.memWord i body) := word_answers (fun _ => waitFor_answers h)

theorem tracked_answers {e} : Out.Answers (s.tracked e body) := by
  unfold State.tracked
  split
  · exact h _
  · exact answers_next

theorem trackedMem_answers {i e} : Out.Answers (s.memWord i (fun t => t.tracked e body)) :=
  memWord_answers (fun _ => tracked_answers h)

theorem stashWhole_answers {n l off flagged vs} : Out.Answers (s.stashWhole n l off flagged body vs) := by
  induction vs generalizing s with
  | nil => exact h _
  | cons v vs ih =>
    unfold State.stashWhole
    dsimp only
    split
    · split
      · exact ih
      · exact answers_next
    · exact h _

theorem withAddr_answers {va size} : Out.Answers (s.withAddr va size body) := by
  unfold State.withAddr
  split
  · exact h _
  · exact answers_next

theorem wordAddr_answers {va size} : Out.Answers (s.wordAddr va size body) := by
  refine withAddr_answers (fun t => ?_)
  split
  · exact answers_next
  · exact h _

theorem waitPhase_answers {faults b q p} : Out.Answers (s.waitPhase faults b q p body) := by
  unfold State.waitPhase
  split
  · exact answers_next
  · dsimp only
    split
    · exact h _
    · exact answers_next

theorem queued_answers {which size} : Out.Answers (s.queued which size body) := by
  unfold State.queued
  split
  · exact h _
  · exact answers_next

theorem copyRange_answers {m o n} : Out.Answers (s.copyRange m o n body) := by
  unfold State.copyRange
  split
  · exact answers_next
  · exact h _

theorem copyStash_answers {o n} : Out.Answers (s.copyStash o n body) := by
  unfold State.copyStash
  split
  · exact answers_next
  · exact h _

theorem tileRange_answers {o n align} : Out.Answers (s.tileRange o n align body) := by
  unfold State.tileRange
  split
  · exact answers_next
  · exact copyStash_answers h

theorem blockAddr_answers {a size} : Out.Answers (s.blockAddr a size body) := by
  unfold State.blockAddr
  split
  · exact h _
  · exact answers_next

theorem beforeSignal_answers : Out.Answers (s.beforeSignal body) := by
  refine waitFor_answers (fun t => ?_)
  split
  · split
    · exact h _
    · exact answers_next
  · exact h _

end

theorem indirect_answers {x i} {go : Nat → State → Out} (h : ∀ n t, Out.Answers (go n t)) :
    Out.Answers (s.indirect x i go) := by
  unfold State.indirect
  dsimp only
  split
  · exact answers_next
  · exact h _ _

theorem withPa_answers {va k} {body : State → Leaf → Nat → Out} (h : ∀ t l pa, Out.Answers (body t l pa)) :
    Out.Answers (s.withPa va k body) := by
  unfold State.withPa
  split
  · exact answers_next
  · split
    · exact answers_next
    · exact h _ _ _

theorem withRw_answers {va body} (h : ∀ t pa, Out.Answers (body t pa)) : Out.Answers (s.withRw va body) := by
  unfold State.withRw
  split
  · exact answers_next
  · split
    · exact answers_next
    · exact h _ _

theorem stashTouch_answers {w l off store flagged body} (h : ∀ t b, Out.Answers (body t b)) :
    Out.Answers (s.stashTouch w l off store flagged body) := by
  unfold State.stashTouch
  dsimp only
  split
  · exact answers_next
  · exact answers_next
  · split
    · exact answers_next
    · split
      · exact answers_next
      · exact h _ _

theorem stashLoad_answers {w l off n flagged} {body : State → Out} (h : ∀ t, Out.Answers (body t)) :
    Out.Answers (s.stashLoad w l off n flagged body) :=
  stashTouch_answers (fun _ _ => stashWhole_answers h)

theorem stashStore_answers {w l off n} {body : State → Out} (h : ∀ t, Out.Answers (body t)) :
    Out.Answers (s.stashStore w l off n body) :=
  stashTouch_answers (fun _ _ => h _)

theorem scratchAccess_answers {o n store body} (h : ∀ t a, Out.Answers (body t a)) :
    Out.Answers (s.scratchAccess o n store body) := by
  unfold State.scratchAccess
  split
  · exact answers_next
  · dsimp only
    split
    · split
      · exact stashStore_answers (fun _ => h _ _)
      · exact stashLoad_answers (fun _ => h _ _)
    · split
      · exact answers_next
      · exact h _ _

theorem withRing_answers {n body} (h : ∀ t r, Out.Answers (body t r)) : Out.Answers (s.withRing n body) := by
  unfold State.withRing
  dsimp only
  split
  · exact h _ _
  · exact answers_next

theorem copyWord_answers {e f reads b body} (h : ∀ t m, Out.Answers (body t m)) :
    Out.Answers (s.copyWord e f reads b body) := by
  refine trackedMem_answers (fun _ => queued_answers (fun t => ?_))
  dsimp only
  split
  · exact answers_next
  · exact h _ _

theorem withRecord_answers {va n} {body : State → Out} (h : ∀ t, Out.Answers (body t)) :
    Out.Answers (s.withRecord va n body) := by
  unfold State.withRecord
  split
  · exact stashTouch_answers (fun _ _ => answers_next)
  · exact h _

theorem meeting_answers {i m reads writes run} : Out.Answers (s.meeting i m reads writes run) := by
  unfold State.meeting
  split
  · exact answers_next
  · split
    · exact answers_next
    · exact withRegs_answers (fun _ => answers_next)

theorem tileWord_answers {e role reads writes a n body} (h : ∀ t d l, Out.Answers (body t d l)) :
    Out.Answers (s.tileWord e role reads writes a n body) := by
  unfold State.tileWord
  split
  · exact answers_next
  · refine waitFor_answers (fun _ => tracked_answers (fun t => ?_))
    split
    · exact answers_next
    · split
      · exact answers_next
      · refine withRegs_answers (fun t => ?_)
        dsimp only
        split
        · exact answers_next
        · exact h _ _ _

theorem remoteWord_answers {e role n a own body} (h : ∀ t p, Out.Answers (body t p)) :
    Out.Answers (s.remoteWord e role n a own body) := by
  refine trackedMem_answers (fun t => ?_)
  dsimp only
  split
  · exact answers_next
  · exact h _ _

/-! ### Words that compute, and control words -/

theorem plain_answers {reads writes f} : Out.Answers (s.plain reads writes f) := word_answers (fun _ => answers_next)

theorem special_answers {f e d a} : Out.Answers (s.special f e d a) := by
  refine maskable_answers (fun t => ?_)
  split <;> exact answers_next

theorem jumpPair_answers {a} : Out.Answers (s.jumpPair a) := by
  refine word_answers (fun t => ?_)
  split <;> exact answers_next

theorem execExit_answers : Out.Answers (execExit s) := by
  refine word_answers (fun t => ?_)
  extract_lets u
  clear_value u
  split
  · exact answers_next
  · split
    · split <;> exact answers_next
    · exact answers_next

theorem execYield_answers : Out.Answers (execYield s) := by
  refine word_answers (fun t => ?_)
  split <;> exact answers_next

theorem execTret_answers : Out.Answers (execTret s) := by
  refine word_answers (fun t => ?_)
  split
  · exact answers_next
  · dsimp only
    split
    · exact answers_next
    · split
      · exact answers_next
      · split <;> exact answers_next

theorem execRdsr_answers {d n} : Out.Answers (execRdsr d n s) := by
  unfold execRdsr
  split
  · exact answers_next
  · split <;> exact plain_answers

theorem execWrsr_answers {r n} : Out.Answers (execWrsr r n s) := by
  unfold execWrsr
  split
  · exact answers_next
  · refine word_answers (fun t => ?_)
    dsimp only
    split
    · exact answers_next
    · split <;> exact answers_next

theorem spawnForm_answers {flush r a o} : Out.Answers (s.spawnForm flush r a o) := by
  refine word_answers (fun t => ?_)
  dsimp only
  split
  · exact answers_next
  · split <;> exact answers_next

theorem prefixWord_answers {ok p} : Out.Answers (s.prefixWord ok p) := by
  unfold State.prefixWord
  split
  · exact answers_next
  · split
    · exact answers_next
    · split
      · exact answers_next
      · split <;> exact answers_next

/-! ### Words that reach memory -/

theorem scratchLoad_answers {off size signed d} : Out.Answers (s.scratchLoad off size signed d) := by
  unfold State.scratchLoad
  split <;> exact answers_next

theorem lds_answers {size signed d b k} : Out.Answers (s.lds size signed d b k) :=
  memWord_answers (fun _ => scratchAccess_answers (fun _ _ => scratchLoad_answers))

theorem sts_answers {size d b k} : Out.Answers (s.sts size d b k) :=
  memWord_answers (fun _ => waitFor_answers (fun _ => scratchAccess_answers (fun _ _ => answers_next)))

theorem execPrsTest_answers {p b} : Out.Answers (execPrsTest p b s) := by
  refine memWord_answers (fun t => ?_)
  dsimp only
  split <;> exact answers_next

theorem execStashMap_answers {e d b} : Out.Answers (execStashMap e d b s) := by
  refine trackedMem_answers (fun t => ?_)
  dsimp only
  split <;> exact answers_next

theorem stashEnd_answers {e unmap d} : Out.Answers (s.stashEnd e unmap d) := by
  refine trackedMem_answers (fun t => ?_)
  split <;> exact answers_next

theorem loadAt_answers {e va size signed d acq} : Out.Answers (s.loadAt e va size signed d acq) := by
  unfold State.loadAt
  dsimp only
  split
  · exact answers_next
  · exact withPa_answers (fun _ _ _ => answers_next)

theorem ldForm_answers {e size signed d b k} : Out.Answers (s.ldForm e size signed d b k) := by
  refine trackedMem_answers (fun _ => withAddr_answers (fun t => ?_))
  split
  · exact waitFor_answers (fun _ => stashLoad_answers (fun _ => scratchLoad_answers))
  · exact loadAt_answers

theorem stForm_answers {e size d b k} : Out.Answers (s.stForm e size d b k) := by
  refine trackedMem_answers (fun _ => withAddr_answers (fun t => ?_))
  split
  · exact waitFor_answers (fun _ => stashStore_answers (fun _ => answers_next))
  · exact withPa_answers (fun _ _ _ => answers_next)

theorem atomWord_answers {returns f e d a sc} : Out.Answers (s.atomWord returns f e d a sc) :=
  trackedMem_answers (fun _ => wordAddr_answers (fun _ => withRw_answers (fun _ _ => answers_next)))

theorem baddWord_answers {bf e d a} : Out.Answers (s.baddWord bf e d a) := by
  refine trackedMem_answers (fun _ => wordAddr_answers (fun t => ?_))
  split
  · exact answers_next
  · split
    · exact answers_next
    · exact withRw_answers (fun _ _ => answers_next)

theorem execLdbF32_answers {e d a} : Out.Answers (execLdbF32 e d a s) := by
  refine trackedMem_answers (fun _ => wordAddr_answers (fun t => ?_))
  dsimp only
  split
  · exact loadAt_answers
  · split
    · exact answers_next
    · exact withPa_answers (fun _ _ _ => answers_next)

theorem execBsettle_answers {e a} : Out.Answers (execBsettle e a s) := by
  refine trackedMem_answers (fun _ => wordAddr_answers (fun _ => withPa_answers (fun t _ _ => ?_)))
  split <;> exact answers_next

theorem execCtld_answers {e a slot} : Out.Answers (execCtld e a slot s) := by
  refine trackedMem_answers (fun _ => withAddr_answers (fun _ => waitFor_answers (fun _ =>
    withRecord_answers (fun t => ?_))))
  split
  · exact answers_next
  · split <;> exact answers_next

theorem execCtst_answers {e a slot} : Out.Answers (execCtst e a slot s) := by
  refine trackedMem_answers (fun _ => withAddr_answers (fun _ => waitFor_answers (fun _ =>
    withRecord_answers (fun t => ?_))))
  dsimp only
  split <;> exact answers_next

theorem mwaitWord_answers {cmp d a} : Out.Answers (s.mwaitWord cmp d a) := by
  refine memWord_answers (fun u => ?_)
  generalize u.th.heldWait.getD (u.th.pair a, u.th.reg d) = p
  refine wordAddr_answers (fun _ => waitFor_answers (fun _ => withPa_answers (fun t _ pa => ?_)))
  dsimp only
  split
  · exact answers_next
  · split
    · exact answers_next
    · split <;> exact answers_next

theorem fence_answers {writes body} : Out.Answers (s.fence writes body) :=
  word_answers (fun _ => waitFor_answers (fun _ => answers_next))

theorem maintWord_answers {form e d a sc} : Out.Answers (s.maintWord form e d a sc) := by
  refine trackedMem_answers (fun t => ?_)
  dsimp only
  split <;> exact answers_next

theorem tlbinvWord_answers {e reads d va} : Out.Answers (s.tlbinvWord e reads d va) := by
  unfold State.tlbinvWord
  split
  · exact answers_next
  · refine trackedMem_answers (fun t => ?_)
    dsimp only
    split
    · exact answers_next
    · split
      · exact answers_next
      · exact waitFor_answers (fun _ => answers_next)

/-! ### Barriers, rings and copies -/

theorem threadUpdate_answers {b count bytes} : Out.Answers (s.threadUpdate b count bytes) := by
  unfold State.threadUpdate
  split <;> exact answers_next

theorem releaseUpdate_answers {b count bytes} :
    Out.Answers (s.teamRelease (fun t => t.threadUpdate b count bytes)) :=
  waitFor_answers (fun _ => threadUpdate_answers)

theorem barTest_answers {p a b f} : Out.Answers (s.barTest p a b f) := by
  refine word_answers (fun t => ?_)
  dsimp only
  split <;> exact answers_next

theorem execBarInit_answers {a n} : Out.Answers (execBarInit a n s) := by
  refine word_answers (fun t => ?_)
  dsimp only
  split
  · exact answers_next
  · split <;> exact answers_next

theorem execBarWait_answers {a n} : Out.Answers (execBarWait a n s) := by
  unfold execBarWait
  split
  · exact waitPhase_answers (fun _ => answers_next)
  · refine word_answers (fun t => ?_)
    split
    · exact answers_next
    · exact waitPhase_answers (fun _ => answers_next)

theorem execBarInv_answers {n} : Out.Answers (execBarInv n s) := by
  refine word_answers (fun t => ?_)
  split <;> exact answers_next

theorem execRingAcq_answers {d a r} : Out.Answers (execRingAcq d a r s) := by
  unfold execRingAcq
  split
  · exact waitPhase_answers (fun _ => answers_next)
  · exact word_answers (fun _ => withRing_answers (fun _ _ => waitPhase_answers (fun _ => answers_next)))

theorem execRingGet_answers {d a r} : Out.Answers (execRingGet d a r s) := by
  unfold execRingGet
  split
  · exact waitPhase_answers (fun _ => answers_next)
  · exact word_answers (fun _ => withRing_answers (fun _ _ => waitPhase_answers (fun _ => answers_next)))

theorem execRingCom_answers {a r} : Out.Answers (execRingCom a r s) :=
  word_answers (fun _ => withRing_answers (fun _ _ => releaseUpdate_answers))

theorem execRingRel_answers {a r} : Out.Answers (execRingRel a r s) :=
  word_answers (fun _ => withRing_answers (fun _ _ => releaseUpdate_answers))

theorem execCpy_answers {e d a b} : Out.Answers (execCpy e d a b s) :=
  copyWord_answers (fun _ _ => copyRange_answers (fun _ => copyStash_answers (fun _ =>
    withAddr_answers (fun _ => answers_next))))

theorem execCpyPeer_answers {e d a b} : Out.Answers (execCpyPeer e d a b s) := by
  refine copyWord_answers (fun t _ => ?_)
  split
  · exact answers_next
  · refine copyRange_answers (fun _ => copyRange_answers (fun _ => copyStash_answers (fun t => ?_)))
    dsimp only
    split <;> exact answers_next

theorem execCpw_answers {e d a b} : Out.Answers (execCpw e d a b s) := by
  refine copyWord_answers (fun t _ => ?_)
  dsimp only
  split
  · exact answers_next
  · exact copyStash_answers (fun _ => withAddr_answers (fun _ => waitFor_answers (fun _ => answers_next)))

theorem execCpl_answers {e a b} : Out.Answers (execCpl e a b s) :=
  copyWord_answers (fun _ _ => withAddr_answers (fun _ => waitFor_answers (fun _ => answers_next)))

/-! ### Matrix words -/

theorem matDecode_answers {e mmf a sel af wf block} : Out.Answers (s.matDecode e mmf a sel af wf block) := by
  unfold State.matDecode
  dsimp only
  split
  · exact answers_next
  · split
    · exact answers_next
    · split <;> exact answers_next

theorem matCheck_answers {e mmf a sel o af wf} : Out.Answers (s.matCheck e mmf a sel o af wf) := by
  unfold State.matCheck
  split
  · exact answers_next
  · split
    · exact answers_next
    · split
      · exact answers_next
      · split
        · exact answers_next
        · dsimp only
          split
          · exact answers_next
          · split
            · exact answers_next
            · split
              · exact answers_next
              · exact matDecode_answers

theorem matWord_answers {e mmf a pr sel af wf} : Out.Answers (s.matWord e mmf a pr sel af wf) := by
  refine trackedMem_answers (fun _ => queued_answers (fun t => ?_))
  split
  · exact matDecode_answers
  · exact matCheck_answers

theorem execAccClr_answers {e p} : Out.Answers (execAccClr e p s) := by
  refine trackedMem_answers (fun _ => queued_answers (fun t => ?_))
  dsimp only
  split <;> exact answers_next

/-! ### Words of tiles, of the teller and of the fabric -/

theorem execTdesc_answers {a h} : Out.Answers (execTdesc a h s) := by
  refine memWord_answers (fun t => ?_)
  dsimp only
  split
  · exact answers_next
  · split
    · exact answers_next
    · refine waitFor_answers (fun t => ?_)
      split
      · split <;> exact answers_next
      · split <;> exact answers_next

theorem tldWord_answers {w e d a h} : Out.Answers (s.tldWord w e d a h) := by
  refine tileWord_answers (fun t _ _ => ?_)
  dsimp only
  split
  · exact answers_next
  · split <;> exact answers_next

theorem execTq_answers {e d a h} : Out.Answers (execTq e d a h s) := tileWord_answers (fun _ _ _ => answers_next)

theorem execTst_answers {e d a h} : Out.Answers (execTst e d a h s) :=
  tileWord_answers (fun _ _ _ => queued_answers (fun _ => tileRange_answers (fun _ => answers_next)))

theorem execTenc_answers {e d a h} : Out.Answers (execTenc e d a h s) := by
  unfold execTenc
  dsimp only
  split
  · exact answers_next
  · refine waitFor_answers (fun _ => tracked_answers (fun _ => queued_answers (fun _ => waitFor_answers (fun t => ?_))))
    split <;> exact answers_next

theorem execCpt_answers {e d a h} : Out.Answers (execCpt e d a h s) := by
  refine tileWord_answers (fun _ _ _ => queued_answers (fun t => ?_))
  dsimp only
  split
  · exact answers_next
  · split
    · exact answers_next
    · refine tileRange_answers (fun t => ?_)
      split
      · exact tileRange_answers (fun _ => answers_next)
      · split <;> exact answers_next

theorem tileRun_answers {e d a h mk} : Out.Answers (s.tileRun e d a h mk) := by
  refine tileWord_answers (fun t _ _ => ?_)
  dsimp only
  split <;> exact answers_next

theorem execSpool_answers {e d a h} : Out.Answers (execSpool e d a h s) := by
  refine trackedMem_answers (fun t => ?_)
  split
  · exact answers_next
  · dsimp only
    split <;> exact answers_next

theorem tellerWord_answers {e att a} : Out.Answers (s.tellerWord e att a) := by
  refine memWord_answers (fun _ => withAddr_answers (fun _ => waitFor_answers (fun _ =>
    withRecord_answers (fun t => ?_))))
  split
  · exact answers_next
  · exact tracked_answers (fun _ => answers_next)

theorem execTstat_answers {e d a} : Out.Answers (execTstat e d a s) := by
  refine trackedMem_answers (fun t => ?_)
  dsimp only
  split <;> exact answers_next

theorem issueRemote_answers {e regs r go} : Out.Answers (s.issueRemote e regs r go) := by
  unfold State.issueRemote
  dsimp only
  split <;> exact answers_next

theorem remoteCopy_answers {e d rec_ a} : Out.Answers (s.remoteCopy e d rec_ a) := by
  unfold State.remoteCopy
  refine remoteWord_answers (fun _ _ => queued_answers (fun _ => blockAddr_answers (fun _ =>
    blockAddr_answers (fun t => ?_))))
  split
  · exact answers_next
  · split
    · exact answers_next
    · exact blockAddr_answers (fun _ => issueRemote_answers)

theorem execRsig_answers {e a} : Out.Answers (execRsig e a s) :=
  remoteWord_answers (fun _ _ => blockAddr_answers (fun _ => beforeSignal_answers (fun _ => issueRemote_answers)))

theorem execRatomAdd_answers {e d a} : Out.Answers (execRatomAdd e d a s) :=
  remoteWord_answers (fun _ _ => blockAddr_answers (fun _ => waitFor_answers (fun _ => issueRemote_answers)))

/-! ### Events -/

theorem execSupervisorRegisterWrite_answers {num v} : Out.Answers (execSupervisorRegisterWrite num v s) := by
  unfold execSupervisorRegisterWrite
  dsimp only
  split <;> exact answers_next

theorem execSnapshotTrigger_answers {src} : Out.Answers (execSnapshotTrigger src s) := by
  unfold execSnapshotTrigger
  split <;> exact answers_next

theorem afterNegotiation_answers {ok b f} : Out.Answers (s.afterNegotiation ok b f) := by
  unfold State.afterNegotiation
  split <;> exact answers_next

theorem execGetMeasurements_answers {index} : Out.Answers (execGetMeasurements index s) := by
  unfold execGetMeasurements
  dsimp only
  split
  · exact answers_next
  · exact afterNegotiation_answers

theorem execPowerLimitSet_answers {watts} : Out.Answers (execPowerLimitSet watts s) := by
  unfold execPowerLimitSet
  dsimp only
  split <;> exact answers_next

/-! ### The arms, and the step -/

theorem exec_answers (i : Instr) : Out.Answers (exec i s) := by
  unfold exec
  cases i with
  | sel => exact word_answers (fun _ => answers_next)
  | rdx | wrx => exact checked_answers (fun _ => indirect_answers (fun _ _ => withRegs_answers (fun _ => answers_next)))
  | add | sub | mul | mulhI32 | mulhN32 | divI32 | divN32 | remI32 | remN32 | minI32 | minN32 | maxI32 | maxN32
  | and | or | xor | andn | shl | shr | sar | rotl | bfxI32 | bfxN32 | fadd | faddRz | fsub | fsubRz | fmul
  | fmulRz | fmin | fminNan | fmax | fmaxNan | hadd2Bf16 | hmul2Bf16 | hmax2Bf16 | mad | ffma | ffmaRz | hfma2Bf16
  | fsh | bfi | lea1 | lea2 | lea4 | lea8 | lea16
  | addi | shli | shri | sari | mov | not | abs | neg | clz | ctz | popc | brev | fabs | fneg | fclass
  | cvtF32I32 | cvtF32N32 | cvtI32F32Rz | cvtI32F32Rne | cvtN32F32Rz | cvtF32Bf16Lo | cvtF32Bf16Hi | cvtF32E4m3
  | cvtF32E5m2 | cvtF32E2m1 | cvtBf16x2F32 | cvtE4m3x4F32Sat | cvtE4m3x4F32Nan | cvtE5m2x4F32Sat
  | cvtE5m2x4F32Inf | cvtE2m1x8F32 | pget | rdk => exact maskable_answers (fun _ => answers_next)
  | movi | movhi | setx | incx | nop | rdcyc | prng | add64 | sub64 | mul64 | shl64 | shr64 | sar64
  | cmp64Eq | cmp64LtI64 | cmp64LtN64 | cmpiEq | cmpiLtI32 | pand | por | pxor | pandn | pnot | pmov =>
    exact plain_answers
  | cmpEq | cmpNe | cmpLtI32 | cmpLtN32 | cmpLeI32 | cmpLeN32 | fcmpEq | fcmpLt | fcmpLe | fcmpUn | bp | bnp | br
  | call | trap | brk | ctinv => exact word_answers (fun _ => answers_next)
  | exit => exact execExit_answers
  | yield => exact execYield_answers
  | ret | jr => exact jumpPair_answers
  | tret => exact execTret_answers
  | rdsr => exact execRdsr_answers
  | wrsr => exact execWrsr_answers
  | spawn | spawnf => exact spawnForm_answers
  | rcp | rsqrt | sqrt | exp2 | log2 | sinpi | cospi | tanh => exact special_answers
  | ldsB32 | ldsB128 | ldsN8 | ldsI8 | ldsN16 | ldsI16 | ldsB64 => exact lds_answers
  | stsB32 | stsB128 | stsB8 | stsB16 | stsB64 => exact sts_answers
  | ldB32 | ldN8 | ldI8 | ldN16 | ldI16 | ldB64 | ldB128 => exact ldForm_answers
  | stB32 | stB8 | stB16 | stB64 | stB128 => exact stForm_answers
  | prsTest => exact execPrsTest_answers
  | stashMap => exact execStashMap_answers
  | stashUnmap | stashWb => exact stashEnd_answers
  | sgetAt | sgetXor | sgetBelow | sgetAbove | reduxAddI32 | reduxAddF32 | reduxMinI32 | reduxMaxI32
  | scanAddI32 | sample | matchSeats | ballot | seat | voteAny | voteAll | voteEq => exact meeting_answers
  | barInit => exact execBarInit_answers
  | barArr | barArx => exact word_answers (fun _ => releaseUpdate_answers)
  | barExp => exact word_answers (fun _ => threadUpdate_answers)
  | barWait => exact execBarWait_answers
  | barTry | barPar => exact barTest_answers
  | barInv => exact execBarInv_answers
  | ringAcq => exact execRingAcq_answers
  | ringCom => exact execRingCom_answers
  | ringGet => exact execRingGet_answers
  | ringRel => exact execRingRel_answers
  | cpy => exact execCpy_answers
  | cpyPeer => exact execCpyPeer_answers
  | cpw => exact execCpw_answers
  | cpl => exact execCpl_answers
  | mmqI4E4m3 | mmqI4E5m2 | mmqI4Bf16 | mmqI3E4m3 | mmqI3Bf16 | mmqF4E4m3 | mmqF4Bf16 | mmfE4m3 | mmfE5m2
  | mmfBf16 => exact matWord_answers
  | accClr => exact execAccClr_answers
  | ctld => exact execCtld_answers
  | ctst => exact execCtst_answers
  | atomAddB32 | atomAddB64 | atomAddF32 | atomAddBf16x2 | atomMinI32 | atomMinN32 | atomMaxI32 | atomMaxN32
  | atomAnd | atomOr | atomXor | atomXchg | atomCas | atomCasB64 | redAddB32 | redAddF32 | redMinI32 | redMaxI32
  | redOr => exact atomWord_answers
  | baddF32 | baddBf16x2 => exact baddWord_answers
  | ldbF32 => exact execLdbF32_answers
  | bsettle => exact execBsettle_answers
  | mwaitEq | mwaitNe | mwaitGeI32 | mwaitLtI32 | mwaitGeN32 | mwaitLtN32 => exact mwaitWord_answers
  | ldAcqB32 | ldAcqB64 => exact trackedMem_answers (fun _ => wordAddr_answers (fun _ => loadAt_answers))
  | stRelB32 | stRelB64 =>
    exact trackedMem_answers (fun _ => wordAddr_answers (fun _ => withPa_answers (fun _ _ _ => answers_next)))
  | fenceAcq | fenceRel | fenceAr => exact fence_answers
  | cclean | cinval | cflush => exact maintWord_answers
  | tldB8 | tldB16 | tldB32 => exact tldWord_answers
  | tst => exact execTst_answers
  | tenc => exact execTenc_answers
  | tq => exact execTq_answers
  | tclean | tinval => exact tileRun_answers
  | cpt => exact execCpt_answers
  | tdesc => exact execTdesc_answers
  | spool => exact execSpool_answers
  | tlbinvVa | tlbinvCtx => exact tlbinvWord_answers
  | gq | att => exact tellerWord_answers
  | tstat => exact execTstat_answers
  | rcpy | rcpyCk | rcpyCkv => exact remoteCopy_answers
  | rsig => exact execRsig_answers
  | ratomAdd => exact execRatomAdd_answers
  | operandPrefix | hintPrefix => exact prefixWord_answers
  | supervisorRegisterWrite => exact execSupervisorRegisterWrite_answers
  | snapshotTrigger => exact execSnapshotTrigger_answers
  | getCapabilities | negotiateAlgorithms | getDigests | getCertificate | challenge => exact afterNegotiation_answers
  | getMeasurements => exact execGetMeasurements_answers
  | powerLimitSet => exact execPowerLimitSet_answers
  | _ => exact answers_next

theorem mapNext_answers {f} {o : Out} (h : o.Answers) : (mapNext f o).Answers := by
  obtain ⟨t, rfl⟩ := h
  exact answers_next

theorem runWord_answers {w} : (s.runWord w).Answers := by
  unfold State.runWord
  split
  · exact exec_answers _
  · unfold State.illegal
    split
    · exact answers_next
    · exact prefixWord_answers
    · split
      · exact answers_next
      · split <;> exact answers_next

theorem stepIssue_answers {i} : (s.stepIssue i).Answers := by
  unfold State.stepIssue
  split
  · exact answers_next
  · unfold State.stepLane
    split
    · split
      · exact mapNext_answers runWord_answers
      · exact answers_next
    · split <;> exact answers_next

theorem makeMove_answers {m} : (s.makeMove m).Answers := by
  unfold State.makeMove State.takeInput
  cases m with
  | input =>
    dsimp only
    split
    · exact answers_next
    · split
      · exact answers_next
      · exact exec_answers _
  | event i => exact exec_answers i
  | _ => exact answers_next

theorem stepMove_answers : s.stepMove.Answers := by
  unfold State.stepMove
  dsimp only
  split
  · exact answers_next
  · split
    · exact answers_next
    · exact answers_next
    · split
      · exact exec_answers _
      · split
        · exact makeMove_answers
        · exact answers_next

end

/-- Settles O9: a step is a lane's word or a move, and each of them answers. -/
theorem everyStepAnswers : Obligations.EveryStepAnswers := by
  unfold Obligations.EveryStepAnswers
  intro s
  unfold step
  split
  · exact stepIssue_answers
  · exact stepMove_answers

end Sys2Proof.Machine
end

section
/-! PROOF. A store of no team: what the statement about frames (R10, R40, R111, R215, R218) does not shut out. Its premise
that no stash window is valid speaks of the teams of the machine, which the team held while no thread acts is not one of; a
store that names that team still finds its windows, and R174 has the window's line written back. -/

namespace Sys2Proof.Machine

/-- A window at 0 whose line, of memory at 1024, has a dirty byte. -/
def dirtyWindow : Stash := { Stash.unset with valid := true, len := 256, lines := [.filled 1], pas := [1024] }

/-- A store of one byte at 0, of no team. -/
def teamlessStore : Op :=
  { id := 0, issue := 0, key := ⟨noTeam, 0, 0⟩, flag := none, core := 0, cluster := 0, ctx := 0, base := { cause := 0 },
    fpc := 0, count := 0, regs := [], pa := some 0, kind := .store 0 [1] none, fault := none, waitPage := none }

/-- No team acts, and the one held has the window; cluster 0 owns the words of the store and of the window's dirty byte. -/
def teamlessWindow : State :=
  { State.reset with tm := { Team.inert with stash := [dirtyWindow], scratch := [(0, 7)] }, ops := [teamlessStore],
                     registry := [(0, 0), (256, 0)] }

theorem teamlessWindow_ready : teamlessWindow.opReady 0 teamlessStore = true ∧
    teamlessWindow.writeReady teamlessStore 0 1 = true ∧ teamlessWindow.hasEscrow (lineOf 0) = false ∧
    (teamlessWindow.cluster (0 / 16)).crowd (.line (lineOf 0)) = [] ∧ teamlessWindow.allTeams = [] ∧
    (∀ u ∈ unitsOf 0 1, (teamlessWindow.coreAt 0).l1Line (.line (lineOf (8 * u))) = none) ∧ wordsOf 0 1 = [0] := by
  decide +kernel

theorem exec_teamlessStore :
    exec (.storeWritten 0) teamlessWindow = teamlessWindow.orStay (teamlessWindow.storeWritten teamlessStore 0 [1] none) := rfl

/-- The window's dirty byte reaches memory at 1024, which the store does not write. -/
theorem teamlessWindow_written : teamlessWindow.performByte 1024 = 0 ∧
    ((teamlessWindow.storeWritten teamlessStore 0 [1] none).getD teamlessWindow).performByte 1024 = 7 := by
  decide +kernel

/-- Refutes O2: a store of no team writes back a line of the team held, whose windows the premises do not speak of. -/
theorem not_frames : ¬ Obligations.Frames := by
  unfold Obligations.Frames
  rintro ⟨-, -, -, -, -, -, -, stores⟩
  obtain ⟨ready, write, escrow, crowd, teams, l1, words⟩ := teamlessWindow_ready
  obtain ⟨before, after⟩ := teamlessWindow_written
  have windows : ∀ m ∈ teamlessWindow.allTeams, ∀ x ∈ m.stash, x.valid = false := by simp [teams]
  have owned : ∀ w ∈ wordsOf 0 1, ∀ x ∈ wordsOf 0 1, w / 2 = x / 2 →
      (teamlessWindow.ownerOf w = some 0 ↔ teamlessWindow.ownerOf x = some 0) := by simp [words]
  obtain ⟨t, answer, -, -, bytes⟩ := stores teamlessWindow 0 teamlessStore 0 [1] 0 ready rfl rfl write escrow crowd rfl windows
    (fun _ h => nomatch h) l1 owned
  rw [exec_teamlessStore] at answer
  cases answer
  have same := bytes 1024
  rw [if_neg (by decide), after, before] at same
  exact absurd same (by decide)

end Sys2Proof.Machine
end

section
/-! PROOF. Words, their fields, and the shapes of instructions (R41 to R55): the operands that an instruction carries and the
places of these in its word. -/

namespace Sys2Proof.Encoding

/-! ### Words and their fields -/

/-- `w` is the word, as a number, of the well-formed instruction `i`. -/
def Codes (w : Nat) (i : Instr) : Prop := i.wf = true ∧ encodeNat i = some w

/-- `i` is well formed where `fits` holds, and its word is `n`. -/
def Coded (i : Instr) (fits : Bool) (n : Nat) : Prop := i.wf = fits ∧ encodeNat i = some n

theorem Coded.codes {i : Instr} {fits : Bool} {n w : Nat} (h : Coded i fits n) (hf : fits = true) (hn : n = w) : Codes w i :=
  ⟨h.1.trans hf, h.2.trans (congrArg some hn)⟩

theorem fieldOk_eq_ok {ok : Bool} {i j : Instr} : fieldOk ok i = .ok j ↔ ok = true ∧ i = j := by
  unfold fieldOk
  cases ok <;> simp

theorem Codes.of_fieldOk {ok : Bool} {i j : Instr} {n w : Nat} (hn : encodeNat j = some n) (h : fieldOk ok j = .ok i)
    (hf : j.wf = true) (hw : ok = true → n = w) : Codes w i := by
  obtain ⟨z, rfl⟩ := fieldOk_eq_ok.1 h
  exact ⟨hf, hn.trans (congrArg some (hw z))⟩

theorem bitNat_eq_one (e : Bool) : (bitNat e == 1) = e := by cases e <;> rfl

theorem bitsAt_lt {w lo width N : Nat} (h : 2 ^ width ≤ N) : bitsAt w lo width < N :=
  (Nat.mod_lt _ (Nat.two_pow_pos _)).trans_le h

/-- A field is its high part and its low part, one above the other. -/
theorem bitsAt_split (w lo p q : Nat) : bitsAt w lo (p + q) = bitsAt w (lo + p) q * 2 ^ p + bitsAt w lo p := by
  unfold bitsAt
  rw [Nat.pow_add, Nat.mod_mul, Nat.pow_add, ← Nat.div_div_eq_div_mul]
  ring

theorem bitsAt_whole {w : Nat} (h : w < 2 ^ 32) : bitsAt w 0 32 = w := by simpa [bitsAt] using h

/-- A word is its major, its bit 24 and its three bytes below (R41). -/
theorem word_split {w : Nat} (h : w < 2 ^ 32) :
    w = majorOf w * 33554432 + bitsAt w 24 1 * 16777216 + bitsAt w 16 8 * 65536 + bitsAt w 8 8 * 256 + bitsAt w 0 8 := by
  have whole := bitsAt_whole h
  have low : bitsAt w 0 32 = bitsAt w 8 24 * 256 + bitsAt w 0 8 := bitsAt_split w 0 8 24
  have mid : bitsAt w 8 24 = bitsAt w 16 16 * 256 + bitsAt w 8 8 := bitsAt_split w 8 8 16
  have high : bitsAt w 16 16 = bitsAt w 24 8 * 256 + bitsAt w 16 8 := bitsAt_split w 16 8 8
  have top : bitsAt w 24 8 = bitsAt w 25 7 * 2 + bitsAt w 24 1 := bitsAt_split w 24 1 7
  unfold majorOf
  omega

theorem bitNat_lt (e : Bool) : bitNat e < 2 := by cases e <;> decide

theorem bitNat_beq_one {n : Nat} (h : n < 2) : bitNat (n == 1) = n := by
  obtain rfl | rfl : n = 0 ∨ n = 1 := by omega
  all_goals rfl

/-- Bit 24 as E. -/
theorem bitNat_bit24 (w : Nat) : bitNat (bitsAt w 24 1 == 1) = bitsAt w 24 1 := bitNat_beq_one (bitsAt_lt le_rfl)

/-- The low bits as an immediate. -/
theorem toNat_ofNat_low (w n : Nat) : (BitVec.ofNat n w).toNat = bitsAt w 0 n := by simp [bitsAt]

/-- The low part of a field. -/
theorem bitsAt_low (w lo p q : Nat) : bitsAt w lo p = bitsAt w lo (p + q) % 2 ^ p := by
  rw [bitsAt_split, Nat.add_comm, Nat.add_mul_mod_self_right, Nat.mod_eq_of_lt (bitsAt_lt le_rfl)]

/-- The high part of a field. -/
theorem bitsAt_high (w lo p q : Nat) : bitsAt w (lo + p) q = bitsAt w lo (p + q) / 2 ^ p := by
  rw [bitsAt_split, Nat.add_comm (_ * _), Nat.add_mul_div_right _ _ (Nat.two_pow_pos p), Nat.div_eq_of_lt (bitsAt_lt le_rfl),
    Nat.zero_add]

/-- Bits [24:8] are zero where each operand's bits are. -/
theorem operands_split (w : Nat) : bitsAt w 8 17 = 0 ↔ bitsAt w 24 1 = 0 ∧ bitsAt w 16 8 = 0 ∧ bitsAt w 8 8 = 0 := by
  have mid : bitsAt w 8 17 = bitsAt w 16 9 * 256 + bitsAt w 8 8 := bitsAt_split w 8 8 9
  have high : bitsAt w 16 9 = bitsAt w 24 1 * 256 + bitsAt w 16 8 := bitsAt_split w 16 8 1
  omega

/-- A form and a predicate (R41). -/
theorem form_split (w : Nat) : bitsAt w 16 8 = bitsAt w 19 5 * 8 + bitsAt w 16 3 := bitsAt_split w 16 3 5

/-- A scope and a function code (R41). -/
theorem scope_split (w : Nat) : bitsAt w 0 8 = bitsAt w 6 2 * 64 + bitsAt w 0 6 := bitsAt_split w 0 6 2

theorem nibbles_split (w : Nat) : bitsAt w 0 8 = bitsAt w 4 4 * 16 + bitsAt w 0 4 := bitsAt_split w 0 4 4

theorem scopeCode_decScope (w : Nat) : scopeCode (decScope w) = bitsAt w 6 2 := by
  have : bitsAt w 6 2 < 4 := bitsAt_lt (by decide)
  unfold decScope
  obtain h | h | h | h : bitsAt w 6 2 = 0 ∨ bitsAt w 6 2 = 1 ∨ bitsAt w 6 2 = 2 ∨ bitsAt w 6 2 = 3 := by omega
  all_goals rw [h]; rfl

theorem decScope_eq {w : Nat} {c : Scope} (h : bitsAt w 6 2 = scopeCode c) : decScope w = c := by
  unfold decScope
  rw [h]
  cases c <;> rfl

theorem ofNat_eq_of_mod {n w : Nat} {i : BitVec n} (h : w % 2 ^ n = i.toNat) : BitVec.ofNat n w = i :=
  BitVec.eq_of_toNat_eq (by rw [BitVec.toNat_ofNat, h])

/-! ### Shapes of instructions

Each shape says, for a family `k` of instructions over the fixed bits `c`, which values of the operands fit and where the
word holds them. -/

/-- `d`, `a` and a number below `N` in the low byte. -/
def R2N (N c : Nat) (k : Nat → Nat → Nat → Instr) : Prop :=
  ∀ d a n, Coded (k d a n) (decide (d < 256) && decide (a < 256) && decide (n < N)) (c + d * 65536 + a * 256 + n)

/-- E and three registers. -/
def R3E (c : Nat) (k : Bool → Nat → Nat → Nat → Instr) : Prop :=
  ∀ e d a b, Coded (k e d a b) (decide (d < 256) && decide (a < 256) && decide (b < 256))
    (c + bitNat e * 16777216 + d * 65536 + a * 256 + b)

/-- Two registers and an immediate of 8 bits. -/
def R2I (c : Nat) (k : Nat → Nat → BitVec 8 → Instr) : Prop :=
  ∀ d a x, Coded (k d a x) (decide (d < 256) && decide (a < 256)) (c + d * 65536 + a * 256 + x.toNat)

/-- E, two registers and an immediate of 8 bits. -/
def R2IE (c : Nat) (k : Bool → Nat → Nat → BitVec 8 → Instr) : Prop :=
  ∀ e d a x, Coded (k e d a x) (decide (d < 256) && decide (a < 256))
    (c + bitNat e * 16777216 + d * 65536 + a * 256 + x.toNat)

/-- Two registers. -/
def R2 (c : Nat) (k : Nat → Nat → Instr) : Prop :=
  ∀ d a, Coded (k d a) (decide (d < 256) && decide (a < 256)) (c + d * 65536 + a * 256)

/-- E and two registers. -/
def R2E (c : Nat) (k : Bool → Nat → Nat → Instr) : Prop :=
  ∀ e d a, Coded (k e d a) (decide (d < 256) && decide (a < 256)) (c + bitNat e * 16777216 + d * 65536 + a * 256)

/-- E, two registers and a scope (R54). -/
def R2ES (c : Nat) (k : Bool → Nat → Nat → Scope → Instr) : Prop :=
  ∀ e d a x, Coded (k e d a x) (decide (d < 256) && decide (a < 256))
    (c + bitNat e * 16777216 + d * 65536 + a * 256 + scopeCode x * 64)

/-- E, two registers and a number below `N` in the low byte's bits from `2 ^ j` up: a handle (R328) or `sel` (R193). -/
def R2EN (N j c : Nat) (k : Bool → Nat → Nat → Nat → Instr) : Prop :=
  ∀ e d a n, Coded (k e d a n) (decide (d < 256) && decide (a < 256) && decide (n < N))
    (c + bitNat e * 16777216 + d * 65536 + a * 256 + n * j)

/-- One register in bits [23:16]. -/
def D1 (c : Nat) (k : Nat → Instr) : Prop := ∀ d, Coded (k d) (decide (d < 256)) (c + d * 65536)

/-- E and one register in bits [23:16]. -/
def D1E (c : Nat) (k : Bool → Nat → Instr) : Prop :=
  ∀ e d, Coded (k e d) (decide (d < 256)) (c + bitNat e * 16777216 + d * 65536)

/-- One register in bits [15:8]. -/
def A1 (c : Nat) (k : Nat → Instr) : Prop := ∀ a, Coded (k a) (decide (a < 256)) (c + a * 256)

/-- E and one register in bits [15:8]. -/
def A1E (c : Nat) (k : Bool → Nat → Instr) : Prop :=
  ∀ e a, Coded (k e a) (decide (a < 256)) (c + bitNat e * 16777216 + a * 256)

/-- One register in bits [15:8] and a number below `N` in the low byte. -/
def A1N (N c : Nat) (k : Nat → Nat → Instr) : Prop :=
  ∀ a n, Coded (k a n) (decide (a < 256) && decide (n < N)) (c + a * 256 + n)

/-- E, one register in bits [15:8] and a number below `N` in the low byte. -/
def A1EN (N c : Nat) (k : Bool → Nat → Nat → Instr) : Prop :=
  ∀ e a n, Coded (k e a n) (decide (a < 256) && decide (n < N)) (c + bitNat e * 16777216 + a * 256 + n)

/-- A predicate, a register and a number below `N` in the low byte. -/
def PAN (N c : Nat) (k : Nat → Nat → Nat → Instr) : Prop :=
  ∀ p a n, Coded (k p a n) (decide (p < 8) && decide (a < 256) && decide (n < N)) (c + p * 65536 + a * 256 + n)

/-- A predicate, a register and an immediate of 8 bits. -/
def PAI (c : Nat) (k : Nat → Nat → BitVec 8 → Instr) : Prop :=
  ∀ p a x, Coded (k p a x) (decide (p < 8) && decide (a < 256)) (c + p * 65536 + a * 256 + x.toNat)

/-- Two predicates and a number below `N` in the low byte: a predicate (R94) or a mask's register (R161). -/
def PPN (N c : Nat) (k : Nat → Nat → Nat → Instr) : Prop :=
  ∀ p q n, Coded (k p q n) (decide (p < 8) && decide (q < 8) && decide (n < N)) (c + p * 65536 + q * 256 + n)

/-- Two predicates. -/
def PP (c : Nat) (k : Nat → Nat → Instr) : Prop :=
  ∀ p q, Coded (k p q) (decide (p < 8) && decide (q < 8)) (c + p * 65536 + q * 256)

/-- Three register pairs by half their numbers (R93). -/
def X3 (c : Nat) (k : Nat → Nat → Nat → Instr) : Prop :=
  ∀ d a b, Coded (k d a b) (decide (d < 128) && decide (a < 128) && decide (b < 128)) (c + d * 131072 + a * 1024 + b * 8)

/-- One register and an immediate of 16 bits. -/
def D1I (c : Nat) (k : Nat → BitVec 16 → Instr) : Prop :=
  ∀ d x, Coded (k d x) (decide (d < 256)) (c + d * 65536 + x.toNat)

/-- An index register and an immediate of 16 bits (R95). -/
def X1I (c : Nat) (k : Nat → BitVec 16 → Instr) : Prop :=
  ∀ d x, Coded (k d x) (decide (d < 4)) (c + d * 65536 + x.toNat)

/-- A register, an index register and an immediate of 8 bits (R96). -/
def DXI (c : Nat) (k : Nat → Nat → BitVec 8 → Instr) : Prop :=
  ∀ d a x, Coded (k d a x) (decide (d < 256) && decide (a < 4)) (c + d * 65536 + a * 256 + x.toNat)

/-- A scope alone (R280). -/
def SC (c : Nat) (k : Scope → Instr) : Prop := ∀ x, Coded (k x) true (c + scopeCode x * 64)

/-- A role, a register and an offset of 15 bits. -/
def RSO (c : Nat) (k : Role → Nat → BitVec 15 → Instr) : Prop :=
  ∀ r s o, Coded (k r s o) (decide (s < 256)) (c + roleCode r * 8388608 + s * 32768 + o.toNat)

/-! The families whose last operand is in the function code. -/

theorem prng_R2 {c n : Nat} (hc : c = 0x5A00000C + n) (hn : n < 4) : R2 c (fun d a => .prng d a n) := fun _ _ =>
  ⟨by simp [Instr.wf, hn], by simp only [encodeNat, Option.some.injEq]; omega⟩

theorem cvtF32E4m3_R2 {c n : Nat} (hc : c = 0x76000030 + n) (hn : n < 4) : R2 c (fun d a => .cvtF32E4m3 d a n) := fun _ _ =>
  ⟨by simp [Instr.wf, hn], by simp only [encodeNat, Option.some.injEq]; omega⟩

theorem cvtF32E5m2_R2 {c n : Nat} (hc : c = 0x76000034 + n) (hn : n < 4) : R2 c (fun d a => .cvtF32E5m2 d a n) := fun _ _ =>
  ⟨by simp [Instr.wf, hn], by simp only [encodeNat, Option.some.injEq]; omega⟩

theorem cvtF32E2m1_R2 {c n : Nat} (hc : c = 0x76000038 + n) (hn : n < 8) : R2 c (fun d a => .cvtF32E2m1 d a n) := fun _ _ =>
  ⟨by simp [Instr.wf, hn], by simp only [encodeNat, Option.some.injEq]; omega⟩

end Sys2Proof.Encoding
end

section
/-! PROOF. What the decoder accepts (R49 to R55) is the encoding of what it gives: one lemma for each format of the decoder,
which says so of any family `k` of the format's shape, then one for each of the decoder's parts. -/

namespace Sys2Proof.Encoding

/-! ### What a format accepts is the encoding of what it gives -/

section
variable {w m f : Nat} {i : Instr} (hw : w < 2 ^ 32) (hm : majorOf w = m)
include hw hm

theorem decF3_codes {k} (hk : R2N 256 (m * 33554432) k) (h : decF3 w k = .ok i) : Codes w i := by
  obtain ⟨z, rfl⟩ := fieldOk_eq_ok.1 h
  rw [beq_iff_eq] at z
  have word := word_split hw
  exact (hk _ _ _).codes (by simp [bitsAt_lt]) (by omega)

theorem decV_codes {k0 k1} (h0 : R2N 256 (m * 33554432) k0) (h1 : R2N 256 (m * 33554432 + 16777216) k1)
    (h : decV w k0 k1 = .ok i) : Codes w i := by
  have word := word_split hw
  have bit : bitsAt w 24 1 < 2 := bitsAt_lt (by decide)
  unfold decV at h
  split at h <;> rename_i z <;> rw [beq_iff_eq] at z <;> cases h
  · exact (h0 _ _ _).codes (by simp [bitsAt_lt]) (by omega)
  · exact (h1 _ _ _).codes (by simp [bitsAt_lt]) (by omega)

theorem decV0_codes {k} (hk : R2N 256 (m * 33554432) k) (h : decV0 w k = .ok i) : Codes w i := by
  unfold decV0 at h
  split at h
  · exact decF3_codes hw hm hk (fieldOk_eq_ok.2 ⟨‹_›, Except.ok.inj h⟩)
  · cases h

theorem decF3E_codes {k} (hk : R3E (m * 33554432) k) (h : decF3E w k = .ok i) : Codes w i := by
  cases h
  have word := word_split hw
  have bit := bitNat_bit24 w
  exact (hk _ _ _ _).codes (by simp [bitsAt_lt]) (by omega)

theorem decFI_codes {k} (hk : R2I (m * 33554432) k) (h : decFI w k = .ok i) : Codes w i := by
  obtain ⟨z, rfl⟩ := fieldOk_eq_ok.1 h
  rw [beq_iff_eq] at z
  have word := word_split hw
  have low := toNat_ofNat_low w 8
  exact (hk _ _ _).codes (by simp [bitsAt_lt]) (by omega)

theorem decFME_codes {k} (hk : R2IE (m * 33554432) k) (h : decFME w k = .ok i) : Codes w i := by
  cases h
  have word := word_split hw
  have bit := bitNat_bit24 w
  have low := toNat_ofNat_low w 8
  exact (hk _ _ _ _).codes (by simp [bitsAt_lt]) (by omega)

/-! The group formats, whose function code is the low byte. -/

section
variable (hf : bitsAt w 0 8 = f)
include hf

theorem decG2_codes {k} (hk : R2 (m * 33554432 + f) k) (h : decG2 w k = .ok i) : Codes w i := by
  obtain ⟨z, rfl⟩ := fieldOk_eq_ok.1 h
  rw [beq_iff_eq] at z
  have word := word_split hw
  exact (hk _ _).codes (by simp [bitsAt_lt]) (by omega)

theorem decG2E_codes {k} (hk : R2E (m * 33554432 + f) k) (h : decG2E w k = .ok i) : Codes w i := by
  cases h
  have word := word_split hw
  have bit := bitNat_bit24 w
  exact (hk _ _ _).codes (by simp [bitsAt_lt]) (by omega)

theorem decG1DE_codes {k} (hk : D1E (m * 33554432 + f) k) (h : decG1DE w k = .ok i) : Codes w i := by
  obtain ⟨z, rfl⟩ := fieldOk_eq_ok.1 h
  rw [beq_iff_eq] at z
  have word := word_split hw
  have bit := bitNat_bit24 w
  exact (hk _ _).codes (by simp [bitsAt_lt]) (by omega)

theorem decG1AE_codes {k} (hk : A1E (m * 33554432 + f) k) (h : decG1AE w k = .ok i) : Codes w i := by
  obtain ⟨z, rfl⟩ := fieldOk_eq_ok.1 h
  rw [beq_iff_eq] at z
  have word := word_split hw
  have bit := bitNat_bit24 w
  exact (hk _ _).codes (by simp [bitsAt_lt]) (by omega)

theorem decG1D_codes {k} (hk : D1 (m * 33554432 + f) k) (h : decG1D w k = .ok i) : Codes w i := by
  obtain ⟨z, rfl⟩ := fieldOk_eq_ok.1 h
  simp only [Bool.and_eq_true, beq_iff_eq] at z
  have word := word_split hw
  exact (hk _).codes (by simp [bitsAt_lt]) (by omega)

theorem decG1A_codes {k} (hk : A1 (m * 33554432 + f) k) (h : decG1A w k = .ok i) : Codes w i := by
  obtain ⟨z, rfl⟩ := fieldOk_eq_ok.1 h
  simp only [Bool.and_eq_true, beq_iff_eq] at z
  have word := word_split hw
  exact (hk _).codes (by simp [bitsAt_lt]) (by omega)

theorem decG0_codes {j} (hk : Coded j true (m * 33554432 + f)) (h : decG0 w j = .ok i) : Codes w i := by
  obtain ⟨z, rfl⟩ := fieldOk_eq_ok.1 h
  rw [beq_iff_eq, operands_split] at z
  have word := word_split hw
  exact hk.codes rfl (by omega)

end

/-! The predicate formats, whose form is in bits [23:19]. -/

section
variable (hf : bitsAt w 19 5 = f)
include hf

theorem decFP_codes {k} (hk : PAN 256 (m * 33554432 + f * 524288) k) (h : decFP w k = .ok i) : Codes w i := by
  obtain ⟨z, rfl⟩ := fieldOk_eq_ok.1 h
  rw [beq_iff_eq] at z
  have word := word_split hw
  have form := form_split w
  exact (hk _ _ _).codes (by simp [bitsAt_lt]) (by omega)

theorem decFPI_codes {k} (hk : PAI (m * 33554432 + f * 524288) k) (h : decFPI w k = .ok i) : Codes w i := by
  obtain ⟨z, rfl⟩ := fieldOk_eq_ok.1 h
  rw [beq_iff_eq] at z
  have word := word_split hw
  have form := form_split w
  have low := toNat_ofNat_low w 8
  exact (hk _ _ _).codes (by simp [bitsAt_lt]) (by omega)

theorem decFPP_codes {k} (hk : PPN 8 (m * 33554432 + f * 524288) k) (h : decFPP w k = .ok i) : Codes w i := by
  obtain ⟨z, rfl⟩ := fieldOk_eq_ok.1 h
  simp only [Bool.and_eq_true, beq_iff_eq] at z
  have word := word_split hw
  have form := form_split w
  have mid : bitsAt w 8 8 = bitsAt w 11 5 * 8 + bitsAt w 8 3 := bitsAt_split w 8 3 5
  have low : bitsAt w 0 8 = bitsAt w 3 5 * 8 + bitsAt w 0 3 := bitsAt_split w 0 3 5
  exact (hk _ _ _).codes (by simp [bitsAt_lt]) (by omega)

theorem decFPP1_codes {k} (hk : PP (m * 33554432 + f * 524288) k) (h : decFPP1 w k = .ok i) : Codes w i := by
  obtain ⟨z, rfl⟩ := fieldOk_eq_ok.1 h
  simp only [Bool.and_eq_true, beq_iff_eq] at z
  have word := word_split hw
  have form := form_split w
  have mid : bitsAt w 8 8 = bitsAt w 11 5 * 8 + bitsAt w 8 3 := bitsAt_split w 8 3 5
  exact (hk _ _).codes (by simp [bitsAt_lt]) (by omega)

theorem decFLP_codes {k} (hk : PPN 256 (m * 33554432 + f * 524288) k) (h : decFLP w k = .ok i) : Codes w i := by
  obtain ⟨z, rfl⟩ := fieldOk_eq_ok.1 h
  simp only [Bool.and_eq_true, beq_iff_eq] at z
  have word := word_split hw
  have form := form_split w
  have mid : bitsAt w 8 8 = bitsAt w 11 5 * 8 + bitsAt w 8 3 := bitsAt_split w 8 3 5
  exact (hk _ _ _).codes (by simp [bitsAt_lt]) (by omega)

end

/-! The cluster formats, whose function code is in bits [5:0]. -/

section
variable (hf : bitsAt w 0 6 = f)
include hf

theorem decFA_codes {k} (hk : R2ES (m * 33554432 + f) k) (h : decFA w k = .ok i) : Codes w i := by
  cases h
  have word := word_split hw
  have bit := bitNat_bit24 w
  have low := scope_split w
  have scope := scopeCode_decScope w
  exact (hk _ _ _ _).codes (by simp [bitsAt_lt]) (by omega)

theorem decFA0_codes {k} (hk : R2E (m * 33554432 + f) k) (h : decFA0 w k = .ok i) : Codes w i := by
  obtain ⟨z, rfl⟩ := fieldOk_eq_ok.1 h
  rw [beq_iff_eq] at z
  have word := word_split hw
  have bit := bitNat_bit24 w
  have low := scope_split w
  exact (hk _ _ _).codes (by simp [bitsAt_lt]) (by omega)

theorem decFAU_codes {k} (hk : R2 (m * 33554432 + f) k) (h : decFAU w k = .ok i) : Codes w i := by
  obtain ⟨z, rfl⟩ := fieldOk_eq_ok.1 h
  simp only [Bool.and_eq_true, beq_iff_eq] at z
  have word := word_split hw
  have low := scope_split w
  exact (hk _ _).codes (by simp [bitsAt_lt]) (by omega)

theorem decFence_codes {k} (hk : SC (m * 33554432 + f) k) (h : decFence w k = .ok i) : Codes w i := by
  obtain ⟨z, rfl⟩ := fieldOk_eq_ok.1 h
  rw [beq_iff_eq, operands_split] at z
  have word := word_split hw
  have low := scope_split w
  have scope := scopeCode_decScope w
  exact (hk _).codes rfl (by omega)

end

theorem decFT_codes {k} (hf : bitsAt w 0 4 = f) (hk : R2EN 16 16 (m * 33554432 + f) k) (h : decFT w k = .ok i) :
    Codes w i := by
  cases h
  have word := word_split hw
  have bit := bitNat_bit24 w
  have low := nibbles_split w
  exact (hk _ _ _ _).codes (by simp [bitsAt_lt]) (by omega)

theorem decFQ_codes {k} (hf : bitsAt w 4 4 = f) (hk : R2EN 2 4 (m * 33554432 + f * 16) k) (h : decFQ w k = .ok i) :
    Codes w i := by
  obtain ⟨z, rfl⟩ := fieldOk_eq_ok.1 h
  simp only [Bool.and_eq_true, beq_iff_eq, decide_eq_true_eq] at z
  have word := word_split hw
  have bit := bitNat_bit24 w
  have low := nibbles_split w
  have sel : bitsAt w 0 4 = bitsAt w 2 2 * 4 + bitsAt w 0 2 := bitsAt_split w 0 2 2
  exact (hk _ _ _ _).codes (by simp [bitsAt_lt, z]) (by omega)

theorem decFQ0_codes {k} (hf : bitsAt w 4 4 = f) (hk : R2E (m * 33554432 + f * 16) k) (h : decFQ0 w k = .ok i) :
    Codes w i := by
  obtain ⟨z, rfl⟩ := fieldOk_eq_ok.1 h
  rw [beq_iff_eq] at z
  have word := word_split hw
  have bit := bitNat_bit24 w
  have low := nibbles_split w
  exact (hk _ _ _).codes (by simp [bitsAt_lt]) (by omega)

theorem decF64_codes {k} (hf : bitsAt w 0 3 = f) (hk : X3 (m * 33554432 + f) k) (h : decF64 w k = .ok i) : Codes w i := by
  obtain ⟨z, rfl⟩ := fieldOk_eq_ok.1 h
  rw [beq_iff_eq] at z
  have whole := bitsAt_whole hw
  have low : bitsAt w 0 32 = bitsAt w 3 29 * 8 + bitsAt w 0 3 := bitsAt_split w 0 3 29
  have b : bitsAt w 3 29 = bitsAt w 10 22 * 128 + bitsAt w 3 7 := bitsAt_split w 3 7 22
  have a : bitsAt w 10 22 = bitsAt w 17 15 * 128 + bitsAt w 10 7 := bitsAt_split w 10 7 15
  have d : bitsAt w 17 15 = bitsAt w 24 8 * 128 + bitsAt w 17 7 := bitsAt_split w 17 7 8
  have top : bitsAt w 24 8 = majorOf w * 2 + bitsAt w 24 1 := bitsAt_split w 24 1 7
  exact (hk _ _ _).codes (by simp [bitsAt_lt]) (by omega)

theorem decSpawn_codes {k} (hk : RSO (m * 33554432) k) (h : decSpawn w k = .ok i) : Codes w i := by
  have whole := bitsAt_whole hw
  have low : bitsAt w 0 32 = bitsAt w 15 17 * 32768 + bitsAt w 0 15 := bitsAt_split w 0 15 17
  have reg : bitsAt w 15 17 = bitsAt w 23 9 * 256 + bitsAt w 15 8 := bitsAt_split w 15 8 9
  have top : bitsAt w 23 9 = majorOf w * 4 + bitsAt w 23 2 := bitsAt_split w 23 2 7
  have offset := toNat_ofNat_low w 15
  unfold decSpawn at h
  split at h <;> rename_i role <;> cases h
  all_goals exact (hk _ _ _).codes (by simp [bitsAt_lt]) (by simp only [roleCode]; omega)

end

/-! ### What the decoder accepts is the encoding of what it gives -/

section
variable {w : Nat} {i : Instr} (hw : w < 2 ^ 32)
include hw

theorem decAlu_codes (h : decAlu w = .ok i) : Codes w i := by
  unfold decAlu at h
  split at h
  case h_33 => cases h
  all_goals exact decF3_codes hw ‹_› (fun _ _ _ => ⟨rfl, rfl⟩) h

theorem decCmp_codes (hm : majorOf w = 0x26) (h : decCmp w = .ok i) : Codes w i := by
  unfold decCmp at h
  split at h
  case h_10 | h_11 => exact decFPI_codes hw hm ‹_› (fun _ _ _ => ⟨rfl, rfl⟩) h
  case h_12 | h_13 | h_14 | h_15 => exact decFPP_codes hw hm ‹_› (fun _ _ _ => ⟨rfl, rfl⟩) h
  case h_16 | h_17 => exact decFPP1_codes hw hm ‹_› (fun _ _ => ⟨rfl, rfl⟩) h
  case h_18 => cases h
  all_goals exact decFP_codes hw hm ‹_› (fun _ _ _ => ⟨rfl, rfl⟩) h

theorem decSingle_codes (hm : majorOf w = 0x27) (h : decSingle w = .ok i) : Codes w i := by
  unfold decSingle at h
  split at h <;> rename_i hf
  case h_9 => exact decG1D_codes hw hm hf (fun _ => ⟨rfl, rfl⟩) h
  case h_10 =>
    obtain ⟨z, rfl⟩ := fieldOk_eq_ok.1 h
    simp only [Bool.and_eq_true, beq_iff_eq, decide_eq_true_eq] at z
    have word := word_split hw
    exact Coded.codes ⟨rfl, rfl⟩ (by simp [Instr.wf, bitsAt_lt, z]) (by omega)
  case h_11 => cases h
  all_goals exact decG2_codes hw hm hf (fun _ _ => ⟨rfl, rfl⟩) h

theorem decSys_codes (hm : majorOf w = 0x2D) (h : decSys w = .ok i) : Codes w i := by
  unfold decSys at h
  split at h <;> rename_i hf
  case h_1 | h_2 | h_3 | h_8 => exact decG0_codes hw hm hf ⟨rfl, rfl⟩ h
  case h_4 | h_5 | h_6 | h_7 => exact decG1A_codes hw hm hf (fun _ => ⟨rfl, rfl⟩) h
  case h_9 | h_10 => exact decG2_codes hw hm hf (fun _ _ => ⟨rfl, rfl⟩) h
  case h_11 => exact decG1D_codes hw hm hf (fun _ => ⟨rfl, rfl⟩) h
  case h_12 | h_13 | h_14 | h_15 => exact decG2_codes hw hm hf (prng_R2 rfl (by decide)) h
  case h_16 => cases h

/-- A branch (R44): `bp` with predicate 7 is `br`. -/
theorem decBranch_codes (hm : majorOf w = 0x2B) (h : decClass0 w = .ok i) : Codes w i := by
  have whole := bitsAt_whole hw
  have low : bitsAt w 0 32 = bitsAt w 21 11 * 2097152 + bitsAt w 0 21 := bitsAt_split w 0 21 11
  have negate : bitsAt w 21 11 = bitsAt w 22 10 * 2 + bitsAt w 21 1 := bitsAt_split w 21 1 10
  have top : bitsAt w 22 10 = majorOf w * 8 + bitsAt w 22 3 := bitsAt_split w 22 3 7
  have offset := toNat_ofNat_low w 21
  have bit : bitsAt w 21 1 < 2 := bitsAt_lt le_rfl
  have pred : bitsAt w 22 3 < 8 := bitsAt_lt le_rfl
  simp only [decClass0, hm, beq_iff_eq] at h
  split at h
  · split at h <;> cases h
    · exact Coded.codes ⟨rfl, rfl⟩ rfl (by omega)
    · exact Coded.codes ⟨rfl, rfl⟩ (by simp only [Instr.wf, decide_eq_true_eq]; omega) (by omega)
  · cases h
    exact Coded.codes ⟨rfl, rfl⟩ (by simp [Instr.wf, bitsAt_lt]) (by omega)

theorem decClass0_codes (h : decClass0 w = .ok i) : Codes w i := by
  have word := word_split hw
  have accepted := h
  unfold decClass0 at h
  split at h <;> rename_i hm
  case h_1 => exact decFI_codes hw hm (fun _ _ _ => ⟨rfl, rfl⟩) h
  case h_2 =>
    have low : bitsAt w 0 8 = bitsAt w 5 3 * 32 + bitsAt w 0 5 := bitsAt_split w 0 5 3
    split at h
    case h_4 => cases h
    all_goals
      obtain ⟨z, rfl⟩ := fieldOk_eq_ok.1 h
      rw [beq_iff_eq] at z
      exact Coded.codes ⟨rfl, rfl⟩ (by simp [Instr.wf, bitsAt_lt]) (by omega)
  case h_3 | h_4 =>
    obtain ⟨z, rfl⟩ := fieldOk_eq_ok.1 h
    rw [beq_iff_eq] at z
    have low : bitsAt w 0 16 = bitsAt w 8 8 * 256 + bitsAt w 0 8 := bitsAt_split w 0 8 8
    have imm := toNat_ofNat_low w 16
    exact Coded.codes ⟨rfl, rfl⟩ (by simp [Instr.wf, bitsAt_lt]) (by omega)
  case h_5 =>
    split at h
    case h_7 => cases h
    all_goals exact decF64_codes hw hm ‹_› (fun _ _ _ => ⟨rfl, rfl⟩) h
  case h_6 => exact decCmp_codes hw hm h
  case h_7 => exact decSingle_codes hw hm h
  case h_8 =>
    have low : bitsAt w 0 16 = bitsAt w 8 8 * 256 + bitsAt w 0 8 := bitsAt_split w 0 8 8
    have imm := toNat_ofNat_low w 16
    have top : bitsAt w 19 6 = bitsAt w 24 1 * 32 + bitsAt w 19 5 := bitsAt_split w 19 5 1
    have mid : bitsAt w 16 3 = bitsAt w 18 1 * 4 + bitsAt w 16 2 := bitsAt_split w 16 2 1
    have form := form_split w
    have incx : bitsAt w 18 1 < 2 := bitsAt_lt le_rfl
    split at h <;> rename_i hx <;> rw [beq_iff_eq] at hx
    all_goals
      obtain ⟨z, rfl⟩ := fieldOk_eq_ok.1 h
      rw [beq_iff_eq] at z
      exact Coded.codes ⟨rfl, rfl⟩ (by simp [Instr.wf, bitsAt_lt]) (by omega)
  case h_9 | h_10 =>
    obtain ⟨z, rfl⟩ := fieldOk_eq_ok.1 h
    simp only [Bool.and_eq_true, beq_iff_eq] at z
    have imm := toNat_ofNat_low w 8
    have mid : bitsAt w 8 8 = bitsAt w 10 6 * 4 + bitsAt w 8 2 := bitsAt_split w 8 2 6
    exact Coded.codes ⟨rfl, rfl⟩ (by simp [Instr.wf, bitsAt_lt]) (by omega)
  case h_11 => exact decBranch_codes hw hm accepted
  case h_12 =>
    have whole := bitsAt_whole hw
    have low : bitsAt w 0 32 = bitsAt w 21 11 * 2097152 + bitsAt w 0 21 := bitsAt_split w 0 21 11
    have top : bitsAt w 21 11 = majorOf w * 16 + bitsAt w 21 4 := bitsAt_split w 21 4 7
    have offset := toNat_ofNat_low w 21
    cases h
    exact Coded.codes ⟨rfl, rfl⟩ (by simp [Instr.wf, bitsAt_lt]) (by omega)
  case h_13 => exact decSys_codes hw hm h
  case h_14 | h_15 => exact decSpawn_codes hw hm (fun _ _ _ => ⟨rfl, rfl⟩) h
  case h_16 => cases h

theorem decCvt_codes (hm : majorOf w = 0x3B) (h : decCvt w = .ok i) : Codes w i := by
  unfold decCvt at h
  split at h <;> rename_i hf
  case h_16 | h_17 | h_18 | h_19 => exact decG2_codes hw hm hf (cvtF32E4m3_R2 rfl (by decide)) h
  case h_20 | h_21 | h_22 | h_23 => exact decG2_codes hw hm hf (cvtF32E5m2_R2 rfl (by decide)) h
  case h_24 | h_25 | h_26 | h_27 | h_28 | h_29 | h_30 | h_31 =>
    exact decG2_codes hw hm hf (cvtF32E2m1_R2 rfl (by decide)) h
  case h_32 => cases h
  all_goals exact decG2_codes hw hm hf (fun _ _ => ⟨rfl, rfl⟩) h

theorem decClass1_codes (h : decClass1 w = .ok i) : Codes w i := by
  unfold decClass1 at h
  split at h <;> rename_i hm
  case h_7 | h_8 | h_9 | h_10 => exact decV0_codes hw hm (fun _ _ _ => ⟨rfl, rfl⟩) h
  case h_11 =>
    split at h
    case h_5 => cases h
    all_goals exact decFP_codes hw hm ‹_› (fun _ _ _ => ⟨rfl, rfl⟩) h
  case h_12 => exact decCvt_codes hw hm h
  case h_13 =>
    split at h
    case h_9 => cases h
    all_goals exact decG2E_codes hw hm ‹_› (fun _ _ _ => ⟨rfl, rfl⟩) h
  case h_14 => exact decF3_codes hw hm (fun _ _ _ => ⟨rfl, rfl⟩) h
  case h_15 => cases h
  all_goals exact decV_codes hw hm (fun _ _ _ => ⟨rfl, rfl⟩) (fun _ _ _ => ⟨rfl, rfl⟩) h

theorem decMemGroup_codes (hm : majorOf w = 0x46 ∨ majorOf w = 0x47) (h : decMemGroup w = .ok i) : Codes w i := by
  unfold decMemGroup at h
  simp only [beq_iff_eq] at h
  split at h
  next hm =>
    split at h <;> rename_i hf
    case h_9 =>
      obtain ⟨z, rfl⟩ := fieldOk_eq_ok.1 h
      simp only [Bool.and_eq_true, beq_iff_eq] at z
      have word := word_split hw
      have form := form_split w
      exact Coded.codes ⟨rfl, rfl⟩ (by simp [Instr.wf, bitsAt_lt]) (by omega)
    case h_10 => exact decG2E_codes hw hm hf (fun _ _ _ => ⟨rfl, rfl⟩) h
    case h_11 | h_12 => exact decG1DE_codes hw hm hf (fun _ _ => ⟨rfl, rfl⟩) h
    case h_13 => cases h
    all_goals exact decG2_codes hw hm hf (fun _ _ => ⟨rfl, rfl⟩) h
  next no =>
    have hm : majorOf w = 0x47 := hm.resolve_left no
    split at h <;> rename_i hf
    case h_11 => cases h
    all_goals exact decG2E_codes hw hm hf (fun _ _ _ => ⟨rfl, rfl⟩) h

theorem decClass2_codes (h : decClass2 w = .ok i) : Codes w i := by
  have word := word_split hw
  have mid : bitsAt w 8 8 = bitsAt w 11 5 * 8 + bitsAt w 8 3 := bitsAt_split w 8 3 5
  have bit : bitsAt w 24 1 < 2 := bitsAt_lt le_rfl
  unfold decClass2 at h
  split at h <;> rename_i hm
  case h_1 | h_2 | h_5 | h_6 => exact decFI_codes hw hm (fun _ _ _ => ⟨rfl, rfl⟩) h
  case h_3 | h_4 => exact decFME_codes hw hm (fun _ _ _ _ => ⟨rfl, rfl⟩) h
  case h_7 => exact decMemGroup_codes hw (.inl hm) h
  case h_8 => exact decMemGroup_codes hw (.inr hm) h
  case h_14 =>
    split at h <;> rename_i v <;> rw [beq_iff_eq] at v
    · cases h
      exact Coded.codes ⟨rfl, rfl⟩ (by simp [Instr.wf, bitsAt_lt]) (by omega)
    · obtain ⟨z, rfl⟩ := fieldOk_eq_ok.1 h
      rw [beq_iff_eq] at z
      exact Coded.codes ⟨rfl, rfl⟩ (by simp [Instr.wf, bitsAt_lt]) (by omega)
  case h_15 =>
    split at h <;> rename_i v
    · obtain ⟨z, rfl⟩ := fieldOk_eq_ok.1 h
      rw [beq_iff_eq] at v z
      exact Coded.codes ⟨rfl, rfl⟩ (by simp [Instr.wf, bitsAt_lt]) (by omega)
    · cases h
  case h_16 =>
    split at h
    case h_4 => cases h
    all_goals exact decFLP_codes hw hm ‹_› (fun _ _ _ => ⟨rfl, rfl⟩) h
  case h_17 => cases h
  all_goals exact decV_codes hw hm (fun _ _ _ => ⟨rfl, rfl⟩) (fun _ _ _ => ⟨rfl, rfl⟩) h

theorem decClass3_codes (h : decClass3 w = .ok i) : Codes w i := by
  have word := word_split hw
  have low := nibbles_split w
  have slot : bitsAt w 0 4 = bitsAt w 3 1 * 8 + bitsAt w 0 3 := bitsAt_split w 0 3 1
  have form := form_split w
  have wide : bitsAt w 16 9 = bitsAt w 24 1 * 256 + bitsAt w 16 8 := bitsAt_split w 16 8 1
  have top : bitsAt w 19 6 = bitsAt w 24 1 * 32 + bitsAt w 19 5 := bitsAt_split w 19 5 1
  have operands := operands_split w
  have bit := bitNat_bit24 w
  unfold decClass3 at h
  split at h <;> rename_i hm
  case h_1 =>
    split at h
    case h_9 => cases h
    all_goals
      refine .of_fieldOk rfl h (by simp [Instr.wf, bitsAt_lt]) fun z => ?_
      simp only [beq_iff_eq] at z
      omega
  case h_2 =>
    split at h
    case h_5 => cases h
    all_goals
      refine .of_fieldOk rfl h (by simp [Instr.wf, bitsAt_lt]) fun z => ?_
      simp only [Bool.and_eq_true, beq_iff_eq] at z
      omega
  case h_3 | h_4 | h_5 => exact decF3E_codes hw hm (fun _ _ _ _ => ⟨rfl, rfl⟩) h
  case h_6 =>
    obtain ⟨z, rfl⟩ := fieldOk_eq_ok.1 h
    rw [beq_iff_eq] at z
    exact Coded.codes ⟨rfl, rfl⟩ (by simp [Instr.wf, bitsAt_lt]) (by omega)
  case h_7 =>
    split at h
    case h_8 => cases h
    all_goals exact decFQ_codes hw hm ‹_› (fun _ _ _ _ => ⟨rfl, rfl⟩) h
  case h_8 =>
    split at h
    case h_4 =>
      obtain ⟨z, rfl⟩ := fieldOk_eq_ok.1 h
      simp only [Bool.and_eq_true, beq_iff_eq] at z
      exact Coded.codes ⟨rfl, rfl⟩ (by simp [Instr.wf, bitsAt_lt]) (by omega)
    case h_5 => cases h
    all_goals exact decFQ0_codes hw hm ‹_› (fun _ _ _ => ⟨rfl, rfl⟩) h
  case h_9 =>
    split at h
    case h_4 => cases h
    all_goals
      refine .of_fieldOk rfl h (by simp [Instr.wf, bitsAt_lt]) fun z => ?_
      simp only [Bool.and_eq_true, beq_iff_eq] at z
      omega
  case h_10 => cases h

theorem decClass4_codes (h : decClass4 w = .ok i) : Codes w i := by
  unfold decClass4 at h
  split at h <;> rename_i hm
  case h_1 =>
    unfold decAtom at h
    split at h
    case h_15 => cases h
    all_goals exact decFA_codes hw hm ‹_› (fun _ _ _ _ => ⟨rfl, rfl⟩) h
  case h_2 =>
    split at h
    case h_6 => cases h
    all_goals exact decFA_codes hw hm ‹_› (fun _ _ _ _ => ⟨rfl, rfl⟩) h
  case h_3 =>
    split at h
    case h_4 =>
      obtain ⟨z, rfl⟩ := fieldOk_eq_ok.1 h
      simp only [Bool.and_eq_true, beq_iff_eq] at z
      have word := word_split hw
      have low := scope_split w
      have bit := bitNat_bit24 w
      exact Coded.codes ⟨rfl, rfl⟩ (by simp [Instr.wf, bitsAt_lt]) (by omega)
    case h_5 => cases h
    all_goals exact decFA0_codes hw hm ‹_› (fun _ _ _ => ⟨rfl, rfl⟩) h
  case h_4 =>
    split at h
    case h_7 => cases h
    all_goals exact decFAU_codes hw hm ‹_› (fun _ _ => ⟨rfl, rfl⟩) h
  case h_5 =>
    split at h
    case h_5 => cases h
    all_goals exact decFA_codes hw hm ‹_› (fun _ _ _ _ => ⟨rfl, rfl⟩) h
  case h_6 =>
    split at h
    case h_4 => cases h
    all_goals exact decFence_codes hw hm ‹_› (fun _ => ⟨rfl, rfl⟩) h
  case h_7 =>
    split at h
    case h_4 => cases h
    all_goals exact decFA_codes hw hm ‹_› (fun _ _ _ _ => ⟨rfl, rfl⟩) h
  case h_8 => cases h

theorem decClass56_codes (h : decClass56 w = .ok i) : Codes w i := by
  unfold decClass56 at h
  split at h <;> rename_i hm
  case h_1 =>
    split at h
    case h_10 =>
      obtain ⟨z, rfl⟩ := fieldOk_eq_ok.1 h
      rw [beq_iff_eq] at z
      have word := word_split hw
      have low := nibbles_split w
      have wide : bitsAt w 16 9 = bitsAt w 24 1 * 256 + bitsAt w 16 8 := bitsAt_split w 16 8 1
      exact Coded.codes ⟨rfl, rfl⟩ (by simp [Instr.wf, bitsAt_lt]) (by omega)
    case h_12 => cases h
    all_goals exact decFT_codes hw hm ‹_› (fun _ _ _ _ => ⟨rfl, rfl⟩) h
  case h_2 =>
    split at h
    · exact decG2E_codes hw hm ‹_› (fun _ _ _ => ⟨rfl, rfl⟩) h
    · exact decG1DE_codes hw hm ‹_› (fun _ _ => ⟨rfl, rfl⟩) h
    · cases h
  case h_3 =>
    split at h
    case h_3 => exact decG2E_codes hw hm ‹_› (fun _ _ _ => ⟨rfl, rfl⟩) h
    case h_4 => cases h
    all_goals exact decG1AE_codes hw hm ‹_› (fun _ _ => ⟨rfl, rfl⟩) h
  case h_4 =>
    split at h
    case h_1 | h_4 => exact decG1AE_codes hw hm ‹_› (fun _ _ => ⟨rfl, rfl⟩) h
    case h_6 => cases h
    all_goals exact decG2E_codes hw hm ‹_› (fun _ _ _ => ⟨rfl, rfl⟩) h
  case h_5 => cases h

theorem decPrefix_codes (hm : 0x7E ≤ majorOf w) (h : decPrefix w = .ok i) : Codes w i := by
  have whole := bitsAt_whole hw
  have major : majorOf w < 128 := bitsAt_lt le_rfl
  unfold decPrefix at h
  simp only [beq_iff_eq] at h
  split at h
  · split at h
    · have low : bitsAt w 0 32 = bitsAt w 8 24 * 256 + bitsAt w 0 8 := bitsAt_split w 0 8 24
      have mid : bitsAt w 8 24 = bitsAt w 21 11 * 8192 + bitsAt w 8 13 := bitsAt_split w 8 13 11
      have zero : bitsAt w 21 11 = bitsAt w 22 10 * 2 + bitsAt w 21 1 := bitsAt_split w 21 1 10
      have top : bitsAt w 22 10 = majorOf w * 8 + bitsAt w 22 3 := bitsAt_split w 22 3 7
      have bit := bitNat_beq_one (n := bitsAt w 21 1) (bitsAt_lt le_rfl)
      cases h
      exact Coded.codes ⟨rfl, rfl⟩ (by simp [Instr.wf, bitsAt_lt]) (by omega)
    · cases h
  · split at h
    · next z =>
      simp only [Bool.and_eq_true, beq_iff_eq, decide_eq_true_eq] at z
      have low : bitsAt w 0 32 = bitsAt w 16 16 * 65536 + bitsAt w 0 16 := bitsAt_split w 0 16 16
      have mid : bitsAt w 16 16 = bitsAt w 19 13 * 8 + bitsAt w 16 3 := bitsAt_split w 16 3 13
      have policy : bitsAt w 19 13 = bitsAt w 21 11 * 4 + bitsAt w 19 2 := bitsAt_split w 19 2 11
      have top : bitsAt w 21 11 = majorOf w * 16 + bitsAt w 21 4 := bitsAt_split w 21 4 7
      have offset := toNat_ofNat_low w 16
      cases h
      exact Coded.codes ⟨rfl, rfl⟩ (by simp [Instr.wf, bitsAt_lt, z]) (by omega)
    · cases h

theorem decodeNat_codes (h : decodeNat w = .ok i) : Codes w i := by
  unfold decodeNat at h
  split at h
  · exact decAlu_codes hw h
  split at h
  · exact decClass0_codes hw h
  split at h
  · exact decClass1_codes hw h
  split at h
  · exact decClass2_codes hw h
  split at h
  · exact decClass3_codes hw h
  split at h
  · exact decClass4_codes hw h
  split at h
  · exact decClass56_codes hw h
  · exact decPrefix_codes hw (by omega) h

end

/-- Settles O4: every bit of an accepted word is an operand's or fixed by the format that accepts it. -/
theorem encodeOfDecode : Obligations.EncodeOfDecode := by
  unfold Obligations.EncodeOfDecode decodeWord
  intro i w h
  obtain ⟨wf, word⟩ := decodeNat_codes w.isLt h
  exact ⟨wf, by rw [encode, word, Option.map_some, BitVec.ofNat_toNat, BitVec.setWidth_eq]⟩

end Sys2Proof.Encoding
end

section
/-! PROOF. The encoding of a well-formed instruction (R41 to R55) is read back as that instruction: one lemma for each shape,
which says so of any family `k` of it. In these lemmas `path` is the decoder's way to the family: the fixed bits of the word
are those of `c`, and they decide it. -/

namespace Sys2Proof.Encoding

/-- `w` is the 32-bit word, as a number, of the well-formed instruction `i`. -/
def IsWord (w : Nat) (i : Instr) : Prop := i.wf = true ∧ ∃ v, encode i = some v ∧ v.toNat = w

theorem IsWord.of_coded {i : Instr} {fits : Bool} {n w : Nat} (hi : IsWord w i) (h : Coded i fits n) :
    fits = true ∧ w = n % 2 ^ 32 := by
  obtain ⟨wf, v, hv, rfl⟩ := hi
  rw [encode, h.2, Option.map_some, Option.some.injEq] at hv
  exact ⟨h.1.symm.trans wf, by rw [← hv, BitVec.toNat_ofNat]⟩

section
variable {w c d a n : Nat} {e : Bool}

theorem bit24_eq (h : bitsAt w 24 1 = bitNat e) : (bitsAt w 24 1 == 1) = e := by rw [h, bitNat_eq_one]

theorem bitsAt_0_6 (w : Nat) : bitsAt w 0 6 = bitsAt w 0 8 % 64 := bitsAt_low w 0 6 2

theorem bitsAt_6_2 (w : Nat) : bitsAt w 6 2 = bitsAt w 0 8 / 64 := bitsAt_high w 0 6 2

theorem bitsAt_0_4 (w : Nat) : bitsAt w 0 4 = bitsAt w 0 8 % 16 := bitsAt_low w 0 4 4

theorem bitsAt_4_4 (w : Nat) : bitsAt w 4 4 = bitsAt w 0 8 / 16 := bitsAt_high w 0 4 4

theorem R2N.reads {k} (hk : R2N 256 c k) (hc : c % 16777216 = 0) (h : IsWord w (k d a n))
    (path : majorOf w = c / 33554432 % 128 ∧ bitsAt w 24 1 = c / 16777216 % 2 →
      decodeNat w = .ok (k (bitsAt w 16 8) (bitsAt w 8 8) (bitsAt w 0 8))) : decodeNat w = .ok (k d a n) := by
  obtain ⟨fits, rfl⟩ := h.of_coded (hk d a n)
  simp only [Bool.and_eq_true, decide_eq_true_eq] at fits
  rw [path (by simp only [majorOf, bitsAt]; omega)]
  congr 2 <;> unfold bitsAt <;> omega

/-- Immediate shifts (R88). -/
theorem R2N.reads_shift {k} (hk : R2N 32 c k) (hc : c % 16777216 < 256 ∧ c % 32 = 0) (h : IsWord w (k d a n))
    (path : majorOf w = c / 33554432 % 128 ∧ bitsAt w 24 1 = c / 16777216 % 2 ∧ bitsAt w 5 3 = c / 32 % 8 →
      decodeNat w = .ok (k (bitsAt w 16 8) (bitsAt w 8 8) (bitsAt w 0 5))) : decodeNat w = .ok (k d a n) := by
  obtain ⟨fits, rfl⟩ := h.of_coded (hk d a n)
  simp only [Bool.and_eq_true, decide_eq_true_eq] at fits
  rw [path (by simp only [majorOf, bitsAt]; omega)]
  congr 2 <;> unfold bitsAt <;> omega

/-- Barrier forms with a destination (R181). -/
theorem R2N.reads_barrier {k} (hk : R2N 16 c k) (hc : c % 16777216 < 256 ∧ c % 16 = 0) (h : IsWord w (k d a n))
    (path : majorOf w = c / 33554432 % 128 ∧ bitsAt w 24 1 = c / 16777216 % 2 ∧ bitsAt w 4 4 = c / 16 % 16 →
      decodeNat w = .ok (k (bitsAt w 16 8) (bitsAt w 8 8) (bitsAt w 0 4))) : decodeNat w = .ok (k d a n) := by
  obtain ⟨fits, rfl⟩ := h.of_coded (hk d a n)
  simp only [Bool.and_eq_true, decide_eq_true_eq] at fits
  rw [path (by simp only [majorOf, bitsAt]; omega)]
  congr 2 <;> unfold bitsAt <;> omega

/-- Ring forms with a destination (R187). -/
theorem R2N.reads_ring {k} (hk : R2N 8 c k) (hc : c % 16777216 < 256 ∧ c % 8 = 0) (h : IsWord w (k d a n))
    (path : majorOf w = c / 33554432 % 128 ∧ bitsAt w 24 1 = c / 16777216 % 2 ∧ bitsAt w 4 4 = c / 16 % 16 ∧
      bitsAt w 3 1 = c / 8 % 2 →
      decodeNat w = .ok (k (bitsAt w 16 8) (bitsAt w 8 8) (bitsAt w 0 3))) : decodeNat w = .ok (k d a n) := by
  obtain ⟨fits, rfl⟩ := h.of_coded (hk d a n)
  simp only [Bool.and_eq_true, decide_eq_true_eq] at fits
  rw [path (by simp only [majorOf, bitsAt]; omega)]
  congr 2 <;> unfold bitsAt <;> omega

theorem R3E.reads {k} (hk : R3E c k) (hc : c % 33554432 = 0) (h : IsWord w (k e d a n))
    (path : majorOf w = c / 33554432 % 128 →
      decodeNat w = .ok (k (bitsAt w 24 1 == 1) (bitsAt w 16 8) (bitsAt w 8 8) (bitsAt w 0 8))) :
    decodeNat w = .ok (k e d a n) := by
  obtain ⟨fits, rfl⟩ := h.of_coded (hk e d a n)
  simp only [Bool.and_eq_true, decide_eq_true_eq] at fits
  have bit := bitNat_lt e
  rw [path (by unfold majorOf bitsAt; omega), bit24_eq (e := e) (by unfold bitsAt; omega)]
  congr 2 <;> unfold bitsAt <;> omega

theorem R2I.reads {k x} (hk : R2I c k) (hc : c % 16777216 = 0) (h : IsWord w (k d a x))
    (path : majorOf w = c / 33554432 % 128 ∧ bitsAt w 24 1 = c / 16777216 % 2 →
      decodeNat w = .ok (k (bitsAt w 16 8) (bitsAt w 8 8) (BitVec.ofNat 8 w))) : decodeNat w = .ok (k d a x) := by
  obtain ⟨fits, rfl⟩ := h.of_coded (hk d a x)
  simp only [Bool.and_eq_true, decide_eq_true_eq] at fits
  have imm := x.isLt
  rw [path (by simp only [majorOf, bitsAt]; omega), ofNat_eq_of_mod (i := x) (by omega)]
  congr 2 <;> unfold bitsAt <;> omega

theorem R2IE.reads {k x} (hk : R2IE c k) (hc : c % 33554432 = 0) (h : IsWord w (k e d a x))
    (path : majorOf w = c / 33554432 % 128 →
      decodeNat w = .ok (k (bitsAt w 24 1 == 1) (bitsAt w 16 8) (bitsAt w 8 8) (BitVec.ofNat 8 w))) :
    decodeNat w = .ok (k e d a x) := by
  obtain ⟨fits, rfl⟩ := h.of_coded (hk e d a x)
  simp only [Bool.and_eq_true, decide_eq_true_eq] at fits
  have bit := bitNat_lt e
  have imm := x.isLt
  rw [path (by unfold majorOf bitsAt; omega), bit24_eq (e := e) (by unfold bitsAt; omega),
    ofNat_eq_of_mod (i := x) (by omega)]
  congr 2 <;> unfold bitsAt <;> omega

theorem R2.reads {k} (hk : R2 c k) (hc : c % 16777216 < 256) (h : IsWord w (k d a))
    (path : majorOf w = c / 33554432 % 128 ∧ bitsAt w 24 1 = c / 16777216 % 2 ∧ bitsAt w 0 8 = c % 256 →
      decodeNat w = .ok (k (bitsAt w 16 8) (bitsAt w 8 8))) : decodeNat w = .ok (k d a) := by
  obtain ⟨fits, rfl⟩ := h.of_coded (hk d a)
  simp only [Bool.and_eq_true, decide_eq_true_eq] at fits
  rw [path (by simp only [majorOf, bitsAt]; omega)]
  congr 2 <;> unfold bitsAt <;> omega

theorem R2E.reads {k} (hk : R2E c k) (hc : c % 33554432 < 256) (h : IsWord w (k e d a))
    (path : majorOf w = c / 33554432 % 128 ∧ bitsAt w 0 8 = c % 256 →
      decodeNat w = .ok (k (bitsAt w 24 1 == 1) (bitsAt w 16 8) (bitsAt w 8 8))) : decodeNat w = .ok (k e d a) := by
  obtain ⟨fits, rfl⟩ := h.of_coded (hk e d a)
  simp only [Bool.and_eq_true, decide_eq_true_eq] at fits
  have bit := bitNat_lt e
  rw [path (by simp only [majorOf, bitsAt]; omega), bit24_eq (e := e) (by unfold bitsAt; omega)]
  congr 2 <;> unfold bitsAt <;> omega

theorem R2ES.reads {k x} (hk : R2ES c k) (hc : c % 33554432 < 64) (h : IsWord w (k e d a x))
    (path : majorOf w = c / 33554432 % 128 ∧ bitsAt w 0 6 = c % 64 →
      decodeNat w = .ok (k (bitsAt w 24 1 == 1) (bitsAt w 16 8) (bitsAt w 8 8) (decScope w))) :
    decodeNat w = .ok (k e d a x) := by
  obtain ⟨fits, rfl⟩ := h.of_coded (hk e d a x)
  simp only [Bool.and_eq_true, decide_eq_true_eq] at fits
  have bit := bitNat_lt e
  have scope := Laws.Encoding.scopeCode_le x
  rw [path (by simp only [majorOf, bitsAt]; omega), bit24_eq (e := e) (by unfold bitsAt; omega),
    decScope_eq (c := x) (by unfold bitsAt; omega)]
  congr 2 <;> unfold bitsAt <;> omega

/-- Tile words (R328). -/
theorem R2EN.reads {k} (hk : R2EN 16 16 c k) (hc : c % 33554432 < 16) (h : IsWord w (k e d a n))
    (path : majorOf w = c / 33554432 % 128 ∧ bitsAt w 0 4 = c % 16 →
      decodeNat w = .ok (k (bitsAt w 24 1 == 1) (bitsAt w 16 8) (bitsAt w 8 8) (bitsAt w 4 4))) :
    decodeNat w = .ok (k e d a n) := by
  obtain ⟨fits, rfl⟩ := h.of_coded (hk e d a n)
  simp only [Bool.and_eq_true, decide_eq_true_eq] at fits
  have bit := bitNat_lt e
  rw [path (by simp only [majorOf, bitsAt]; omega), bit24_eq (e := e) (by unfold bitsAt; omega)]
  congr 2 <;> unfold bitsAt <;> omega

/-- Products of coded tiles (R193). -/
theorem R2EN.reads_sel {k} (hk : R2EN 2 4 c k) (hc : c % 33554432 < 256 ∧ c % 16 = 0) (h : IsWord w (k e d a n))
    (path : majorOf w = c / 33554432 % 128 ∧ bitsAt w 4 4 = c / 16 % 16 ∧ bitsAt w 0 2 = c % 4 ∧ bitsAt w 2 2 < 2 →
      decodeNat w = .ok (k (bitsAt w 24 1 == 1) (bitsAt w 16 8) (bitsAt w 8 8) (bitsAt w 2 2))) :
    decodeNat w = .ok (k e d a n) := by
  obtain ⟨fits, rfl⟩ := h.of_coded (hk e d a n)
  simp only [Bool.and_eq_true, decide_eq_true_eq] at fits
  have bit := bitNat_lt e
  rw [path (by simp only [majorOf, bitsAt]; omega), bit24_eq (e := e) (by unfold bitsAt; omega)]
  congr 2 <;> unfold bitsAt <;> omega

theorem D1.reads {k} (hk : D1 c k) (hc : c % 16777216 < 256) (h : IsWord w (k d))
    (path : majorOf w = c / 33554432 % 128 ∧ bitsAt w 24 1 = c / 16777216 % 2 ∧ bitsAt w 8 8 = c / 256 % 256 ∧
      bitsAt w 0 8 = c % 256 →
      decodeNat w = .ok (k (bitsAt w 16 8))) : decodeNat w = .ok (k d) := by
  obtain ⟨fits, rfl⟩ := h.of_coded (hk d)
  simp only [decide_eq_true_eq] at fits
  rw [path (by simp only [majorOf, bitsAt]; omega)]
  congr 2
  unfold bitsAt
  omega

theorem D1E.reads {k} (hk : D1E c k) (hc : c % 33554432 < 256) (h : IsWord w (k e d))
    (path : majorOf w = c / 33554432 % 128 ∧ bitsAt w 8 8 = c / 256 % 256 ∧ bitsAt w 0 8 = c % 256 →
      decodeNat w = .ok (k (bitsAt w 24 1 == 1) (bitsAt w 16 8))) : decodeNat w = .ok (k e d) := by
  obtain ⟨fits, rfl⟩ := h.of_coded (hk e d)
  simp only [decide_eq_true_eq] at fits
  have bit := bitNat_lt e
  rw [path (by simp only [majorOf, bitsAt]; omega), bit24_eq (e := e) (by unfold bitsAt; omega)]
  congr 2
  unfold bitsAt
  omega

theorem A1.reads {k} (hk : A1 c k) (hc : c % 16777216 < 256) (h : IsWord w (k a))
    (path : majorOf w = c / 33554432 % 128 ∧ bitsAt w 24 1 = c / 16777216 % 2 ∧ bitsAt w 16 8 = c / 65536 % 256 ∧
      bitsAt w 0 8 = c % 256 →
      decodeNat w = .ok (k (bitsAt w 8 8))) : decodeNat w = .ok (k a) := by
  obtain ⟨fits, rfl⟩ := h.of_coded (hk a)
  simp only [decide_eq_true_eq] at fits
  rw [path (by simp only [majorOf, bitsAt]; omega)]
  congr 2
  unfold bitsAt
  omega

theorem A1E.reads {k} (hk : A1E c k) (hc : c % 33554432 < 256) (h : IsWord w (k e a))
    (path : majorOf w = c / 33554432 % 128 ∧ bitsAt w 16 8 = c / 65536 % 256 ∧ bitsAt w 0 8 = c % 256 →
      decodeNat w = .ok (k (bitsAt w 24 1 == 1) (bitsAt w 8 8))) : decodeNat w = .ok (k e a) := by
  obtain ⟨fits, rfl⟩ := h.of_coded (hk e a)
  simp only [decide_eq_true_eq] at fits
  have bit := bitNat_lt e
  rw [path (by simp only [majorOf, bitsAt]; omega), bit24_eq (e := e) (by unfold bitsAt; omega)]
  congr 2
  unfold bitsAt
  omega

/-- Barrier forms without a destination (R181). -/
theorem A1N.reads_barrier {k} (hk : A1N 16 c k) (hc : c % 33554432 < 256 ∧ c % 16 = 0) (h : IsWord w (k a n))
    (path : majorOf w = c / 33554432 % 128 ∧ bitsAt w 16 9 = c / 65536 % 512 ∧ bitsAt w 4 4 = c / 16 % 16 →
      decodeNat w = .ok (k (bitsAt w 8 8) (bitsAt w 0 4))) : decodeNat w = .ok (k a n) := by
  obtain ⟨fits, rfl⟩ := h.of_coded (hk a n)
  simp only [Bool.and_eq_true, decide_eq_true_eq] at fits
  rw [path (by simp only [majorOf, bitsAt]; omega)]
  congr 2 <;> unfold bitsAt <;> omega

/-- Ring forms without a destination (R187). -/
theorem A1N.reads_ring {k} (hk : A1N 8 c k) (hc : c % 33554432 < 256 ∧ c % 8 = 0) (h : IsWord w (k a n))
    (path : majorOf w = c / 33554432 % 128 ∧ bitsAt w 16 9 = c / 65536 % 512 ∧ bitsAt w 4 4 = c / 16 % 16 ∧
      bitsAt w 3 1 = c / 8 % 2 →
      decodeNat w = .ok (k (bitsAt w 8 8) (bitsAt w 0 3))) : decodeNat w = .ok (k a n) := by
  obtain ⟨fits, rfl⟩ := h.of_coded (hk a n)
  simp only [Bool.and_eq_true, decide_eq_true_eq] at fits
  rw [path (by simp only [majorOf, bitsAt]; omega)]
  congr 2 <;> unfold bitsAt <;> omega

/-- Code tables (R199). -/
theorem A1EN.reads_table {k} (hk : A1EN 8 c k) (hc : c % 33554432 < 256 ∧ c % 8 = 0) (h : IsWord w (k e a n))
    (path : majorOf w = c / 33554432 % 128 ∧ bitsAt w 16 8 = c / 65536 % 256 ∧ bitsAt w 4 4 = c / 16 % 16 ∧
      bitsAt w 3 1 = c / 8 % 2 →
      decodeNat w = .ok (k (bitsAt w 24 1 == 1) (bitsAt w 8 8) (bitsAt w 0 3))) : decodeNat w = .ok (k e a n) := by
  obtain ⟨fits, rfl⟩ := h.of_coded (hk e a n)
  simp only [Bool.and_eq_true, decide_eq_true_eq] at fits
  have bit := bitNat_lt e
  rw [path (by simp only [majorOf, bitsAt]; omega), bit24_eq (e := e) (by unfold bitsAt; omega)]
  congr 2 <;> unfold bitsAt <;> omega

theorem PAN.reads {k} (hk : PAN 256 c k) (hc : c % 524288 = 0) (h : IsWord w (k d a n))
    (path : majorOf w = c / 33554432 % 128 ∧ bitsAt w 24 1 = c / 16777216 % 2 ∧ bitsAt w 19 5 = c / 524288 % 32 →
      decodeNat w = .ok (k (bitsAt w 16 3) (bitsAt w 8 8) (bitsAt w 0 8))) : decodeNat w = .ok (k d a n) := by
  obtain ⟨fits, rfl⟩ := h.of_coded (hk d a n)
  simp only [Bool.and_eq_true, decide_eq_true_eq] at fits
  rw [path (by simp only [majorOf, bitsAt]; omega)]
  congr 2 <;> unfold bitsAt <;> omega

/-- Barrier forms with a predicate (R181). -/
theorem PAN.reads_barrier {k} (hk : PAN 16 c k) (hc : c % 33554432 < 256 ∧ c % 16 = 0) (h : IsWord w (k d a n))
    (path : majorOf w = c / 33554432 % 128 ∧ bitsAt w 19 6 = c / 524288 % 64 ∧ bitsAt w 4 4 = c / 16 % 16 →
      decodeNat w = .ok (k (bitsAt w 16 3) (bitsAt w 8 8) (bitsAt w 0 4))) : decodeNat w = .ok (k d a n) := by
  obtain ⟨fits, rfl⟩ := h.of_coded (hk d a n)
  simp only [Bool.and_eq_true, decide_eq_true_eq] at fits
  rw [path (by simp only [majorOf, bitsAt]; omega)]
  congr 2 <;> unfold bitsAt <;> omega

theorem PAI.reads {k x} (hk : PAI c k) (hc : c % 524288 = 0) (h : IsWord w (k d a x))
    (path : majorOf w = c / 33554432 % 128 ∧ bitsAt w 24 1 = c / 16777216 % 2 ∧ bitsAt w 19 5 = c / 524288 % 32 →
      decodeNat w = .ok (k (bitsAt w 16 3) (bitsAt w 8 8) (BitVec.ofNat 8 w))) : decodeNat w = .ok (k d a x) := by
  obtain ⟨fits, rfl⟩ := h.of_coded (hk d a x)
  simp only [Bool.and_eq_true, decide_eq_true_eq] at fits
  have imm := x.isLt
  rw [path (by simp only [majorOf, bitsAt]; omega), ofNat_eq_of_mod (i := x) (by omega)]
  congr 2 <;> unfold bitsAt <;> omega

/-- Two predicates into one (R94). -/
theorem PPN.reads {k} (hk : PPN 8 c k) (hc : c % 524288 = 0) (h : IsWord w (k d a n))
    (path : majorOf w = c / 33554432 % 128 ∧ bitsAt w 24 1 = c / 16777216 % 2 ∧ bitsAt w 19 5 = c / 524288 % 32 ∧
      bitsAt w 11 5 = c / 2048 % 32 ∧ bitsAt w 3 5 = c / 8 % 32 →
      decodeNat w = .ok (k (bitsAt w 16 3) (bitsAt w 8 3) (bitsAt w 0 3))) : decodeNat w = .ok (k d a n) := by
  obtain ⟨fits, rfl⟩ := h.of_coded (hk d a n)
  simp only [Bool.and_eq_true, decide_eq_true_eq] at fits
  rw [path (by simp only [majorOf, bitsAt]; omega)]
  congr 2 <;> unfold bitsAt <;> omega

/-- Votes (R161). -/
theorem PPN.reads_vote {k} (hk : PPN 256 c k) (hc : c % 524288 = 0) (h : IsWord w (k d a n))
    (path : majorOf w = c / 33554432 % 128 ∧ bitsAt w 24 1 = c / 16777216 % 2 ∧ bitsAt w 19 5 = c / 524288 % 32 ∧
      bitsAt w 11 5 = c / 2048 % 32 →
      decodeNat w = .ok (k (bitsAt w 16 3) (bitsAt w 8 3) (bitsAt w 0 8))) : decodeNat w = .ok (k d a n) := by
  obtain ⟨fits, rfl⟩ := h.of_coded (hk d a n)
  simp only [Bool.and_eq_true, decide_eq_true_eq] at fits
  rw [path (by simp only [majorOf, bitsAt]; omega)]
  congr 2 <;> unfold bitsAt <;> omega

theorem PP.reads {k} (hk : PP c k) (hc : c % 524288 = 0) (h : IsWord w (k d a))
    (path : majorOf w = c / 33554432 % 128 ∧ bitsAt w 24 1 = c / 16777216 % 2 ∧ bitsAt w 19 5 = c / 524288 % 32 ∧
      bitsAt w 11 5 = c / 2048 % 32 ∧ bitsAt w 0 8 = c % 256 →
      decodeNat w = .ok (k (bitsAt w 16 3) (bitsAt w 8 3))) : decodeNat w = .ok (k d a) := by
  obtain ⟨fits, rfl⟩ := h.of_coded (hk d a)
  simp only [Bool.and_eq_true, decide_eq_true_eq] at fits
  rw [path (by simp only [majorOf, bitsAt]; omega)]
  congr 2 <;> unfold bitsAt <;> omega

theorem X3.reads {k} (hk : X3 c k) (hc : c % 16777216 < 8) (h : IsWord w (k d a n))
    (path : majorOf w = c / 33554432 % 128 ∧ bitsAt w 24 1 = c / 16777216 % 2 ∧ bitsAt w 0 3 = c % 8 →
      decodeNat w = .ok (k (bitsAt w 17 7) (bitsAt w 10 7) (bitsAt w 3 7))) : decodeNat w = .ok (k d a n) := by
  obtain ⟨fits, rfl⟩ := h.of_coded (hk d a n)
  simp only [Bool.and_eq_true, decide_eq_true_eq] at fits
  rw [path (by simp only [majorOf, bitsAt]; omega)]
  congr 2 <;> unfold bitsAt <;> omega

theorem D1I.reads {k x} (hk : D1I c k) (hc : c % 16777216 = 0) (h : IsWord w (k d x))
    (path : majorOf w = c / 33554432 % 128 ∧ bitsAt w 24 1 = c / 16777216 % 2 →
      decodeNat w = .ok (k (bitsAt w 16 8) (BitVec.ofNat 16 w))) : decodeNat w = .ok (k d x) := by
  obtain ⟨fits, rfl⟩ := h.of_coded (hk d x)
  simp only [decide_eq_true_eq] at fits
  have imm := x.isLt
  rw [path (by simp only [majorOf, bitsAt]; omega), ofNat_eq_of_mod (i := x) (by omega)]
  congr 2
  unfold bitsAt
  omega

theorem X1I.reads {k x} (hk : X1I c k) (hc : c % 262144 = 0) (h : IsWord w (k d x))
    (path : majorOf w = c / 33554432 % 128 ∧ bitsAt w 19 6 = c / 524288 % 64 ∧ bitsAt w 18 1 = c / 262144 % 2 →
      decodeNat w = .ok (k (bitsAt w 16 2) (BitVec.ofNat 16 w))) : decodeNat w = .ok (k d x) := by
  obtain ⟨fits, rfl⟩ := h.of_coded (hk d x)
  simp only [decide_eq_true_eq] at fits
  have imm := x.isLt
  rw [path (by simp only [majorOf, bitsAt]; omega), ofNat_eq_of_mod (i := x) (by omega)]
  congr 2
  unfold bitsAt
  omega

theorem DXI.reads {k x} (hk : DXI c k) (hc : c % 16777216 = 0) (h : IsWord w (k d a x))
    (path : majorOf w = c / 33554432 % 128 ∧ bitsAt w 24 1 = c / 16777216 % 2 ∧ bitsAt w 10 6 = c / 1024 % 64 →
      decodeNat w = .ok (k (bitsAt w 16 8) (bitsAt w 8 2) (BitVec.ofNat 8 w))) : decodeNat w = .ok (k d a x) := by
  obtain ⟨fits, rfl⟩ := h.of_coded (hk d a x)
  simp only [Bool.and_eq_true, decide_eq_true_eq] at fits
  have imm := x.isLt
  rw [path (by simp only [majorOf, bitsAt]; omega), ofNat_eq_of_mod (i := x) (by omega)]
  congr 2 <;> unfold bitsAt <;> omega

theorem SC.reads {k x} (hk : SC c k) (hc : c % 33554432 < 64) (h : IsWord w (k x))
    (path : majorOf w = c / 33554432 % 128 ∧ bitsAt w 8 17 = c / 256 % 131072 ∧ bitsAt w 0 6 = c % 64 →
      decodeNat w = .ok (k (decScope w))) : decodeNat w = .ok (k x) := by
  obtain ⟨fits, rfl⟩ := h.of_coded (hk x)
  have scope := Laws.Encoding.scopeCode_le x
  rw [path (by simp only [majorOf, bitsAt]; omega), decScope_eq (c := x) (by unfold bitsAt; omega)]

/-! Forms of a single instruction. -/

theorem rdk_reads (h : IsWord w (.rdk d a)) : decodeNat w = .ok (.rdk d a) := by
  obtain ⟨fits, hw⟩ := h.of_coded ⟨rfl, rfl⟩
  simp only [Instr.wf, Bool.and_eq_true, decide_eq_true_eq] at fits
  have major : majorOf w = 0x27 := by unfold majorOf bitsAt; omega
  have unused : bitsAt w 24 1 = 0 := by unfold bitsAt; omega
  have fn : bitsAt w 0 8 = 9 := by unfold bitsAt; omega
  have dest : bitsAt w 16 8 = d := by unfold bitsAt; omega
  have special : bitsAt w 8 8 = a := by unfold bitsAt; omega
  simp [decodeNat, decClass0, decSingle, fieldOk, major, unused, fn, dest, special, fits.2]

theorem bp_reads {x} (h : IsWord w (.bp a x)) : decodeNat w = .ok (.bp a x) := by
  obtain ⟨fits, hw⟩ := h.of_coded ⟨rfl, rfl⟩
  simp only [Instr.wf, decide_eq_true_eq] at fits
  have imm := x.isLt
  have major : majorOf w = 0x2B := by unfold majorOf bitsAt; omega
  have form : bitsAt w 21 1 = 0 := by unfold bitsAt; omega
  have pred : bitsAt w 22 3 = a := by unfold bitsAt; omega
  have low := ofNat_eq_of_mod (i := x) (w := w) (by omega)
  simp [decodeNat, decClass0, major, form, pred, low, fits.ne]

theorem bnp_reads {x} (h : IsWord w (.bnp a x)) : decodeNat w = .ok (.bnp a x) := by
  obtain ⟨fits, hw⟩ := h.of_coded ⟨rfl, rfl⟩
  simp only [Instr.wf, decide_eq_true_eq] at fits
  have imm := x.isLt
  have major : majorOf w = 0x2B := by unfold majorOf bitsAt; omega
  have form : bitsAt w 21 1 = 1 := by unfold bitsAt; omega
  have pred : bitsAt w 22 3 = a := by unfold bitsAt; omega
  have low := ofNat_eq_of_mod (i := x) (w := w) (by omega)
  simp [decodeNat, decClass0, major, form, pred, low]

theorem br_reads {x} (h : IsWord w (.br x)) : decodeNat w = .ok (.br x) := by
  obtain ⟨fits, hw⟩ := h.of_coded ⟨rfl, rfl⟩
  have imm := x.isLt
  have major : majorOf w = 0x2B := by unfold majorOf bitsAt; omega
  have form : bitsAt w 21 1 = 0 := by unfold bitsAt; omega
  have pred : bitsAt w 22 3 = 7 := by unfold bitsAt; omega
  have low := ofNat_eq_of_mod (i := x) (w := w) (by omega)
  simp [decodeNat, decClass0, major, form, pred, low]

theorem call_reads {x} (h : IsWord w (.call a x)) : decodeNat w = .ok (.call a x) := by
  obtain ⟨fits, hw⟩ := h.of_coded ⟨rfl, rfl⟩
  simp only [Instr.wf, decide_eq_true_eq] at fits
  have imm := x.isLt
  have major : majorOf w = 0x2C := by unfold majorOf bitsAt; omega
  have link : bitsAt w 21 4 = a := by unfold bitsAt; omega
  have low := ofNat_eq_of_mod (i := x) (w := w) (by omega)
  simp [decodeNat, decClass0, major, link, low]

theorem prsTest_reads (h : IsWord w (.prsTest d a)) : decodeNat w = .ok (.prsTest d a) := by
  obtain ⟨fits, hw⟩ := h.of_coded ⟨rfl, rfl⟩
  simp only [Instr.wf, Bool.and_eq_true, decide_eq_true_eq] at fits
  have major : majorOf w = 0x46 := by unfold majorOf bitsAt; omega
  have unused : bitsAt w 24 1 = 0 := by unfold bitsAt; omega
  have above : bitsAt w 19 5 = 0 := by unfold bitsAt; omega
  have fn : bitsAt w 0 8 = 16 := by unfold bitsAt; omega
  have pred : bitsAt w 16 3 = d := by unfold bitsAt; omega
  have base : bitsAt w 8 8 = a := by unfold bitsAt; omega
  simp [decodeNat, decClass2, decMemGroup, fieldOk, major, unused, above, fn, pred, base]

theorem ballot_reads (h : IsWord w (.ballot d a n)) : decodeNat w = .ok (.ballot d a n) := by
  obtain ⟨fits, hw⟩ := h.of_coded ⟨rfl, rfl⟩
  simp only [Instr.wf, Bool.and_eq_true, decide_eq_true_eq] at fits
  have major : majorOf w = 0x4D := by unfold majorOf bitsAt; omega
  have form : bitsAt w 24 1 = 1 := by unfold bitsAt; omega
  have above : bitsAt w 11 5 = 0 := by unfold bitsAt; omega
  have dest : bitsAt w 16 8 = d := by unfold bitsAt; omega
  have pred : bitsAt w 8 3 = a := by unfold bitsAt; omega
  have mask : bitsAt w 0 8 = n := by unfold bitsAt; omega
  simp [decodeNat, decClass2, fieldOk, major, form, above, dest, pred, mask]

theorem seat_reads (h : IsWord w (.seat d n)) : decodeNat w = .ok (.seat d n) := by
  obtain ⟨fits, hw⟩ := h.of_coded ⟨rfl, rfl⟩
  simp only [Instr.wf, Bool.and_eq_true, decide_eq_true_eq] at fits
  have major : majorOf w = 0x4E := by unfold majorOf bitsAt; omega
  have form : bitsAt w 24 1 = 0 := by unfold bitsAt; omega
  have above : bitsAt w 8 8 = 0 := by unfold bitsAt; omega
  have dest : bitsAt w 16 8 = d := by unfold bitsAt; omega
  have mask : bitsAt w 0 8 = n := by unfold bitsAt; omega
  simp [decodeNat, decClass2, fieldOk, major, form, above, dest, mask]

theorem barInv_reads (h : IsWord w (.barInv n)) : decodeNat w = .ok (.barInv n) := by
  obtain ⟨fits, hw⟩ := h.of_coded ⟨rfl, rfl⟩
  simp only [Instr.wf, decide_eq_true_eq] at fits
  have major : majorOf w = 0x50 := by unfold majorOf bitsAt; omega
  have unused : bitsAt w 8 17 = 0 := by unfold bitsAt; omega
  have form : bitsAt w 4 4 = 7 := by unfold bitsAt; omega
  have reg : bitsAt w 0 4 = n := by unfold bitsAt; omega
  simp [decodeNat, decClass3, fieldOk, major, unused, form, reg]

theorem ctinv_reads (h : IsWord w (.ctinv n)) : decodeNat w = .ok (.ctinv n) := by
  obtain ⟨fits, hw⟩ := h.of_coded ⟨rfl, rfl⟩
  simp only [Instr.wf, decide_eq_true_eq] at fits
  have major : majorOf w = 0x58 := by unfold majorOf bitsAt; omega
  have unused : bitsAt w 8 17 = 0 := by unfold bitsAt; omega
  have form : bitsAt w 4 4 = 2 := by unfold bitsAt; omega
  have above : bitsAt w 3 1 = 0 := by unfold bitsAt; omega
  have table : bitsAt w 0 3 = n := by unfold bitsAt; omega
  simp [decodeNat, decClass3, fieldOk, major, unused, form, above, table]

theorem cpl_reads (h : IsWord w (.cpl e a n)) : decodeNat w = .ok (.cpl e a n) := by
  obtain ⟨fits, hw⟩ := h.of_coded ⟨rfl, rfl⟩
  simp only [Instr.wf, Bool.and_eq_true, decide_eq_true_eq] at fits
  have bit := bitNat_lt e
  have major : majorOf w = 0x55 := by unfold majorOf bitsAt; omega
  have unused : bitsAt w 16 8 = 0 := by unfold bitsAt; omega
  have flag : bitsAt w 24 1 = bitNat e := by unfold bitsAt; omega
  have source : bitsAt w 8 8 = a := by unfold bitsAt; omega
  have count : bitsAt w 0 8 = n := by unfold bitsAt; omega
  simp [decodeNat, decClass3, fieldOk, major, unused, flag, source, count, bitNat_eq_one]

theorem tdesc_reads (h : IsWord w (.tdesc a n)) : decodeNat w = .ok (.tdesc a n) := by
  obtain ⟨fits, hw⟩ := h.of_coded ⟨rfl, rfl⟩
  simp only [Instr.wf, Bool.and_eq_true, decide_eq_true_eq] at fits
  have major : majorOf w = 0x6C := by unfold majorOf bitsAt; omega
  have unused : bitsAt w 16 9 = 0 := by unfold bitsAt; omega
  have fn : bitsAt w 0 4 = 9 := by unfold bitsAt; omega
  have source : bitsAt w 8 8 = a := by unfold bitsAt; omega
  have handle : bitsAt w 4 4 = n := by unfold bitsAt; omega
  simp [decodeNat, decClass56, fieldOk, major, unused, fn, source, handle]

theorem operandPrefix_reads (h : IsWord w (.operandPrefix d e n)) : decodeNat w = .ok (.operandPrefix d e n) := by
  obtain ⟨fits, hw⟩ := h.of_coded ⟨rfl, rfl⟩
  simp only [Instr.wf, Bool.and_eq_true, decide_eq_true_eq] at fits
  have bit := bitNat_lt e
  have major : majorOf w = 0x7F := by unfold majorOf bitsAt; omega
  have unused : bitsAt w 8 13 = 0 := by unfold bitsAt; omega
  have pred : bitsAt w 22 3 = d := by unfold bitsAt; omega
  have zero : bitsAt w 21 1 = bitNat e := by unfold bitsAt; omega
  have addend : bitsAt w 0 8 = n := by unfold bitsAt; omega
  simp [decodeNat, decPrefix, major, unused, pred, zero, addend, bitNat_eq_one]

theorem hintPrefix_reads {x} (h : IsWord w (.hintPrefix d n x)) : decodeNat w = .ok (.hintPrefix d n x) := by
  obtain ⟨fits, hw⟩ := h.of_coded ⟨rfl, rfl⟩
  simp only [Instr.wf, Bool.and_eq_true, decide_eq_true_eq] at fits
  have imm := x.isLt
  have major : majorOf w = 0x7E := by unfold majorOf bitsAt; omega
  have unused : bitsAt w 16 3 = 0 := by unfold bitsAt; omega
  have count : bitsAt w 21 4 = d := by unfold bitsAt; omega
  have policy : bitsAt w 19 2 = n := by unfold bitsAt; omega
  have low := ofNat_eq_of_mod (i := x) (w := w) (by omega)
  simp [decodeNat, decPrefix, major, unused, count, policy, low, fits.1]

theorem decSpawn_reads {k x} {r : Role} (hk : RSO c k) (hc : c % 33554432 = 0) (h : IsWord w (k r a x))
    (path : majorOf w = c / 33554432 % 128 → decodeNat w = decSpawn w k) : decodeNat w = .ok (k r a x) := by
  obtain ⟨fits, hw⟩ := h.of_coded (hk r a x)
  rw [decide_eq_true_eq] at fits
  have imm := x.isLt
  have role := Laws.Encoding.roleCode_le r
  have code : bitsAt w 23 2 = roleCode r := by unfold bitsAt; omega
  have count : bitsAt w 15 8 = a := by unfold bitsAt; omega
  have low := ofNat_eq_of_mod (i := x) (w := w) (by omega)
  rw [path (by unfold majorOf bitsAt; omega), decSpawn, code, count, low]
  cases r <;> rfl

theorem prng_reads (h : IsWord w (.prng d a n)) : decodeNat w = .ok (.prng d a n) := by
  have fits : n < 4 := by simpa [Instr.wf] using (Bool.and_eq_true_iff.1 h.1).2
  refine R2.reads (k := fun d a => .prng d a n) (prng_R2 rfl fits) (by omega) h fun fixed => ?_
  interval_cases n <;> simp [decodeNat, decClass0, decSys, decG2, fieldOk, fixed]

theorem cvtF32E4m3_reads (h : IsWord w (.cvtF32E4m3 d a n)) : decodeNat w = .ok (.cvtF32E4m3 d a n) := by
  have fits : n < 4 := by simpa [Instr.wf] using (Bool.and_eq_true_iff.1 h.1).2
  refine R2.reads (k := fun d a => .cvtF32E4m3 d a n) (cvtF32E4m3_R2 rfl fits) (by omega) h fun fixed => ?_
  interval_cases n <;> simp [decodeNat, decClass1, decCvt, decG2, fieldOk, fixed]

theorem cvtF32E5m2_reads (h : IsWord w (.cvtF32E5m2 d a n)) : decodeNat w = .ok (.cvtF32E5m2 d a n) := by
  have fits : n < 4 := by simpa [Instr.wf] using (Bool.and_eq_true_iff.1 h.1).2
  refine R2.reads (k := fun d a => .cvtF32E5m2 d a n) (cvtF32E5m2_R2 rfl fits) (by omega) h fun fixed => ?_
  interval_cases n <;> simp [decodeNat, decClass1, decCvt, decG2, fieldOk, fixed]

theorem cvtF32E2m1_reads (h : IsWord w (.cvtF32E2m1 d a n)) : decodeNat w = .ok (.cvtF32E2m1 d a n) := by
  have fits : n < 8 := by simpa [Instr.wf] using (Bool.and_eq_true_iff.1 h.1).2
  refine R2.reads (k := fun d a => .cvtF32E2m1 d a n) (cvtF32E2m1_R2 rfl fits) (by omega) h fun fixed => ?_
  interval_cases n <;> simp [decodeNat, decClass1, decCvt, decG2, fieldOk, fixed]

end

/-- A word that encodes a well-formed instruction decodes to it. -/
theorem decodeNat_of_isWord {w : Nat} {i : Instr} (h : IsWord w i) : decodeNat w = .ok i := by
  cases i with
  | add d a b | sub d a b | mul d a b | mulhI32 d a b | mulhN32 d a b | mad d a b | divI32 d a b | divN32 d a b
  | remI32 d a b | remN32 d a b | minI32 d a b | minN32 d a b | maxI32 d a b | maxN32 d a b | and d a b | or d a b
  | xor d a b | andn d a b | shl d a b | shr d a b | sar d a b | rotl d a b | fsh d a b | bfxI32 d a b
  | bfxN32 d a b | bfi d a b | sel d a b | lea1 d a b | lea2 d a b | lea4 d a b | lea8 d a b | lea16 d a b =>
    exact R2N.reads (fun _ _ _ => ⟨rfl, rfl⟩) rfl h fun fixed => by
      simp [decodeNat, decAlu, decF3, fieldOk, fixed]
  | cvtE2m1x8F32 d a b =>
    exact R2N.reads (fun _ _ _ => ⟨rfl, rfl⟩) rfl h fun fixed => by
      simp [decodeNat, decClass1, decF3, fieldOk, fixed]
  | fadd d a b | faddRz d a b | fsub d a b | fsubRz d a b | fmul d a b | fmulRz d a b | ffma d a b | ffmaRz d a b
  | fmin d a b | fminNan d a b | fmax d a b | fmaxNan d a b =>
    exact R2N.reads (fun _ _ _ => ⟨rfl, rfl⟩) rfl h fun fixed => by
      simp [decodeNat, decClass1, decV, fixed]
  | hadd2Bf16 d a b | hmul2Bf16 d a b | hfma2Bf16 d a b | hmax2Bf16 d a b =>
    exact R2N.reads (fun _ _ _ => ⟨rfl, rfl⟩) rfl h fun fixed => by
      simp [decodeNat, decClass1, decV0, fixed]
  | sgetAt d a m | sgetXor d a m | sgetBelow d a m | sgetAbove d a m | reduxAddI32 d a m | reduxAddF32 d a m
  | reduxMinI32 d a m | reduxMaxI32 d a m | scanAddI32 d a m | sample d a m | matchSeats d a m =>
    exact R2N.reads (fun _ _ _ => ⟨rfl, rfl⟩) rfl h fun fixed => by
      simp [decodeNat, decClass2, decV, fixed]
  | shli d a n | shri d a n | sari d a n =>
    exact R2N.reads_shift (fun _ _ _ => ⟨rfl, rfl⟩) (by decide) h fun fixed => by
      simp [decodeNat, decClass0, fieldOk, fixed]
  | barArx d a n =>
    exact R2N.reads_barrier (fun _ _ _ => ⟨rfl, rfl⟩) (by decide) h fun fixed => by
      simp [decodeNat, decClass3, fieldOk, fixed]
  | ringAcq d a s | ringGet d a s =>
    exact R2N.reads_ring (fun _ _ _ => ⟨rfl, rfl⟩) (by decide) h fun fixed => by
      simp [decodeNat, decClass3, fieldOk, fixed]
  | cpy e d a b | cpyPeer e d a b | cpw e d a b =>
    exact R3E.reads (fun _ _ _ _ => ⟨rfl, rfl⟩) rfl h fun fixed => by
      simp [decodeNat, decClass3, decF3E, fixed]
  | addi d a x =>
    exact R2I.reads (fun _ _ _ => ⟨rfl, rfl⟩) rfl h fun fixed => by
      simp [decodeNat, decClass0, decFI, fieldOk, fixed]
  | ldsB32 d b x | stsB32 d b x | ldsB128 d b x | stsB128 d b x =>
    exact R2I.reads (fun _ _ _ => ⟨rfl, rfl⟩) rfl h fun fixed => by
      simp [decodeNat, decClass2, decFM, decFI, fieldOk, fixed]
  | ldB32 e d b x | stB32 e d b x =>
    exact R2IE.reads (fun _ _ _ _ => ⟨rfl, rfl⟩) rfl h fun fixed => by
      simp [decodeNat, decClass2, decFME, fixed]
  | mov d a | not d a | abs d a | neg d a | clz d a | ctz d a | popc d a | brev d a =>
    exact R2.reads (fun _ _ => ⟨rfl, rfl⟩) (by decide) h fun fixed => by
      simp [decodeNat, decClass0, decSingle, decG2, fieldOk, fixed]
  | rdsr d a | wrsr d a =>
    exact R2.reads (fun _ _ => ⟨rfl, rfl⟩) (by decide) h fun fixed => by
      simp [decodeNat, decClass0, decSys, decG2, fieldOk, fixed]
  | fabs d a | fneg d a | fclass d a | cvtF32I32 d a | cvtF32N32 d a | cvtI32F32Rz d a | cvtI32F32Rne d a
  | cvtN32F32Rz d a | cvtBf16x2F32 d a | cvtF32Bf16Lo d a | cvtF32Bf16Hi d a | cvtE4m3x4F32Sat d a
  | cvtE4m3x4F32Nan d a | cvtE5m2x4F32Sat d a | cvtE5m2x4F32Inf d a =>
    exact R2.reads (fun _ _ => ⟨rfl, rfl⟩) (by decide) h fun fixed => by
      simp [decodeNat, decClass1, decCvt, decG2, fieldOk, fixed]
  | ldsN8 d b | ldsI8 d b | ldsN16 d b | ldsI16 d b | ldsB64 d b | stsB8 d b | stsB16 d b | stsB64 d b =>
    exact R2.reads (fun _ _ => ⟨rfl, rfl⟩) (by decide) h fun fixed => by
      simp [decodeNat, decClass2, decMemGroup, decG2, fieldOk, fixed]
  | mwaitEq d a | mwaitNe d a | mwaitGeI32 d a | mwaitLtI32 d a | mwaitGeN32 d a | mwaitLtN32 d a =>
    exact R2.reads (fun _ _ => ⟨rfl, rfl⟩) (by decide) h fun fixed => by
      simp [decodeNat, decClass4, decFAU, fieldOk, bitsAt_0_6, bitsAt_6_2, fixed]
  | prng => exact prng_reads h
  | cvtF32E4m3 => exact cvtF32E4m3_reads h
  | cvtF32E5m2 => exact cvtF32E5m2_reads h
  | cvtF32E2m1 => exact cvtF32E2m1_reads h
  | rcp e d a | rsqrt e d a | sqrt e d a | exp2 e d a | log2 e d a | sinpi e d a | cospi e d a | tanh e d a =>
    exact R2E.reads (fun _ _ _ => ⟨rfl, rfl⟩) (by decide) h fun fixed => by
      simp [decodeNat, decClass1, decG2E, fixed]
  | stashMap e d b | ldN8 e d b | ldI8 e d b | ldN16 e d b | ldI16 e d b | ldB64 e d b | ldB128 e d b | stB8 e d b
  | stB16 e d b | stB64 e d b | stB128 e d b =>
    exact R2E.reads (fun _ _ _ => ⟨rfl, rfl⟩) (by decide) h fun fixed => by
      simp [decodeNat, decClass2, decMemGroup, decG2E, fixed]
  | mmfE4m3 e a p | mmfE5m2 e a p | mmfBf16 e a p =>
    exact R2E.reads (fun _ _ _ => ⟨rfl, rfl⟩) (by decide) h fun fixed => by
      simp [decodeNat, decClass3, decFQ0, fieldOk, bitsAt_0_4, bitsAt_4_4, fixed]
  | baddF32 e d a | baddBf16x2 e d a | ldbF32 e d a =>
    exact R2E.reads (fun _ _ _ => ⟨rfl, rfl⟩) (by decide) h fun fixed => by
      simp [decodeNat, decClass4, decFA0, fieldOk, bitsAt_0_6, bitsAt_6_2, fixed]
  | tlbinvVa e d a | tstat e d a | rcpyCk e d a | rcpyCkv e d a | ratomAdd e d a =>
    exact R2E.reads (fun _ _ _ => ⟨rfl, rfl⟩) (by decide) h fun fixed => by
      simp [decodeNat, decClass56, decG2E, fixed]
  | atomAddB32 e d a x | atomAddB64 e d a x | atomAddF32 e d a x | atomAddBf16x2 e d a x | atomMinI32 e d a x
  | atomMinN32 e d a x | atomMaxI32 e d a x | atomMaxN32 e d a x | atomAnd e d a x | atomOr e d a x
  | atomXor e d a x | atomXchg e d a x | atomCas e d a x | atomCasB64 e d a x | redAddB32 e d a x
  | redAddF32 e d a x | redMinI32 e d a x | redMaxI32 e d a x | redOr e d a x | ldAcqB32 e d a x | ldAcqB64 e d a x
  | stRelB32 e d a x | stRelB64 e d a x | cclean e d a x | cinval e d a x | cflush e d a x =>
    exact R2ES.reads (fun _ _ _ _ => ⟨rfl, rfl⟩) (by decide) h fun fixed => by
      simp [decodeNat, decClass4, decAtom, decFA, fixed]
  | tldB8 e d a n | tldB16 e d a n | tldB32 e d a n | tst e d a n | tenc e d a n | tq e d a n
  | tclean e d a n | tinval e d a n | cpt e d a n | spool e d a n =>
    exact R2EN.reads (fun _ _ _ _ => ⟨rfl, rfl⟩) (by decide) h fun fixed => by
      simp [decodeNat, decClass56, decFT, fixed]
  | mmqI4E4m3 e a p s | mmqI4E5m2 e a p s | mmqI4Bf16 e a p s | mmqI3E4m3 e a p s | mmqI3Bf16 e a p s
  | mmqF4E4m3 e a p s | mmqF4Bf16 e a p s =>
    exact R2EN.reads_sel (fun _ _ _ _ => ⟨rfl, rfl⟩) (by decide) h fun fixed => by
      simp [decodeNat, decClass3, decFQ, fieldOk, fixed]
  | pget d =>
    exact D1.reads (fun _ => ⟨rfl, rfl⟩) (by decide) h fun fixed => by
      simp [decodeNat, decClass0, decSingle, decG1D, fieldOk, fixed]
  | rdcyc d =>
    exact D1.reads (fun _ => ⟨rfl, rfl⟩) (by decide) h fun fixed => by
      simp [decodeNat, decClass0, decSys, decG1D, fieldOk, fixed]
  | stashUnmap e d | stashWb e d =>
    exact D1E.reads (fun _ _ => ⟨rfl, rfl⟩) (by decide) h fun fixed => by
      simp [decodeNat, decClass2, decMemGroup, decG1DE, fieldOk, fixed]
  | tlbinvCtx e d =>
    exact D1E.reads (fun _ _ => ⟨rfl, rfl⟩) (by decide) h fun fixed => by
      simp [decodeNat, decClass56, decG1DE, fieldOk, fixed]
  | trap a | brk a | ret a | jr a =>
    exact A1.reads (fun _ => ⟨rfl, rfl⟩) (by decide) h fun fixed => by
      simp [decodeNat, decClass0, decSys, decG1A, fieldOk, fixed]
  | accClr e p =>
    exact A1E.reads (fun _ _ => ⟨rfl, rfl⟩) (by decide) h fun fixed => by
      simp [decodeNat, decClass3, fieldOk, bitsAt_0_4, bitsAt_4_4, fixed]
  | bsettle e a =>
    exact A1E.reads (fun _ _ => ⟨rfl, rfl⟩) (by decide) h fun fixed => by
      simp [decodeNat, decClass4, fieldOk, bitsAt_0_6, bitsAt_6_2, fixed]
  | gq e a | att e a | rcpy e a | rsig e a =>
    exact A1E.reads (fun _ _ => ⟨rfl, rfl⟩) (by decide) h fun fixed => by
      simp [decodeNat, decClass56, decG1AE, fieldOk, fixed]
  | barInit a n | barArr a n | barExp a n | barWait a n =>
    exact A1N.reads_barrier (fun _ _ => ⟨rfl, rfl⟩) (by decide) h fun fixed => by
      simp [decodeNat, decClass3, fieldOk, fixed]
  | ringCom a s | ringRel a s =>
    exact A1N.reads_ring (fun _ _ => ⟨rfl, rfl⟩) (by decide) h fun fixed => by
      simp [decodeNat, decClass3, fieldOk, fixed]
  | ctld e a s | ctst e a s =>
    exact A1EN.reads_table (fun _ _ _ => ⟨rfl, rfl⟩) (by decide) h fun fixed => by
      simp [decodeNat, decClass3, fieldOk, fixed]
  | cmpEq p a b | cmpNe p a b | cmpLtI32 p a b | cmpLtN32 p a b | cmpLeI32 p a b | cmpLeN32 p a b | cmp64Eq p a b
  | cmp64LtI64 p a b | cmp64LtN64 p a b =>
    exact PAN.reads (fun _ _ _ => ⟨rfl, rfl⟩) rfl h fun fixed => by
      simp [decodeNat, decClass0, decCmp, decFP, fieldOk, fixed]
  | fcmpEq p a b | fcmpLt p a b | fcmpLe p a b | fcmpUn p a b =>
    exact PAN.reads (fun _ _ _ => ⟨rfl, rfl⟩) rfl h fun fixed => by
      simp [decodeNat, decClass1, decFP, fieldOk, fixed]
  | barTry p a n | barPar p a n =>
    exact PAN.reads_barrier (fun _ _ _ => ⟨rfl, rfl⟩) (by decide) h fun fixed => by
      simp [decodeNat, decClass3, fieldOk, fixed]
  | cmpiEq p a x | cmpiLtI32 p a x =>
    exact PAI.reads (fun _ _ _ => ⟨rfl, rfl⟩) rfl h fun fixed => by
      simp [decodeNat, decClass0, decCmp, decFPI, fieldOk, fixed]
  | pand p a b | por p a b | pxor p a b | pandn p a b =>
    exact PPN.reads (fun _ _ _ => ⟨rfl, rfl⟩) rfl h fun fixed => by
      simp [decodeNat, decClass0, decCmp, decFPP, fieldOk, fixed]
  | voteAny p q m | voteAll p q m | voteEq p q m =>
    exact PPN.reads_vote (fun _ _ _ => ⟨rfl, rfl⟩) rfl h fun fixed => by
      simp [decodeNat, decClass2, decFLP, fieldOk, fixed]
  | pnot p a | pmov p a =>
    exact PP.reads (fun _ _ => ⟨rfl, rfl⟩) rfl h fun fixed => by
      simp [decodeNat, decClass0, decCmp, decFPP1, fieldOk, fixed]
  | add64 d a b | sub64 d a b | mul64 d a b | shl64 d a b | shr64 d a b | sar64 d a b =>
    exact X3.reads (fun _ _ _ => ⟨rfl, rfl⟩) (by decide) h fun fixed => by
      simp [decodeNat, decClass0, decF64, fieldOk, fixed]
  | fenceAcq x | fenceRel x | fenceAr x =>
    exact SC.reads (fun _ => ⟨rfl, rfl⟩) (by decide) h fun fixed => by
      simp [decodeNat, decClass4, decFence, fieldOk, fixed]
  | spawn r s x | spawnf r s x =>
    exact decSpawn_reads (fun _ _ _ => ⟨rfl, rfl⟩) rfl h fun fixed => by
      simp [decodeNat, decClass0, fixed]
  | nop | exit | yield | tret =>
    obtain ⟨-, v, hv, rfl⟩ := h
    cases hv
    rfl
  | movi d x | movhi d x =>
    exact D1I.reads (fun _ _ => ⟨rfl, rfl⟩) rfl h fun fixed => by
      simp [decodeNat, decClass0, fieldOk, fixed]
  | setx d x | incx d x =>
    exact X1I.reads (fun _ _ => ⟨rfl, rfl⟩) rfl h fun fixed => by
      simp [decodeNat, decClass0, fieldOk, fixed]
  | rdx d a x | wrx d a x =>
    exact DXI.reads (fun _ _ _ => ⟨rfl, rfl⟩) rfl h fun fixed => by
      simp [decodeNat, decClass0, fieldOk, fixed]
  | rdk => exact rdk_reads h
  | bp => exact bp_reads h
  | bnp => exact bnp_reads h
  | br => exact br_reads h
  | call => exact call_reads h
  | prsTest => exact prsTest_reads h
  | ballot => exact ballot_reads h
  | seat => exact seat_reads h
  | barInv => exact barInv_reads h
  | ctinv => exact ctinv_reads h
  | cpl => exact cpl_reads h
  | tdesc => exact tdesc_reads h
  | operandPrefix => exact operandPrefix_reads h
  | hintPrefix => exact hintPrefix_reads h
  | _ =>
    obtain ⟨-, v, hv, -⟩ := h
    cases hv

theorem takeWord_wordBytes (w : Word) : takeWord (wordBytes w) = some (w, []) := by
  have bytes : ((w >>> 24).setWidth 8 ++ (w >>> 16).setWidth 8 ++ (w >>> 8).setWidth 8 ++ w.setWidth 8 : BitVec 32) = w := by
    rw [← Machine.leWord_four]
    apply BitVec.eq_of_toNat_eq
    have size := w.isLt
    simp only [Machine.leWord, Machine.leNat, BitVec.toNat_ofNat, BitVec.toNat_setWidth, BitVec.toNat_ushiftRight,
      Nat.shiftRight_eq_div_pow]
    omega
  exact congrArg (fun x => some (x, [])) bytes

/-- Settles O3: the fixed bits of an encoding lead the decoder to the instruction's own form. -/
theorem decodeOfEncode : Obligations.DecodeOfEncode := by
  unfold Obligations.DecodeOfEncode
  intro i w wf enc
  have decoded : decodeWord w = .ok i := decodeNat_of_isWord ⟨wf, w, enc, rfl⟩
  refine ⟨decoded, ?_⟩
  simp only [decodeBytes, takeWord_wordBytes, decoded]

/-- Settles O5: each word is the encoding of its instruction; major 0 is no form. -/
theorem decodedWords : Obligations.DecodedWords := by
  unfold Obligations.DecodedWords
  exact ⟨(decodeOfEncode (.divI32 1 2 3) _ rfl rfl).1, (decodeOfEncode (.shri 2 3 5) _ rfl rfl).1,
    (decodeOfEncode (.add64 2 3 4) _ rfl rfl).1, (decodeOfEncode (.cmpLtI32 2 3 4) _ rfl rfl).1,
    (decodeOfEncode (.setx 2 0xFFFB) _ rfl rfl).1, (decodeOfEncode (.rdx 9 1 3) _ rfl rfl).1,
    (decodeOfEncode (.call 15 0x28) _ rfl rfl).1, (decodeOfEncode (.rdsr 1 0) _ rfl rfl).1,
    (decodeOfEncode (.prng 5 10 2) _ rfl rfl).1, (decodeOfEncode .nop _ rfl rfl).1,
    (decodeOfEncode (.divI32 1 2 3) 0x0E010203 rfl rfl).2, rfl⟩

end Sys2Proof.Encoding
end

section
/-! PROOF. What the checks of words let through (R11, R13, R45 to R49, R83, R154), and control transfer (R98 to R100). -/

namespace Sys2Proof.Machine

/-! ### Control transfer (R98 to R100) -/

theorem branch_runs {s : State} (taken : Bool) (o : BitVec 21) (h : s.canRun 0 none [] [] = true) (p : s.bare = true) :
    s.branch taken o = s.jump (if taken then branchTarget s.header o else s.nextHeader) :=
  word_runs _ h (prefixOk_bare p)

theorem jumpPair_runs {s : State} {a : Nat} (h : s.canRun 0 none [a, a + 1] [] = true) (p : s.bare = true) :
    s.jumpPair a = if targetOk (s.th.pair a) then s.jump (s.th.pair a) else s.faultAt 0x09 (s.th.pair a) 0 :=
  word_runs _ h (prefixOk_bare p)

/-- Settles O24: each word runs, and goes to the target that its predicate or its pair gives. -/
theorem branches : Obligations.Branches := by
  unfold Obligations.Branches
  intro s p j a o bare
  refine ⟨fun run => ?_, fun run => word_runs _ run (prefixOk_bare bare), fun run word low => ?_, fun run bad => ?_,
    fun _ _ => ⟨rfl, rfl, rfl, rfl, rfl, rfl⟩⟩
  · have go (taken : Bool) := branch_runs taken o run bare
    refine ⟨fun h => ?_, fun h => ?_, fun h => ?_, fun h => ?_, go true⟩
    · exact (congrArg (s.branch · o) h).trans (go true)
    · exact (congrArg (s.branch · o) h).trans (go false)
    · exact (congrArg (fun b => s.branch (!b) o) h).trans (go false)
    · exact (congrArg (fun b => s.branch (!b) o) h).trans (go true)
  · have go : s.jumpPair a = s.jump (s.th.pair a) := by
      rw [jumpPair_runs run bare, if_pos ((targetOk_iff _).2 ⟨word, low⟩)]
    exact ⟨go, go⟩
  · have go : s.jumpPair a = s.faultAt 0x09 (s.th.pair a) 0 := by
      rw [jumpPair_runs run bare, if_neg fun ok => ?_]
      obtain ⟨word, low⟩ := (targetOk_iff _).1 ok
      omega
    exact ⟨go, go⟩

/-! ### Prefixes (R45 to R49) -/

section
variable {s : State} {ok : Nat → Bool} {q : Pfx} {w : Nat}

theorem prefixWord_last (h : s.nextWord = none) : s.prefixWord ok q = s.fault 0x03 := by
  unfold State.prefixWord
  rw [h]

variable (hn : s.nextWord = some w) (ho : s.opcodeOk w = true) (hc : s.classOk w = true)
include hn ho hc

/-- A modifier (R45, R46) of a word that has an assigned opcode and the clause's class. -/
theorem prefixWord_before :
    s.prefixWord ok q = if s.pfx.isSome || !ok w then s.fault 0x03 else .next { s with th := s.th.advance, pfx := some q } := by
  unfold State.prefixWord
  rw [hn]
  simp [ho, hc]

theorem prefixWord_second (hb : s.bare = false) : s.prefixWord ok q = s.fault 0x03 := by
  rw [prefixWord_before hn ho hc, if_pos]
  simpa [State.bare] using Or.inl hb

theorem prefixWord_refused (h : ok w = false) : s.prefixWord ok q = s.fault 0x03 := by
  rw [prefixWord_before hn ho hc, if_pos (by simp [h])]

theorem prefixWord_kept (hb : s.bare = true) (h : ok w = true) :
    s.prefixWord ok q = .next { s with th := s.th.advance, pfx := some q } := by
  rw [prefixWord_before hn ho hc, if_neg]
  simpa [State.bare, h] using hb

end

/-- What R45 asks of the word that an operand modifier stands before. -/
theorem operandPrefix_fits {m : Nat} {z : Bool} {c : Nat} :
    (operandPrefixable m && (!(m == 0x1B) || !z) && (usesAddend m || c == 0)) = true ↔
    operandPrefixable m = true ∧ (m ≠ 0x1B ∨ z = false) ∧ (usesAddend m = true ∨ c = 0) := by
  simp [and_assoc]

/-- What R46 and R175 ask of the word that a hint stands before. -/
theorem hintPrefix_fits {m fn n l : Nat} :
    (hintPrefixable m fn && (!isScratchWord m fn || (n == 0 && l == 0)) && (!isGlobalStore m fn || n == 0)) = true ↔
    hintPrefixable m fn = true ∧ (isScratchWord m fn = false ∨ (n = 0 ∧ l = 0)) ∧
      (isGlobalStore m fn = false ∨ n = 0) := by
  simp [and_assoc]

/-- Settles O33: each clause is one branch of the modifier's checks, in their order. -/
theorem prefixes : Obligations.Prefixes := by
  unfold Obligations.Prefixes
  intro s p c n l z x
  refine ⟨fun last => ⟨prefixWord_last last, prefixWord_last last⟩, fun w next opcode cls => ?_⟩
  have fn : bitsAt w 0 8 = w % 256 := by simp [bitsAt]
  have kept {ok : Nat → Bool} {q : Pfx} (bare : s.bare = true) (h : ok w = true) :=
    prefixWord_kept (q := q) next opcode cls bare h
  have refused {ok : Nat → Bool} {q : Pfx} (h : ok w ≠ true) :=
    prefixWord_refused (q := q) next opcode cls (Bool.eq_false_iff.2 h)
  rw [← fn]
  refine ⟨fun second => ⟨prefixWord_second next opcode cls second, prefixWord_second next opcode cls second⟩,
    fun bare word sel addend => kept bare (operandPrefix_fits.2 ⟨word, sel, addend⟩),
    fun _ word => refused fun fits => ?operand,
    fun bare word scratch store => kept bare (hintPrefix_fits.2 ⟨word, scratch, store⟩),
    fun _ bad => refused fun fits => ?hintFields, fun _ _ bad => refused fun fits => ?operandFields,
    fun _ word => refused fun fits => ?hint⟩
  case operand => simp [(operandPrefix_fits.1 fits).1] at word
  case hint => simp [(hintPrefix_fits.1 fits).1] at word
  case hintFields =>
    obtain ⟨-, scratch, store⟩ := hintPrefix_fits.1 fits
    rcases bad with ⟨isScratch, carries⟩ | ⟨isStore, counts⟩
    · obtain ⟨rfl, rfl⟩ := scratch.resolve_left (by simp [isScratch])
      simp at carries
    · exact counts (store.resolve_left (by simp [isStore]))
  case operandFields =>
    obtain ⟨-, sel, addend⟩ := operandPrefix_fits.1 fits
    rcases bad with ⟨isSel, zero⟩ | ⟨noAddend, carries⟩
    · simp [isSel, zero] at sel
    · exact carries (addend.resolve_left (by simp [noAddend]))

/-! ### The checks of a maskable word (R49, R83, R154) -/

/-- A word with a mask form is `maskable` with that form (R45). -/
theorem exec_maskForm {s : State} {i : Instr} {m : MaskForm} (h : s.maskForm i = some m) : ∃ body, exec i s =
    s.maskable { cls := m.cls, allows := .operand, role := m.role, reads := m.reads, writes := m.dests } m.dests body := by
  cases i <;> cases h <;> exact ⟨_, rfl⟩

section
variable {s : State} {i : WordInfo} {ds : List Nat} {body : State → Out}

theorem maskable_refused {c : Nat} (h : s.checkWord i = some c) : s.maskable i ds body = s.fault c := by
  unfold State.maskable State.checked
  rw [h]

theorem checkWord_class (h : ¬ (i.cls = 0 ∨ i.cls = s.clsNow)) : s.checkWord i = some 0x05 := by
  unfold State.checkWord
  rw [if_pos]
  simpa using h

variable (cls : (i.cls == 0 || i.cls == s.clsNow) = true)
include cls

theorem checkWord_prefix (h : prefixOk i.allows s.pfx = false) : s.checkWord i = some 0x03 := by
  simp [State.checkWord, cls, h]

variable (pfx : prefixOk i.allows s.pfx = true)
include pfx

theorem checkWord_role (h : ¬ ∀ r, i.role = some r → r = s.th.role) : s.checkWord i = some 0x06 := by
  cases named : i.role with
  | none => simp [named] at h
  | some r =>
    have other : r ≠ s.th.role := fun own => h fun x hx => (Option.some.inj (named.symm.trans hx)) ▸ own
    simp [State.checkWord, cls, pfx, named, other]

variable (role : ∀ r, i.role = some r → r = s.th.role)
include role

/-- Of a word whose class, modifier and role stand, the bounds of its registers are left to check. -/
theorem checkWord_registers : s.checkWord i =
    if (i.reads ++ i.writes).all (fun r => decide (r < s.th.window)) then none else some 0x08 := by
  unfold State.checkWord
  cases named : i.role with
  | none =>
    simp only [cls, pfx, Bool.not_true, Bool.false_eq_true, if_false]
    cases (i.reads ++ i.writes).all (fun r => decide (r < s.th.window)) <;> rfl
  | some r =>
    simp only [cls, pfx, role r named, decide_true, Bool.not_true, Bool.false_eq_true, if_false]
    cases (i.reads ++ i.writes).all (fun r => decide (r < s.th.window)) <;> rfl

end

/-- Only a hint may not stand before a maskable word. -/
theorem prefixOk_operand {q : Option Pfx} : prefixOk .operand q = false ↔ ∃ n l x, q = some (.hint n l x) := by
  rcases q with _ | _ | _ <;> simp [prefixOk]

/-- A register that is neither pending nor in error (R13, R154). -/
def Thread.Sound (t : Thread) (r : Nat) : Prop := t.pending r = false ∧ t.badRegs.contains r = false

section
variable {t : Thread} {reads writes : List Nat}

theorem find_sound (h : ∀ r ∈ reads, t.Sound r) : reads.find? (fun r => t.pending r || t.badRegs.contains r) = none := by
  rw [List.find?_eq_none]
  intro r hr
  obtain ⟨idle, good⟩ := h r hr
  rw [idle, good]
  decide

/-- The first register read that is not sound is the operand named (R83). -/
theorem badOperand_read {l rest : List Nat} {r : Nat} (hl : ∀ x ∈ l, t.Sound x)
    (hr : (t.pending r || t.badRegs.contains r) = true) : t.badOperand (l ++ r :: rest) writes = some r := by
  unfold Thread.badOperand
  rw [List.find?_append, find_sound hl, List.find?_cons_of_pos (p := fun r => t.pending r || t.badRegs.contains r) hr]
  rfl

/-- Where every register read is sound, the operand that the check names is a pending destination (R83). -/
theorem badOperand_dest (h : ∀ r ∈ reads, t.Sound r) (hw : ∃ r ∈ writes, t.pending r = true) :
    ∃ r, t.badOperand reads writes = some r ∧ t.pending r = true := by
  unfold Thread.badOperand Thread.hazard
  rw [find_sound h]
  obtain ⟨r, hr⟩ := Option.isSome_iff_exists.1 (List.find?_isSome.2 hw)
  exact ⟨r, hr, List.find?_some hr⟩

end

theorem hazardTrap_clean {s : State} {r : Nat} (clean : ∀ o ∈ s.ops, o.key = s.th.key → o.fault = none) :
    s.hazardTrap r = s.trap { s.here with cause := 0x07 } := by
  have none_faulted : s.ops.find? (fun o => o.key == s.th.key && o.regs.contains r && o.fault.isSome) = none := by
    rw [List.find?_eq_none]
    intro o ho
    by_cases own : o.key = s.th.key
    · simp [clean o ho own]
    · simp [own]
  unfold State.hazardTrap
  rw [none_faulted]

section
variable {s : State} {i : WordInfo} {ds : List Nat} {body : State → Out} {r : Nat} (pass : s.checkWord i = none)
  (op : s.unmasked = true) (named : s.th.badOperand i.reads i.writes = some r)
include pass op named

theorem maskable_operand : s.maskable i ds body =
    if s.th.pending r then .next (s.hazardTrap r) else s.faultAt 0x30 (BitVec.ofNat 64 r) 0 := by
  refine (checked_runs _ pass).trans ?_
  rw [maskedOff_unmasked op]
  simp only [State.withRegs, named]

/-- A pending register of a thread whose operations have no fault is REG_HAZARD (R13). -/
theorem maskable_hazard (pend : s.th.pending r = true) (clean : ∀ o ∈ s.ops, o.key = s.th.key → o.fault = none) :
    s.maskable i ds body = s.fault 0x07 := by
  rw [maskable_operand pass op named, if_pos pend, hazardTrap_clean clean]
  rfl

end

/-- Settles O1: the checks of R49 come in the order of the clauses, then the first operand that is not sound (R83). -/
theorem issueChecks : Obligations.IssueChecks := by
  unfold Obligations.IssueChecks
  intro s i m form
  obtain ⟨body, hexec⟩ := exec_maskForm form
  rw [hexec]
  intro bad clsOk hinted roleOk inside
  have allowed (h : ¬ hinted) : prefixOk .operand s.pfx = true := by
    rw [← Bool.not_eq_false, prefixOk_operand]
    exact h
  have clsTrue (c : clsOk) : (m.cls == 0 || m.cls == s.clsNow) = true := by simpa [clsOk] using c
  refine ⟨fun c => maskable_refused (checkWord_class c), fun c p =>
    maskable_refused (checkWord_prefix (clsTrue c) (prefixOk_operand.2 p)),
    fun c p r => maskable_refused (checkWord_role (clsTrue c) (allowed p) r), fun c p r b => maskable_refused ?_,
    fun c r b op => ?_⟩
  · rw [checkWord_registers (clsTrue c) (allowed p) r, if_neg]
    simpa only [List.all_eq_true, decide_eq_true_eq] using b
  intro sound noFaults
  have pass : s.checkWord ⟨m.cls, .operand, m.role, m.reads, m.dests⟩ = none := by
    rw [checkWord_registers (clsTrue c) (prefixOk_unmasked op) r, if_pos]
    simpa only [List.all_eq_true, decide_eq_true_eq] using b
  refine ⟨fun l r rest reads hl => ⟨fun pend clean => ?_, fun idle err => ?_⟩, fun hr hd clean => ?_⟩
  · refine maskable_hazard pass op ?_ pend clean
    rw [reads]
    exact badOperand_read hl (by simp [pend])
  · rw [maskable_operand (r := r) pass op, if_neg (by simp [idle])]
    · rfl
    · rw [reads]
      exact badOperand_read hl (by simp only [err, Bool.or_true])
  · obtain ⟨r, named, pend⟩ := badOperand_dest hr hd
    exact maskable_hazard pass op named pend clean

end Sys2Proof.Machine
end

section
/-! PROOF. Special functions: their issue (R12, R40, R111, R123 to R125) and their special operands (R81, R82). -/

namespace Sys2Proof.Machine

/-! ### Codes and values of FP32 -/

/-- A magnitude that is a code's value rounds to that code: rounding is exact on a format's own values (R69). -/
theorem roundCode_rne_mag (f : Fmt) (hm : 0 < f.mbits) (c : Nat) : f.roundCode .rne (f.mag c) = c := by
  have mono := mag_strictMono f
  have rz : f.roundCode .rz (f.mag c) = c := by
    refine le_antisymm ?_ ((le_roundCode_rz_iff f (mag_nonneg f c) c).2 le_rfl)
    exact mono.le_iff_le.1 ((le_roundCode_rz_iff f (mag_nonneg f c) _).1 le_rfl)
  have lt : 2 * f.mag c < f.mag c + f.mag (c + 1) := by linarith [mono (Nat.lt_succ_self c)]
  rw [roundCode_rne_eq f hm (mag_nonneg f c), rz, nearestEven, if_pos lt]

theorem toF32_mag (neg : Bool) {c : Nat} (h : c < fp32.limit) : toF32 .rne (.fin neg (fp32.mag c)) = withSign neg c := by
  have exact : fp32.roundCode .rne (fp32.mag c) = c := roundCode_rne_mag fp32 (by decide) c
  have le : fp32.roundCode .rne (fp32.mag c) ≤ fp32.maxCode := by
    rw [exact]
    exact Nat.le_sub_one_of_lt h
  rw [toF32, enc_fin_of_le le, exact]
  rfl

theorem withSign_toNat (neg : Bool) {c : Nat} (h : c < 2 ^ 31) :
    (withSign neg c).toNat = (if neg then 2 ^ 31 else 0) + c := by
  rw [withSign, BitVec.toNat_ofNat, Nat.mod_eq_of_lt]
  cases neg <;> simp only [Bool.false_eq_true, if_true, if_false] <;> omega

theorem f32_withSign (neg : Bool) {c : Nat} (h : c < fp32.limit) : f32 (withSign neg c) = .fin neg (fp32.mag c) := by
  have limit : fp32.limit = 0xFF * 2 ^ 23 := rfl
  have sign : fp32.signBit = 2 ^ 31 := rfl
  have code : (withSign neg c).toNat % 2 ^ 31 = c := by
    rw [withSign_toNat neg (by omega)]
    cases neg <;> simp <;> omega
  have top : ((withSign neg c).toNat / 2 ^ 31 % 2 == 1) = neg := by
    rw [withSign_toNat neg (by omega)]
    cases neg <;> simp <;> omega
  unfold f32 Fmt.val
  dsimp only
  rw [sign, code, top, if_pos h]

theorem mag_zero (f : Fmt) : f.mag 0 = 0 := by simp [Fmt.mag]

theorem f32_zero {w : Word} {neg : Bool} (hw : w = withSign neg 0) : f32 w = .fin neg 0 := by
  rw [hw, f32_withSign neg (by decide), mag_zero]

theorem f32_infinity {w : Word} {neg : Bool} (hw : w = withSign neg fp32.limit) : f32 w = .inf neg := by
  rw [hw]
  cases neg <;> rfl

/-- The FP32 code of 2^n, for a normal value. -/
def powerCode (n : Int) : Nat := (n + 127).toNat * 2 ^ 23

theorem mag_powerCode {n : Int} (h : -126 ≤ n) : fp32.mag (powerCode n) = pow2 n := by
  obtain ⟨k, hk⟩ := Int.eq_ofNat_of_zero_le (show 0 ≤ n + 126 by omega)
  have code : powerCode n = k * 2 ^ fp32.mbits + 2 ^ fp32.mbits := by
    rw [powerCode, show (n + 127).toNat = k + 1 by omega, Nat.succ_mul]
    rfl
  have binade : n = 23 + (1 - (fp32.bias : Int) - fp32.mbits + k) := by
    simp only [fp32]
    omega
  rw [code, mag_quanta fp32 (.inr le_rfl) (by decide), ← pow2_natCast, ← pow2_add]
  exact congrArg pow2 binade.symm

theorem powerCode_lt_limit {n : Int} (h : n < 128) : powerCode n < fp32.limit := by
  have limit : fp32.limit = 0xFF * 2 ^ 23 := rfl
  rw [powerCode, limit]
  omega

theorem f32_power {w : Word} {neg : Bool} (n : Int) (hw : w = withSign neg (powerCode n)) (lo : -126 ≤ n) (hi : n < 128) :
    f32 w = .fin neg (pow2 n) := by
  rw [hw, f32_withSign neg (powerCode_lt_limit hi), mag_powerCode lo]

theorem toF32_power (neg : Bool) {n : Int} (lo : -126 ≤ n) (hi : n < 128) :
    toF32 .rne (.fin neg (pow2 n)) = withSign neg (powerCode n) := by
  rw [← mag_powerCode lo, toF32_mag neg (powerCode_lt_limit hi)]

theorem floorLog2_pow2 (n : Int) : floorLog2 (pow2 n).num.toNat (pow2 n).den = n := by
  have num : 0 < (pow2 n).num.toNat := by
    have := Rat.num_pos.2 (pow2_pos n)
    omega
  obtain ⟨lo, hi⟩ := pow2_floorLog2 num (pow2 n).den_pos
  rw [num_toNat_div_den (pow2_pos n).le] at lo hi
  generalize floorLog2 _ _ = e at *
  simp only [pow2_eq_zpow] at lo hi
  have above := (zpow_lt_zpow_iff_right₀ (by norm_num : (1 : Rat) < 2)).1 hi
  have below := (zpow_le_zpow_iff_right₀ (by norm_num : (1 : Rat) < 2)).1 lo
  omega

/-! ### The rows of R82's table: an operand by its value, and the result -/

theorem eval_nan (f : Special) {w : Word} (h : (f32 w).isNan = true) : f.eval w = nan32 := by
  have value : f32 w = .nan := by
    cases v : f32 w with
    | nan => rfl
    | inf | fin =>
      rw [v] at h
      cases h
  cases f <;> rw [Special.eval, value] <;> rfl

theorem rcp_zero {w : Word} {neg : Bool} (h : f32 w = .fin neg 0) : Special.rcp.eval w = withSign neg fp32.limit := by
  rw [Special.eval, h, specialRcp, if_pos rfl]

theorem rcp_infinity {w : Word} {neg : Bool} (h : f32 w = .inf neg) : Special.rcp.eval w = withSign neg 0 := by
  rw [Special.eval, h, specialRcp]

theorem rcp_power {w : Word} {neg : Bool} {n : Int} (h : f32 w = .fin neg (pow2 n)) (lo : -128 < n) (hi : n ≤ 126) :
    Special.rcp.eval w = withSign neg (powerCode (-n)) := by
  have inverse : 1 / pow2 n = pow2 (-n) := by simp only [pow2_eq_zpow, zpow_neg, one_div]
  rw [Special.eval, h, specialRcp, if_neg (pow2_pos n).ne', inverse, toF32_power neg (by omega) (by omega)]

theorem rsqrt_zero {w : Word} {neg : Bool} (h : f32 w = .fin neg 0) : Special.rsqrt.eval w = withSign neg fp32.limit := by
  rw [Special.eval, h, specialRsqrt, if_pos rfl]

theorem rsqrt_infinity {w : Word} (h : f32 w = .inf false) : Special.rsqrt.eval w = 0 := by
  rw [Special.eval, h]
  rfl

theorem rsqrt_negative {w : Word} {m : Rat} (h : f32 w = .fin true m) (hm : m ≠ 0) : Special.rsqrt.eval w = nan32 := by
  rw [Special.eval, h, specialRsqrt, if_neg hm, if_pos rfl]

theorem sqrt_zero {w : Word} {neg : Bool} (h : f32 w = .fin neg 0) : Special.sqrt.eval w = withSign neg 0 := by
  rw [Special.eval, h, specialSqrt, if_pos rfl]

theorem sqrt_infinity {w : Word} (h : f32 w = .inf false) : Special.sqrt.eval w = withSign false fp32.limit := by
  rw [Special.eval, h]
  rfl

theorem sqrt_negative {w : Word} {m : Rat} (h : f32 w = .fin true m) (hm : m ≠ 0) : Special.sqrt.eval w = nan32 := by
  rw [Special.eval, h, specialSqrt, if_neg hm, if_pos rfl]

/-- The root of 4^n is found exactly: 4^n stands 46 binary places up as 2^46, whose integer root is 2^23. -/
theorem sqrtFloor_power {n : Int} (lo : -126 ≤ n) : sqrtFloor (pow2 (2 * n)) = (powerCode n, true) := by
  have exponent : max (2 * n / 2) (-126) = n := by omega
  have scaled : pow2 (2 * n) * pow2 (2 * (23 - n)) = ((2 ^ 46 : Nat) : Rat) := by
    rw [← pow2_add, ← pow2_natCast]
    congr 1
    omega
  have root : isqrt (2 ^ 46) = 2 ^ 23 := rfl
  have square : ((2 ^ 23 * 2 ^ 23 : Nat) : Rat) = ((2 ^ 46 : Nat) : Rat) := congrArg Nat.cast (by norm_num)
  unfold sqrtFloor
  rw [if_neg (pow2_pos _).not_ge, floorLog2_pow2, exponent]
  dsimp only
  rw [scaled, Rat.num_natCast, Rat.den_natCast, Int.toNat_natCast, Nat.div_one, root]
  refine Prod.ext ?_ (decide_eq_true square)
  rw [powerCode, show (n + 127).toNat = (n + 126).toNat + 1 by omega, Nat.succ_mul]

theorem sqrt_power {w : Word} {n : Int} (h : f32 w = .fin false (pow2 (2 * n))) (lo : -126 ≤ n) :
    Special.sqrt.eval w = withSign false (powerCode n) := by
  rw [Special.eval, h, specialSqrt, if_neg (pow2_pos _).ne', sqrtRne, sqrtFloor_power lo]
  rfl

theorem exp2_infinity {w : Word} {neg : Bool} (h : f32 w = .inf neg) :
    Special.exp2.eval w = if neg then 0 else withSign false fp32.limit := by
  rw [Special.eval, h, specialExp2]

theorem exp2_large {w : Word} {neg : Bool} {m : Rat} (h : f32 w = .fin neg m) (large : 128 ≤ signed neg m) :
    Special.exp2.eval w = withSign false fp32.limit := by
  rw [Special.eval, h, specialExp2, if_neg (by linarith), if_pos large]

theorem exp2_integer {w : Word} {neg : Bool} {m : Rat} {n : Int} (h : f32 w = .fin neg m) (hn : signed neg m = n)
    (lo : -126 ≤ n) (hi : n < 128) : Special.exp2.eval w = withSign false (powerCode n) := by
  have lo' : (-126 : Rat) ≤ n := by exact_mod_cast lo
  have hi' : (n : Rat) < 128 := by exact_mod_cast hi
  rw [Special.eval, h, specialExp2, hn, if_neg (by linarith), if_neg hi'.not_ge,
    if_pos ⟨Rat.den_intCast n, by linarith⟩, Rat.num_intCast, toF32_power false lo hi]

theorem log2_zero {w : Word} {neg : Bool} (h : f32 w = .fin neg 0) : Special.log2.eval w = withSign true fp32.limit := by
  rw [Special.eval, h, specialLog2, if_pos rfl]

theorem log2_infinity {w : Word} (h : f32 w = .inf false) : Special.log2.eval w = withSign false fp32.limit := by
  rw [Special.eval, h]
  rfl

theorem log2_negative {w : Word} {m : Rat} (h : f32 w = .fin true m) (hm : m ≠ 0) : Special.log2.eval w = nan32 := by
  rw [Special.eval, h, specialLog2, if_neg hm, if_pos rfl]

theorem log2_power {w : Word} {n : Int} (h : f32 w = .fin false (pow2 n)) :
    Special.log2.eval w = toF32 .rne (Val.ofRat n) := by
  rw [Special.eval, h, specialLog2, if_neg (pow2_pos n).ne', if_neg Bool.false_ne_true]
  dsimp only
  rw [floorLog2_pow2, if_pos rfl]

theorem sinpi_infinity {w : Word} {neg : Bool} (h : f32 w = .inf neg) : Special.sinpi.eval w = nan32 := by
  rw [Special.eval, h, specialSinpi]

/-- The sine of a whole number of half turns is a zero of the operand's sign. -/
theorem sinPiOf_natCast (fn : Nat) (key : Word) (neg : Bool) (n : Nat) : sinPiOf fn key neg n = withSign neg 0 := by
  have whole : (n : Rat) - ((n : Rat).floor : Int) = 0 := by
    rw [← Int.cast_natCast, Rat.floor_intCast, sub_self]
  unfold sinPiOf
  dsimp only
  rw [if_pos whole]

theorem floor_natCast_add_half (n : Nat) : ((n : Rat) + 1 / 2).floor = n := by
  change ⌊(n : Rat) + 1 / 2⌋ = (n : Int)
  rw [Int.floor_eq_iff]
  constructor <;> push_cast <;> linarith

/-- Midway between whole numbers the sine is 1 or -1, as the whole number of half turns is even or odd. -/
theorem sinPiOf_natCast_add_half (fn : Nat) (key : Word) (neg : Bool) (n : Nat) :
    sinPiOf fn key neg (n + 1 / 2) = withSign (neg != (n % 2 == 1)) one32 := by
  have odd : ((n : Int) % 2 == 1) = (n % 2 == 1) := by
    rw [Bool.eq_iff_iff, beq_iff_eq, beq_iff_eq]
    omega
  have fraction : (n : Rat) + 1 / 2 - ((n : Int) : Rat) = 1 / 2 := by
    push_cast
    ring
  unfold sinPiOf
  dsimp only
  rw [floor_natCast_add_half, fraction, if_neg (by norm_num), if_neg (lt_irrefl _), if_pos rfl, odd]

theorem sinpi_integer {w : Word} {neg : Bool} {n : Nat} (h : f32 w = .fin neg n) :
    Special.sinpi.eval w = withSign neg 0 := by
  rw [Special.eval, h, specialSinpi, sinPiOf_natCast]

theorem sinpi_half {w : Word} {neg : Bool} {n : Nat} (h : f32 w = .fin neg (n + 1 / 2)) :
    Special.sinpi.eval w = withSign (neg != (n % 2 == 1)) one32 := by
  rw [Special.eval, h, specialSinpi, sinPiOf_natCast_add_half]

theorem cospi_infinity {w : Word} {neg : Bool} (h : f32 w = .inf neg) : Special.cospi.eval w = nan32 := by
  rw [Special.eval, h, specialCospi]

theorem cospi_half {w : Word} {neg : Bool} {n : Nat} (h : f32 w = .fin neg (n + 1 / 2)) : Special.cospi.eval w = 0 := by
  have whole : (n : Rat) + 1 / 2 + 1 / 2 = ((n + 1 : Nat) : Rat) := by
    push_cast
    ring
  rw [Special.eval, h, specialCospi, whole, if_pos (Rat.den_natCast _)]

theorem cospi_integer {w : Word} {neg : Bool} {n : Nat} (h : f32 w = .fin neg n) :
    Special.cospi.eval w = withSign (n % 2 == 1) one32 := by
  have notWhole : ((n : Rat) + 1 / 2).den ≠ 1 := fun e => by
    have whole := Rat.coe_int_num_of_den_eq_one e
    have floor : ((n : Rat) + 1 / 2).num = n := by
      rw [← floor_natCast_add_half n, ← Rat.floor_intCast (Rat.num _), whole]
    rw [floor, Int.cast_natCast] at whole
    linarith
  rw [Special.eval, h, specialCospi, if_neg notWhole, sinPiOf_natCast_add_half, Bool.false_bne]

theorem tanh_infinity {w : Word} {neg : Bool} (h : f32 w = .inf neg) : Special.tanh.eval w = withSign neg one32 := by
  rw [Special.eval, h, specialTanh]

theorem tanh_small {w : Word} {neg : Bool} {m : Rat} (h : f32 w = .fin neg m) (small : m ≤ pow2 (-12)) :
    Special.tanh.eval w = w := by
  rw [Special.eval, h, specialTanh, if_pos small]

/-! ### The issue of a special function -/

/-- R12: no room on the chosen flag, and the thread waits at its word. -/
theorem special_stalls {s : State} {e : Bool} {d a : Nat} (f : Special) (h : s.canRun 1 (some .vector) [a] [d] = true)
    (p : s.unmasked = true) (full : s.flagRoom e = false) : s.special f e d a = .next s.stall := by
  unfold State.special
  rw [maskable_runs _ h p, full, if_neg Bool.false_ne_true]

theorem hazard_none_of_canRun {s : State} {cls : Nat} {role : Option Role} {reads writes : List Nat}
    (h : s.canRun cls role reads writes = true) : s.th.hazard writes = none := by
  simp only [State.canRun, Bool.and_eq_true, List.all_eq_true] at h
  obtain ⟨⟨-, inWindow⟩, -⟩ := h
  refine List.find?_eq_none.2 fun r hr pend => ?_
  obtain ⟨-, idle⟩ := inWindow r (List.mem_append_right _ hr)
  rw [pend] at idle
  exact Bool.false_ne_true idle

/-- R111: a thread that the prefix masks off issues nothing. -/
theorem special_zeroes {s : State} {e : Bool} {d a : Nat} (f : Special) (h : s.canRun 1 (some .vector) [a] [d] = true)
    (p : s.maskedBy true = true) : s.special f e d a = .next (s.after (fun t => t.setReg d 0)) :=
  maskable_zeroes _ (canRun_check h (prefixOk_masked p)) p (hazard_none_of_canRun h)

/-! ### The statement -/

/-- Settles O23: the issue and its checks, then each row of R82's table at its operands. -/
theorem specialFunctions : Obligations.SpecialFunctions := by
  unfold Obligations.SpecialFunctions
  have plusZero : f32 0 = .fin false 0 := f32_zero rfl
  have minusZero : f32 0x80000000 = .fin true 0 := f32_zero rfl
  have plusInfinity : f32 0x7F800000 = .inf false := f32_infinity rfl
  have minusInfinity : f32 0xFF800000 = .inf true := f32_infinity rfl
  have one : f32 0x3F800000 = .fin false (pow2 0) := f32_power 0 rfl (by decide) (by decide)
  have minusOne : f32 0xBF800000 = .fin true (pow2 0) := f32_power 0 rfl (by decide) (by decide)
  have half : f32 0x3F000000 = .fin false ((0 : Nat) + 1 / 2) := by
    rw [f32_power (w := 0x3F000000) (neg := false) (-1) rfl (by decide) (by decide)]
    norm_num [pow2_eq_zpow]
  have two : f32 0x40000000 = .fin false (pow2 1) := f32_power 1 rfl (by decide) (by decide)
  have three : f32 0x40400000 = .fin false 3 := by
    rw [show (0x40400000 : Word) = withSign false 0x40400000 from rfl, f32_withSign false (by decide)]
    norm_num [Fmt.mag, fp32, pow2_eq_zpow]
  have four : f32 0x40800000 = .fin false (pow2 (2 * 1)) := f32_power 2 rfl (by decide) (by decide)
  have large : f32 0x43000000 = .fin false (pow2 7) := f32_power 7 rfl (by decide) (by decide)
  refine ⟨fun s e d a run => ⟨fun p room => ?_, fun p full => ?_, fun p => special_zeroes .rcp run p⟩,
    fun f w nan => eval_nan f nan, ?_, ?_, ?_, ?_, ?_, ?_, ?_, ?_⟩
  · have issues (f : Special) := special_runs f run p room
    exact ⟨issues .rcp, issues .rsqrt, issues .sqrt, issues .exp2, issues .log2, issues .sinpi, issues .cospi, issues .tanh⟩
  · exact ⟨special_stalls .rcp run p full, special_stalls .tanh run p full⟩
  · exact ⟨(rcp_zero plusZero).trans rfl, (rcp_zero minusZero).trans rfl, (rcp_infinity plusInfinity).trans rfl,
      (rcp_infinity minusInfinity).trans rfl, (rcp_power two (by decide) (by decide)).trans rfl⟩
  · exact ⟨(rsqrt_zero plusZero).trans rfl, (rsqrt_zero minusZero).trans rfl, rsqrt_infinity plusInfinity,
      rsqrt_negative minusOne (pow2_pos 0).ne'⟩
  · exact ⟨sqrt_zero minusZero, sqrt_negative minusOne (pow2_pos 0).ne', sqrt_power four (by decide),
      sqrt_infinity plusInfinity⟩
  · exact ⟨exp2_integer (n := 0) plusZero (by simp [signed]) (by decide) (by decide), exp2_infinity plusInfinity,
      exp2_infinity minusInfinity, exp2_large large (by norm_num [signed, pow2_eq_zpow]),
      exp2_integer (n := 3) three (by simp [signed]) (by decide) (by decide)⟩
  · exact ⟨(log2_power one).trans rfl, log2_zero plusZero, log2_zero minusZero,
      log2_negative minusOne (pow2_pos 0).ne', log2_infinity plusInfinity⟩
  · exact ⟨(sinpi_half half).trans rfl, (sinpi_integer (n := 1) minusOne).trans rfl, sinpi_infinity plusInfinity⟩
  · exact ⟨cospi_half half, (cospi_integer (n := 1) one).trans rfl, (cospi_integer (n := 0) plusZero).trans rfl,
      cospi_infinity minusInfinity⟩
  · exact ⟨(tanh_infinity plusInfinity).trans rfl, (tanh_infinity minusInfinity).trans rfl,
      tanh_small minusZero (pow2_pos _).le⟩

end Sys2Proof.Machine
end

section
/-! PROOF. Integer arithmetic, logic, shifts, bit fields, immediates and addresses (R85 to R88, R90 to R92). -/

namespace Sys2Proof.Machine

/-! ### What a word writes is computed from its thread as it stood -/

section
variable (s : State) (d : Nat)

theorem after_setReg (v : Thread → Word) :
    s.after (fun t => t.setReg d (v t)) = s.after (fun t => t.setReg d (v s.th)) := rfl

theorem after_setPair (v : Thread → BitVec 64) :
    s.after (fun t => t.setPair d (v t)) = s.after (fun t => t.setPair d (v s.th)) := rfl

theorem after_setPred (v : Thread → Bool) :
    s.after (fun t => t.setPred d (v t)) = s.after (fun t => t.setPred d (v s.th)) := rfl

end

/-! ### High products and shifts of words (R85, R87) -/

/-- The high word of a 64-bit number is its quotient by 2^32 rounded down. -/
theorem hi32_ofInt (n : Int) : hi32 (BitVec.ofInt 64 n) = BitVec.ofInt 32 (n / 2 ^ 32) := by
  apply BitVec.eq_of_toNat_eq
  simp only [hi32, BitVec.toNat_setWidth, BitVec.toNat_ushiftRight, BitVec.toNat_ofInt, Nat.shiftRight_eq_div_pow]
  omega

theorem mulHigh_signed (x y : Word) :
    mulHigh (x.signExtend 64 * y.signExtend 64) = BitVec.ofInt 32 (x.toInt * y.toInt / 2 ^ 32) := by
  rw [mulHigh, BitVec.signExtend, BitVec.signExtend, ← BitVec.ofInt_mul, hi32_ofInt]

theorem mulHigh_unsigned (x y : Word) :
    mulHigh (x.setWidth 64 * y.setWidth 64) = BitVec.ofNat 32 (x.toNat * y.toNat / 2 ^ 32) := by
  have product : x.setWidth 64 * y.setWidth 64 = BitVec.ofInt 64 ((x.toNat * y.toNat : Nat) : Int) := by
    rw [BitVec.ofInt_natCast, BitVec.ofNat_mul, BitVec.ofNat_toNat, BitVec.ofNat_toNat]
  rw [mulHigh, product, hi32_ofInt]
  norm_cast

theorem shiftLeft_eq_ofNat (x : Word) (n : Nat) : x <<< n = BitVec.ofNat 32 (x.toNat * 2 ^ n) := by
  apply BitVec.eq_of_toNat_eq
  rw [BitVec.toNat_shiftLeft, BitVec.toNat_ofNat, Nat.shiftLeft_eq]

theorem ushiftRight_eq_ofNat (x : Word) (n : Nat) : x >>> n = BitVec.ofNat 32 (x.toNat / 2 ^ n) := by
  rw [← Nat.shiftRight_eq_div_pow, ← BitVec.toNat_ushiftRight, BitVec.ofNat_toNat, BitVec.setWidth_eq]

/-- A count of 32 or more empties the word (R87). -/
theorem shiftLeft_cases (x : Word) (n : Nat) : x <<< n = if 32 ≤ n then 0 else BitVec.ofNat 32 (x.toNat * 2 ^ n) := by
  split
  · next h => exact BitVec.shiftLeft_eq_zero h
  · exact shiftLeft_eq_ofNat x n

theorem ushiftRight_cases (x : Word) (n : Nat) : x >>> n = if 32 ≤ n then 0 else BitVec.ofNat 32 (x.toNat / 2 ^ n) := by
  split
  · next h => exact BitVec.ushiftRight_eq_zero h
  · exact ushiftRight_eq_ofNat x n

theorem toNat_append_words (x y : Word) : (x ++ y).toNat = x.toNat * 2 ^ 32 + y.toNat := by
  rw [BitVec.toNat_append, ← Nat.shiftLeft_add_eq_or_of_lt y.isLt, Nat.shiftLeft_eq]

theorem funnel_eq (x y c : Word) :
    funnel x y c = BitVec.ofNat 32 ((x.toNat * 2 ^ 32 + y.toNat) / 2 ^ (c.toNat % 64)) := by
  apply BitVec.eq_of_toNat_eq
  rw [funnel, BitVec.toNat_setWidth, BitVec.toNat_ushiftRight, toNat_append_words, Nat.shiftRight_eq_div_pow,
    BitVec.toNat_ofNat]

/-! ### Fields (R88) -/

/-- Where the field that `b` names begins. -/
def fieldPos (b : Word) : Nat := b.toNat % 256

/-- The bits of the field that `b` names, up to bit 31. -/
def fieldWidth (b : Word) : Nat := min (b.toNat % 256 + b.toNat / 256 % 256) 32 - b.toNat % 256

theorem fieldOf_eq (b : Word) : fieldOf b = if fieldWidth b = 0 then none else some (fieldPos b, fieldWidth b) := by
  have empty : b.toNat / 256 % 256 = 0 ∨ 32 ≤ b.toNat % 256 ↔ fieldWidth b = 0 := by
    unfold fieldWidth
    omega
  unfold fieldOf
  simp only [empty]
  rfl

theorem field_le {b : Word} (h : fieldWidth b ≠ 0) : fieldPos b + fieldWidth b ≤ 32 := by
  unfold fieldWidth fieldPos at *
  omega

theorem getLsbD_lowMask (w i : Nat) : (lowMask w).getLsbD i = (decide (i < 32) && decide (i < w)) := by
  rw [lowMask, BitVec.getLsbD_ofNat, Nat.testBit_two_pow_sub_one]

/-- R88: a field read without sign: its bits, then zeros. -/
theorem getLsbD_field (a : Word) (p w : Nat) {i : Nat} (hi : i < 32) :
    ((a >>> p) &&& lowMask w).getLsbD i = (decide (i < w) && a.getLsbD (p + i)) := by
  rw [BitVec.getLsbD_and, BitVec.getLsbD_ushiftRight, getLsbD_lowMask, decide_eq_true hi, Bool.true_and, Bool.and_comm]

/-- The same with the bits above the field set. -/
theorem getLsbD_field_filled (a : Word) (p w : Nat) {i : Nat} (hi : i < 32) :
    ((a >>> p) &&& lowMask w ||| ~~~(lowMask w)).getLsbD i = (!decide (i < w) || a.getLsbD (p + i)) := by
  rw [BitVec.getLsbD_or, getLsbD_field a p w hi, BitVec.getLsbD_not, getLsbD_lowMask, decide_eq_true hi]
  cases decide (i < w) <;> simp

theorem bfx_unsigned (a b : Word) {i : Nat} (hi : i < 32) :
    (bfx false a b).getLsbD i = (decide (i < fieldWidth b) && a.getLsbD (fieldPos b + i)) := by
  unfold bfx
  rw [fieldOf_eq]
  by_cases empty : fieldWidth b = 0
  · simp [empty]
  · rw [if_neg empty]
    exact getLsbD_field a _ _ hi

/-- R88: a field read with its sign: above the field its top bit goes on. -/
theorem bfx_signed (a b : Word) {i : Nat} (hi : i < 32) : (bfx true a b).getLsbD i =
    (decide (0 < fieldWidth b) && a.getLsbD (fieldPos b + min i (fieldWidth b - 1))) := by
  unfold bfx
  rw [fieldOf_eq]
  by_cases empty : fieldWidth b = 0
  · simp [empty]
  have fits := field_le empty
  have top := getLsbD_field a (fieldPos b) (fieldWidth b) (i := fieldWidth b - 1) (by omega)
  rw [decide_eq_true (by omega), Bool.true_and] at top
  rw [if_neg empty, decide_eq_true (Nat.pos_of_ne_zero empty), Bool.true_and]
  dsimp only
  rw [Bool.true_and, top]
  by_cases inside : i < fieldWidth b
  · rw [min_eq_left (by omega)]
    split
    · simp [getLsbD_field_filled a _ _ hi, inside]
    · simp [getLsbD_field a _ _ hi, inside, -BitVec.getLsbD_and]
  · rw [min_eq_right (by omega)]
    split
    · next sign => simp [getLsbD_field_filled a _ _ hi, inside, sign]
    · next sign => simp [getLsbD_field a _ _ hi, inside, Bool.eq_false_iff.2 sign, -BitVec.getLsbD_and]

/-- The mask of a field stands over its bits. -/
theorem getLsbD_fieldMask (p w : Nat) {i : Nat} (hi : i < 32) :
    (lowMask w <<< p).getLsbD i = decide (p ≤ i ∧ i < p + w) := by
  rw [BitVec.getLsbD_shiftLeft, getLsbD_lowMask, Bool.eq_iff_iff]
  simp only [Bool.and_eq_true, Bool.not_eq_true', decide_eq_true_eq, decide_eq_false_iff_not]
  omega

theorem bfiOf_bits (a b d : Word) {i : Nat} (hi : i < 32) : (bfiOf a b d).getLsbD i =
    if fieldPos b ≤ i ∧ i < fieldPos b + fieldWidth b then a.getLsbD (i - fieldPos b) else d.getLsbD i := by
  unfold bfiOf
  rw [fieldOf_eq]
  by_cases empty : fieldWidth b = 0
  · rw [if_pos empty, if_neg (by omega)]
  rw [if_neg empty]
  dsimp only
  rw [BitVec.shiftLeft_and_distrib, BitVec.getLsbD_or, BitVec.getLsbD_and, BitVec.getLsbD_not, BitVec.getLsbD_and,
    getLsbD_fieldMask _ _ hi, BitVec.getLsbD_shiftLeft, decide_eq_true hi]
  split
  · next inside => simp [inside, not_lt.2 inside.1]
  · next outside => simp [outside]

/-! ### The statements -/

/-- Settles O10: each word is an `alu3`, and its function gives the rule's value. -/
theorem integerArithmetic : Obligations.IntegerArithmetic := by
  unfold Obligations.IntegerArithmetic
  intro s d a b run unmasked x y wrote
  have runs (f : Word → Word → Word) : s.alu3 0 none d a b f = wrote (f x y) := alu3_runs f run unmasked
  have chosen (p : Prop) [Decidable p] : wrote (if decide p = true then x else y) = wrote (if p then x else y) :=
    congrArg wrote (if_congr decide_eq_true_iff rfl rfl)
  refine ⟨runs (· + ·), runs (· - ·), runs (· * ·), ?mulhI, ?mulhN, runs divI, runs divN, runs remI, runs remN,
    ?minI, ?minN, ?maxI, ?maxN⟩
  case mulhI =>
    rw [← mulHigh_signed]
    exact runs fun x y => mulHigh (x.signExtend 64 * y.signExtend 64)
  case mulhN =>
    rw [← mulHigh_unsigned]
    exact runs fun x y => mulHigh (x.setWidth 64 * y.setWidth 64)
  case minI => exact (runs fun x y => if leI32 x y then x else y).trans (chosen _)
  case minN => exact (runs fun x y => if leN32 x y then x else y).trans (chosen _)
  case maxI => exact (runs fun x y => if leI32 y x then x else y).trans (chosen _)
  case maxN => exact (runs fun x y => if leN32 y x then x else y).trans (chosen _)

/-- Settles O11: the fourth operand is the register of the operand modifier or the old v[d]; `sel` is never masked off. -/
theorem prefixedOperands : Obligations.PrefixedOperands := by
  unfold Obligations.PrefixedOperands
  refine ⟨?_, ?_⟩
  · intro s d a b unmasked c x y z wrote
    have runs {cls : Nat} {role : Option Role} (run : s.canRun cls role [a, b, c] [d] = true)
        (f : Word → Word → Word → Word) : s.alu4 cls role d a b f = wrote (f x y z) := alu4_runs f run unmasked
    exact ⟨fun run => runs run fun x y z => x * y + z, fun run => ⟨runs run (ffmaOf .rne), runs run (ffmaOf .rz),
      runs run (halves3 fun x y z => toB16 (((b16 x).mul (b16 y)).add (b16 z)))⟩⟩
  · intro s d a b run allowed p
    have ok : prefixOk .operand s.pfx = true := by
      rcases allowed with operand | bare
      · unfold State.hinted at operand
        split at operand
        · next h =>
          rw [h]
          rfl
        · cases operand
      · exact prefixOk_bare bare
    refine (word_runs _ run ok).trans ?_
    unfold p
    rcases s.pfx with _ | _ | _ <;> rfl

/-- Settles O12: each word is an `alu3` or `alu3d`, and its function gives the rule's value. -/
theorem logicAndShifts : Obligations.LogicAndShifts := by
  unfold Obligations.LogicAndShifts
  intro s d a b unmasked x y n wrote
  refine ⟨fun run => ?_, fun run => ?_⟩
  · have runs (f : Word → Word → Word) : s.alu3 0 none d a b f = wrote (f x y) := alu3_runs f run unmasked
    rw [← shiftLeft_cases, ← ushiftRight_cases]
    exact ⟨runs (· &&& ·), runs (· ||| ·), runs (· ^^^ ·), runs (fun x y => x &&& ~~~y), runs (fun x y => x <<< y.toNat),
      runs (fun x y => x >>> y.toNat), runs (fun x y => x.sshiftRight y.toNat),
      runs (fun x y => x.rotateLeft (y.toNat % 32))⟩
  · have runs (f : Word → Word → Word → Word) : s.alu3d 0 none d a b f = wrote (f x y (s.th.reg d)) :=
      alu3d_runs f run unmasked
    rw [← funnel_eq]
    exact runs funnel

/-- Settles O13: the bits of the three functions that the words apply. -/
theorem bitFields : Obligations.BitFields := by
  unfold Obligations.BitFields
  intro s d a b unmasked x old pos len w wrote
  refine ⟨fun run => ⟨⟨_, alu3_runs (bfx false) run unmasked, fun i hi => ?_⟩,
    ⟨_, alu3_runs (bfx true) run unmasked, fun i hi => ?_⟩⟩, fun run => ⟨_, alu3d_runs bfiOf run unmasked, fun i hi => ?_⟩⟩
  · exact bfx_unsigned x (s.th.reg b) hi
  · exact bfx_signed x (s.th.reg b) hi
  · exact bfiOf_bits x (s.th.reg b) old hi

/-- Settles O14: each word is an `alu2`, a `lea` or a `plain` word. -/
theorem immediatesAndAddresses : Obligations.ImmediatesAndAddresses := by
  unfold Obligations.ImmediatesAndAddresses
  intro s d a b n i j x at_ wrote wrote2
  refine ⟨fun run unmasked => ?_, fun run unmasked => ?_, fun run bare => ?_, fun run bare => ?_⟩
  · have runs (f : Word → Word) : s.alu2 0 none d a f = wrote (f x) := alu2_runs f run unmasked
    exact ⟨runs (· + i.signExtend 32), runs (· <<< n), runs (· >>> n), runs (·.sshiftRight n)⟩
  · have runs (k : Nat) : s.lea k d a b = wrote2 (at_ k) := by rw [lea_runs run unmasked, after_setPair]
    exact ⟨runs 1, runs 2, runs 4, runs 8, runs 16⟩
  · exact plain_runs (fun t => t.setReg d (j.setWidth 32)) run bare
  · exact plain_runs (fun t => t.setReg d (j ++ loHalf (t.reg d))) run bare

end Sys2Proof.Machine
end

section
/-! PROOF. Words of one source, pairs, compares, index registers and masked-off words (R45, R84, R89, R93 to R96). -/

namespace Sys2Proof.Machine

/-! ### Words of one source (R89) -/

theorem abs_eq (x : Word) : (if x.msb then -x else x) = BitVec.ofInt 32 x.toInt.natAbs := by
  rw [BitVec.ofInt_natCast]
  apply BitVec.eq_of_toNat_eq
  have := x.isLt
  rw [BitVec.toNat_ofNat, BitVec.toInt_eq_msb_cond]
  split
  · rw [BitVec.toNat_neg]
    omega
  · omega

/-- Leading zeros of the low `n` bits: none of them is set, and the bit below them is. -/
theorem clzFrom_spec (a : Word) (n : Nat) : clzFrom a n ≤ n ∧ (∀ i, i < clzFrom a n → a.getLsbD (n - 1 - i) = false) ∧
    (clzFrom a n < n → a.getLsbD (n - 1 - clzFrom a n) = true) := by
  induction n with
  | zero => simp [clzFrom]
  | succ n ih =>
    obtain ⟨le, clear, next⟩ := ih
    unfold clzFrom
    split
    · next top => exact ⟨Nat.zero_le _, fun i hi => absurd hi (Nat.not_lt_zero i), fun _ => top⟩
    · next top =>
      refine ⟨by omega, fun i hi => ?_, fun hi => ?_⟩
      · cases i with
        | zero => exact Bool.eq_false_iff.2 top
        | succ i =>
          rw [show n + 1 - 1 - (i + 1) = n - 1 - i by omega]
          exact clear i (by omega)
      · rw [show n + 1 - 1 - (1 + clzFrom a n) = n - 1 - clzFrom a n by omega]
        exact next (by omega)

/-- Trailing zeros from bit `i` up, of `n` bits: none of them is set, and the bit above them is. -/
theorem ctzFrom_spec (a : Word) (n i : Nat) : ctzFrom a n i ≤ n ∧ (∀ k, k < ctzFrom a n i → a.getLsbD (i + k) = false) ∧
    (ctzFrom a n i < n → a.getLsbD (i + ctzFrom a n i) = true) := by
  induction n generalizing i with
  | zero => simp [ctzFrom]
  | succ n ih =>
    obtain ⟨le, clear, next⟩ := ih (i + 1)
    unfold ctzFrom
    split
    · next low => exact ⟨Nat.zero_le _, fun k hk => absurd hk (Nat.not_lt_zero k), fun _ => low⟩
    · next low =>
      refine ⟨by omega, fun k hk => ?_, fun hk => ?_⟩
      · cases k with
        | zero => exact Bool.eq_false_iff.2 low
        | succ k =>
          rw [show i + (k + 1) = i + 1 + k by omega]
          exact clear k (by omega)
      · rw [← Nat.add_assoc]
        exact next (by omega)

/-- The number that the low `n` bits of `a` make in reverse order. -/
def reversed (a : Word) (n : Nat) : Nat := (List.range n).foldl (fun m i => 2 * m + bitNat (a.getLsbD i)) 0

theorem reversed_succ (a : Word) (n : Nat) : reversed a (n + 1) = 2 * reversed a n + bitNat (a.getLsbD n) := by
  rw [reversed, List.range_succ, List.foldl_append]
  rfl

theorem testBit_reversed (a : Word) (n i : Nat) :
    (reversed a n).testBit i = (decide (i < n) && a.getLsbD (n - 1 - i)) := by
  induction n generalizing i with
  | zero => simp [reversed]
  | succ n ih =>
    rw [reversed_succ]
    cases i with
    | zero => cases h : a.getLsbD n <;> simp [bitNat, h, Nat.testBit_zero]
    | succ i =>
      have half : (2 * reversed a n + bitNat (a.getLsbD n)) / 2 = reversed a n := by
        unfold bitNat
        split <;> omega
      rw [Nat.testBit_succ, half, ih, show n + 1 - 1 - (i + 1) = n - 1 - i by omega]
      simp

theorem getLsbD_brevOf (a : Word) {i : Nat} (hi : i < 32) : (brevOf a).getLsbD i = a.getLsbD (31 - i) := by
  have bit := testBit_reversed a 32 i
  rw [decide_eq_true hi, Bool.true_and] at bit
  rw [brevOf, BitVec.getLsbD_ofNat, decide_eq_true hi, Bool.true_and]
  exact bit

/-- The predicates as a byte, in which p7 reads 1 (R10). -/
theorem getLsbD_predByte (t : Thread) {i : Nat} (hi : i < 32) :
    ((t.preds ||| 0x80).setWidth 32 : Word).getLsbD i = (decide (i < 8) && t.pred i) := by
  have seven : (0x80 : BitVec 8).getLsbD i = (i == 7) := by
    revert i
    decide
  rw [BitVec.getLsbD_setWidth, BitVec.getLsbD_or, seven, decide_eq_true hi, Bool.true_and, Thread.pred, Bool.or_comm]
  by_cases byte : i < 8
  · simp [byte]
  · simp [byte, BitVec.getLsbD_of_ge t.preds i (by omega)]
    omega

/-- Settles O17: each word is an `alu2` or reads no register; the counts and the reversal by their recursions. -/
theorem singleSource : Obligations.SingleSource := by
  unfold Obligations.SingleSource
  intro s d a k unmasked x wrote
  refine ⟨fun run => ?_, fun run => ⟨?_, ?_⟩⟩
  · have runs (f : Word → Word) : s.alu2 0 none d a f = wrote (f x) := alu2_runs f run unmasked
    refine ⟨runs fun x => x, runs fun x => ~~~x, ?_, runs fun x => 0 - x, ?_, ?_, ?_, ?_⟩
    · rw [← abs_eq]
      exact runs fun x => if x.msb then -x else x
    · exact ⟨_, runs fun x => BitVec.ofNat 32 (clzFrom x 32), clzFrom_spec x 32⟩
    · obtain ⟨le, clear, next⟩ := ctzFrom_spec x 32 0
      simp only [Nat.zero_add] at clear next
      exact ⟨_, runs fun x => BitVec.ofNat 32 (ctzFrom x 32 0), le, clear, next⟩
    · rw [List.countP_eq_length_filter]
      exact runs fun x => BitVec.ofNat 32 (popcOf x)
    · exact ⟨_, runs brevOf, fun i hi => getLsbD_brevOf x hi⟩
  · exact ⟨_, maskable_runs (fun s => s.complete fun t => t.setReg d ((t.preds ||| 0x80).setWidth 32)) run unmasked,
      fun i hi => getLsbD_predByte s.th hi⟩
  · exact maskable_runs (fun s => s.complete fun t => t.setReg d (s.tm.consts.getD k 0)) run unmasked

/-! ### Pairs (R93) -/

theorem lo32_pairOf (lo hi : Word) : lo32 (pairOf lo hi) = lo := BitVec.setWidth_append_eq_right

/-- Settles O15: each word is an `alu64`, whose count is the low word of its second pair. -/
theorem pairArithmetic : Obligations.PairArithmetic := by
  unfold Obligations.PairArithmetic
  intro s d a b run bare x y n wrote
  have runs (f : BitVec 64 → BitVec 64 → BitVec 64) : s.alu64 d a b f = wrote (f x y) := by
    rw [alu64_runs f run bare, after_setPair]
  have count : (lo32 y).toNat = n := congrArg BitVec.toNat (lo32_pairOf _ _)
  rw [← count]
  exact ⟨runs (· + ·), runs (· - ·), runs (· * ·), runs fun x y => x <<< (lo32 y).toNat,
    runs fun x y => x >>> (lo32 y).toNat, runs fun x y => x.sshiftRight (lo32 y).toNat⟩

/-! ### Compares (R94) -/

/-- Settles O16: each word is a compare of its form or a `predOp`; a write of p7 is no write. -/
theorem comparesAndPredicates : Obligations.ComparesAndPredicates := by
  unfold Obligations.ComparesAndPredicates
  intro s p a b i bare x y k wrote
  refine ⟨fun run => ?_, fun run => ?_, fun run => ?_, fun run => ?_, fun t v => ⟨if_pos le_rfl, rfl⟩⟩
  · have runs (f : Word → Word → Bool) : s.compare 0 none p a b f = wrote (f x y) := compare_runs f run bare
    refine ⟨runs fun x y => x == y, ?_, runs ltI32, runs ltN32, runs leI32, runs leN32⟩
    rw [decide_not]
    exact runs fun x y => x != y
  · have runs (f : BitVec 64 → BitVec 64 → Bool) : s.compare64 p a b f = wrote (f (s.th.pair a) (s.th.pair b)) := by
      rw [compare64_runs f run bare, after_setPred]
    exact ⟨runs fun x y => x == y, runs ltI64, runs ltN64⟩
  · have runs (f : Word → Word → Bool) : s.compareImm p a i f = wrote (f x k) := compareImm_runs f run bare
    have signed : k.toInt = i.toInt := BitVec.toInt_signExtend_of_le (by decide)
    rw [← signed]
    exact ⟨runs fun x y => x == y, runs ltI32⟩
  · have runs (b : Nat) (f : Bool → Bool → Bool) : s.predOp p a b f = wrote (f (s.th.pred a) (s.th.pred b)) :=
      predOp_runs f run bare
    exact ⟨runs b (· && ·), runs b (· || ·), runs b (· != ·), runs b fun x y => x && !y, runs a fun x _ => !x,
      runs a fun x _ => x⟩

/-! ### Index registers (R95, R96) -/

section
variable {s : State} {cls : Nat} {role : Option Role} {reads writes : List Nat} {x : Nat} {j : BitVec 8}

/-- A word whose class, role and registers fit passes the checks of R49. -/
theorem fits_check {a : Allows} (h : s.fits cls role (reads ++ writes) = true) (p : prefixOk a s.pfx = true) :
    s.checkWord { cls := cls, allows := a, role := role, reads := reads, writes := writes } = none := by
  simp only [State.fits, Bool.and_eq_true] at h
  obtain ⟨⟨hc, hr⟩, inside⟩ := h
  rw [checkWord_registers hc p, if_pos inside]
  rintro r rfl
  simpa using hr

theorem canRun_inside (h : s.canRun cls role reads writes = true) {r : Nat} (hr : r ∈ reads ++ writes) :
    r < s.th.window := by
  simp only [State.canRun, Bool.and_eq_true, List.all_eq_true, decide_eq_true_eq] at h
  obtain ⟨⟨-, inside⟩, -⟩ := h
  exact (inside r hr).1

theorem canRun_fits (h : s.canRun cls role reads writes = true) {regs : List Nat} (sub : regs ⊆ reads ++ writes) :
    s.fits cls role regs = true := by
  have inside : regs.all (fun r => decide (r < s.th.window)) = true :=
    List.all_eq_true.2 fun r hr => decide_eq_true (canRun_inside h (sub hr))
  simp only [State.canRun, Bool.and_eq_true] at h
  obtain ⟨⟨place, -⟩, -⟩ := h
  unfold State.fits
  rw [inside, Bool.and_true, Bool.and_eq_true]
  exact place

theorem indirect_inside {n : Int} (hn : s.th.indirect x j = n) (h : 0 ≤ n) (inside : n.toNat < s.th.window)
    (go : Nat → State → Out) : s.indirect x j go = go n.toNat s := by
  unfold State.indirect
  rw [hn]
  exact if_neg (by omega)

theorem indirect_outside {n : Int} (hn : s.th.indirect x j = n) (h : n < 0 ∨ (s.th.window : Int) ≤ n)
    (go : Nat → State → Out) : s.indirect x j go =
      .next (s.trap { s.here with cause := 0x08, detail := (BitVec.ofInt 32 n).setWidth 64 }) := by
  unfold State.indirect
  rw [hn]
  exact if_pos h

/-- `rdx` and `wrx` check their named register, then their index (R96). -/
theorem indirectWord_runs {go : Nat → State → Out} (h : s.fits 0 none (reads ++ writes) = true) (p : s.bare = true) :
    s.checked { cls := 0, reads := reads, writes := writes } (fun s => s.indirect x j go) = s.indirect x j go :=
  checked_runs _ (fits_check h (prefixOk_bare p))

end

/-- Settles O18: an indirect word checks its own register, then whether its index lies in the window. -/
theorem indexRegisters : Obligations.IndexRegisters := by
  unfold Obligations.IndexRegisters
  intro s x d i j bare n
  have index : s.th.indirect x j = n := rfl
  refine ⟨fun run => ⟨plain_runs _ run bare, plain_runs (fun t => t.setX x (t.x x + i)) run bare⟩, fun pos run => ?_,
    fun pos run => ?_, fun outside => ?_⟩
  · refine (indirectWord_runs (canRun_fits run (by simp)) bare).trans ?_
    rw [indirect_inside index pos (canRun_inside run (by simp)), canRun_regs run]
    rfl
  · refine (indirectWord_runs (canRun_fits run (by simp)) bare).trans ?_
    rw [indirect_inside index pos (canRun_inside run (by simp)), canRun_regs run]
    rfl
  · intro bound fits
    exact ⟨(indirectWord_runs fits bare).trans (indirect_outside index outside _),
      (indirectWord_runs fits bare).trans (indirect_outside index outside _)⟩

/-! ### Masked-off words (R45, R84) -/

/-- Settles O19: a word with a mask form is `maskable`, which reads nothing where the thread is masked off. -/
theorem maskedOff : Obligations.MaskedOff := by
  unfold Obligations.MaskedOff
  intro s i m form fits
  obtain ⟨body, hexec⟩ := exec_maskForm form
  rw [hexec]
  refine ⟨fun off => maskable_keeps body (fits_check fits (prefixOk_masked off)) off, fun off idle => ?_⟩
  refine maskable_zeroes body (fits_check fits (prefixOk_masked off)) off ?_
  exact List.find?_eq_none.2 fun r hr => by simp [idle r hr]

end Sys2Proof.Machine
end

section
/-! PROOF. Random numbers: Philox-4x32 with ten rounds (R109). -/

namespace Sys2Proof.Machine

/-- The four words of a generator's counter. -/
def Philox.counter (x : Philox) : Word × Word × Word × Word := (x.c0, x.c1, x.c2, x.c3)

/-- One round of the four words under a key raised `n` times (R109). -/
def philoxRound (k0 k1 : Word) (c : Word × Word × Word × Word) (n : Nat) : Word × Word × Word × Word :=
  let p : BitVec 64 := (0xD2511F53 : Word).setWidth 64 * c.1.setWidth 64
  let q : BitVec 64 := (0xCD9E8D57 : Word).setWidth 64 * c.2.2.1.setWidth 64
  (hi32 q ^^^ c.2.1 ^^^ (k0 + BitVec.ofNat 32 n * 0x9E3779B9), lo32 q,
    hi32 p ^^^ c.2.2.2 ^^^ (k1 + BitVec.ofNat 32 n * 0xBB67AE85), lo32 p)

/-- The generator's key is `k0`, `k1` raised `n` times. -/
def Philox.Keyed (x : Philox) (k0 k1 : Word) (n : Nat) : Prop :=
  x.k0 = k0 + BitVec.ofNat 32 n * 0x9E3779B9 ∧ x.k1 = k1 + BitVec.ofNat 32 n * 0xBB67AE85

theorem round_counter {x : Philox} {k0 k1 : Word} {n : Nat} (h : x.Keyed k0 k1 n) :
    x.round.counter = philoxRound k0 k1 x.counter n := by
  obtain ⟨h0, h1⟩ := h
  unfold philoxRound
  rw [← h0, ← h1]
  rfl

theorem round_keyed {x : Philox} {k0 k1 : Word} {n : Nat} (h : x.Keyed k0 k1 n) : x.round.Keyed k0 k1 n := h

/-- The generator with its key raised once. -/
def Philox.raise (x : Philox) : Philox := { x with k0 := x.k0 + 0x9E3779B9, k1 := x.k1 + 0xBB67AE85 }

theorem raise_counter (x : Philox) : x.raise.counter = x.counter := by
  unfold Philox.counter Philox.raise
  rfl

theorem rounds_succ (x : Philox) (n : Nat) : x.rounds (n + 1) = x.raise.round.rounds n := rfl

theorem raise_keyed {x : Philox} {k0 k1 : Word} {n : Nat} (h : x.Keyed k0 k1 n) : x.raise.Keyed k0 k1 (n + 1) := by
  obtain ⟨h0, h1⟩ := h
  have step (w : Word) : BitVec.ofNat 32 (n + 1) * w = BitVec.ofNat 32 n * w + w := by
    rw [BitVec.ofNat_add, BitVec.add_mul, BitVec.one_mul]
  unfold Philox.Keyed Philox.raise
  rw [h0, h1, step, step, BitVec.add_assoc, BitVec.add_assoc]
  exact ⟨rfl, rfl⟩

/-- `n` further rounds are the rounds of the keys that follow. -/
theorem rounds_counter {x : Philox} {k0 k1 : Word} {k : Nat} (h : x.Keyed k0 k1 k) (n : Nat) :
    (x.rounds n).counter = (List.range' (k + 1) n).foldl (philoxRound k0 k1) x.counter := by
  induction n generalizing x k with
  | zero => rfl
  | succ n ih =>
    have raised := raise_keyed h
    rw [rounds_succ, ih (round_keyed raised), round_counter raised, raise_counter, List.range'_succ, List.foldl_cons]

/-- Ten rounds, the first under the key as given. -/
theorem tenRounds_counter (x : Philox) :
    (x.round.rounds 9).counter = (List.range 10).foldl (philoxRound x.k0 x.k1) x.counter := by
  have own : x.Keyed x.k0 x.k1 0 := by simp [Philox.Keyed]
  rw [rounds_counter (round_keyed own), round_counter own]
  rfl

theorem blockRegs_six (a : Nat) : blockRegs a 6 = [a, a + 1, a + 2, a + 3, a + 4, a + 5] := by
  simp [blockRegs, List.range_succ, Nat.add_comm]

/-- Settles O31: the model's rounds are the rule's, by induction; the worked block is evaluated. -/
theorem randomNumbers : Obligations.RandomNumbers := by
  unfold Obligations.RandomNumbers
  refine ⟨?_, by decide +kernel⟩
  intro s d a i run bare r mul round out
  rw [← blockRegs_six] at run
  have counter : ((philoxOf s.th a).round.rounds 9).counter = out := tenRounds_counter (philoxOf s.th a)
  have runs : exec (.prng d a i) s =
      .next (s.after (fun t => t.setReg d (((philoxOf s.th a).round.rounds 9).word i))) :=
    (plain_runs (fun t => t.setReg d (((philoxOf t a).round.rounds 9).word i)) run bare).trans
      (congrArg Host.Outcome.next (after_setReg s d fun t => ((philoxOf t a).round.rounds 9).word i))
  rw [runs, ← counter]
  rcases i with _ | _ | _ | _ <;> rfl

end Sys2Proof.Machine
end

section
/-! PROOF. What releases, deadlocks and traps of a team leave of the acting thread, where it is not of that team (R19, R20,
R28, R34); then the words that move on, leave or trap (R34, R102 to R105, R387). -/

namespace Sys2Proof.Machine

/-! ### The trap of another thread -/

section
variable {s : State} {t : Thread}

theorem setThread_other (h : s.th.key ≠ t.key) : (s.setThread t).th = s.th := by
  unfold State.setThread
  rw [if_neg h]

theorem pushEntry_th (s : State) (n : Nat) (e : FqEntry) : (s.pushEntry n e).th = s.th := by
  rw [pushEntry_tenants]

theorem snapOnCause_th (s : State) (c : Nat) : (s.snapOnCause c).th = s.th := by
  rw [snapOnCause_sup]

theorem recPlace_th (s : State) (m : Team) (k : ThreadKey) : (s.recPlace m k).2.th = s.th :=
  th_of_outer (translate_outer _ _ _ _ _)

theorem stopThread_other (h : s.th.key ≠ t.key) (r : FaultRec) : (s.stopThread t r).th = s.th := by
  have stopped (e : FqEntry) : ((s.setThread { t with status := .stopped }).pushEntry r.tenant e).th = s.th :=
    (pushEntry_th _ _ _).trans (setThread_other h)
  unfold State.stopThread
  dsimp only
  split
  · exact (markLane_kept _ _ _).1.trans (stopped _)
  · exact stopped _

theorem trapThread_other (h : s.th.key ≠ t.key) (m : Team) (r : FaultRec) (fpc : Addr) (resume : Addr × Nat) (count : Nat)
    (replay : Option Nat) : (s.trapThread t m r fpc resume count replay).th = s.th := by
  have snap := snapOnCause_th s r.cause
  have place := (recPlace_th (s.snapOnCause r.cause) m t.key).trans snap
  unfold State.trapThread
  dsimp only
  split
  · exact (stopThread_other (by rwa [snap]) r).trans snap
  · split
    · next e =>
      rw [e] at place
      exact (stopThread_other (by rwa [place]) r).trans place
    · next pa s' e =>
      rw [e] at place
      have recorded := (recorded_kept s' m t.key r pa).1.trans place
      exact (setThread_other (s := s'.recorded m t.key r pa) (by rwa [recorded])).trans recorded

theorem trapAtWord_other (h : s.th.key ≠ t.key) (m : Team) (f : FaultRec → FaultRec) : (s.trapAtWord t m f).th = s.th :=
  trapThread_other h m _ _ _ _ _

end

/-! ### Releases of a team -/

theorem advance_key (t : Thread) : t.advance.key = t.key := by
  unfold Thread.advance
  split
  · rfl
  · split <;> rfl

theorem makeDue_th (s : State) (u i : Nat) : (s.makeDue u i).th = s.th := by
  unfold State.makeDue
  split
  · rfl
  · split
    · rfl
    · split
      · rfl
      · exact State.setTeam_th _ _

theorem placeSpawn_th {s v : State} {u : Nat} {entry : Addr} {r : Role} {arg : Word} {flush : Bool}
    (hv : s.placeSpawn u entry r arg flush = some v) : v.th = s.th := by
  have put (m : Team) (i : Nat) (c : Prop) [Decidable c] :
      (if c then (s.setTeam m).makeDue u i else s.setTeam m).th = s.th := by
    split
    · exact (makeDue_th _ _ _).trans (State.setTeam_th _ _)
    · exact State.setTeam_th _ _
  unfold State.placeSpawn at hv
  split at hv
  · cases hv
  · dsimp only at hv
    split at hv
    · split at hv
      · split at hv
        · cases hv
        · cases hv
          exact put _ _ _
      · cases hv
    · split at hv
      · cases hv
        exact put _ _ _
      · cases hv

section
variable {s : State} {u : Nat} (h : s.th.key.team ≠ u)
include h

theorem threadsOf_other {t : Thread} (ht : t ∈ s.threadsOf u) : s.th.key ≠ t.key := fun e => by
  have team : t.key.team = u := by simpa using (List.mem_filter.1 ht).2
  exact h (e ▸ team)

/-- What goes through the threads of a team, one after another, keeps the acting thread where each turn does. -/
theorem foldl_threadsOf_th {f : State → Thread → State}
    (hf : ∀ (v : State) (t : Thread), v.th.key ≠ t.key → (f v t).th = v.th) : ((s.threadsOf u).foldl f s).th = s.th :=
  List.foldlRecOn (s.threadsOf u) f (motive := fun v => v.th = s.th) rfl fun v hv t ht =>
    (hf v t (by rw [hv]; exact threadsOf_other h ht)).trans hv

theorem spawnDeadlock_th : (s.spawnDeadlock u).th = s.th := by
  unfold State.spawnDeadlock
  split
  · rfl
  · split
    · rfl
    · refine foldl_threadsOf_th h fun v t ht => ?_
      split
      · exact trapAtWord_other ht _ _
      · rfl

theorem wakeSpawners_th : (s.wakeSpawners u).th = s.th := by
  refine foldl_threadsOf_th h fun v t ht => ?_
  dsimp only
  split
  · split
    · next e =>
      have placed := placeSpawn_th e
      refine (setThread_other ?_).trans placed
      rwa [placed, advance_key]
    · rfl
  · rfl

theorem releaseNext_th {v : State} (hv : s.releaseNext u = some v) : v.th = s.th := by
  unfold State.releaseNext at hv
  simp only [Option.bind_eq_some_iff, Option.map_eq_some_iff] at hv
  obtain ⟨m, -, x, -, rfl⟩ := hv
  have formed (num run : Nat) (entry : Addr) (r : Role) (window : Nat) (args : List Word) (m : Team) :
      (s.formGroup m num run entry r window args).th = s.th := State.setTeam_th _ _
  exact (wakeSpawners_th (by rwa [formed])).trans (formed ..)

theorem releaseUpTo_th (n : Nat) : (s.releaseUpTo u n).th = s.th := by
  induction n generalizing s with
  | zero => rfl
  | succ n ih =>
    unfold State.releaseUpTo
    split
    · rfl
    · next v e =>
      have next := releaseNext_th h e
      exact (ih (by rwa [next])).trans next

theorem releaseTills_th : (s.releaseTills u).th = s.th := by
  have released := releaseUpTo_th h 32
  exact (spawnDeadlock_th (by rwa [released])).trans released

end

theorem freeSlot_th (s : State) (u : Nat) : (s.freeSlot u).th = s.th := by
  unfold State.freeSlot
  split
  · rfl
  · split
    · rfl
    · exact State.setTeam_th _ _

/-- R34: after a live thread has left, none acts. -/
theorem leave_th {s : State} (h : s.th.live = true) : s.leave.th = Thread.inert := by
  have team : Thread.inert.key.team ≠ s.th.key.team := (bne_iff_ne.1 h).symm
  have asleep (u g : Nat) : wakeLanes u g Thread.inert = Thread.inert := by
    unfold wakeLanes
    split <;> rfl
  refine (freeSlot_th _ _).trans ((releaseTills_th ?_).trans (asleep _ _))
  rwa [State.mapThreads_th, asleep]

/-! ### Words that move on, leave or trap -/

theorem yielded_advance (t : Thread) (x : Status) :
    { t.progress.advance with status := x } = ({ t with watchdog := 0, status := x } : Thread).advance := by
  unfold Thread.advance Thread.progress
  cases t.clause with
  | none => rfl
  | some c =>
    dsimp only
    split <;> rfl

theorem stall_bare {s : State} (h : s.bare = true) : s.stall = s := by
  unfold State.stall
  rw [if_neg]
  simpa [State.bare] using h

/-- The state from which `exit` leaves: the load that a handler serves is dropped (R30). -/
def State.exitFrom (s : State) : State := if s.th.trapActive then s.dropReplay else s

theorem exitFrom_bare {s : State} (h : s.bare = true) : s.exitFrom.bare = true := by
  unfold State.exitFrom State.dropReplay
  split
  · split <;> exact h
  · exact h

section
variable {s : State} (run : s.canRun 0 none [] [] = true) (bare : s.bare = true)
include run bare

/-- `exit` waits for what is outstanding (R34). -/
theorem exit_waits
    (busy : (s.exitFrom.flagsBusy s.exitFrom.th 0xFFF || (s.exitFrom.unflagged s.exitFrom.th).isSome) = true) :
    exec .exit s = .next s.exitFrom := by
  refine (word_runs _ run (prefixOk_bare bare)).trans ?_
  rw [← State.exitFrom]
  dsimp only
  rw [if_pos busy, stall_bare (exitFrom_bare bare)]

theorem exit_leaves (idle : s.exitFrom.flagsBusy s.exitFrom.th 0xFFF = false)
    (all : s.exitFrom.unflagged s.exitFrom.th = none) (clean : s.exitFrom.firstFault s.exitFrom.th 0xFFF 0xFFF = none) :
    exec .exit s = .next s.exitFrom.leave := by
  refine (word_runs _ run (prefixOk_bare bare)).trans ?_
  rw [← State.exitFrom]
  dsimp only
  rw [idle, all, clean]
  rfl

end

/-- A snapshot changes what management sees alone. -/
theorem snapshot_here (s : State) (bit : Nat) : (s.snapshot bit).here = s.here := by
  unfold State.snapshot
  split <;> rfl

/-- Settles O25: each word is its body, and `exit` leaves or waits by what is outstanding. -/
theorem simpleControl : Obligations.SimpleControl := by
  unfold Obligations.SimpleControl
  intro s run bare
  have words (body : State → Out) : s.word { cls := 0, reads := [], writes := [] } body = body s :=
    word_runs body run (prefixOk_bare bare)
  refine ⟨plain_runs (fun t => t) run bare, fun quiet => ?_, fun pre => ?_, ⟨fun busy => ?_, fun o held => ?_,
    fun idle all clean live => ⟨?_, leave_th live⟩⟩, fun n => ⟨words _, ?_⟩⟩
  · refine (words _).trans ?_
    rw [quiet, yielded_advance]
    rfl
  · refine (words _).trans ?_
    rw [if_pos pre]
    rfl
  · exact exit_waits run bare (Bool.or_eq_true_iff.2 (.inl busy))
  · exact exit_waits run bare (Bool.or_eq_true_iff.2 (.inr (Option.isSome_iff_exists.2 ⟨o, held⟩)))
  · exact exit_leaves run bare idle all clean
  · refine (words _).trans ?_
    rw [State.faultDetail, snapshot_here]

end Sys2Proof.Machine
end

section
/-! PROOF. Floating-point words: arithmetic, compares and classes (R113, R115 to R117), minimum and maximum (R114,
R115). -/

namespace Sys2Proof.Machine

/-! ### Compares (R116) -/

theorem getD_false_eq_decide (o : Option Bool) : o.getD false = decide (o = some true) := by
  rcases o with _ | _ | _ <;> rfl

theorem feq_eq (x y : Word) : feq x y = decide ((f32 x).eq? (f32 y) = some true) := getD_false_eq_decide _

theorem flt_eq (x y : Word) : flt x y = decide ((f32 x).lt? (f32 y) = some true) := getD_false_eq_decide _

/-! ### Classes (R117) -/

/-- The sign, exponent and fraction of an FP32 encoding. -/
theorem word_eq_iff_fields (x : Word) (s e m : Nat) (hs : s < 2 := by decide) (he : e < 256 := by decide)
    (hm : m < 2 ^ 23 := by decide) :
    x = BitVec.ofNat 32 (s * 2 ^ 31 + e * 2 ^ 23 + m) ↔
      x.msb = decide (s = 1) ∧ x.toNat / 2 ^ 23 % 256 = e ∧ x.toNat % 2 ^ 23 = m := by
  have lt := x.isLt
  rw [← BitVec.toNat_inj, BitVec.toNat_ofNat, Nat.mod_eq_of_lt (by omega), BitVec.msb_eq_decide, decide_eq_decide]
  omega

/-- The number of the class bit of an FP32 encoding. -/
def classBit (w : Word) : Nat :=
  let e := w.toNat / 2 ^ 23 % 256
  let m := w.toNat % 2 ^ 23
  if e = 255 then
    if m = 0 then (if w.msb then 0 else 7) else if w.getLsbD 22 then 8 else 9
  else if e = 0 then
    if m = 0 then (if w.msb then 3 else 4) else if w.msb then 2 else 5
  else if w.msb then 1 else 6

theorem getLsbD_quiet (w : Word) : w.getLsbD 22 = decide (w.toNat % 2 ^ 23 / 2 ^ 22 = 1) := by
  rw [BitVec.getLsbD, Nat.testBit_eq_decide_div_mod_eq, decide_eq_decide]
  omega

theorem fclassOf_eq (w : Word) : fclassOf w = BitVec.ofNat 32 (2 ^ classBit w) := by
  unfold fclassOf classBit
  rw [← BitVec.msb_eq_getLsbD_last w, getLsbD_quiet]
  simp only [decide_eq_true_eq]

theorem fraction_ne_zero_of_quiet {w : Word} (h : w.getLsbD 22 = true) : w.toNat % 2 ^ 23 ≠ 0 := fun m => by
  rw [getLsbD_quiet, m] at h
  cases h

/-- Each class holds the encodings of one sign, exponent and fraction. -/
theorem classBit_spec (x : Word) :
    let e := x.toNat / 2 ^ 23 % 256
    let m := x.toNat % 2 ^ 23
    let k := classBit x
    k ≤ 9 ∧
      (k = 0 ↔ x = 0xFF800000) ∧ (k = 1 ↔ x.msb = true ∧ e ≠ 0 ∧ e ≠ 255) ∧ (k = 2 ↔ x.msb = true ∧ e = 0 ∧ m ≠ 0) ∧
      (k = 3 ↔ x = 0x80000000) ∧ (k = 4 ↔ x = 0) ∧ (k = 5 ↔ x.msb = false ∧ e = 0 ∧ m ≠ 0) ∧
      (k = 6 ↔ x.msb = false ∧ e ≠ 0 ∧ e ≠ 255) ∧ (k = 7 ↔ x = 0x7F800000) ∧
      (k = 8 ↔ e = 255 ∧ x.getLsbD 22 = true) ∧ (k = 9 ↔ e = 255 ∧ x.getLsbD 22 = false ∧ m ≠ 0) := by
  intro e m k
  have negInf : x = 0xFF800000 ↔ x.msb = true ∧ e = 255 ∧ m = 0 :=
    word_eq_iff_fields x 1 255 0
  have posInf : x = 0x7F800000 ↔ x.msb = false ∧ e = 255 ∧ m = 0 :=
    word_eq_iff_fields x 0 255 0
  have negZero : x = 0x80000000 ↔ x.msb = true ∧ e = 0 ∧ m = 0 :=
    word_eq_iff_fields x 1 0 0
  have posZero : x = 0 ↔ x.msb = false ∧ e = 0 ∧ m = 0 :=
    word_eq_iff_fields x 0 0 0
  have quiet : x.getLsbD 22 = true → m ≠ 0 := fraction_ne_zero_of_quiet
  have bit : k = if e = 255 then if m = 0 then (if x.msb then 0 else 7) else if x.getLsbD 22 then 8 else 9
      else if e = 0 then if m = 0 then (if x.msb then 3 else 4) else if x.msb then 2 else 5
      else if x.msb then 1 else 6 := rfl
  rw [negInf, posInf, negZero, posZero, bit]
  clear_value e m k
  clear bit negInf posInf negZero posZero
  by_cases top : e = 255
  · subst top
    by_cases whole : m = 0
    · cases x.msb <;> simp [whole] at quiet ⊢ <;> simp [quiet]
    · cases x.getLsbD 22 <;> simp [whole]
  · by_cases low : e = 0
    · subst low
      by_cases zero : m = 0 <;> cases x.msb <;> simp [zero]
    · cases x.msb <;> simp [top, low]

/-! ### The statement of arithmetic -/

/-- Settles O20: each word is an `alu3`, a compare or an `alu2` of class 1, whose function is the rule's value. -/
theorem floatArithmetic : Obligations.FloatArithmetic := by
  unfold Obligations.FloatArithmetic
  intro s d a b x y wrote tested halves
  refine ⟨fun run unmasked => ?_, fun run bare => ?_, fun run unmasked => ?_⟩
  · have runs (f : Word → Word → Word) : s.alu3 1 (some .vector) d a b f = wrote (f x y) := alu3_runs f run unmasked
    exact ⟨runs (faddOf .rne), runs (faddOf .rz), runs (fsubOf .rne), runs (fsubOf .rz), runs (fmulOf .rne),
      runs (fmulOf .rz), runs hadd2Of, runs (halves2 fun a b => toB16 ((b16 a).mul (b16 b)))⟩
  · have runs (f : Word → Word → Bool) : s.compare 1 (some .vector) d a b f = tested (f x y) := compare_runs f run bare
    rw [← feq_eq, ← flt_eq]
    exact ⟨runs feq, runs flt, runs fle, runs fun_⟩
  · have runs (f : Word → Word) : s.alu2 1 (some .vector) d a f = wrote (f x) := alu2_runs f run unmasked
    refine ⟨runs fun x => if (f32 x).isNan then nan32 else x &&& 0x7FFFFFFF,
      runs fun x => if (f32 x).isNan then nan32 else x ^^^ 0x80000000, classBit x, ?_, classBit_spec x⟩
    rw [← fclassOf_eq]
    exact runs fclassOf

/-! ### The order of minimum and maximum (R114) -/

theorem val_fin_sign {f : Fmt} {n : Nat} {neg : Bool} {m : Rat} (h : f.val n = .fin neg m) :
    neg = (n / f.signBit % 2 == 1) := by
  unfold Fmt.val at h
  dsimp only at h
  split at h
  · cases h
    rfl
  · split at h <;> cases h

theorem f32_fin_sign {x : Word} {neg : Bool} {m : Rat} (h : f32 x = .fin neg m) : x.msb = neg := by
  have lt := x.isLt
  rw [val_fin_sign h, show fp32.signBit = 2 ^ 31 from rfl, BitVec.msb_eq_decide, Bool.eq_iff_iff, beq_iff_eq,
    decide_eq_true_iff]
  omega

/-- The order lies below that of the values only where it tells −0 from +0. -/
theorem below_iff (x y : Word) : (f32 x).below (f32 y) = true ↔ (f32 x).lt? (f32 y) = some true ∨
    ((f32 x).isZero = true ∧ (f32 y).isZero = true ∧ x.msb = true ∧ y.msb = false) := by
  have order (o : Option Bool) : o.getD false = true ↔ o = some true := by rw [getD_false_eq_decide, decide_eq_true_iff]
  cases hx : f32 x with
  | nan => simp [Val.below, Val.lt?, Val.isZero]
  | inf a => simp [Val.below, Val.isZero, order]
  | fin a m =>
    cases hy : f32 y with
    | nan => simp [Val.below, Val.lt?, Val.isZero]
    | inf b => simp [Val.below, Val.lt?, Val.isZero]
    | fin b n =>
      rw [f32_fin_sign hx, f32_fin_sign hy]
      by_cases zeros : m = 0 ∧ n = 0
      · obtain ⟨rfl, rfl⟩ := zeros
        simp [Val.below, Val.lt?, Val.isZero, signed_zero]
      · have notBoth : ¬ (m = 0 ∧ n = 0 ∧ a = true ∧ b = false) := fun h => zeros ⟨h.1, h.2.1⟩
        simp [Val.below, Val.lt?, Val.isZero, zeros, notBoth]

theorem below_irrefl (x : Val) : x.below x = false := by
  cases x with
  | nan => rfl
  | inf a => cases a <;> rfl
  | fin a m => cases a <;> simp [Val.below]

theorem below_asymm {x y : Val} (h : x.below y = true) : y.below x = false := by
  cases x with
  | nan => cases h
  | inf a =>
    cases y with
    | nan => rfl
    | inf b | fin b n => cases a <;> simp_all [Val.below, Val.lt?]
  | fin a m =>
    cases y with
    | nan => rfl
    | inf b => cases b <;> simp_all [Val.below, Val.lt?]
    | fin b n =>
      by_cases zeros : m = 0 ∧ n = 0
      · simp_all [Val.below]
      · have zeros' : ¬ (n = 0 ∧ m = 0) := fun h => zeros ⟨h.2, h.1⟩
        simp only [Val.below, zeros, zeros', if_false, decide_eq_true_eq, decide_eq_false_iff_not] at h ⊢
        exact h.not_gt

/-! ### Minimum and maximum (R114, R115) -/

section
variable {x y : Word} (greater nanWins : Bool)

theorem minMax_nans (hx : (f32 x).isNan = true) (hy : (f32 y).isNan = true) : minMax greater nanWins x y = nan32 := by
  simp [minMax, hx, hy]

/-- One NaN gives the other operand, or the canonical NaN where NaNs win. -/
theorem minMax_oneNan (h : xor (f32 x).isNan (f32 y).isNan = true) :
    minMax greater nanWins x y = if nanWins then nan32 else if (f32 x).isNan then y else x := by
  cases hx : (f32 x).isNan <;> cases hy : (f32 y).isNan <;> simp [hx, hy] at h <;> simp [minMax, hx, hy]

variable (hx : (f32 x).isNan = false) (hy : (f32 y).isNan = false)
include hx hy

/-- Of two numbers the minimum is one that neither lies below. -/
theorem minMax_least : (minMax false nanWins x y = x ∨ minMax false nanWins x y = y) ∧
    (f32 x).below (f32 (minMax false nanWins x y)) = false ∧
    (f32 y).below (f32 (minMax false nanWins x y)) = false := by
  have chosen : minMax false nanWins x y = if (f32 y).below (f32 x) then y else x := by simp [minMax, hx, hy]
  rw [chosen]
  split
  · next less => exact ⟨.inr rfl, below_asymm less, below_irrefl _⟩
  · next notLess => exact ⟨.inl rfl, below_irrefl _, Bool.eq_false_iff.2 notLess⟩

/-- Of two numbers the maximum is one that lies below neither. -/
theorem minMax_greatest : (minMax true nanWins x y = x ∨ minMax true nanWins x y = y) ∧
    (f32 (minMax true nanWins x y)).below (f32 x) = false ∧
    (f32 (minMax true nanWins x y)).below (f32 y) = false := by
  have chosen : minMax true nanWins x y = if (f32 x).below (f32 y) then y else x := by simp [minMax, hx, hy]
  rw [chosen]
  split
  · next less => exact ⟨.inr rfl, below_asymm less, below_irrefl _⟩
  · next notLess => exact ⟨.inl rfl, below_irrefl _, Bool.eq_false_iff.2 notLess⟩

end

/-- Settles O21: each word is an `alu3` of `minMax`, whose order is `beyond`. -/
theorem minimumMaximum : Obligations.MinimumMaximum := by
  unfold Obligations.MinimumMaximum
  intro s d a b run unmasked x y wrote oneNan number beyond rule
  have runs (f : Word → Word → Word) : s.alu3 1 (some .vector) d a b f = wrote (f x y) := alu3_runs f run unmasked
  have notBeyond {u v : Word} (h : (f32 u).below (f32 v) = false) : ¬ beyond u v := fun b => by
    rw [(below_iff u v).2 b] at h
    cases h
  have least (nanWins : Bool) : rule (minMax false nanWins x y) (if nanWins then nan32 else number) beyond := by
    refine ⟨minMax_nans _ _, minMax_oneNan _ _, fun hx hy => ?_⟩
    obtain ⟨one, notX, notY⟩ := minMax_least nanWins hx hy
    exact ⟨one, notBeyond notX, notBeyond notY⟩
  have greatest (nanWins : Bool) :
      rule (minMax true nanWins x y) (if nanWins then nan32 else number) fun p q => beyond q p := by
    refine ⟨minMax_nans _ _, minMax_oneNan _ _, fun hx hy => ?_⟩
    obtain ⟨one, notX, notY⟩ := minMax_greatest nanWins hx hy
    exact ⟨one, notBeyond notX, notBeyond notY⟩
  exact ⟨⟨_, runs (minMax false false), least false⟩, ⟨_, runs (minMax true false), greatest false⟩,
    ⟨_, runs (minMax false true), least true⟩, ⟨_, runs (minMax true true), greatest true⟩, runs (halves2 maxB16)⟩

end Sys2Proof.Machine
end

section
/-! PROOF. Conversions between FP32, integers, BF16, FP8 and E2M1 (R74, R75, R118 to R122). -/

namespace Sys2Proof.Machine

/-! ### To integers, bytes and nibbles (R75, R120, R122) -/

/-- R75: bounded by `lo` and `hi`. -/
theorem toIntSat_eq (rm : Rm) {lo hi : Int} (h : lo ≤ hi) (w : Word) : toIntSat rm lo hi w =
    match f32 w with
    | .nan => 0
    | .inf n => BitVec.ofInt 32 (if n then lo else hi)
    | .fin n m => BitVec.ofInt 32 (max lo (min hi (if n then -(roundNat rm m : Int) else (roundNat rm m : Int)))) := by
  have bounded (v : Int) : (if v < lo then lo else if hi < v then hi else v) = max lo (min hi v) := by
    split_ifs <;> omega
  unfold toIntSat
  cases f32 w with
  | nan => rfl
  | inf n => rfl
  | fin n m => exact congrArg (BitVec.ofInt 32) (bounded _)

theorem leNat_four (a b c d : Byte) :
    leNat [a, b, c, d] = a.toNat + b.toNat * 2 ^ 8 + c.toNat * 2 ^ 16 + d.toNat * 2 ^ 24 := by
  simp only [leNat]
  omega

theorem narrow4_eq (f : Fmt) (ov : Ovf) (a : Nat) (t : Thread) : narrow4 f ov a t =
    let byte (k : Nat) : Nat := f.enc .rne ov (f32 (t.reg (a + k))) % 256
    BitVec.ofNat 32 (byte 0 + byte 1 * 2 ^ 8 + byte 2 * 2 ^ 16 + byte 3 * 2 ^ 24) := by
  unfold narrow4 leWord
  exact congrArg (BitVec.ofNat 32) (leNat_four _ _ _ _)

theorem enc_sat_le (f : Fmt) (rm : Rm) (neg : Bool) (q : Rat) : f.enc rm .sat (.fin neg q) ≤ f.signBit + f.maxCode := by
  unfold Fmt.enc
  dsimp only
  have sign : (if neg then f.signBit else 0) ≤ f.signBit := by split <;> omega
  split_ifs <;> omega

theorem e2m1Of_lt (sc : Nat) (x : Word) : e2m1Of sc x < 16 := by
  unfold e2m1Of
  split
  · decide
  cases f32 x with
  | nan => exact Nat.succ_pos 15
  | inf neg => cases neg <;> exact Nat.lt_of_sub_eq_succ rfl
  | fin neg m => exact Nat.lt_succ_of_le (enc_sat_le e2m1 .rne neg _)

/-- Digits below 16 stand in their places. -/
theorem digit_of_foldl {g : Nat → Nat} (hg : ∀ i, g i < 16) (n : Nat) :
    (List.range n).foldl (fun m i => m + g i * 16 ^ i) 0 < 16 ^ n ∧
      ∀ k, k < n → (List.range n).foldl (fun m i => m + g i * 16 ^ i) 0 / 16 ^ k % 16 = g k := by
  induction n with
  | zero => simp
  | succ n ih =>
    obtain ⟨lt, digits⟩ := ih
    rw [List.range_succ, List.foldl_append, List.foldl_cons, List.foldl_nil]
    generalize (List.range n).foldl (fun m i => m + g i * 16 ^ i) 0 = m at *
    have top := hg n
    refine ⟨?_, fun k hk => ?_⟩
    · rw [pow_succ]
      nlinarith [Nat.mul_le_mul_right (16 ^ n) (Nat.le_of_lt_succ top)]
    · rcases Nat.lt_succ_iff_lt_or_eq.1 hk with hk | rfl
      · rw [← digits k hk]
        obtain ⟨j, rfl⟩ := Nat.exists_eq_add_of_lt hk
        rw [show g (k + j + 1) * 16 ^ (k + j + 1) = 16 ^ k * (16 * (g (k + j + 1) * 16 ^ j)) by ring,
          Nat.add_mul_div_left _ _ (by positivity), Nat.add_mul_mod_self_left]
      · rw [Nat.add_mul_div_right _ _ (by positivity), Nat.div_eq_of_lt lt, Nat.zero_add, Nat.mod_eq_of_lt top]

/-! ### The statement -/

theorem blockRegs_two (a : Nat) : blockRegs a 2 ++ [] = [a, a + 1] := by
  simp [blockRegs, List.range_succ, Nat.add_comm]

theorem blockRegs_four (a : Nat) : blockRegs a 4 ++ [] = [a, a + 1, a + 2, a + 3] := by
  simp [blockRegs, List.range_succ, Nat.add_comm]

theorem blockRegs_eight (a b : Nat) :
    blockRegs a 8 ++ [b] = [a, a + 1, a + 2, a + 3, a + 4, a + 5, a + 6, a + 7, b] := by
  simp [blockRegs, List.range_succ, Nat.add_comm]

/-- Settles O22: each word is an `alu2` or an `aluBlock` of class 1, whose function is the rule's value. -/
theorem conversions : Obligations.Conversions := by
  unfold Obligations.Conversions
  intro s d a b i unmasked x at_ wrote clamp widened bytes
  have blocks {n : Nat} {more : List Nat} (run : s.canRun 1 (some .vector) (blockRegs a n ++ more) [d] = true)
      (f : Thread → Word) : s.aluBlock d a n more f = wrote (f s.th) := aluBlock_runs f run unmasked
  refine ⟨fun run => ?_, fun run => ?_, fun run => ?_, fun run => ?_⟩
  · have runs (f : Word → Word) : s.alu2 1 (some .vector) d a f = wrote (f x) := alu2_runs f run unmasked
    have saturates (rm : Rm) {lo hi : Int} (h : lo ≤ hi) :
        s.alu2 1 (some .vector) d a (toIntSat rm lo hi) = wrote (clamp rm lo hi) :=
      (runs _).trans (congrArg wrote (toIntSat_eq rm h x))
    exact ⟨runs fun x => toF32 .rne (Val.ofRat x.toInt), runs fun x => toF32 .rne (.fin false x.toNat),
      saturates .rz (by decide), saturates .rne (by decide), saturates .rz (by decide),
      runs fun x => widen16 (loHalf x), runs fun x => widen16 (hiHalf x), runs (widenElem e4m3 8 i),
      runs (widenElem e5m2 8 i), runs (widenElem e2m1 4 i)⟩
  · rw [← blockRegs_two] at run
    exact blocks run fun t => packHalves (toB16 (f32 (t.reg a))) (toB16 (f32 (t.reg (a + 1))))
  · rw [← blockRegs_four] at run
    have narrows (f : Fmt) (ov : Ovf) : s.aluBlock d a 4 [] (narrow4 f ov a) = wrote (bytes f ov) := by
      rw [blocks run, narrow4_eq]
    exact ⟨narrows e4m3 .sat, narrows e4m3 .nan, narrows e5m2 .sat, narrows e5m2 .inf⟩
  · rw [← blockRegs_eight] at run
    obtain ⟨lt, digits⟩ := digit_of_foldl (fun k => e2m1Of_lt ((s.th.reg b).toNat % 256) (s.th.reg (a + k))) 8
    refine ⟨_, blocks run _, fun k hk => ?_⟩
    rw [BitVec.toNat_ofNat, show 2 ^ 32 = 16 ^ 8 by norm_num, Nat.mod_eq_of_lt lt, pow_mul]
    exact digits k hk

end Sys2Proof.Machine
end

section
/-! PROOF. An atomic of no team: what the statement about returns (R174, R222, R271) does not shut out. Its premise that
no stash window is valid speaks of the teams of the machine, which the team held while no thread acts is not one of; an
atomic that names that team finds its window, whose dirty byte R174 has written back over the word just written. -/

namespace Sys2Proof.Machine

/-- A window at 0 whose line, of memory at 0, has a dirty byte. -/
def coveringWindow : Stash := { dirtyWindow with pas := [0] }

/-- A reduction that adds 1 to the word at 0, of no team. -/
def teamlessAtomic : Op := { teamlessStore with kind := .atom .addB32 .device 0 1 0 none }

/-- No team acts, and the one held has the window, whose dirty byte is 7. -/
def teamlessAdd : State :=
  { State.reset with tm := { Team.inert with stash := [coveringWindow], scratch := [(0, 7)] }, ops := [teamlessAtomic] }

theorem teamlessAdd_ready : teamlessAdd.opReady 0 teamlessAtomic = true ∧
    (teamlessAdd.atomLanes teamlessAtomic).all (fun p => teamlessAdd.atomReady p 0 4) = true ∧
    teamlessAdd.registrations = [] ∧ teamlessAdd.allTeams = [] := by
  decide +kernel

/-- The word was 0: the one lane's sum is 1, and it is written. -/
theorem teamlessAdd_sum :
    (atomFold (leAddr ((teamlessAdd.beforeHome 0 0 4).performBytes 0 4)) (teamlessAdd.atomLanes teamlessAtomic)).2 =
      (1, true) := by
  decide +kernel

/-- Once the atomic is performed the word holds the window's byte, not the sum. -/
theorem teamlessAdd_performed :
    ((teamlessAdd.beforeHome 0 0 4).atomPerform teamlessAtomic .device 0 0 4
      (teamlessAdd.atomLanes teamlessAtomic)).2.performBytes 0 4 = [7, 0, 0, 0] := by
  decide +kernel

/-- Refutes O54: what an atomic of no team writes is overwritten by a line of the team held, whose windows the premises do
not speak of. -/
theorem not_returnEvents : ¬ Obligations.ReturnEvents := by
  unfold Obligations.ReturnEvents
  rintro ⟨-, -, -, returns, -⟩
  obtain ⟨ready, lanes, quiet, teams⟩ := teamlessAdd_ready
  obtain ⟨-, -, -, atomics, -⟩ := returns teamlessAdd 0 teamlessAtomic ready
  obtain ⟨-, -, bytes⟩ := atomics .addB32 .device 0 1 0 none 0 rfl rfl lanes
  have sum := bytes (congrArg Prod.snd teamlessAdd_sum) rfl (by simp [quiet]) (by simp [teams])
  have clash : [7, 0, 0, 0] = leBytes 4 (1 : BitVec 64).toNat := teamlessAdd_performed.symm.trans
    (sum.trans (congrArg (fun v : BitVec 64 × Bool => leBytes 4 v.1.toNat) teamlessAdd_sum))
  exact absurd clash (by decide)

end Sys2Proof.Machine
end

section
/-! PROOF. Scratchpad loads and stores and the presence test (R136, R164 to R167, R235). -/

namespace Sys2Proof.Machine

/-! ### Bounds, then alignment (R136) -/

section
variable {m : Team} {o : Int} {n align : Nat}

theorem scratchCheck_outside (h : o < 0 ∨ 4096 * (m.sgran : Int) < o + n) : m.scratchCheck o n align = some 0x14 :=
  if_pos (by simpa using h)

theorem scratchCheck_misaligned (inside : ¬ (o < 0 ∨ 4096 * (m.sgran : Int) < o + n)) (h : o.toNat % align ≠ 0) :
    m.scratchCheck o n align = some 0x15 :=
  (if_neg (by simpa using inside)).trans (if_pos h)

/-- A single byte has no alignment to miss. -/
theorem scratchCheck_byte (inside : ¬ (o < 0 ∨ 4096 * (m.sgran : Int) < o + n)) : m.scratchCheck o n 1 = none :=
  (if_neg (by simpa using inside)).trans (if_neg (by simp [Nat.mod_one]))

end

section
variable {s : State} {o : Int} {n : Nat} {store : Bool} {body : State → Nat → Out}

theorem scratchAccess_refused {c : Nat} (h : s.tm.scratchCheck o n n = some c) :
    s.scratchAccess o n store body = .next (s.trap { s.here with cause := c, vaddr := BitVec.ofInt 64 o }) := by
  unfold State.scratchAccess
  rw [h]
  rfl

/-- R137: outside every window and on a line that is present the access is performed. -/
theorem scratchAccess_performed (h : s.scratchFree o n = true) : s.scratchAccess o n store body = body s o.toNat := by
  simp only [State.scratchFree, Bool.and_eq_true, Option.isNone_iff_eq_none, Bool.not_eq_true'] at h
  obtain ⟨⟨sound, window⟩, present⟩ := h
  simp [State.scratchAccess, sound, window, present]

end

/-! ### Registers and bytes of an access (R165) -/

theorem dataRegs_one (d : Nat) {size : Nat} (h : size ≤ 4) : dataRegs d size = [d] := by simp [dataRegs, blockRegs, h]

theorem dataRegs_pair (d : Nat) : dataRegs d 8 = [d, d + 1] := (List.append_nil _).symm.trans (blockRegs_two d)

theorem dataRegs_block (d : Nat) : dataRegs d 16 = [d, d + 1, d + 2, d + 3] :=
  (List.append_nil _).symm.trans (blockRegs_four d)

theorem slice_scratchBytes (m : Team) {o n i k : Nat} (h : i + k ≤ n) :
    slice (m.scratchBytes o n) i k = m.scratchBytes (o + i) k := by
  unfold slice Team.scratchBytes
  refine List.map_congr_left fun j hj => ?_
  have inside : i + j < n := by have := List.mem_range.1 hj; omega
  simp [inside, Nat.add_assoc]

/-- The word of four bytes of the scratchpad, little-endian (R4). -/
def Team.scratchWord (m : Team) (o j : Nat) : Word :=
  m.scratchByte (o + (4 * j + 3)) ++ m.scratchByte (o + (4 * j + 2)) ++ m.scratchByte (o + (4 * j + 1)) ++
    m.scratchByte (o + 4 * j)

theorem leWord_slice_scratchBytes (m : Team) (o : Nat) {j n : Nat} (h : j < n) :
    leWord (slice (m.scratchBytes o (4 * n)) (4 * j) 4) = m.scratchWord o j := by
  rw [slice_scratchBytes m (by omega)]
  exact leWord_four _ _ _ _

theorem loadWords_whole (m : Team) (o : Nat) (signed : Bool) {n : Nat} (h : 0 < n) :
    loadWords (4 * n) signed (m.scratchBytes o (4 * n)) = (List.range n).map (m.scratchWord o) := by
  unfold loadWords
  rw [if_neg (by omega), Nat.mul_div_cancel_left n (by decide)]
  exact List.map_congr_left fun j hj => leWord_slice_scratchBytes m o (List.mem_range.1 hj)

theorem loadWords_byte (m : Team) (o : Nat) (signed : Bool) : loadWords 1 signed (m.scratchBytes o 1) =
    [if signed then (m.scratchByte o).signExtend 32 else (m.scratchByte o).setWidth 32] := by
  simp [loadWords, Team.scratchBytes, leNat]

theorem leNat_half (x y : Byte) : leNat [x, y] = (y ++ x : BitVec 16).toNat := by
  rw [BitVec.toNat_append, ← Nat.shiftLeft_add_eq_or_of_lt x.isLt, Nat.shiftLeft_eq]
  simp only [leNat]
  omega

theorem loadWords_half (m : Team) (o : Nat) (signed : Bool) :
    let half : BitVec 16 := m.scratchByte (o + 1) ++ m.scratchByte o
    loadWords 2 signed (m.scratchBytes o 2) = [if signed then half.signExtend 32 else half.setWidth 32] := by
  have two : m.scratchBytes o 2 = [m.scratchByte o, m.scratchByte (o + 1)] := rfl
  simp [loadWords, two, leNat_half]

theorem leBytes_byte (x : Word) : (leBytes 4 x.toNat).take 1 = [x.setWidth 8] := by
  simp [leBytes]

theorem leBytes_half (x : Word) : (leBytes 4 x.toNat).take 2 = [x.setWidth 8, (x >>> 8).setWidth 8] := by
  simp only [leBytes, List.take_succ_cons, List.take_zero, BitVec.ofNat_toNat, List.cons.injEq, true_and, and_true]
  exact BitVec.eq_of_toNat_eq (by simp [Nat.shiftRight_eq_div_pow])

/-- A store of less than a word takes the low bytes of its register. -/
theorem storeData_part (t : Thread) (d : Nat) {size : Nat} (h : size ≤ 4) :
    t.storeData d size = (leBytes 4 (t.reg d).toNat).take size := by
  simp [Thread.storeData, dataRegs_one d h]

/-- A store of whole words takes every byte of its registers. -/
theorem storeData_whole (t : Thread) {d size : Nat} {ds : List Nat} (regs : dataRegs d size = ds)
    (whole : size = 4 * ds.length) : t.storeData d size = ds.flatMap fun r => leBytes 4 (t.reg r).toNat := by
  unfold Thread.storeData
  rw [regs]
  exact List.take_of_length_le (by simp [List.length_flatMap, leBytes_length, whole, Nat.mul_comm])

/-! ### The words -/

section
variable {s : State} {size d b : Nat} {k : Int}

theorem lds_runs (signed : Bool) (hint : s.hinted = true) (acq : s.acqPending = false)
    (run : s.canRun 2 none [b] (dataRegs d size) = true) :
    s.lds size signed d b k = s.scratchAccess (s.th.scratchAddr b size k) size false
      (fun s off => s.scratchLoad off size signed d) :=
  memWord_runs _ run (prefixOk_hinted hint) acq

theorem sts_runs (hint : s.hinted = true) (acq : s.acqPending = false)
    (run : s.canRun 2 none (b :: dataRegs d size) [] = true) (read : s.awaited (fun o => o.kind.isRead) = []) :
    s.sts size d b k = s.scratchAccess (s.th.scratchAddr b size k) size true
      (fun s off => s.scratchStore off (s.th.storeData d size)) :=
  (memWord_runs _ run (prefixOk_hinted hint) acq).trans (waitFor_runs _ read)

theorem scratchLoad_sound {off : Nat} (signed : Bool) (sound : s.tm.badIn off size = false) :
    s.scratchLoad off size signed d =
      .next (s.after (fun t => t.setRegs d (loadWords size signed (s.tm.scratchBytes off size)))) :=
  if_neg (by simp [sound])

theorem prsTest_refused {p c : Nat} (hint : s.hinted = true) (acq : s.acqPending = false)
    (run : s.canRun 2 none [b] [] = true) (h : s.tm.scratchCheck (s.th.scratchAddr b 1 s.kFmg) 1 1 = some c) :
    exec (.prsTest p b) s =
      .next (s.trap { s.here with cause := c, vaddr := BitVec.ofInt 64 (s.th.scratchAddr b 1 s.kFmg) }) := by
  refine (memWord_runs _ run (prefixOk_hinted hint) acq).trans ?_
  dsimp only
  rw [h]
  rfl

theorem prsTest_sound {p : Nat} (hint : s.hinted = true) (acq : s.acqPending = false)
    (run : s.canRun 2 none [b] [] = true) (h : s.tm.scratchCheck (s.th.scratchAddr b 1 s.kFmg) 1 1 = none) :
    exec (.prsTest p b) s =
      .next (s.after (fun t => t.setPred p (!s.absent s.tm.uid ((s.th.scratchAddr b 1 s.kFmg).toNat / 256)))) := by
  refine (memWord_runs _ run (prefixOk_hinted hint) acq).trans ?_
  dsimp only
  rw [h]
  rfl

end

/-! ### The statement -/

/-- Settles O37: each load is an `lds` and each store an `sts` of its size, whose access the checks of R136 refuse or
perform; what is left for each is which registers it names and which bytes go between them and the scratchpad. -/
theorem scratchpadAccess : Obligations.ScratchpadAccess := by
  unfold Obligations.ScratchpadAccess
  intro s d b i hint acq at_ byte half word outside bad stops load store bytes
  have stops_of {ins : Instr} {o : Int} {n : Nat}
      (refused : ∀ c, s.tm.scratchCheck o n n = some c → exec ins s = bad c o) : stops ins o n :=
    ⟨fun out => refused _ (scratchCheck_outside out), fun inside off => refused _ (scratchCheck_misaligned inside off)⟩
  have loads {ins : Instr} {n : Nat} {k : Int} {ds : List Nat} {v : Int → List Word} (signed : Bool)
      (is : exec ins s = s.lds n signed d b k) (regs : dataRegs d n = ds)
      (value : ∀ o : Int, loadWords n signed (s.tm.scratchBytes o.toNat n) = v o) : load ins n k ds v := by
    intro run
    subst regs
    have access := is.trans (lds_runs signed hint acq run)
    refine ⟨stops_of fun c refused => access.trans (scratchAccess_refused refused), fun free sound => ?_⟩
    exact (access.trans (scratchAccess_performed free)).trans (value _ ▸ scratchLoad_sound signed sound)
  have stores {ins : Instr} {n : Nat} {k : Int} {ds : List Nat} {v : List Byte} (is : exec ins s = s.sts n d b k)
      (regs : dataRegs d n = ds) (value : s.th.storeData d n = v) : store ins n k ds v := by
    intro run read
    subst regs value
    have access := is.trans (sts_runs hint acq run read)
    exact ⟨stops_of fun c refused => access.trans (scratchAccess_refused refused),
      fun free => access.trans (scratchAccess_performed free)⟩
  have four := dataRegs_one d (size := 4) le_rfl
  have one := dataRegs_one d (size := 1) (by decide)
  have two := dataRegs_one d (size := 2) (by decide)
  have pair := dataRegs_pair d
  have quad := dataRegs_block d
  have whole {n : Nat} (h : 0 < n) (o : Int) := loadWords_whole s.tm o.toNat false h
  have oneByte (signed : Bool) (o : Int) := loadWords_byte s.tm o.toNat signed
  have twoBytes (signed : Bool) (o : Int) := loadWords_half s.tm o.toNat signed
  exact ⟨loads false rfl four (whole (n := 1) (by decide)), loads false rfl quad (whole (n := 4) (by decide)),
    loads false rfl one (oneByte false), loads true rfl one (oneByte true),
    loads false rfl two (twoBytes false), loads true rfl two (twoBytes true),
    loads false rfl pair (whole (n := 2) (by decide)),
    stores rfl four (storeData_whole s.th four rfl), stores rfl quad (storeData_whole s.th quad rfl),
    stores rfl one ((storeData_part s.th d (by decide)).trans (leBytes_byte _)),
    stores rfl two ((storeData_part s.th d (by decide)).trans (leBytes_half _)),
    stores rfl pair (storeData_whole s.th pair rfl),
    fun run p => ⟨stops_of fun c => prsTest_refused hint acq run, fun inside =>
      prsTest_sound hint acq run (scratchCheck_byte inside)⟩⟩

end Sys2Proof.Machine
end

section
/-! PROOF. The cross-lane words: the meeting of a participation set and what each word computes from it (R156 to R163). -/

namespace Sys2Proof.Machine

/-! ### The values the words compute from their set (R159 to R162) -/

theorem getLsbD_seat (k : Nat) {i : Nat} (h : i < 32) : (1#32 <<< k).getLsbD i = (k == i) := by
  rw [← BitVec.twoPow_eq, BitVec.getLsbD_twoPow, Bool.eq_iff_iff]
  simp only [Bool.and_eq_true, decide_eq_true_eq, beq_iff_eq]
  omega

/-- R159: the mask of some threads has the bits of their seats. -/
theorem seatsOf_getLsbD (ts : List Thread) {i : Nat} (h : i < 32) :
    (seatsOf ts).getLsbD i = ts.any (fun t => t.key.seat == i) := by
  suffices grown : ∀ m : Word, (ts.foldl (fun m t => m ||| (1#32 <<< t.key.seat)) m).getLsbD i =
      (m.getLsbD i || ts.any (fun t => t.key.seat == i)) by
    exact (grown 0).trans (by simp)
  induction ts with
  | nil => simp
  | cons t ts ih => intro m; simp [ih, getLsbD_seat _ h, Bool.or_assoc]

theorem sumWords_eq (ws : List Word) : sumWords ws = BitVec.ofNat 32 (ws.map BitVec.toNat).sum := by
  suffices grown : ∀ v : Word, ws.foldl (· + ·) v = v + BitVec.ofNat 32 (ws.map BitVec.toNat).sum by
    exact (grown 0).trans (BitVec.zero_add _)
  induction ws with
  | nil => simp
  | cons w ws ih => intro v; simp [ih, BitVec.ofNat_add, BitVec.add_assoc]

section
variable {better : Word → Word → Bool} (rank : Word → Int) (lower : ∀ x b, better x b = true ↔ rank x < rank b)
include lower

theorem pick_two (x b : Word) : let c := if better x b then x else b
    (c = x ∨ c = b) ∧ rank c ≤ rank x ∧ rank c ≤ rank b := by
  by_cases h : better x b = true
  · simp [h, ((lower x b).1 h).le]
  · have above : rank b ≤ rank x := by simpa [lower] using h
    simp [h, above]

/-- R162: the word picked is one of the list, and none ranks below it. -/
theorem pickBy_least {ws : List Word} (nonempty : ws ≠ []) :
    pickBy better ws ∈ ws ∧ ∀ w ∈ ws, rank (pickBy better ws) ≤ rank w := by
  suffices least : ∀ (l : List Word) (b : Word), let v := l.foldl (fun b x => if better x b then x else b) b
      v ∈ b :: l ∧ ∀ w ∈ b :: l, rank v ≤ rank w by
    cases ws with
    | nil => exact absurd rfl nonempty
    | cons w ws => exact least ws w
  intro l
  induction l with
  | nil => simp
  | cons x l ih =>
    intro b
    obtain ⟨which, belowX, belowB⟩ := pick_two rank lower x b
    obtain ⟨mem, le⟩ := ih (if better x b then x else b)
    obtain ⟨first, rest⟩ := List.forall_mem_cons.1 le
    refine ⟨?_, List.forall_mem_cons.2 ⟨first.trans belowB, List.forall_mem_cons.2 ⟨first.trans belowX, rest⟩⟩⟩
    obtain picked | mem := List.mem_cons.1 mem
    · rw [List.foldl_cons, picked]
      obtain e | e := which <;> simp [e]
    · exact List.mem_cons_of_mem _ (List.mem_cons_of_mem _ mem)

end

/-! ### The draw (R163) -/

/-- Where the running sum starts at or below `x` and ends above it, the seat drawn is the one that crosses it. -/
theorem drawSeat_crosses {x : Rat} (ws : List (Nat × Rat)) {acc : Rat} (start : acc ≤ x)
    (last : x < acc + (ws.map Prod.snd).sum) :
    ∃ k, k < ws.length ∧ drawSeat x acc ws = BitVec.ofNat 32 (ws.getD k (0, 0)).1 ∧
      acc + ((ws.take k).map Prod.snd).sum ≤ x ∧ x < acc + ((ws.take (k + 1)).map Prod.snd).sum := by
  induction ws generalizing acc with
  | nil => simp at last; linarith
  | cons p ws ih =>
    obtain ⟨i, w⟩ := p
    by_cases h : x < acc + w
    · exact ⟨0, by simp, by simp [drawSeat, h], by simpa using start, by simpa using h⟩
    · obtain ⟨k, inside, drawn, lo, hi⟩ := ih (not_lt.1 h) (by simpa [add_assoc] using last)
      refine ⟨k + 1, by simpa using inside, ?_, ?_, ?_⟩
      · simpa [drawSeat, h] using drawn
      · simpa [add_assoc] using lo
      · simpa [add_assoc] using hi

/-- Settles O35: the draw stops at the weight whose running sum crosses T·R/2^32, which lies in [0, T). -/
theorem samplingRule : Obligations.SamplingRule := by
  unfold Obligations.SamplingRule
  intro ws r _ total upTo x
  have sum : (ws.map Prod.snd).foldl (· + ·) 0 = total := List.sum_eq_foldl.symm
  have draw : sampleSeat ws r = if total = 0 then 0xFFFFFFFF else drawSeat x 0 ws := by
    unfold sampleSeat
    rw [sum]
  refine ⟨fun zero => draw.trans (if_pos zero), fun pos => ?_⟩
  have part : (r.toNat : Rat) / 2 ^ 32 < 1 := by
    rw [div_lt_one (by norm_num)]
    exact_mod_cast r.isLt
  have start : 0 ≤ x := by positivity
  have below : x < total := by
    have := mul_lt_mul_of_pos_left part pos
    rwa [mul_one, ← mul_div_assoc] at this
  rw [draw, if_neg pos.ne']
  simpa [upTo] using drawSeat_crosses ws start (by simpa [total] using below)

/-! ### A thread once its set has issued together (R21, R22) -/

/-- A thread that has taken part in its set's issue: its age is 0, and it has nothing to do again. -/
def Thread.issued (t : Thread) : Thread := { t with age := 0, redo := false }

@[simp] theorem Thread.issued_key (t : Thread) : t.issued.key = t.key := rfl
@[simp] theorem Thread.issued_clause (t : Thread) : t.issued.clause = t.clause := rfl
@[simp] theorem Thread.issued_reg (t : Thread) (i : Nat) : t.issued.reg i = t.reg i := rfl
@[simp] theorem Thread.issued_pred (t : Thread) (i : Nat) : t.issued.pred i = t.pred i := rfl

theorem Thread.setPred_issued (t : Thread) (i : Nat) (b : Bool) : t.issued.setPred i b = (t.setPred i b).issued := by
  unfold Thread.setPred
  split <;> rfl

theorem Thread.advance_issued (t : Thread) :
    { t.issued.advance with status := .ready } = { t.advance with status := .ready, age := 0, redo := false } := by
  rw [Thread.advance, Thread.advance, Thread.issued_clause]
  cases t.clause with
  | none => rfl
  | some c => dsimp only; split <;> rfl

theorem seatsOf_issued (ts : List Thread) : seatsOf (ts.map Thread.issued) = seatsOf ts := by
  simp [seatsOf, List.foldl_map]

theorem seatsOf_filter_issued (ts : List Thread) (p : Thread → Bool) :
    seatsOf ((ts.map Thread.issued).filter p) = seatsOf (ts.filter (p ∘ Thread.issued)) := by
  rw [List.filter_map, seatsOf_issued]

theorem fromSeat_issued (ts : List Thread) (a : Nat) (t : Thread) (src : Int) :
    fromSeat (ts.map Thread.issued) a t.issued src =
      ((ts.find? (fun u => (u.key.seat : Int) == src)).map (fun u => u.reg a)).getD (t.reg a) := by
  have same : ((fun u : Thread => (u.key.seat : Int) == src) ∘ Thread.issued) = fun u => (u.key.seat : Int) == src := rfl
  unfold fromSeat
  rw [List.find?_map, same]
  cases ts.find? (fun u => (u.key.seat : Int) == src) <;> rfl

/-! ### The meeting (R156, R157) -/

section
variable {s : State} {m : Nat} {reads writes : List Nat} {ts : List Thread} {run : State → List Thread → State}

theorem arrived_key (s : State) (m : Nat) : (s.arrived m).th.key = s.th.key := by
  unfold State.arrived
  split <;> rfl

theorem arrived_pc (s : State) (m : Nat) : (s.arrived m).th.pc = s.th.pc := by
  unfold State.arrived
  split <;> rfl

/-- What a thread's arrival needs: it waits here already, or the word passes its checks and the mask's register is sound. -/
def State.arrives (s : State) (m : Nat) (reads writes : List Nat) : Prop :=
  s.th.waitMask.isSome = true ∨ (s.canRun 2 none [m] [] = true ∧ s.fits 2 none (reads ++ writes) = true)

theorem canRun_subset {cls : Nat} {role : Option Role} {reads' writes' : List Nat}
    (h : s.canRun cls role reads writes = true) (hr : reads' ⊆ reads) (hw : writes' ⊆ writes) :
    s.canRun cls role reads' writes' = true := by
  simp only [State.canRun, Bool.and_eq_true, List.all_eq_true] at h ⊢
  obtain ⟨⟨place, named⟩, sound⟩ := h
  refine ⟨⟨place, fun r hm => named r ?_⟩, fun r hm => sound r (hr hm)⟩
  exact List.append_subset.2 ⟨List.subset_append_of_subset_left _ hr, List.subset_append_of_subset_right _ hw⟩ hm

theorem arrives_of_canRun (h : s.th.waitMask.isSome = true ∨ s.canRun 2 none (m :: reads) writes = true) :
    s.arrives m reads writes :=
  h.imp_right fun run => ⟨canRun_subset run (by simp) (by simp), canRun_fits run (by simp)⟩

/-- The arriving thread waits with its mask, and goes on with its set if that is now complete. -/
theorem meeting_arrives (bare : s.bare = true) (h : s.arrives m reads writes) :
    s.meeting { cls := 2, reads := [], writes := [] } m reads writes run =
      .next ((s.arrived m).tryMeet reads writes run) := by
  unfold State.meeting State.arrived
  by_cases waiting : s.th.waitMask.isSome = true
  · rw [if_pos waiting, if_pos waiting]
  · obtain ⟨mask, fit⟩ := h.resolve_left waiting
    have all : s.fits 2 none ((m :: reads) ++ writes) = true := by
      have one := canRun_inside mask (r := m) (by simp)
      simp only [State.fits, Bool.and_eq_true, List.cons_append, List.all_cons, decide_eq_true_eq] at fit ⊢
      exact ⟨fit.1, one, fit.2⟩
    rw [if_neg waiting, if_neg waiting, fits_check all (prefixOk_bare bare)]
    exact canRun_regs mask _

theorem issueTogether_key (s : State) (ts : List Thread) : (s.issueTogether ts).th.key = s.th.key := by
  unfold State.issueTogether State.mapThreads
  dsimp only
  split <;> rfl

theorem issueTogether_team (s : State) (ts : List Thread) (n : Nat) : (s.issueTogether ts).team? n = s.team? n := rfl

theorem setsDiffer_issued (s : State) (ts : List Thread) :
    (s.issueTogether ts).setsDiffer (ts.map Thread.issued) = s.setsDiffer ts := by
  cases ts with
  | nil => rfl
  | cons t ts => exact seatsOf_filter_issued (t :: ts) _

/-- A complete set whose threads agree on it, and whose registers are sound, executes the word. -/
theorem meet_runs {tm : Team} (team : s.team? s.th.key.team = some tm) (agree : s.setsDiffer ts = 0)
    (sound : ∀ t ∈ ts, t.badOperand reads writes = none) : s.meet ts reads writes run = run s ts := by
  have held : ts.any (fun t => s.meetHeld t reads writes) = false :=
    List.any_eq_false.2 fun t ht => by simp [State.meetHeld, sound t ht]
  have faults : ts.any (fun t => (s.meetFault t tm reads writes).isSome) = false :=
    List.any_eq_false.2 fun t ht => by simp [State.meetFault, sound t ht]
  unfold State.meet
  rw [team]
  simp [agree, held, faults]

theorem tryMeet_meets (h : s.meets m reads writes ts = true) :
    (s.arrived m).tryMeet reads writes run = run ((s.arrived m).issueTogether ts) (ts.map Thread.issued) := by
  simp only [State.meets, Bool.and_eq_true, decide_eq_true_eq, beq_iff_eq, List.all_eq_true,
    Option.isNone_iff_eq_none] at h
  obtain ⟨⟨⟨complete, team⟩, agree⟩, sound⟩ := h
  unfold State.tryMeet
  rw [complete]
  rw [← issueTogether_key _ ts, ← issueTogether_team _ ts] at team
  refine meet_runs team ((setsDiffer_issued _ ts).trans agree) fun t ht => ?_
  obtain ⟨u, hu, rfl⟩ := List.mem_map.1 ht
  exact Option.map_eq_none_iff.1 (sound u hu)

/-- Each thread `t` of the set becomes `f t`, and moves on (R156). -/
def State.together (s : State) (m : Nat) (ts : List Thread) (f : Thread → Thread) : State :=
  ts.foldl (fun u t => u.setThread { (f t).advance with status := .ready, age := 0, redo := false })
    ((s.arrived m).issueTogether ts)

variable {f : List Thread → Thread → Thread}

/-- R156: the arrival that completes a set executes the word once, for all threads of it. -/
theorem crossLane_meets (bare : s.bare = true) (arrives : s.arrives m reads writes)
    (meets : s.meets m reads writes ts = true) {g : Thread → Thread}
    (value : ∀ t, f (ts.map Thread.issued) t.issued = (g t).issued) :
    s.crossLane m reads writes f = .next (s.together m ts g) := by
  refine (meeting_arrives bare arrives).trans ?_
  rw [tryMeet_meets meets, laneRun, List.foldl_map, State.together]
  simp only [value, Thread.advance_issued]

/-- R156: a thread whose set is not complete waits. -/
theorem crossLane_waits (bare : s.bare = true) (arrives : s.arrives m reads writes)
    (incomplete : (s.arrived m).complete? ((s.arrived m).waitingAt s.th.key s.th.pc) = none) :
    s.crossLane m reads writes f = .next (s.arrived m) := by
  refine (meeting_arrives bare arrives).trans ?_
  rw [State.tryMeet, arrived_key, arrived_pc, incomplete]

end

/-! ### The statement -/

/-- Settles O34: each word is a `crossLane` word, and its threads take the values of the rules from their set. -/
theorem crossLane : Obligations.CrossLane := by
  unfold Obligations.CrossLane
  refine ⟨?_, ?_, fun ts i h => seatsOf_getLsbD ts h⟩
  · intro s d a m p q ts bare nonempty all give vs pull ready
    have runs {reads writes : List Nat} {f : List Thread → Thread → Thread} {g : Thread → Thread}
        (h : ready reads writes) (value : ∀ t, f (ts.map Thread.issued) t.issued = (g t).issued) :
        s.crossLane m reads writes f = all g :=
      crossLane_meets bare (arrives_of_canRun h.1) h.2 value
    have gives {reads : List Nat} {f : List Thread → Thread → Word} {v : Thread → Word} (h : ready reads [d])
        (value : ∀ t, f (ts.map Thread.issued) t.issued = v t) :
        s.crossLane m reads [d] (fun p t => t.setReg d (f p t)) = all (fun t => t.setReg d (v t)) :=
      runs h fun t => congrArg (t.issued.setReg d) (value t)
    have regs : (ts.map Thread.issued).map (fun u => u.reg a) = vs := List.map_map
    have votes (l : List Bool → Bool) (h : ready [] []) :
        s.vote p q m l = all (fun t => t.setPred p (l (ts.map (fun u => u.pred q)))) :=
      runs h fun t => (Thread.setPred_issued t p _).trans (by rw [List.map_map]; rfl)
    have reduces (l : List Word → Word) (h : ready [a] [d]) : s.redux d a m l = give (l vs) :=
      gives h fun t => congrArg l regs
    have words : vs ≠ [] := by simpa [vs] using nonempty
    refine ⟨fun h => ?_, fun h => ?_, fun h => ?_, fun h => ?_⟩
    · have pulls (src : Nat → Word → Int) : s.sget d a m src = pull src :=
        gives h fun t => fromSeat_issued ts a t _
      refine ⟨pulls fun _ n => n.toNat, pulls fun i n => (i ^^^ (n.toNat % 32) : Nat), pulls fun i n => (i : Int) - n.toNat,
        pulls fun i n => (i : Int) + n.toNat, gives h fun t => ?_⟩
      rw [List.map_map, List.head?_map, Option.map_map]
      rfl
    · exact ⟨gives h fun t => seatsOf_issued ts, gives h fun t => seatsOf_filter_issued ts _⟩
    · obtain ⟨least, below⟩ := pickBy_least (better := ltI32) BitVec.toInt (by simp [ltI32]) words
      obtain ⟨greatest, above⟩ := pickBy_least (better := fun x b => ltI32 b x) (fun w => -w.toInt)
        (by simp [ltI32]) words
      refine ⟨gives h fun t => seatsOf_filter_issued ts _, (reduces _ h).trans (congrArg give (sumWords_eq vs)),
        reduces _ h, ⟨_, reduces _ h, least, below⟩,
        ⟨_, reduces _ h, greatest, fun w hw => neg_le_neg_iff.1 (above w hw)⟩, gives h fun t => ?_⟩
      rw [sumWords_eq, List.filter_map, List.map_map, List.map_map]
      rfl
    · have any := votes (fun l => l.any id) h
      have every := votes (fun l => l.all id) h
      have eq := votes (fun l => l.all id || l.all not) h
      simp only [List.any_map, List.all_map] at any every eq
      exact ⟨any, every, eq⟩
  · intro s d a m p q bare incomplete waits
    have waiting {reads writes : List Nat} {f : List Thread → Thread → Thread} (h : s.arrives m reads writes) :
        s.crossLane m reads writes f = .next (s.arrived m) := crossLane_waits bare h incomplete
    exact ⟨waiting, waiting, waiting, waiting, waiting, waiting, waiting, waiting, waiting, waiting, waiting, waiting,
      waiting, waiting, waiting, waiting⟩

end Sys2Proof.Machine
end

section
/-! PROOF. Stash words and global loads and stores: the checks of their addresses, then what they leave at issue (R168, R169,
R171 to R177, R278, R279). -/

namespace Sys2Proof.Machine

section
variable {s : State} {e : Bool} {cls : Nat} {role : Option Role} {reads writes : List Nat} {a : Allows}

/-- A tracked word whose flag has room, with no `ld.acq` outstanding, is its body (R12, R278). -/
theorem trackedMem_runs (body : State → Out) (free : s.free e = true) (run : s.canRun cls role reads writes = true)
    (p : prefixOk a s.pfx = true) :
    s.memWord { cls := cls, allows := a, role := role, reads := reads, writes := writes } (fun s => s.tracked e body) =
      body s := by
  obtain ⟨room, acq⟩ : s.flagRoom e = true ∧ s.acqPending = false := by simpa [State.free] using free
  exact (memWord_runs _ run p acq).trans (tracked_runs body room)

end

/-! ### Stash words (R168, R169) -/

section
variable {s : State} {e : Bool} {d : Nat}

theorem stashEnd_nowhere (free : s.free e = true) (bare : s.bare = true) (run : s.canRun 2 none [d] [] = true)
    (h : s.tm.windowAt (s.th.reg d).toNat = none) (unmap : Bool) :
    s.stashEnd e unmap d = s.faultAt 0x14 ((s.th.reg d).setWidth 64) 4 := by
  refine (trackedMem_runs _ free run (prefixOk_bare bare)).trans ?_
  rw [h]

theorem stashEnd_window (free : s.free e = true) (bare : s.bare = true) (run : s.canRun 2 none [d] [] = true) {w : Nat}
    (h : s.tm.windowAt (s.th.reg d).toNat = some w) (unmap : Bool) :
    s.stashEnd e unmap d = .next (s.addOp e [] none (.stashWb w unmap)) := by
  refine (trackedMem_runs _ free run (prefixOk_bare bare)).trans ?_
  rw [h]

end

/-- Settles O38: `stash.map` by the checks of its table, `stash.wb` and `stash.unmap` by the window at their offset. -/
theorem stashWords : Obligations.StashWords := by
  unfold Obligations.StashWords
  intro s e d b bare free off len va bad
  refine ⟨fun run => ?_, fun run => ⟨fun nowhere => ?_, fun w window => ?_⟩⟩
  · refine (trackedMem_runs _ free run (prefixOk_bare bare)).trans ?_
    dsimp only [Team.mapCheck]
    split_ifs <;> rfl
  · have ends := stashEnd_nowhere free bare run nowhere
    exact ⟨ends false, (ends true).trans (ends false).symm⟩
  · have ends := stashEnd_window free bare run window
    exact ⟨ends false, ends true⟩

/-! ### Addresses and translations (R171, R177) -/

section
variable {s : State} {va : Addr} {n : Nat}

theorem withAddr_refused (body : State → Out) (h : addrOk va n = false) : s.withAddr va n body = s.faultAt 0x09 va 0 :=
  if_neg (by simp [h])

theorem withAddr_runs (body : State → Out) (h : addrOk va n = true) : s.withAddr va n body = body s := if_pos h

theorem wordOk_iff : s.wordOk va n = true ↔ addrOk va n = true ∧ s.tm.stashVa va = none := by
  simp [State.wordOk]

theorem wordAddr_refused (body : State → Out) (h : addrOk va n = false) : s.wordAddr va n body = s.faultAt 0x09 va 0 :=
  withAddr_refused _ h

theorem wordAddr_runs (body : State → Out) (h : s.wordOk va n = true) : s.wordAddr va n body = body s := by
  obtain ⟨ok, outside⟩ := wordOk_iff.1 h
  refine (withAddr_runs _ ok).trans ?_
  rw [outside]
  rfl

/-- A page that a TLB holds asks for no walk (R317). -/
theorem walkBusy_of_hit {core ctx : Nat} (h : (s.tlbHit core ctx va).isSome = true) : s.walkBusy core ctx va = false := by
  obtain ⟨l, hit⟩ := Option.isSome_iff_exists.1 h
  simp [State.walkBusy, hit]

theorem translate_th {t : State} {core ctx : Nat} {k : Access} {x : Except XFault (Leaf × Nat)}
    (h : s.translate core ctx va k = (x, t)) : t.th = s.th := by
  have kept := th_of_outer (translate_outer s core ctx va k)
  rwa [h] at kept

theorem withPa_translated {t : State} {k : Access} {f : Leaf} {pa : Nat} (body : State → Leaf → Nat → Out)
    (idle : s.walkBusy s.tm.core s.tm.ctx va = false) (h : s.translate s.tm.core s.tm.ctx va k = (.ok (f, pa), t)) :
    s.withPa va k body = body t f pa := by
  unfold State.withPa
  rw [if_neg (by simp [idle]), h]

end

/-! ### An access in a stash window (R174) -/

section
variable {s : State} {w l off : Nat} {m : BitVec 256}

/-- Where no access of the thread is outstanding, a word that waits for some of them goes on. -/
theorem waitFor_settled {kind : Op → Bool} (body : State → Out) (settled : s.settled = true)
    (sub : ∀ o, kind o = true → o.accesses = true) : s.waitFor kind body = body s := by
  refine waitFor_runs _ (List.filter_eq_nil_iff.2 fun o ho => ?_)
  have idle := List.filter_eq_nil_iff.1 (List.isEmpty_iff.1 settled) o ho
  simp only [Bool.and_eq_true] at idle ⊢
  rintro ⟨⟨⟨key, is⟩, owed⟩, inside⟩
  exact idle ⟨⟨⟨key, sub o is⟩, owed⟩, inside⟩

theorem stashTouch_read {flagged : Bool} (body : State → BitVec 256 → Out) (filled : (s.tm.window w).line l = .filled m) :
    s.stashTouch w l off false flagged body = body s m := by
  unfold State.stashTouch
  dsimp only
  rw [filled]
  rfl

theorem stashTouch_write {flagged : Bool} (body : State → BitVec 256 → Out) (filled : (s.tm.window w).line l = .filled m)
    (plain : (s.tm.window w).coded.getD l false = false) (writable : (s.tm.window w).writable.getD l false = true) :
    s.stashTouch w l off true flagged body = body s m := by
  unfold State.stashTouch
  dsimp only
  rw [filled]
  simp only [plain, writable]
  rfl

/-- A load from a filled line, of units that are whole, takes its bytes (R234). -/
theorem stashLoad_whole {n : Nat} {flagged : Bool} (body : State → Out) (filled : (s.tm.window w).line l = .filled m)
    (whole : mixedUnits m off n = []) : s.stashLoad w l off n flagged body = body s := by
  refine (stashTouch_read _ filled).trans ?_
  rw [whole]
  rfl

end

/-! ### Loads (R172, R173, R278) -/

section
variable {s : State} {e sg : Bool} {n d b : Nat} {k : Int} {va : Addr} {acq : Option Scope}

/-- R173: the page is not known yet. -/
theorem loadAt_unknown (miss : s.tlbHit s.tm.core s.tm.ctx va = none) :
    s.loadAt e va n sg d acq =
      .next (s.addOp e (dataRegs d n) none (.load va n sg d s.hint.1 s.hint.2 acq)) := by
  unfold State.loadAt
  rw [miss]

/-- R173: the page is known, and gives its policy where the hint gives none. -/
theorem loadAt_known {f : Leaf} {pa : Nat} {t : State} (hit : (s.tlbHit s.tm.core s.tm.ctx va).isSome = true)
    (h : s.translate s.tm.core s.tm.ctx va .read = (.ok (f, pa), t)) :
    s.loadAt e va n sg d acq = .next (t.addOp e (dataRegs d n) (some pa)
      (.load va n sg d s.hint.1 (if s.hint.2 = 0 then ptePol f.entry else s.hint.2) acq)) := by
  have known := withPa_translated (fun s' f pa => .next (s'.addOp e (dataRegs d n) (some pa)
    (.load va n sg d s.hint.1 (effectivePolicy s.hint.2 f) acq))) (walkBusy_of_hit hit) h
  obtain ⟨l, held⟩ := Option.isSome_iff_exists.1 hit
  unfold State.loadAt
  rw [held]
  exact known

variable (free : s.free e = true) (hint : s.hinted = true) (run : s.canRun 2 none [b, b + 1] (dataRegs d n) = true)
include free hint run

theorem ldForm_refused (h : addrOk (s.th.globalAddr b n k) n = false) :
    s.ldForm e n sg d b k = s.faultAt 0x09 (s.th.globalAddr b n k) 0 :=
  (trackedMem_runs _ free run (prefixOk_hinted hint)).trans (withAddr_refused _ h)

theorem ldForm_outside (h : s.wordOk (s.th.globalAddr b n k) n = true) :
    s.ldForm e n sg d b k = s.loadAt e (s.th.globalAddr b n k) n sg d none := by
  obtain ⟨ok, outside⟩ := wordOk_iff.1 h
  refine ((trackedMem_runs _ free run (prefixOk_hinted hint)).trans (withAddr_runs _ ok)).trans ?_
  rw [outside]

/-- R174: in a window the load takes its bytes at issue. -/
theorem ldForm_window {w l : Nat} {m : BitVec 256} (ok : addrOk (s.th.globalAddr b n k) n = true)
    (settled : s.settled = true) (inside : s.tm.stashVa (s.th.globalAddr b n k) = some (w, l))
    (filled : (s.tm.window w).line l = .filled m)
    (whole : mixedUnits m ((s.tm.window w).offsetOf (s.th.globalAddr b n k)) n = [])
    (sound : s.tm.badIn ((s.tm.window w).offsetOf (s.th.globalAddr b n k)) n = false) :
    s.ldForm e n sg d b k = .next (s.after (fun t => t.setRegs d (loadWords n sg
      (s.tm.scratchBytes ((s.tm.window w).offsetOf (s.th.globalAddr b n k)) n)))) := by
  refine ((trackedMem_runs _ free run (prefixOk_hinted hint)).trans (withAddr_runs _ ok)).trans ?_
  rw [inside]
  refine (waitFor_settled _ settled fun o h => (Bool.and_eq_true_iff.1 h).1).trans ?_
  exact (stashLoad_whole _ filled whole).trans (scratchLoad_sound sg sound)

end

/-- Settles O39: a plain load is an `ldForm` and an acquiring one an `ldAcqWord`; outside every window both are a `loadAt`. -/
theorem loadIssue : Obligations.LoadIssue := by
  unfold Obligations.LoadIssue
  intro s e d b i c free bad issues ld
  have issue {ins : Instr} {va : Addr} {n : Nat} {sg : Bool} {ds : List Nat} {acq : Option Scope}
      (regs : dataRegs d n = ds) (refused : addrOk va n = false → exec ins s = s.faultAt 0x09 va 0)
      (outside : s.wordOk va n = true → exec ins s = s.loadAt e va n sg d acq) : issues ins va n sg ds acq := by
    subst regs
    exact ⟨refused, fun ok => ⟨fun miss => (outside ok).trans (loadAt_unknown miss),
      fun f pa t hit known => (outside ok).trans (loadAt_known hit known)⟩⟩
  have loads {ins : Instr} {n : Nat} {sg : Bool} {k : Int} {ds : List Nat} (is : exec ins s = s.ldForm e n sg d b k)
      (regs : dataRegs d n = ds) : ld ins n sg k ds := by
    intro run hint
    subst regs
    refine ⟨issue rfl (fun bad => is.trans (ldForm_refused free hint run bad)) fun ok =>
      is.trans (ldForm_outside free hint run ok), ?_⟩
    intro w l m ok settled inside filled off whole sound
    exact is.trans (ldForm_window free hint run ok settled inside filled whole sound)
  have acquires {ins : Instr} {n : Nat} {ds : List Nat} (is : exec ins s = s.ldAcqWord e n d b c)
      (regs : dataRegs d n = ds) (bare : s.bare = true) (run : s.canRun 4 none [b, b + 1] ds = true) :
      issues ins (s.th.pair b) n false ds (some c) := by
    subst regs
    have word := is.trans (trackedMem_runs _ free run (prefixOk_bare bare))
    exact issue rfl (fun bad => word.trans (wordAddr_refused _ bad)) fun ok => word.trans (wordAddr_runs _ ok)
  have four := dataRegs_one d (size := 4) le_rfl
  have one := dataRegs_one d (size := 1) (by decide)
  have two := dataRegs_one d (size := 2) (by decide)
  exact ⟨loads rfl four, loads rfl one, loads rfl one, loads rfl two, loads rfl two, loads rfl (dataRegs_pair d),
    loads rfl (dataRegs_block d), acquires rfl four, acquires rfl (dataRegs_pair d)⟩

/-! ### Stores (R172, R177, R279) -/

section
variable {s : State} {e : Bool} {n d b : Nat} {k : Int}
  (free : s.free e = true) (hint : s.hinted = true) (run : s.canRun 2 none ([b, b + 1] ++ dataRegs d n) [] = true)
include free hint run

theorem stForm_refused (h : addrOk (s.th.globalAddr b n k) n = false) :
    s.stForm e n d b k = s.faultAt 0x09 (s.th.globalAddr b n k) 0 :=
  (trackedMem_runs _ free run (prefixOk_hinted hint)).trans (withAddr_refused _ h)

/-- R177: the page is known at issue; the translation leaves the thread, and so the bytes, as they were. -/
theorem stForm_outside {t : State} {f : Leaf} {pa : Nat} (h : s.wordOk (s.th.globalAddr b n k) n = true)
    (idle : s.walkBusy s.tm.core s.tm.ctx (s.th.globalAddr b n k) = false)
    (known : s.translate s.tm.core s.tm.ctx (s.th.globalAddr b n k) .write = (.ok (f, pa), t)) :
    s.stForm e n d b k =
      .next (t.addOp e [] (some pa) (.store (s.th.globalAddr b n k) (s.th.storeData d n) none)) := by
  obtain ⟨ok, outside⟩ := wordOk_iff.1 h
  refine ((trackedMem_runs _ free run (prefixOk_hinted hint)).trans (withAddr_runs _ ok)).trans ?_
  rw [outside]
  exact (withPa_translated _ idle known).trans (by rw [translate_th known])

/-- R174: in a window the store puts its bytes at issue. -/
theorem stForm_window {w l : Nat} {m : BitVec 256} (ok : addrOk (s.th.globalAddr b n k) n = true)
    (settled : s.settled = true) (inside : s.tm.stashVa (s.th.globalAddr b n k) = some (w, l))
    (filled : (s.tm.window w).line l = .filled m) (plain : (s.tm.window w).coded.getD l false = false)
    (writable : (s.tm.window w).writable.getD l false = true) :
    let off := (s.tm.window w).offsetOf (s.th.globalAddr b n k)
    let tm := s.tm.setWindow w ((s.tm.window w).setLine l (.filled (m ||| dirtyMask off n)))
    s.stForm e n d b k = .next ({ s with tm := tm.scratchWrite off (s.th.storeData d n) } : State).advance := by
  intro off tm
  refine ((trackedMem_runs _ free run (prefixOk_hinted hint)).trans (withAddr_runs _ ok)).trans ?_
  rw [inside]
  exact (waitFor_settled _ settled fun o h => h).trans (stashTouch_write _ filled plain writable)

end

/-- Settles O40: a plain store is an `stForm` and a releasing one an `stRelWord`, whose bytes are those of its registers. -/
theorem storeIssue : Obligations.StoreIssue := by
  unfold Obligations.StoreIssue
  intro s e d b i c free bad bytes issues st
  have stores {ins : Instr} {n : Nat} {k : Int} {ds : List Nat} {v : List Byte} (is : exec ins s = s.stForm e n d b k)
      (regs : dataRegs d n = ds) (value : s.th.storeData d n = v) : st ins n k ds v := by
    intro run hint
    subst regs value
    refine ⟨⟨fun bad => is.trans (stForm_refused free hint run bad), fun f pa t ok idle known =>
      is.trans (stForm_outside free hint run ok idle known)⟩, ?_⟩
    intro w l m ok settled inside x filled plain writable off tm
    exact is.trans (stForm_window free hint run ok settled inside filled plain writable)
  have releases {ins : Instr} {n : Nat} {ds : List Nat} {v : List Byte} (is : exec ins s = s.stRelWord e n d b c)
      (regs : dataRegs d n = ds) (value : s.th.storeData d n = v) (bare : s.bare = true)
      (run : s.canRun 4 none ([b, b + 1] ++ ds) [] = true) : issues ins (s.th.pair b) n v (some c) := by
    subst regs value
    have word := is.trans (trackedMem_runs _ free run (prefixOk_bare bare))
    refine ⟨fun bad => word.trans (wordAddr_refused _ bad), fun f pa t ok idle known => ?_⟩
    refine (word.trans (wordAddr_runs _ ok)).trans ((withPa_translated _ idle known).trans ?_)
    rw [translate_th known]
  have four := dataRegs_one d (size := 4) le_rfl
  have one := dataRegs_one d (size := 1) (by decide)
  have two := dataRegs_one d (size := 2) (by decide)
  have pair := dataRegs_pair d
  have quad := dataRegs_block d
  exact ⟨stores rfl four (storeData_whole s.th four rfl),
    stores rfl one ((storeData_part s.th d (by decide)).trans (leBytes_byte _)),
    stores rfl two ((storeData_part s.th d (by decide)).trans (leBytes_half _)),
    stores rfl pair (storeData_whole s.th pair rfl), stores rfl quad (storeData_whole s.th quad rfl),
    releases rfl four (storeData_whole s.th four rfl), releases rfl pair (storeData_whole s.th pair rfl)⟩

end Sys2Proof.Machine
end

section
/-! PROOF. Barrier and ring words: what a wait whose phase has completed and an update that completes none leave (R179 to
R181, R187), and the wait whose register is made invalid once its phase has completed. -/

namespace Sys2Proof.Machine

/-! ### Waits and updates of barrier registers (R179, R180, R184) -/

section
variable {s : State} {b q : Nat}

theorem doneAt_iff {x : Bar} (h : q < 65536) :
    x.doneAt q = true ↔ 1 ≤ (x.phase + 65536 - q) % 65536 ∧ (x.phase + 65536 - q) % 65536 ≤ 32768 := by
  simp [Bar.doneAt, Nat.mod_eq_of_lt h]

/-- A wait for a phase that has completed, with no fault of an engine to take first, goes on. -/
theorem waitPhase_done {faults : Bool} {p : Park} (body : State → Out) (calm : faults = true → s.barFaultFor b q = none)
    (done : (s.tm.bar b).doneAt q = true) : s.waitPhase faults b q p body = body s := by
  have quiet : (if faults then s.barFaultFor b q else none) = none := by
    cases faults
    · rfl
    · exact calm rfl
  unfold State.waitPhase
  rw [quiet]
  exact if_pos done

theorem teamRelease_settled (body : State → Out) (settled : s.settled = true) : s.teamRelease body = body s :=
  waitFor_settled _ settled fun _ h => h

/-- An update whose arrivals do not complete the phase counts them, and wakes no group. -/
theorem update_counts {x : Bar} {n : Nat} (valid : x.valid = true) (short : x.arrived + n < x.expected)
    (low : -(2 ^ 39) ≤ x.pending) (high : x.pending < 2 ^ 39) :
    x.update n 0 = .ok ({ x with arrived := x.arrived + n }, 0) := by
  have fits : ¬ x.expected < n + x.arrived := by omega
  have inRange : ¬ (x.pending < -(2 ^ 39) ∨ (2 ^ 39 : Int) - 1 < x.pending) := by omega
  simp only [Bar.update, valid, Int.add_zero]
  rw [if_neg (by decide), if_neg fits, if_neg inRange, if_neg fun full => short.ne full.1]

theorem setTeam_setBar (s : State) (b : Nat) (x : Bar) : s.setTeam (s.tm.setBar b x) = { s with tm := s.tm.setBar b x } :=
  if_pos rfl

theorem wakeGroups_none (s : State) (m : Team) (b : Nat) : s.wakeGroups m b 0 = s := by
  simp [State.wakeGroups, State.mapThreads]

theorem threadUpdate_counts {n : Nat} (valid : (s.tm.bar b).valid = true)
    (short : (s.tm.bar b).arrived + n < (s.tm.bar b).expected) (low : -(2 ^ 39) ≤ (s.tm.bar b).pending)
    (high : (s.tm.bar b).pending < 2 ^ 39) :
    s.threadUpdate b n 0 =
      .next (State.advance { s with tm := s.tm.setBar b { s.tm.bar b with arrived := (s.tm.bar b).arrived + n } }) := by
  unfold State.threadUpdate State.barUpdate
  rw [team?_self]
  simp only [update_counts valid short low high, setTeam_setBar, wakeGroups_none]

/-- A thread that has waited goes on at its wait, whatever its word now reads (R180). -/
theorem barWait_woken {a n : Nat} (waited : s.th.held = some (.bar b q)) :
    exec (.barWait a n) s = s.barWait b (q % 65536) := by
  show execBarWait a n s = _
  unfold execBarWait
  rw [waited]

theorem barArr_settled {a : Nat} (bare : s.bare = true) (run : s.canRun 3 none [a] [] = true) (settled : s.settled = true) :
    exec (.barArr a b) s = s.threadUpdate b (s.th.reg a).toNat 0 :=
  (word_runs _ run (prefixOk_bare bare)).trans (teamRelease_settled _ settled)

end

/-! ### Ring words (R187) -/

section
variable {s : State} {d a r : Nat}

/-- The ring is declared and both its registers are valid. -/
def Team.ringOk (m : Team) (r : Nat) : Prop :=
  (m.ring r).valid = true ∧ (m.bar (m.ring r).full).valid = true ∧ (m.bar (m.ring r).empty).valid = true

theorem withRing_refused (body : State → Ring → Out) (h : ¬ s.tm.ringOk r) : s.withRing r body = s.faultDetail 0x02 1 :=
  if_neg (by simpa [Team.ringOk, and_assoc] using h)

theorem withRing_runs (body : State → Ring → Out) (h : s.tm.ringOk r) : s.withRing r body = body s (s.tm.ring r) :=
  if_pos (by simpa [Team.ringOk, and_assoc] using h)

section
variable (bare : s.bare = true) (fresh : s.th.held = none) (run : s.canRun 3 none [a] [d] = true)
include bare fresh run

theorem ringAcq_enters : exec (.ringAcq d a r) s =
    s.withRing r (fun s x => s.ringAcq d r x ((s.th.reg a).toNat % 65536)) := by
  show execRingAcq d a r s = _
  unfold execRingAcq
  rw [fresh]
  exact word_runs _ run (prefixOk_bare bare)

theorem ringGet_enters : exec (.ringGet d a r) s =
    s.withRing r (fun s x => s.ringGet d r x ((s.th.reg a).toNat % 65536)) := by
  show execRingGet d a r s = _
  unfold execRingGet
  rw [fresh]
  exact word_runs _ run (prefixOk_bare bare)

end

section
variable (bare : s.bare = true) (run : s.canRun 3 none [a] [] = true)
include bare run

theorem ringCom_enters : exec (.ringCom a r) s =
    s.withRing r (fun s x => s.teamRelease (fun s => s.threadUpdate x.full (s.th.reg a).toNat 0)) :=
  word_runs _ run (prefixOk_bare bare)

theorem ringRel_enters : exec (.ringRel a r) s =
    s.withRing r (fun s x => s.teamRelease (fun s => s.threadUpdate x.empty (s.th.reg a).toNat 0)) :=
  word_runs _ run (prefixOk_bare bare)

end

end

/-- Settles O42: `ring.acq` and `ring.get` are a wait that has nothing to wait for, `ring.com` and `ring.rel` the update that
`bar.arr` of the ring's register makes. -/
theorem ringWords : Obligations.RingWords := by
  unfold Obligations.RingWords
  intro s d a r bare fresh x n ok bad done slot
  refine ⟨fun run => ?_, fun run => ?_⟩
  · have acq := ringAcq_enters (r := r) bare fresh run
    have get := ringGet_enters (r := r) bare fresh run
    refine ⟨fun undeclared => ⟨acq.trans (withRing_refused _ undeclared), get.trans (withRing_refused _ undeclared)⟩,
      fun declared freed => ?_, fun declared filled calm => ?_⟩
    · exact (acq.trans (withRing_runs _ declared)).trans
        (waitPhase_done _ (fun h => nomatch h) ((doneAt_iff (Nat.mod_lt _ (by decide))).2 freed))
    · exact (get.trans (withRing_runs _ declared)).trans
        (waitPhase_done _ (fun _ => calm) ((doneAt_iff (Nat.mod_lt _ (by decide))).2 filled))
  · have com := ringCom_enters (r := r) bare run
    have rel := ringRel_enters (r := r) bare run
    refine ⟨fun undeclared => ⟨com.trans (withRing_refused _ undeclared), rel.trans (withRing_refused _ undeclared)⟩,
      fun declared settled => ?_⟩
    have arr (b : Nat) := barArr_settled (b := b) bare run settled
    have arrives {ins : Instr} {f : Ring → Nat}
        (enters : exec ins s = s.withRing r (fun s x => s.teamRelease (fun s => s.threadUpdate (f x) (s.th.reg a).toNat 0))) :
        exec ins s = exec (.barArr a (f x)) s :=
      (enters.trans (withRing_runs _ declared)).trans ((teamRelease_settled _ settled).trans (arr _).symm)
    obtain ⟨-, full, empty⟩ := declared
    refine ⟨arrives com, arrives rel, fun b which => ?_⟩
    intro y short low high m
    have valid : (s.tm.bar b).valid = true := by
      obtain rfl | rfl := which
      · exact full
      · exact empty
    exact (arr b).trans (threadUpdate_counts valid short low high)

/-! ### A wait whose register is made invalid (R180, R182) -/

/-- A thread woken from `bar.wait b0, v0` for phase 0, which has completed; since then `bar.inv` has made the register
invalid, which was not busy any more. -/
def wokenWaiter : State :=
  let s := State.reset.placeWord 0xA0000040
  { s with th := { s.th with held := some (.bar 0 0) },
           tm := s.tm.setBar 0 { expected := 1, arrived := 0, phase := 1, pending := 0, waiters := 0, valid := false } }

theorem wokenWaiter_ready : wokenWaiter.bare = true ∧ wokenWaiter.canRun 3 none [0] [] = true ∧
    (wokenWaiter.tm.bar 0).valid = false := by
  decide +kernel

/-- R180: a woken thread evaluates `done` alone again, and phase 0 has completed. -/
theorem exec_wokenWaiter : exec (.barWait 0 0) wokenWaiter = .next wokenWaiter.advance :=
  (barWait_woken rfl).trans (waitPhase_done _ (fun _ => rfl) (by decide +kernel))

theorem wokenWaiter_not_stopped : wokenWaiter.advance.th.status = .ready ∧
    (wokenWaiter.trap { wokenWaiter.here with cause := 0x02, detail := 1 }).th.status = .stopped := by
  decide +kernel

/-- Refutes O41: a `bar.wait` of an invalid register is to raise ILLEGAL_FIELD even in a thread that has waited in it and is
woken (its `held` is not shut out there), where R180 has it test its phase alone. -/
theorem not_barrierWords : ¬ Obligations.BarrierWords := by
  unfold Obligations.BarrierWords
  intro h
  obtain ⟨bare, run, invalid⟩ := wokenWaiter_ready
  obtain ⟨words, -⟩ := h wokenWaiter 0 0 0 0 bare
  obtain ⟨-, -, -, -, -, refused, -⟩ := words run
  have same := exec_wokenWaiter.symm.trans (refused invalid)
  obtain ⟨ready, stopped⟩ := wokenWaiter_not_stopped
  injection same with same
  have := ready.symm.trans ((congrArg (fun t => t.th.status) same).trans stopped)
  exact absurd this (by decide)

end Sys2Proof.Machine
end

section
/-! PROOF. Copy words: the scope of the operation that a copy of team scope leaves (R188, R246). -/

namespace Sys2Proof.Machine

section
variable {s : State} {e : Bool} {d a b : Nat}

theorem queued_runs {which : OpKind → Bool} {size : Nat} (body : State → Out) (h : s.room which size = true) :
    s.queued which size body = body s := if_pos (of_decide_eq_true h)

/-- A copy word whose front passes is its body, with its control word (R188). -/
theorem copyWord_runs {f : CopyForm} {reads : List Nat} (body : State → CopyCtl → Out) (bare : s.bare = true)
    (free : s.free e = true) (room : s.room OpKind.isCopy 32 = true)
    (run : s.canRun 3 (some .copy) (reads ++ [b]) [] = true) (control : s.tm.ctlCheck f (CopyCtl.of (s.th.reg b)) = none) :
    s.copyWord e f reads b body = body s (CopyCtl.of (s.th.reg b)) := by
  refine ((trackedMem_runs _ free run (prefixOk_bare bare)).trans (queued_runs _ room)).trans ?_
  dsimp only
  rw [control]

/-- R136, R170: a range of the acting team's own scratchpad passes both checks. -/
theorem ownRange_runs {o n : Nat} (body : State → Out) (h : s.rangeOk o n = true) :
    s.copyRange s.tm o n (fun s => s.copyStash o n body) = body s := by
  obtain ⟨inside, plain⟩ : s.tm.scratchCheck o n 16 = none ∧ s.tm.overlapsStash o n = false := by
    simpa [State.rangeOk] using h
  unfold State.copyRange
  rw [inside]
  exact if_neg (by simp [plain])

/-- R189: a `cpy` whose checks pass leaves one operation, whose scope is that of its fork and join (log entry 109). -/
theorem cpy_runs (bare : s.bare = true) (free : s.free e = true) (room : s.room OpKind.isCopy 32 = true)
    (run : s.canRun 3 (some .copy) [d, a, a + 1, b] [] = true)
    (control : s.tm.ctlCheck .cpy (CopyCtl.of (s.th.reg b)) = none)
    (range : s.rangeOk (s.th.reg d).toNat (16 * (CopyCtl.of (s.th.reg b)).len) = true)
    (address : addrOk (s.th.pair a) 16 = true) :
    let c := CopyCtl.of (s.th.reg b)
    let off := (s.th.reg d).toNat
    let ps := if c.dir then piecesOut s.tm.uid off (s.th.pair a) (16 * c.len)
              else piecesIn (s.th.pair a) s.tm.uid off (16 * c.len)
    exec (.cpy e d a b) s = .next (s.addOp e [] none (.copy ps c.bar?) c.memScope) := by
  intro c off ps
  show execCpy e d a b s = _
  refine (copyWord_runs (reads := [d] ++ pairRegs a) _ bare free room run control).trans ?_
  exact (ownRange_runs _ range).trans (withAddr_runs _ address)

theorem addOp_scope_injective {rs : List Nat} {pa : Option Nat} {k : OpKind} {c c' : Scope}
    (h : s.addOp e rs pa k c = s.addOp e rs pa k c') : c = c' := by
  simpa [State.addOp] using congrArg (fun t => t.ops.map Op.scope) h

end

/-- `cpy v0, v1, v3` of 16 bytes of memory at 0 to scratchpad at 0, with team scope in its control word. -/
def teamScopeCopy : State :=
  let s := State.reset.placeWord 0xA4000103
  { s with th := s.th.setReg 3 1, tm := { s.tm with sgran := 1 } }

theorem teamScopeCopy_ready : teamScopeCopy.bare = true ∧ teamScopeCopy.free false = true ∧
    teamScopeCopy.room OpKind.isCopy 32 = true ∧ teamScopeCopy.canRun 3 (some .copy) [0, 1, 2, 3] [] = true ∧
    teamScopeCopy.tm.ctlCheck .cpy (CopyCtl.of (teamScopeCopy.th.reg 3)) = none ∧
    teamScopeCopy.rangeOk (teamScopeCopy.th.reg 0).toNat (16 * (CopyCtl.of (teamScopeCopy.th.reg 3)).len) = true ∧
    addrOk (teamScopeCopy.th.pair 1) 16 = true := by
  decide +kernel

theorem teamScopeCopy_scope : (CopyCtl.of (teamScopeCopy.th.reg 3)).scope = .team ∧
    (CopyCtl.of (teamScopeCopy.th.reg 3)).memScope = .cluster := by
  decide +kernel

/-- Refutes O43: the operation of a copy of team scope is to have the scope of its control word, and has cluster scope. -/
theorem not_copyIssue : ¬ Obligations.CopyIssue := by
  unfold Obligations.CopyIssue
  rintro ⟨-, words⟩
  obtain ⟨bare, free, room, run, control, range, address⟩ := teamScopeCopy_ready
  obtain ⟨moves, -⟩ := words teamScopeCopy false 0 1 3 bare free room
  obtain ⟨cpy, -⟩ := moves run
  have same := (cpy_runs bare free room run control range address).symm.trans (cpy control range address)
  injection same with same
  have clash := addOp_scope_injective same
  obtain ⟨team, cluster⟩ := teamScopeCopy_scope
  rw [team, cluster] at clash
  exact absurd clash (by decide)

end Sys2Proof.Machine
end

section
/-! PROOF. Matrix and code-table words: the checks before the presence wait, the turns of the weight tiles, and the words
that take a record from memory or leave one there (R193, R195, R196, R198, R199). -/

namespace Sys2Proof.Machine

/-! ### The turns of the weight tiles (R154, R196) -/

section
variable {m : Team} {p : MatParams} {int3 : Bool} {t : Nat}

theorem firstBad_one {o n : Nat} : m.firstBad [(o, n)] = none ↔ ∀ w ∈ m.badWords, bytesMeet (4 * w) 4 o n = false := by
  simp [Team.firstBad]

/-- A range that meets no bad word has no part that meets one. -/
theorem firstBad_part {o n k : Nat} (h : k ≤ n) (sound : m.firstBad [(o, n)] = none) : m.firstBad [(o, k)] = none := by
  refine firstBad_one.2 fun w hw => ?_
  have apart := firstBad_one.1 sound w hw
  simp only [bytesMeet, Bool.and_eq_false_iff, decide_eq_false_iff_not] at apart ⊢
  omega

theorem tileRead_le (w : Nat) : tileRead w ≤ 256 := by
  unfold tileRead
  split
  · exact le_rfl
  · exact Nat.min_le_right _ _
  · exact Nat.zero_le _

theorem bitmapWords_dense (h : p.sparsity = 0) : m.bitmapWords p = [] := if_pos h

section
variable (bytes : m.firstBad [(p.wofs + 256 * t, 256)] = none)
include bytes

/-- A tile of sound bytes that does not decode stops its turn. -/
theorem weightFault_decode {f : DecodeFault} (h : m.weightTile p int3 t = .error f) :
    m.weightFault p int3 t = some (.decode t f) := by
  unfold Team.weightFault
  rw [firstBad_part (tileRead_le _) bytes, h]

/-- After a tile that decodes, a sound bitmap with a wrong count of set bits stops the turn. -/
theorem weightFault_bitmap {b : List Byte} {w : Word} (map : p.sparsity ≠ 0 → m.firstBad [(p.mofs, 256)] = none)
    (h : m.weightTile p int3 t = .ok b) (hw : w ∈ m.bitmapWords p) (wrong : popcount32 w ≠ keptOf p.sparsity) :
    m.weightFault p int3 t = some .bitmap := by
  have sparse : p.sparsity ≠ 0 := fun dense => by simp [bitmapWords_dense dense] at hw
  have bad : p.badMap (m.bitmapWords p) = true := List.any_eq_true.2 ⟨w, hw, by simpa using wrong⟩
  unfold Team.weightFault
  rw [firstBad_part (tileRead_le _) bytes, h]
  simp only [if_neg sparse, map sparse, bad, if_true]

end

/-- The first tile whose turn has a fault stops the operation with it. -/
theorem weightTiles_stops {f : WeightFault} (inside : t < p.tiles) (before : ∀ j, j < t → m.weightFault p int3 j = none)
    (fault : m.weightFault p int3 t = some f) : m.weightTiles p int3 = .error f := by
  obtain ⟨k, tiles⟩ := Nat.exists_eq_add_of_lt inside
  have first : (List.range p.tiles).findSome? (m.weightFault p int3) = some f := by
    rw [tiles, Nat.add_assoc, List.range_add, List.findSome?_append,
      List.findSome?_eq_none_iff.2 fun j hj => before j (List.mem_range.1 hj), List.range_succ_eq_map]
    simp [fault]
  unfold Team.weightTiles
  rw [first]

end

/-! ### The words of the matrix queue (R193, R195, R196, R198) -/

theorem matRange_fits {m : Team} {o n : Nat} (aligned : o % 256 = 0) (inside : o + n ≤ 4096 * m.sgran)
    (plain : m.overlapsStash o n = false) : m.matRange o n = none := by
  unfold Team.matRange
  rw [if_neg (by simp [aligned]), if_neg (by omega), if_neg (by simp [plain])]

/-- The parameter block that a matrix word of the acting thread finds at the offset in `v[p]` (R193). -/
def State.matParams (s : State) (p : Nat) : MatParams := MatParams.of (s.tm.scratchBytes (s.th.reg p).toNat 32)

/-- A matrix word of the acting thread meets no stall, and no fault of the checks that R193 makes before the presence wait. -/
structure State.MatReady (s : State) (e mmf : Bool) (a p : Nat) (af wf : Elem) : Prop where
  bare : s.bare = true
  free : s.free e = true
  room : s.room OpKind.isMatrix 8 = true
  run : s.canRun 3 (some .matrix) [p] [] = true
  fresh : s.th.block = none
  aligned : (s.th.reg p).toNat % 32 = 0
  inside : (s.th.reg p).toNat + 32 ≤ 4096 * s.tm.sgran
  present : s.absent s.tm.uid ((s.th.reg p).toNat / 256) = false
  sound : s.tm.badIn (s.th.reg p).toNat 32 = false
  checks : s.tm.matChecks (s.matParams p) mmf (s.th.reg p).toNat a s.th.window af wf = none
  hazard : s.matHazard ((s.matParams p).regs mmf a af wf) = none
  idle : s.pendingSeats ((s.matParams p).regs mmf a af wf) = 0

section
variable {s : State} {e mmf : Bool} {a p sel : Nat} {af wf : Elem}

/-- The word goes on to the presence wait. -/
theorem matWord_decodes (h : s.MatReady e mmf a p af wf) :
    s.matWord e mmf a p sel af wf = s.matDecode e mmf a sel af wf (s.tm.scratchBytes (s.th.reg p).toNat 32) := by
  have idle := h.idle
  have hazard := h.hazard
  have checks := h.checks
  unfold State.matParams at idle hazard checks
  refine ((trackedMem_runs _ h.free h.run (prefixOk_bare h.bare)).trans (queued_runs _ h.room)).trans ?_
  rw [h.fresh]
  show s.matCheck e mmf a sel (s.th.reg p).toNat af wf = _
  unfold State.matCheck
  rw [if_neg (by simp [h.aligned]), if_neg (by have := h.inside; omega), if_neg (by simp [h.present]),
    if_neg (by simp [h.sound])]
  simp only [checks, hazard, idle]
  rfl

/-- A plain multiply reads no tile: it enters the queue. -/
theorem matDecode_mmf (block : List Byte) :
    s.matDecode e true a sel af wf block = s.matEnter e true a sel af wf (MatParams.of block) [] [] := rfl

section
variable {block : List Byte}
  (present : s.firstAbsent s.tm.uid
    (((MatParams.of block).ranges false).filter (fun r => r.1 != (MatParams.of block).aofs)) = none)
include present

theorem matDecode_validated {ts : List (List Byte)}
    (tiles : s.tm.weightTiles (MatParams.of block) (wf == .int3) = .ok ts) :
    s.matDecode e false a sel af wf block =
      s.matEnter e false a sel af wf (MatParams.of block) ts (s.tm.bitmapWords (MatParams.of block)) := by
  simp [State.matDecode, present, tiles]

theorem matDecode_bitmap (fault : s.tm.weightTiles (MatParams.of block) (wf == .int3) = .error .bitmap) :
    s.matDecode e false a sel af wf block = s.faultDetail 0x02 10 := by
  simp [State.matDecode, present, fault]

theorem matDecode_bad {w : Nat} (fault : s.tm.weightTiles (MatParams.of block) (wf == .int3) = .error (.bad w)) :
    s.matDecode e false a sel af wf block = s.faultAt 0x30 (BitVec.ofNat 64 (4 * w)) 0 := by
  simp [State.matDecode, present, fault]

theorem matDecode_decode {t : Nat} {f : DecodeFault}
    (fault : s.tm.weightTiles (MatParams.of block) (wf == .int3) = .error (.decode t f)) :
    s.matDecode e false a sel af wf block =
      .next (s.trap { s.here with cause := f.cause, bitoff := BitVec.ofNat 32 f.bitoff, tensor := 0x00FF0000,
                                  tile := BitVec.ofNat 64 t }) := by
  simp [State.matDecode, present, fault]

end

theorem accClr_runs (bare : s.bare = true) (run : s.canRun 3 (some .matrix) [p] [] = true) (free : s.free e = true)
    (room : s.room OpKind.isMatrix 8 = true) (range : s.tm.matRange (s.th.reg p).toNat 2048 = none) :
    exec (.accClr e p) s = .next (s.addOp e [] none (.accClr (s.th.reg p).toNat) .team) := by
  refine ((trackedMem_runs _ free run (prefixOk_bare bare)).trans (queued_runs _ room)).trans ?_
  dsimp only
  rw [range]

end

/-! ### Code tables (R199) -/

section
variable {s : State} {va : Addr} {n : Nat}

theorem withRecord_runs (body : State → Out) (h : s.tm.recordLine va n = none) : s.withRecord va n body = body s := by
  unfold State.withRecord
  rw [h]

theorem storeParts_th (s : State) (va : Addr) (b : List Byte) (n : Nat) : (s.storeParts va b n).2.th = s.th := by
  induction n with
  | zero => rfl
  | succ n ih =>
    unfold State.storeParts
    split
    · next e => rwa [e] at ih
    · next u e =>
      rw [e] at ih
      dsimp only
      split
      · split <;> exact ih
      · split <;> next e' => exact (translate_th e').trans ih

/-- A record that lies in no window leaves the team as it was. -/
theorem storeRecord_outside {m : Team} (b : List Byte) (h : m.windowed va n = false) : m.storeRecord va b n = m := by
  have outside : ∀ i < n, m.stashVa (va + BitVec.ofNat 64 (32 * i)) = none := by
    simpa [Team.windowed] using h
  clear h
  unfold Team.storeRecord
  induction n with
  | zero => rfl
  | succ n ih =>
    rw [List.range_succ, List.foldl_append, ih fun i hi => outside i (by omega)]
    simp [outside n (by omega)]

/-- A word that waits for its thread's accesses only where `c` says so. -/
theorem waitFor_guarded {c : Bool} {kind : Op → Bool} (body : State → Out) (settled : c = true → s.settled = true)
    (sub : ∀ o, kind o = true → o.accesses = true) : s.waitFor (fun o => c && kind o) body = body s := by
  cases c with
  | false => exact waitFor_runs _ (by simp [State.awaited])
  | true => exact waitFor_settled _ (settled rfl) sub

variable {e : Bool} {a slot : Nat} (bare : s.bare = true) (free : s.free e = true) (address : addrOk (s.th.pair a) 32 = true)
  (whole : s.tm.recordLine (s.th.pair a) 9 = none)
include bare free address whole

theorem ctld_runs {r : List Byte} {t : State} (run : s.canRun 3 (some .matrix) [a, a + 1] [] = true)
    (written : s.written = true) (bytes : s.recordBytes (s.th.pair a) 9 = (.ok r, t)) (valid : tableFault r = none) :
    exec (.ctld e a slot) s = .next (t.addOp e [] none (.ctld slot r)) := by
  refine ((trackedMem_runs _ free run (prefixOk_bare bare)).trans (withAddr_runs _ address)).trans ?_
  refine ((waitFor_runs _ (List.isEmpty_iff.1 written)).trans (withRecord_runs _ whole)).trans ?_
  rw [bytes]
  dsimp only
  rw [valid]

theorem ctst_runs {ps : List (Addr × Nat × List Byte)} {t : State} (run : s.canRun 3 none [a, a + 1] [] = true)
    (settled : s.tm.windowed (s.th.pair a) 9 = true → s.settled = true)
    (parts : s.storeParts (s.th.pair a) ((s.tm.ctabs.getD slot none).getD (List.replicate 288 0)) 9 = (.ok ps, t)) :
    exec (.ctst e a slot) s = .next (State.addOp
      { t with tm := t.tm.storeRecord (s.th.pair a) ((s.tm.ctabs.getD slot none).getD (List.replicate 288 0)) 9 }
      e [] none (.ctst ps)) := by
  refine ((trackedMem_runs _ free run (prefixOk_bare bare)).trans (withAddr_runs _ address)).trans ?_
  refine ((waitFor_guarded _ settled fun _ h => h).trans (withRecord_runs _ whole)).trans ?_
  have th := storeParts_th s (s.th.pair a) ((s.tm.ctabs.getD slot none).getD (List.replicate 288 0)) 9
  dsimp only
  rw [parts] at th ⊢
  dsimp only at th ⊢
  rw [th]

end

/-- Settles O44: a matrix word whose checks pass is what its tiles make of it, and the tile whose turn comes first makes the
fault; `acc.clr` and the code-table words are their bodies. -/
theorem matrixWords : Obligations.MatrixWords := by
  unfold Obligations.MatrixWords
  intro s e a p sel slot bare o prm enters src
  have entering {i : Instr} {mmf : Bool} {sl : Nat} {af wf : Elem} (is : exec i s = s.matWord e mmf a p sl af wf) :
      enters i mmf sl af wf (if mmf then [] else src) := by
    intro free room run fresh aligned inside present sound checks hazard idle lines ts ws valid
    have decodes := is.trans (matWord_decodes
      ⟨bare, free, room, run, fresh, aligned, inside, present, sound, checks, hazard, idle⟩)
    cases mmf with
    | true =>
      obtain ⟨rfl, rfl⟩ := valid
      exact decodes.trans (matDecode_mmf _)
    | false =>
      obtain ⟨tiles, rfl⟩ := valid
      exact decodes.trans (matDecode_validated lines tiles)
  refine ⟨entering rfl, entering rfl, entering rfl, entering rfl, entering rfl, entering rfl, entering rfl, entering rfl,
    entering rfl, entering rfl, ?_, ?_, ?_, ?_, ?_, ?_⟩
  · exact fun run free room aligned inside plain => accClr_runs bare run free room (matRange_fits aligned inside plain)
  · intro free room run fresh aligned inside present sound checks hazard idle lines stops
    have decodes : exec (.mmqI4E4m3 e a p sel) s = _ := matWord_decodes
      ⟨bare, free, room, run, fresh, aligned, inside, present, sound, checks, hazard, idle⟩
    exact ⟨fun fault => decodes.trans (matDecode_bitmap lines fault), fun w fault => decodes.trans (matDecode_bad lines fault),
      fun t f fault => decodes.trans (matDecode_decode lines fault)⟩
  · intro m int3 t inside bytes map before
    exact ⟨fun f fault => weightTiles_stops inside before (weightFault_decode bytes fault),
      fun b w decoded hw wrong => weightTiles_stops inside before (weightFault_bitmap bytes map decoded hw wrong)⟩
  · exact fun r t run free address written whole bytes valid => ctld_runs bare free address whole run written bytes valid
  · intro ps t run free address settled whole b parts
    exact ⟨ctst_runs bare free address whole run settled parts, storeRecord_outside b⟩
  · exact fun run => word_runs _ run (prefixOk_bare bare)

end Sys2Proof.Machine
end

section
/-! PROOF. Monitor waits, fences and cache maintenance: what a read at its performing point leaves of the acting thread, and
the waits of a fence (R220, R223, R237, R277, R280 to R282). -/

namespace Sys2Proof.Machine

/-! ### A read at its performing point (R221) -/

section
variable (s : State)

theorem leaveLine_outer (core l : Nat) : (s.leaveLine core l).outer = s.outer := by
  have sent : ((s.flushRegs (clusterOf core) l 256).writeBack (clusterOf core) l 256).outer = s.outer :=
    (writeBack_outer _ _ _ _).trans (flushRegs_outer s _ _ _)
  unfold State.leaveLine
  generalize (s.flushRegs (clusterOf core) l 256).writeBack (clusterOf core) l 256 = t at sent
  exact sent

theorem beforeHome_outer (core pa n : Nat) : (s.beforeHome core pa n).outer = s.outer := by
  have flushed := flushRegs_outer s (clusterOf core) pa n
  unfold State.beforeHome
  dsimp only
  split
  · exact (settleLine_outer _ _).trans ((leaveLine_outer _ _ _).trans flushed)
  · exact flushed

theorem viewUnit_outer (v : View) (u : Nat) : (s.viewUnit v u).2.outer = s.outer := by
  unfold State.viewUnit
  dsimp only
  split <;> rfl

/-- Units that a view reads one after another. -/
theorem viewUnits_outer (v : View) (us : List Nat) (b : List Byte) :
    (us.foldl (fun x u => (x.1 ++ (x.2.viewUnit v u).1, (x.2.viewUnit v u).2)) (b, s)).2.outer = s.outer := by
  induction us generalizing s b with
  | nil => rfl
  | cons u us ih => exact (ih _ _).trans (viewUnit_outer s v u)

theorem viewBytes_outer (v : View) (pa n : Nat) : (s.viewBytes v pa n).2.outer = s.outer := by
  unfold State.viewBytes
  split
  · rfl
  · exact viewUnits_outer s v _ _

theorem homeAt_outer (v : View) (core pa n : Nat) : (s.homeAt v core pa n).2.outer = s.outer :=
  (viewBytes_outer _ _ _ _).trans (beforeHome_outer _ _ _ _)

end

theorem tm_of_outer {s t : State} (h : t.outer = s.outer) : t.tm = s.tm :=
  (congrArg State.tm h : t.outer.tm = s.outer.tm)

/-! ### Monitor waits (R223 to R225, R277) -/

section
variable {s t : State} {d a : Nat} {f : Leaf} {pa : Nat}

theorem heldWait_unheld {x : Thread} (h : x.held = none) : x.heldWait = none := by
  unfold Thread.heldWait
  rw [h]

/-- A wait that may read its word: the comparison decides between the acquire and the park. -/
theorem mwaitWord_reads (cmp : Nat) (bare : s.bare = true) (acq : s.acqPending = false) (fresh : s.th.held = none)
    (run : s.canRun 4 none [a, a + 1, d] [] = true) (ok : s.wordOk (s.th.pair a) 4 = true) (written : s.written = true)
    (idle : s.walkBusy s.tm.core s.tm.ctx (s.th.pair a) = false)
    (known : s.translate s.tm.core s.tm.ctx (s.th.pair a) .read = (.ok (f, pa), t))
    (readable : t.homeReadable s.tm.core (s.th.pair a) pa 4 = .ok ()) :
    let u := (t.homeAt none s.tm.core pa 4).2
    s.mwaitWord cmp d a =
      if cmpHolds cmp (leWord (t.homeAt none s.tm.core pa 4).1) (s.th.reg d) then
        .next (u.acquireStep s.tm.core s.tm.uid .device).advance
      else .next (match u.armMonitor pa cmp (s.th.reg d) s.tm.ctx s.tm.uid s.th.key.group with
        | some x => x.park (.mwait (s.th.pair a) cmp (s.th.reg d))
        | none => (u.withTh fun x => { x with poll := 4096 }).park (.mwaitOverflow (s.th.pair a) cmp (s.th.reg d))) := by
  intro u
  have translated : t.outer = s.outer := by
    have kept := translate_outer s s.tm.core s.tm.ctx (s.th.pair a) .read
    rwa [known] at kept
  have read : u.outer = s.outer := (homeAt_outer t none s.tm.core pa 4).trans translated
  refine (memWord_runs _ run (prefixOk_bare bare) acq).trans ?_
  rw [heldWait_unheld fresh]
  refine (wordAddr_runs _ ok).trans ?_
  refine (waitFor_runs _ (List.isEmpty_iff.1 written)).trans ((withPa_translated _ idle known).trans ?_)
  dsimp only
  rw [tm_of_outer translated, readable]
  dsimp only
  rw [tm_of_outer read, th_of_outer read]
  split
  · rfl
  · split
    · next armed => rw [armed]
    · next full => rw [full]

end

/-! ### Fences (R237, R280) -/

section
variable {s : State} {writes : Bool} {done : State → State}

/-- The operations that a fence waits for. -/
def fenced (writes : Bool) (o : Op) : Bool := o.kind.isRead || (writes && o.kind.isWrite)

variable (bare : s.bare = true) (run : s.canRun 4 none [] [] = true)
include bare run

theorem fence_waits : s.fence writes done = s.waitFor (fenced writes) (fun s => .next (done s).advance) :=
  word_runs _ run (prefixOk_bare bare)

theorem fence_runs (h : s.awaited (fenced writes) = []) : s.fence writes done = .next (done s).advance :=
  (fence_waits bare run).trans (waitFor_runs _ h)

end

section
variable {s : State} {kind : Op → Bool} {body : State → Out}

/-- Outside a handler a word waits for nothing where each of its operations of the kind has faulted and none is a load that
`tret` is to perform again (R33, R280). -/
theorem awaited_faulted
    (h : ∀ o ∈ s.ops, o.key = s.th.key → kind o = true → o.fault.isSome = true ∧ o.kind.replays = false) :
    s.awaited kind = [] := by
  refine List.filter_eq_nil_iff.2 fun o ho => ?_
  simp only [Bool.and_eq_true, beq_iff_eq]
  rintro ⟨⟨⟨key, is⟩, owed⟩, -⟩
  obtain ⟨faulted, once⟩ := h o ho key is
  simp [Option.isNone_eq_false_iff.2 faulted, once] at owed

/-- The fault that a wait may deliver: of an operation it waits for, or of one that these wait for (log entry 84). -/
def State.owing (s : State) (kind : Op → Bool) : Option Op :=
  s.ops.find? fun p => p.fault.isSome && ((s.awaited kind).contains p ||
    ((s.awaited kind).filter (fun o => o.fault.isNone)).any p.owedTo)

/-- Whether nothing is left to wait for but faulted loads and what waits for them (log entry 84). -/
theorem left_held_iff :
    ((s.awaited kind).filter (fun o => o.fault.isNone)).all (fun o => (s.heldBack s.th.key).contains o) = true ↔
      ∀ o ∈ s.awaited kind, o.fault = none → o ∈ s.heldBack s.th.key := by
  simp only [List.all_eq_true, List.mem_filter, Option.isNone_iff_eq_none, List.contains_iff_mem, and_imp]

theorem waitFor_waits (mine : s.awaited kind ≠ []) : s.waitFor kind body =
    match s.owing kind with
    | some p =>
      if (∀ o ∈ s.awaited kind, o.fault = none → o ∈ s.heldBack s.th.key) ∧ s.faultReady p = true then
        .next { s.deliver s.th s.tm p (p.fault.getD s.here) (s.header, s.wordIdx) with pfx := none }
      else .next s.stall
    | none => .next s.stall := by
  unfold State.waitFor
  dsimp only
  rw [if_neg (by simpa using mine)]
  change (match s.owing kind with | some p => _ | none => _) = _
  cases s.owing kind with
  | none => rfl
  | some p => simp only [Bool.and_eq_true, left_held_iff]

theorem waitFor_stalls (bare : s.bare = true) (mine : s.awaited kind ≠ [])
    (h : (¬ ∀ o ∈ s.awaited kind, o.fault = none → o ∈ s.heldBack s.th.key) ∨ s.owing kind = none) :
    s.waitFor kind body = .next s := by
  rw [waitFor_waits mine, stall_bare bare]
  rcases h with free | nothing
  · split
    · exact if_neg fun both => free both.1
    · rfl
  · rw [nothing]

theorem waitFor_delivers {p : Op} (bare : s.bare = true) (mine : s.awaited kind ≠ [])
    (held : ∀ o ∈ s.awaited kind, o.fault = none → o ∈ s.heldBack s.th.key) (owing : s.owing kind = some p) :
    s.waitFor kind body = .next (if s.faultReady p then
      { s.deliver s.th s.tm p (p.fault.getD s.here) (s.header, s.wordIdx) with pfx := none } else s) := by
  rw [waitFor_waits mine, owing, stall_bare bare]
  by_cases ready : s.faultReady p = true
  · exact (if_pos ⟨held, ready⟩).trans (by rw [if_pos ready])
  · exact (if_neg fun both => ready both.2).trans (by rw [if_neg ready])

/-- What is owed is owed to an operation that the word waits for. -/
theorem owing_awaits {p : Op} (h : s.owing kind = some p) : s.awaited kind ≠ [] := by
  intro idle
  have owes := List.find?_some h
  simp [idle] at owes

end

/-! ### Cache maintenance (R281) -/

section
variable {s : State} {e : Bool} {d a k : Nat} {c : Scope}

theorem range_refused_iff {va : Addr} {n : Nat} : (!addrOk va 1 || decide (2 ^ 57 < va.toNat + n)) = true ↔
    ¬ (va.toNat < 2 ^ 57 ∧ va.toNat + n ≤ 2 ^ 57) := by
  simp [addrOk, Nat.mod_one]
  omega

theorem maintWord_runs (bare : s.bare = true) (run : s.canRun 4 none [a, a + 1, d] [] = true) (free : s.free e = true) :
    s.maintWord k e d a c = if (s.th.pair a).toNat < 2 ^ 57 ∧ (s.th.pair a).toNat + (s.th.reg d).toNat ≤ 2 ^ 57 then
        .next (s.addOp e [] none (.cmaint k c (s.th.pair a) (s.th.reg d).toNat))
      else .next (s.trap { s.here with cause := 0x09, vaddr := s.th.pair a }) := by
  refine (trackedMem_runs _ free run (prefixOk_bare bare)).trans ?_
  dsimp only
  by_cases ok : (s.th.pair a).toNat < 2 ^ 57 ∧ (s.th.pair a).toNat + (s.th.reg d).toNat ≤ 2 ^ 57
  · exact (if_neg fun refused => range_refused_iff.1 refused ok).trans (if_pos ok).symm
  · exact (if_pos (range_refused_iff.2 ok)).trans (if_neg ok).symm

end

/-- Settles O46: `mwait` by its comparison, a fence by what `waitFor` makes of the operations it waits for, a maintenance
word by its range. -/
theorem monitorsFencesMaintenance : Obligations.MonitorsFencesMaintenance := by
  unfold Obligations.MonitorsFencesMaintenance
  refine ⟨?_, ?_⟩
  · intro s t d a f pa bare acq fresh run ok written idle known readable va v u w waits
    have wait {i : Instr} {cmp : Nat} {holds : Prop} (is : exec i s = s.mwaitWord cmp d a)
        (means : cmpHolds cmp w v = true ↔ holds) : waits i cmp holds := by
      have reads := is.trans (mwaitWord_reads cmp bare acq fresh run ok written idle known readable)
      exact ⟨fun h => reads.trans (if_pos (means.2 h)), fun h => reads.trans (if_neg (mt means.1 h))⟩
    exact ⟨wait rfl beq_iff_eq, wait rfl bne_iff_ne, wait rfl decide_eq_true_iff, wait rfl decide_eq_true_iff,
      wait rfl decide_eq_true_iff, wait rfl decide_eq_true_iff⟩
  · intro s e d a c bare core u va n waited fence
    refine ⟨fun run => ?_, fun run free => ?_⟩
    · have fences {i : Instr} {writes : Bool} (done : State → State) (is : exec i s = s.fence writes done) :
          fence i writes (done s) := by
        refine ⟨fun _ faulted => is.trans (fence_runs bare run (awaited_faulted faulted)),
          fun idle => is.trans (fence_runs bare run idle),
          fun mine h => is.trans ((fence_waits bare run).trans (waitFor_stalls bare mine h)), fun p h owes => ?_⟩
        exact is.trans ((fence_waits bare run).trans (waitFor_delivers bare (owing_awaits owes) h owes))
      exact ⟨fences (·.acquireStep core u c) rfl, fences (·.releaseAt core u c) rfl,
        fences (fun s => (s.releaseAt core u c).acquireStep core u c) rfl⟩
    · exact ⟨maintWord_runs bare run free, maintWord_runs bare run free, maintWord_runs bare run free⟩

end Sys2Proof.Machine
end

section
/-! PROOF. What a cluster writes back, and what home's handling of a registration leaves of owners, of the shared cache and of
the clusters' copies (R215, R217, R218, R231). -/

namespace Sys2Proof.Machine

/-! ### Folds and cells -/

/-- A fact that one element of a list establishes and the others keep holds once the list is done. -/
theorem foldl_of_mem {σ α : Type} {f : σ → α → σ} {P : σ → Prop} {l : List α} {a : α} (h : a ∈ l) (made : ∀ s, P (f s a))
    (kept : ∀ s, ∀ x ∈ l, P s → P (f s x)) (s : σ) : P (l.foldl f s) := by
  obtain ⟨before, after, rfl⟩ := List.append_of_mem h
  rw [List.foldl_append, List.foldl_cons]
  exact List.foldlRecOn after f (made _) fun s hs x hx => kept s x (by simp [hx]) hs

theorem foldl_keeps {σ α β : Type} {f : σ → α → σ} {g : σ → β} (l : List α) (h : ∀ s a, g (f s a) = g s) (s : σ) :
    g (l.foldl f s) = g s :=
  List.foldlRecOn (motive := fun t => g t = g s) l f rfl fun t e a _ => (h t a).trans e

theorem length_eraseDups_le (l : List Nat) : l.eraseDups.length ≤ l.length := by
  match l with
  | [] => exact Nat.le_refl _
  | a :: l =>
    have rest := length_eraseDups_le (l.filter fun b => !b == a)
    have fewer := List.length_filter_le (fun b => !b == a) l
    rw [List.eraseDups_cons, List.length_cons, List.length_cons]
    omega
termination_by l.length
decreasing_by exact Nat.lt_succ_of_le (List.length_filter_le _ _)

/-- A list of which every element is the same one. -/
theorem eraseDups_same {l : List Nat} {u : Nat} (h : ∀ x ∈ l, x = u) (ne : l ≠ []) : l.eraseDups = [u] := by
  cases l with
  | nil => exact absurd rfl ne
  | cons a l =>
    obtain rfl := h a List.mem_cons_self
    have rest : (l.filter fun b => !b == a) = [] :=
      List.filter_eq_nil_iff.2 fun x hx => by simp [h x (List.mem_cons_of_mem _ hx)]
    rw [List.eraseDups_cons, rest]
    rfl

theorem cellGet_absent {c : Cells} {a : Nat} (h : ∀ x ∈ c, x.1 ≠ a) : cellGet c a = none := by
  induction c with
  | nil => rfl
  | cons x c ih =>
    unfold cellGet
    rw [if_neg (Ne.symm (h x List.mem_cons_self)), ih fun y hy => h y (List.mem_cons_of_mem _ hy), ite_self]

/-- Bytes put at several addresses leave one as it was where none of them is put there otherwise. -/
theorem cellGet_puts {m : Cells} {l : List Nat} {at_ : Nat → Nat} {val : Nat → Byte} {a : Nat} {v : Byte}
    (h : cellGet m a = some v) (same : ∀ i ∈ l, at_ i = a → val i = v) :
    cellGet (l.foldl (fun m i => cellPut (at_ i) (val i) m) m) a = some v := by
  refine List.foldlRecOn (motive := fun m => cellGet m a = some v) l _ h fun m held i hi => ?_
  by_cases e : at_ i = a
  · rw [e, same i hi e]
    exact cellGet_cellPut_same _ _ _
  · exact (cellGet_cellPut_other _ _ (Ne.symm e)).trans held

theorem cellGet_homeStore_other {s : State} {x a : Nat} {b v : Byte} (h : cellGet s.home a = some v) (ne : a ≠ x)
    (line : lineOf x = lineOf a) : cellGet (s.homeStore x [b]).home a = some v := by
  have outside : a < x ∨ x + [b].length ≤ a := by
    simp only [List.length_singleton]
    omega
  unfold State.homeStore
  rw [linesOf_one (by simp) (by simp only [List.length_singleton]; omega), line]
  exact cellGet_homeRoom ((cellGet_homePut_outside outside).trans h)

/-! ### Clusters and what of them is set (R214) -/

section
variable {s t : State} {k : Cluster} {c d : Nat}

theorem cluster_num (s : State) (c : Nat) : (s.cluster c).num = c := by
  unfold State.cluster
  cases h : s.clusters.find? (fun k => k.num == c) with
  | none => rfl
  | some k => simpa using List.find?_some h

theorem find?_upsert_other {α : Type} {p q : α → Bool} {x : α} (l : List α) (hx : q x = false)
    (hp : ∀ y, p y = true → q y = false) : (upsert p x l).find? q = l.find? q := by
  induction l with
  | nil => simp [upsert, hx]
  | cons y l ih =>
    unfold upsert
    split
    · next hy => rw [List.find?_cons_of_neg (by simp [hx]), List.find?_cons_of_neg (by simp [hp y hy])]
    · rw [List.find?_cons, List.find?_cons, ih]

theorem cluster_setCluster (h : k.num = c) : (s.setCluster k).cluster c = k := by
  subst h
  unfold State.cluster
  rw [State.setCluster_clusters, find?_upsert _ (by simp)]
  rfl

theorem cluster_setCluster_other (h : d ≠ k.num) : (s.setCluster k).cluster d = s.cluster d := by
  unfold State.cluster
  rw [State.setCluster_clusters, find?_upsert_other _ (by simpa using Ne.symm h) (fun j e => ?_)]
  have num : j.num = k.num := by simpa using e
  simpa [num] using Ne.symm h

theorem cluster_congr (h : t.clusters = s.clusters) (c : Nat) : t.cluster c = s.cluster c := by
  unfold State.cluster
  rw [h]

end

/-! ### Writes at home leave the clusters -/

theorem homeToMem_clusters (s : State) (l n : Nat) : (s.homeToMem l n).clusters = s.clusters := by
  unfold State.homeToMem
  dsimp only
  split <;> rfl

theorem homeRoom_clusters (s : State) (l : Nat) : (s.homeRoom l).clusters = s.clusters := by
  unfold State.homeRoom
  dsimp only
  split
  · rfl
  · split
    · rfl
    · exact homeToMem_clusters _ _ _

theorem homeStore_clusters (s : State) (pa : Nat) (b : List Byte) : (s.homeStore pa b).clusters = s.clusters := by
  refine (foldl_keeps _ homeRoom_clusters _).trans ?_
  rw [homePut_frame]

/-- The dirty bytes of a unit as `backUnit` stores them, all eight as one write (R231). -/
def State.backBytesOf (s : State) (k : Cluster) (ds : List Nat) (u : Nat) : State :=
  if ((List.range 8).map (8 * u + ·)).all ds.contains then
    s.homeStore (8 * u) (((List.range 8).map (8 * u + ·)).map (fun a => (cellGet k.bytes a).getD 0))
  else (ds.filter (fun a => a / 8 == u)).foldl (fun s a => s.homeStore a [(cellGet k.bytes a).getD 0]) s

theorem backUnit_eq (s : State) (k : Cluster) (ds : List Nat) (u : Nat) : s.backUnit k ds u =
    if s.linkDown (8 * u) then s.addPoison (8 * u)
    else if k.poison.contains u then (s.backBytesOf k ds u).addPoison (8 * u) else s.backBytesOf k ds u := rfl

theorem backUnit_clusters (s : State) (k : Cluster) (ds : List Nat) (u : Nat) : (s.backUnit k ds u).clusters = s.clusters := by
  have stored : (s.backBytesOf k ds u).clusters = s.clusters := by
    unfold State.backBytesOf
    split
    · exact homeStore_clusters _ _ _
    · exact foldl_keeps _ (fun s a => homeStore_clusters s a _) s
  rw [backUnit_eq]
  split
  · rfl
  · split <;> exact stored

/-- A dirty byte is in the shared cache once its unit has been written back (R215). -/
theorem cellGet_backUnit {s : State} {k : Cluster} {ds : List Nat} {a : Nat} (dirty : a ∈ ds)
    (up : s.linkDown (8 * (a / 8)) = false) :
    cellGet (s.backUnit k ds (a / 8)).home a = some ((cellGet k.bytes a).getD 0) := by
  have stored : cellGet (s.backBytesOf k ds (a / 8)).home a = some ((cellGet k.bytes a).getD 0) := by
    unfold State.backBytesOf
    split
    · have place : a = 8 * (a / 8) + a % 8 := by omega
      have inside : a % 8 < (((List.range 8).map (8 * (a / 8) + ·)).map (fun a => (cellGet k.bytes a).getD 0)).length := by
        simp only [List.length_map, List.length_range]
        omega
      have read := cellGet_homeStore (s := s) (pa := 8 * (a / 8)) inside (by simp; omega)
      rw [← place] at read
      rw [read, List.getD_eq_getElem _ _ inside]
      simp [← place]
    · refine foldl_of_mem (P := fun t : State => cellGet t.home a = some ((cellGet k.bytes a).getD 0))
        (a := a) (List.mem_filter.2 ⟨dirty, by simp⟩) (fun t => ?_) (fun t x hx held => ?_) s
      · exact cellGet_homeStore (s := t) (pa := a) (i := 0) (by simp) (by simp; omega)
      · by_cases e : a = x
        · subst e
          exact cellGet_homeStore (s := t) (pa := a) (i := 0) (by simp) (by simp; omega)
        · have unit : x / 8 = a / 8 := by simpa using (List.mem_filter.1 hx).2
          exact cellGet_homeStore_other held e (by unfold lineOf; omega)
  rw [backUnit_eq, if_neg (by simp [up])]
  split <;> exact stored

/-! ### Write-backs (R215) -/

section
variable {s : State} {c d w a : Nat}

/-- Every byte that a write-back of a word carries lies in the word's unit. -/
theorem backBytes_unit {k : Cluster} {x : Nat} (h : x ∈ s.backBytes k (4 * w) 4) : x / 8 = w / 2 := by
  have dirty {y : Nat} (hy : y ∈ k.dirtyIn (4 * w) 4) : y / 8 = w / 2 := by
    have range : 4 * w ≤ y ∧ y < 4 * w + 4 := by simpa using (List.mem_filter.1 hy).2
    omega
  rcases List.mem_append.1 h with own | rest
  · exact dirty own
  · obtain ⟨u, hu, hx⟩ := List.mem_flatMap.1 rest
    obtain ⟨y, hy, rfl⟩ := List.mem_map.1 (List.mem_eraseDups.1 (List.mem_filter.1 hu).1)
    obtain ⟨i, hi, rfl⟩ := List.mem_map.1 (List.mem_filter.1 hx).1
    have := List.mem_range.1 hi
    have := dirty hy
    omega

theorem mem_backBytes {k : Cluster} (dirty : a ∈ k.dirty) (word : a / 4 = w) : a ∈ s.backBytes k (4 * w) 4 :=
  List.mem_append_left _ (List.mem_filter.2 ⟨dirty, by simp; omega⟩)

theorem writeBack_cluster (s : State) (c pa n : Nat) : (s.writeBack c pa n).cluster c =
    { s.cluster c with dirty := (s.cluster c).dirty.filter (fun a => !(s.backBytes (s.cluster c) pa n).contains a) } := by
  unfold State.writeBack
  extract_lets k ds t u
  split
  · next clean =>
    have all : k.dirty.filter (fun a => !ds.contains a) = k.dirty := by
      rw [List.isEmpty_iff.1 clean]
      exact List.filter_eq_self.2 fun _ _ => rfl
    rw [all]
  · exact cluster_setCluster (s := t) (k := { k with dirty := k.dirty.filter (fun a => !ds.contains a) }) (cluster_num s c)

theorem writeBack_cluster_other (s : State) (pa n : Nat) (h : d ≠ c) : (s.writeBack c pa n).cluster d = s.cluster d := by
  unfold State.writeBack
  extract_lets k ds t u
  split
  · rfl
  · have unset : t.cluster d = s.cluster d := cluster_congr (foldl_keeps _ (fun s u => backUnit_clusters s k ds u) s) d
    exact (cluster_setCluster_other (s := t) (k := { k with dirty := k.dirty.filter (fun a => !ds.contains a) })
      (by rwa [show k.num = c from cluster_num s c])).trans unset

theorem writeBack_clean (s : State) (c : Nat) (word : a / 4 = w) : a ∉ ((s.writeBack c (4 * w) 4).cluster c).dirty := by
  rw [writeBack_cluster]
  intro h
  obtain ⟨dirty, kept⟩ := List.mem_filter.1 h
  simp [mem_backBytes (s := s) dirty word] at kept

/-- A dirty byte of a word is in the shared cache once the word has been written back. -/
theorem writeBack_home (dirty : a ∈ (s.cluster c).dirty) (word : a / 4 = w) (up : s.linkDown (8 * (w / 2)) = false) :
    cellGet (s.writeBack c (4 * w) 4).home a = some ((cellGet (s.cluster c).bytes a).getD 0) := by
  have unit : a / 8 = w / 2 := by omega
  have sent : a ∈ s.backBytes (s.cluster c) (4 * w) 4 := mem_backBytes dirty word
  have units : ((s.backBytes (s.cluster c) (4 * w) 4).map (· / 8)).eraseDups = [a / 8] := by
    refine eraseDups_same (fun x hx => ?_) (List.ne_nil_of_mem (List.mem_map_of_mem sent))
    obtain ⟨y, hy, rfl⟩ := List.mem_map.1 hx
    exact (backBytes_unit hy).trans unit.symm
  unfold State.writeBack
  dsimp only
  rw [if_neg (by simpa using List.ne_nil_of_mem sent), units]
  exact cellGet_backUnit sent (unit ▸ up)

end

/-! ### What clusters keep as words are taken from them (R218, R219) -/

/-- A cluster's linear copies, dirty bytes and owned words are among another's. -/
structure Cluster.Below (k j : Cluster) : Prop where
  owned : k.owned ⊆ j.owned
  dirty : k.dirty ⊆ j.dirty
  bytes : k.bytes ⊆ j.bytes

theorem Cluster.Below.refl (k : Cluster) : k.Below k := ⟨fun _ h => h, fun _ h => h, fun _ h => h⟩

theorem Cluster.Below.trans {k j i : Cluster} (h : k.Below j) (g : j.Below i) : k.Below i :=
  ⟨List.Subset.trans h.owned g.owned, List.Subset.trans h.dirty g.dirty, List.Subset.trans h.bytes g.bytes⟩

/-- A cluster has nothing of a word: neither owned, nor dirty, nor a copy. -/
structure Cluster.Without (k : Cluster) (w : Nat) : Prop where
  owned : w ∉ k.owned
  dirty : ∀ a, a / 4 = w → a ∉ k.dirty
  bytes : ∀ x ∈ k.bytes, x.1 / 4 ≠ w

theorem Cluster.Without.below {k j : Cluster} {w : Nat} (h : j.Without w) (b : k.Below j) : k.Without w :=
  ⟨fun m => h.owned (b.owned m), fun a e m => h.dirty a e (b.dirty m), fun x m => h.bytes x (b.bytes m)⟩

section
variable {s : State} {c d w : Nat}

/-- A cluster once it has given up a word, its dirty bytes apart (R218 step 2). -/
def Cluster.giveUp (k : Cluster) (w : Nat) : Cluster :=
  { k.dropBytes (4 * w) 4 with owned := k.owned.filter (· != w) }

theorem ackRevoke_cluster (s : State) (c w : Nat) :
    (s.ackRevoke c w).cluster c = ((s.writeBack c (4 * w) 4).cluster c).giveUp w :=
  cluster_setCluster (s := s.writeBack c (4 * w) 4) (cluster_num (s.writeBack c (4 * w) 4) c)

theorem ackRevoke_cluster_other (s : State) (w : Nat) (h : d ≠ c) : (s.ackRevoke c w).cluster d = s.cluster d := by
  have num : (((s.writeBack c (4 * w) 4).cluster c).giveUp w).num = c := cluster_num (s.writeBack c (4 * w) 4) c
  exact (cluster_setCluster_other (s := s.writeBack c (4 * w) 4) (h.trans_eq num.symm)).trans (writeBack_cluster_other s _ _ h)

theorem writeBack_below (s : State) (c pa n d : Nat) : ((s.writeBack c pa n).cluster d).Below (s.cluster d) := by
  by_cases h : d = c
  · subst h
    rw [writeBack_cluster]
    exact ⟨fun _ h => h, List.filter_subset_self _, fun _ h => h⟩
  · rw [writeBack_cluster_other s pa n h]
    exact .refl _

theorem ackRevoke_below (s : State) (c w d : Nat) : ((s.ackRevoke c w).cluster d).Below (s.cluster d) := by
  by_cases h : d = c
  · subst h
    have back := writeBack_below s d (4 * w) 4 d
    rw [ackRevoke_cluster]
    exact ⟨List.Subset.trans (List.filter_subset_self _) back.owned, back.dirty,
      List.Subset.trans (List.filter_subset_self _) back.bytes⟩
  · rw [ackRevoke_cluster_other s w h]
    exact .refl _

theorem ackRevoke_without (s : State) (c w : Nat) : ((s.ackRevoke c w).cluster c).Without w := by
  rw [ackRevoke_cluster]
  refine ⟨fun h => ?_, fun a word => writeBack_clean s c word, fun x h => ?_⟩
  · simpa using (List.mem_filter.1 h).2
  · have outside : x.1 < 4 * w ∨ 4 * w + 4 ≤ x.1 := by simpa using (List.mem_filter.1 h).2
    omega

theorem revokeWord_below (s : State) (w d : Nat) : ((s.revokeWord w).cluster d).Below (s.cluster d) := by
  unfold State.revokeWord
  split
  · exact .refl _
  · exact ackRevoke_below _ _ w d

theorem revokeRange_below (s : State) (pa n d : Nat) : ((s.revokeRange pa n).cluster d).Below (s.cluster d) :=
  List.foldlRecOn (motive := fun t : State => (t.cluster d).Below (s.cluster d)) _ _ (.refl _)
    fun t h w _ => (revokeWord_below t w d).trans h

theorem registryRoom_below (s : State) (l d : Nat) : ((s.registryRoom l).cluster d).Below (s.cluster d) := by
  unfold State.registryRoom
  dsimp only
  split
  · exact .refl _
  · split
    · exact .refl _
    · exact revokeRange_below _ _ _ d

/-- The owner of a revoked word. -/
theorem revokeWord_owned {b : Nat} (own : s.ownerOf w = some b) :
    s.revokeWord w = ({ s with revoking := mark s.revoking w } : State).ackRevoke b w := by
  unfold State.revokeWord
  rw [own]

theorem revokeWord_cluster_other (h : s.ownerOf w ≠ some d) : (s.revokeWord w).cluster d = s.cluster d := by
  unfold State.revokeWord
  split
  · rfl
  · next b own => exact ackRevoke_cluster_other _ w fun e => h (own.trans (congrArg some e.symm))

theorem linkDown_of_outer {t : State} (h : t.outer = s.outer) (pa : Nat) : t.linkDown pa = s.linkDown pa := by
  have links : t.links = s.links := (congrArg State.links h : t.outer.links = s.outer.links)
  unfold State.linkDown
  rw [links]

/-- A dirty byte of a revoked word is in the shared cache (R218 step 2). -/
theorem revokeWord_home {a b : Nat} (own : s.ownerOf w = some b) (dirty : a ∈ (s.cluster b).dirty) (word : a / 4 = w)
    (up : s.linkDown (8 * (w / 2)) = false) :
    cellGet (s.revokeWord w).home a = some ((cellGet (s.cluster b).bytes a).getD 0) := by
  rw [revokeWord_owned own]
  exact writeBack_home (s := { s with revoking := mark s.revoking w }) dirty word up

/-- Revoking one word leaves the owners of the others. -/
theorem revokeWord_ownerOf_other {x : Nat} (s : State) (h : x ≠ w) : (s.revokeWord w).ownerOf x = s.ownerOf x := by
  by_cases own : s.ownerOf w = none
  · unfold State.revokeWord
    rw [own]
  · unfold State.ownerOf
    rw [revokeWord_registry s w own, List.find?_filter]
    congr 2
    funext e
    by_cases ex : e.1 = x
    · simp [ex, h]
    · simp [ex]

end

end Sys2Proof.Machine
end

section
/-! PROOF. Registrations (R217, R218, R234; log entry 108): owners, dirty bytes and copies once home has handled one. -/

namespace Sys2Proof.Machine

/-! ### Room in the registry (R217) -/

section
variable {s : State} {c d w v : Nat}

/-- A line that has a word in the registry has its place there. -/
theorem registryRoom_known {l : Nat} (h : ∃ e ∈ s.registry, lineOf (4 * e.1) = l) : s.registryRoom l = s := by
  have known : ((s.registry.map (fun e => lineOf (4 * e.1))).eraseDups).contains l = true := by
    rw [List.contains_iff_mem, List.mem_eraseDups]
    exact List.mem_map.2 h
  unfold State.registryRoom
  dsimp only
  rw [if_pos (by rw [known]; rfl)]

/-- A registry of fewer than 16 words has room in every set. -/
theorem registryRoom_small {l : Nat} (h : s.registry.length < 16) : s.registryRoom l = s := by
  have few := length_eraseDups_le (s.registry.map (fun e => lineOf (4 * e.1)))
  rw [List.length_map] at few
  unfold State.registryRoom
  dsimp only
  rw [if_pos (by rw [decide_eq_true (few.trans_lt h), Bool.or_true])]

/-- Revoking a word of a small registry leaves it small. -/
theorem registryRoom_revoked {l b : Nat} (h : s.registry.length < 16) (own : s.ownerOf w = some b) :
    (s.revokeWord w).registryRoom l = s.revokeWord w := by
  refine registryRoom_small ?_
  rw [revokeWord_registry s w (by simp [own])]
  exact (List.length_filter_le _ _).trans_lt h

/-! ### Words that change hands (R218 steps 2 and 3) -/

theorem grant_registry (s : State) (c w : Nat) :
    (s.grant c w).registry = (w, c) :: (s.registryRoom (lineOf (4 * w))).registry := rfl

theorem grant_home (s : State) (c w : Nat) : (s.grant c w).home = (s.registryRoom (lineOf (4 * w))).home := rfl

theorem refreshWord_cluster_other (s : State) (w : Nat) (h : d ≠ c) : (s.refreshWord c w).cluster d = s.cluster d :=
  cluster_setCluster_other (h.trans_eq (cluster_num s c).symm)

theorem grant_cluster_other (s : State) (w : Nat) (h : d ≠ c) :
    (s.grant c w).cluster d = (s.registryRoom (lineOf (4 * w))).cluster d := by
  unfold State.grant
  generalize s.registryRoom (lineOf (4 * w)) = t
  have num := cluster_num (t.refreshWord c w) c
  exact (cluster_setCluster_other (s := t.refreshWord c w)
    (k := { (t.refreshWord c w).cluster c with owned := w :: ((t.refreshWord c w).cluster c).owned })
    (h.trans_eq num.symm)).trans (refreshWord_cluster_other t w h)

theorem grant_cluster (s : State) (c w : Nat) : (s.grant c w).cluster c =
    { ((s.registryRoom (lineOf (4 * w))).refreshWord c w).cluster c with
      owned := w :: (((s.registryRoom (lineOf (4 * w))).refreshWord c w).cluster c).owned } :=
  cluster_setCluster (s := (s.registryRoom (lineOf (4 * w))).refreshWord c w) (by exact cluster_num _ c)

/-- A byte that the new owner has not written comes from home (R218). -/
theorem refreshWord_bytes {a : Nat} (word : a / 4 = w) (clean : a ∉ (s.cluster c).dirty) :
    cellGet ((s.refreshWord c w).cluster c).bytes a = some (s.homeByte a) := by
  have place : 4 * w + a % 4 = a := by omega
  unfold State.refreshWord
  dsimp only
  rw [cluster_setCluster (by exact cluster_num s c)]
  dsimp only
  refine foldl_of_mem (P := fun m : Cells => cellGet m a = some (s.homeByte a)) (a := a % 4)
    (List.mem_range.2 (Nat.mod_lt _ (by decide))) (fun m => ?_) (fun m i _ held => ?_) _
  · rw [place, if_neg (by simpa using clean)]
    exact cellGet_cellPut_same _ _ _
  · split
    · exact held
    · by_cases e : 4 * w + i = a
      · rw [e]
        exact cellGet_cellPut_same _ _ _
      · exact (cellGet_cellPut_other _ _ (Ne.symm e)).trans held

theorem ownerOf_cons (s : State) (e : Nat × Nat) (l : List (Nat × Nat)) (h : s.registry = e :: l) :
    s.ownerOf w = if e.1 = w then some e.2 else (l.find? (fun x => x.1 == w)).map Prod.snd := by
  unfold State.ownerOf
  rw [h, List.find?_cons]
  by_cases k : e.1 = w
  · rw [beq_iff_eq.2 k, if_pos k]
    rfl
  · rw [beq_eq_false_iff_ne.2 k, if_neg k]

theorem grant_owner (s : State) (c w : Nat) : (s.grant c w).ownerOf w = some c := by
  rw [ownerOf_cons _ _ _ (grant_registry s c w), if_pos rfl]

theorem takeWord_owner (s : State) (c w : Nat) : (s.takeWord c w).ownerOf w = some c := by
  unfold State.takeWord
  split
  · assumption
  · exact grant_owner _ c w

/-- A word stays with its owner while others of its line are taken. -/
theorem takeWord_keeps_owner (own : s.ownerOf w = some c) (line : lineOf (4 * v) = lineOf (4 * w)) :
    (s.takeWord c v).ownerOf w = some c := by
  by_cases e : w = v
  · exact e ▸ takeWord_owner s c v
  · have kept : (s.revokeWord v).ownerOf w = some c := (revokeWord_ownerOf_other s e).trans own
    have known : ∃ x ∈ (s.revokeWord v).registry, lineOf (4 * x.1) = lineOf (4 * v) := by
      obtain ⟨x, found, -⟩ := Option.map_eq_some_iff.1 kept
      have here : x.1 = w := by simpa using List.find?_some found
      exact ⟨x, List.mem_of_find?_eq_some found, by rw [here, line]⟩
    unfold State.takeWord
    split
    · exact own
    · rw [ownerOf_cons _ _ _ (grant_registry _ c v), if_neg (Ne.symm e), registryRoom_known known]
      exact kept

/-! ### Words whose registration is refused (R218 step 1) -/

theorem writeBack_ownerOf (s : State) (c pa n w : Nat) : (s.writeBack c pa n).ownerOf w = s.ownerOf w := by
  unfold State.ownerOf
  rw [writeBack_registry]

/-- Before its bytes go home a refused word has left every other cluster (R221). -/
theorem refuseWord_eq (s : State) (c w : Nat) :
    s.refuseWord c w = (if s.ownerOf w = some c then s else s.revokeWord w).writeBack c (4 * w) 4 := rfl

theorem refuseWord_registry (own : ∀ b, s.ownerOf w = some b → b = c) : (s.refuseWord c w).registry = s.registry := by
  rw [refuseWord_eq, writeBack_registry]
  split
  · rfl
  · next other =>
    unfold State.revokeWord
    split
    · rfl
    · next b e => exact absurd (own b e ▸ e) other

theorem refuseWord_owner {b : Nat} (h : (s.refuseWord c w).ownerOf w = some b) : b = c := by
  rw [refuseWord_eq, writeBack_ownerOf] at h
  split at h
  · next own => exact Option.some.inj (h.symm.trans own)
  · exact absurd (h.symm.trans (revokeWord_ownerOf s w)) (by simp)

/-- Refusing a word gives no other word an owner. -/
theorem refuseWord_keeps_owner {x b : Nat} (h : (s.refuseWord c v).ownerOf x = some b) : s.ownerOf x = some b := by
  rw [refuseWord_eq, writeBack_ownerOf] at h
  split at h
  · exact h
  · by_cases e : x = v
    · subst e
      exact absurd (h.symm.trans (revokeWord_ownerOf s x)) (by simp)
    · rwa [revokeWord_ownerOf_other s e] at h

theorem refuseWord_below (s : State) (c w d : Nat) : ((s.refuseWord c w).cluster d).Below (s.cluster d) := by
  have revoked : ((if s.ownerOf w = some c then s else s.revokeWord w).cluster d).Below (s.cluster d) := by
    split
    · exact .refl _
    · exact revokeWord_below s w d
  rw [refuseWord_eq]
  exact (writeBack_below _ c (4 * w) 4 d).trans revoked

theorem refuseWord_clean {a : Nat} (s : State) (c : Nat) (word : a / 4 = w) : a ∉ ((s.refuseWord c w).cluster c).dirty :=
  writeBack_clean _ c word

/-- The store's bytes reach the shared cache. -/
theorem refuseWord_home {a : Nat} (word : a / 4 = w) (up : s.linkDown (8 * (w / 2)) = false)
    (dirty : a ∈ (s.cluster c).dirty) :
    cellGet (s.refuseWord c w).home a = some ((cellGet (s.cluster c).bytes a).getD 0) := by
  rw [refuseWord_eq]
  split
  · exact writeBack_home dirty word up
  · next other =>
    have same := revokeWord_cluster_other other
    have sent := writeBack_home (s := s.revokeWord w) (c := c) (same.symm ▸ dirty) word
      ((linkDown_of_outer (revokeWord_outer s w) _).trans up)
    rwa [same] at sent

/-! ### The unit of a registration (R234) -/

theorem takeUnit_cluster_other (s : State) (u : Nat) (b : List Byte) (h : d ≠ c) :
    (s.takeUnit c u b).cluster d = s.cluster d :=
  cluster_setCluster_other (h.trans_eq (cluster_num s c).symm)

theorem takeUnit_dirty (s : State) (c u : Nat) (b : List Byte) :
    ((s.takeUnit c u b).cluster c).dirty = (s.cluster c).dirty := by
  unfold State.takeUnit
  dsimp only
  rw [cluster_setCluster (by exact cluster_num s c)]

theorem performBytes_getD {i n : Nat} (s : State) (pa : Nat) (h : i < n) :
    (s.performBytes pa n).getD i 0 = s.performByte (pa + i) := by
  unfold State.performBytes
  rw [List.getD_eq_getElem _ _ (by simpa using h)]
  simp

/-- A byte that is listed as the unit has it stays so. -/
theorem takeUnit_bytes {a u : Nat} {b : Byte} (held : cellGet (s.cluster c).bytes a = some b) (performs : s.performByte a = b) :
    cellGet ((s.takeUnit c u (s.performBytes (u * 8) 8)).cluster c).bytes a = some b := by
  unfold State.takeUnit
  dsimp only
  rw [cluster_setCluster (by exact cluster_num s c)]
  refine cellGet_puts held fun i hi e => ?_
  rw [performBytes_getD s _ (List.mem_range.1 (List.mem_filter.1 hi).1), Nat.mul_comm u 8, e]
  exact performs

theorem performByte_owned {a : Nat} {b : Byte} (own : s.ownerOf (a / 4) = some c)
    (held : cellGet (s.cluster c).bytes a = some b) :
    s.performByte a = b := by
  unfold State.performByte wordOf
  rw [own]
  simp [held]

end

/-! ### Registrations (R218) -/

section
variable {s : State} {r : Registration}

theorem homeRegister_left (left : (s.cluster r.cluster).holdsLine (lineOf r.start) = false) : s.homeRegister r = s :=
  if_pos (by simp [left])

/-- A registration that home takes hands its words over, then makes the cluster's copy of the unit whole. -/
theorem homeRegister_takes (held : (s.cluster r.cluster).holdsLine (lineOf r.start) = true) (plain : r.escrow = false)
    (open_ : s.watched r.start = false) : s.homeRegister r =
      (r.words.foldl (fun s w => s.takeWord r.cluster w) s).takeUnit r.cluster (r.start / 8)
        ((r.words.foldl (fun s w => s.takeWord r.cluster w) s).performBytes (r.start / 8 * 8) 8) := by
  unfold State.homeRegister
  rw [if_neg (by simp [held]), if_neg (by simp [plain, open_])]

/-- One that it refuses has its bytes written back first. -/
theorem homeRegister_refuses (held : (s.cluster r.cluster).holdsLine (lineOf r.start) = true)
    (h : r.escrow = true ∨ s.watched r.start = true) : s.homeRegister r =
      (r.words.foldl (fun s w => s.refuseWord r.cluster w) s).takeUnit r.cluster (r.start / 8)
        ((r.words.foldl (fun s w => s.refuseWord r.cluster w) s).performBytes (r.start / 8 * 8) 8) := by
  unfold State.homeRegister
  rw [if_neg (by simp [held]), if_pos (by simpa using h)]

variable (held : (s.cluster r.cluster).holdsLine (lineOf r.start) = true)
include held

theorem homeRegister_owns {w : Nat} (plain : r.escrow = false) (open_ : s.watched r.start = false) (mem : w ∈ r.words)
    (line : ∀ v ∈ r.words, lineOf (4 * v) = lineOf (4 * w)) : (s.homeRegister r).ownerOf w = some r.cluster := by
  rw [homeRegister_takes held plain open_]
  exact foldl_of_mem (P := fun t : State => t.ownerOf w = some r.cluster) mem (fun t => takeWord_owner t r.cluster w)
    (fun t v hv own => takeWord_keeps_owner own (line v hv)) s

section
variable (refused : r.escrow = true ∨ s.watched r.start = true)
include refused

theorem homeRegister_registry (own : ∀ w ∈ r.words, ∀ b, s.ownerOf w = some b → b = r.cluster) :
    (s.homeRegister r).registry = s.registry := by
  rw [homeRegister_refuses held refused]
  refine List.foldlRecOn (motive := fun t : State => t.registry = s.registry) r.words _ rfl fun t same w hw => ?_
  refine (refuseWord_registry fun b e => own w hw b ?_).trans same
  rwa [State.ownerOf, same] at e

theorem homeRegister_disowns {w b : Nat} (mem : w ∈ r.words)
    (own : (s.homeRegister r).ownerOf w = some b) : b = r.cluster := by
  rw [homeRegister_refuses held refused] at own
  exact foldl_of_mem (P := fun t : State => ∀ b, t.ownerOf w = some b → b = r.cluster) mem (fun t b => refuseWord_owner)
    (fun t v _ only b h => only b (refuseWord_keeps_owner h)) s b own

theorem homeRegister_cleans {w a : Nat} (mem : w ∈ r.words) (word : a / 4 = w) :
    a ∉ ((s.homeRegister r).cluster r.cluster).dirty := by
  rw [homeRegister_refuses held refused, takeUnit_dirty]
  exact foldl_of_mem (P := fun t : State => a ∉ (t.cluster r.cluster).dirty) mem (fun t => refuseWord_clean t r.cluster word)
    (fun t v _ clean h => clean ((refuseWord_below t r.cluster v r.cluster).dirty h)) s

theorem homeRegister_sends {w a : Nat} (words : r.words = [w]) (word : a / 4 = w) (up : s.linkDown (8 * (w / 2)) = false)
    (dirty : a ∈ (s.cluster r.cluster).dirty) :
    cellGet (s.homeRegister r).home a = some ((cellGet (s.cluster r.cluster).bytes a).getD 0) := by
  rw [homeRegister_refuses held refused, words]
  exact refuseWord_home word up dirty

end

variable {w b : Nat} (words : r.words = [w]) (plain : r.escrow = false) (open_ : s.watched r.start = false)
  (own : s.ownerOf w = some b) (other : b ≠ r.cluster)
include words plain open_ own other

/-- The word of another cluster is revoked, then granted. -/
theorem homeRegister_moves : s.homeRegister r = ((s.revokeWord w).grant r.cluster w).takeUnit r.cluster (r.start / 8)
    (((s.revokeWord w).grant r.cluster w).performBytes (r.start / 8 * 8) 8) := by
  have taken : s.takeWord r.cluster w = (s.revokeWord w).grant r.cluster w :=
    if_neg fun e => other (Option.some.inj (own.symm.trans e))
  rw [homeRegister_takes held plain open_, words, List.foldl_cons, List.foldl_nil, taken]

/-- The former owner keeps nothing of the word. -/
theorem homeRegister_strips : ((s.homeRegister r).cluster b).Without w := by
  have revoked : ((s.revokeWord w).cluster b).Without w := by
    rw [revokeWord_owned own]
    exact ackRevoke_without _ b w
  rw [homeRegister_moves held words plain open_ own other, takeUnit_cluster_other _ _ _ other, grant_cluster_other _ _ other]
  exact revoked.below (registryRoom_below _ _ b)

variable {a : Nat} (word : a / 4 = w) (small : s.registry.length < 16) (up : s.linkDown (8 * (w / 2)) = false)
  (dirty : a ∈ (s.cluster b).dirty)
include word small up dirty

/-- What the former owner had written of the word is in the shared cache. -/
theorem homeRegister_returns : cellGet (s.homeRegister r).home a = some ((cellGet (s.cluster b).bytes a).getD 0) := by
  have room := registryRoom_revoked (l := lineOf (4 * w)) small own
  rw [homeRegister_moves held words plain open_ own other]
  refine (congrArg (cellGet · a) (grant_home (s.revokeWord w) r.cluster w)).trans ?_
  rw [room]
  exact revokeWord_home own dirty word up

/-- The new owner has it too, where it has not written the byte itself. -/
theorem homeRegister_refreshes (clean : a ∉ (s.cluster r.cluster).dirty) :
    cellGet ((s.homeRegister r).cluster r.cluster).bytes a = some ((cellGet (s.cluster b).bytes a).getD 0) := by
  have room := registryRoom_revoked (l := lineOf (4 * w)) small own
  have same : (s.revokeWord w).cluster r.cluster = s.cluster r.cluster :=
    revokeWord_cluster_other fun e => other (Option.some.inj (own.symm.trans e))
  have home : (s.revokeWord w).homeByte a = (cellGet (s.cluster b).bytes a).getD 0 := by
    rw [State.homeByte, revokeWord_home own dirty word up]
    rfl
  have granted : cellGet (((s.revokeWord w).grant r.cluster w).cluster r.cluster).bytes a =
      some ((cellGet (s.cluster b).bytes a).getD 0) := by
    rw [grant_cluster, room]
    exact (refreshWord_bytes word (same.symm ▸ clean)).trans (congrArg some home)
  rw [homeRegister_moves held words plain open_ own other]
  exact takeUnit_bytes granted (performByte_owned (word.symm ▸ grant_owner _ _ w) granted)

end

end Sys2Proof.Machine
end

section
/-! PROOF. Failures of units and links, voted machines, refresh, snapshots, attestation, firmware and power (R231, R326, R327,
R352, R356, R358, R372, R384, R385, R387 to R391). -/

namespace Sys2Proof.Machine

section
variable {s : State}

/-- An event whose condition fails it answers `none` for. -/
theorem orStay_unless {c : Prop} [Decidable c] {e : Ev} (h : ¬ c) : s.orStay (if c then none else e) = s.orStay e :=
  congrArg s.orStay (if_neg h)

/-! ### Voted machines (R326, R327, R384) -/

theorem voteOf_setVote (u : VotedUnit) (n : Nat) : (s.setVote u n).voteOf u = n := by
  unfold State.voteOf State.setVote
  rw [find?_upsert _ (by simp)]
  rfl

variable {u : VotedUnit} (known : votedUnitOk u = true)
include known

theorem voteDissent_fences (h : s.voteOf u = 3) : ∃ t, exec (.voteDissent u) s = .next t ∧ t.voteOf u = 2 ∧
    t.sup.dissents = s.sup.dissents + 1 :=
  ⟨_, orStay_unless (by simp [known, h]), voteOf_setVote u 2, rfl⟩

theorem voteReadmission_admits (h : s.voteOf u = 2) : ∃ t, exec (.voteReadmission u) s = .next t ∧ t.voteOf u = 3 ∧
    t.sup.readmissions = s.sup.readmissions + 1 :=
  ⟨_, orStay_unless (by simp [known, h]), voteOf_setVote u 3, rfl⟩

end

section
variable {s : State} {d : Nat} (die : d < 4)
include die

theorem walkerPair_restarts (h : s.voteOf (.walker d) = 2) : exec (.comparedPairDisagreement (.walker d)) s =
    .next (((s.loseAll (1 + 256 * d) (s.walkers d)).resetWalker d).setVote (.walker d) 3) :=
  orStay_unless (by simp [votedUnitOk, die, h])

theorem dispatcherPair_restarts (h : s.voteOf (.dispatcher d) = 2) : exec (.comparedPairDisagreement (.dispatcher d)) s =
    .next ((s.loseAll (2 + 256 * d) (s.dispatched d)).setVote (.dispatcher d) 3) :=
  orStay_unless (by simp [votedUnitOk, die, h])

/-- R384: a queue's number stays, so those of the processor are those it had. -/
theorem cpVote_refetches (h : s.voteOf (.commandProcessor d) = 2) : ∃ t, exec (.cpVoteDisagreement d) s = .next t ∧
    ∀ q ∈ t.queues, q.num % 4 = d → q.fetched = none := by
  refine ⟨_, orStay_unless (by simp [votedUnitOk, die, h]), fun q hq mine => ?_⟩
  obtain ⟨p, -, rfl⟩ := List.mem_map.1 hq
  split
  · rfl
  · next other => exact absurd (by rwa [if_neg other] at mine) other

end

/-! ### Clusters, links and stacks (R231, R352, R358, R372) -/

section
variable {s : State}

theorem clusterUnresponsive_leaves {c : Nat} (hc : c < 96) (up : (s.cluster c).lost = false) :
    ∃ t, exec (.clusterUnresponsive c) s = .next t ∧ (t.cluster c).lost = true ∧ (t.cluster c).bytes = [] ∧
      ∀ e ∈ t.registry, e.2 ≠ c := by
  have gone (t : State) :
      (t.setCluster { Cluster.reset c with lost := true }).cluster c = { Cluster.reset c with lost := true } :=
    cluster_setCluster (s := t) rfl
  refine ⟨_, orStay_unless (not_or.2 ⟨Nat.not_le.2 hc, Bool.eq_false_iff.1 up⟩), congrArg Cluster.lost (gone _),
    congrArg Cluster.bytes (gone _), fun e he => ?_⟩
  simpa using (List.mem_filter.1 he).2

/-- A link between two dies that has not failed (R352). -/
theorem dieLink_works {a b : Nat} (ha : a < 4) (hb : b < 4) (ne : a ≠ b)
    (up : s.links.dieLinksLost.contains (min a b, max a b) = false) :
    ¬ (4 ≤ a ∨ 4 ≤ b ∨ a = b ∨ s.links.dieLinksLost.contains (min a b, max a b) = true) := by
  rintro (h | h | h | h)
  · omega
  · omega
  · exact ne h
  · exact Bool.eq_false_iff.1 up h

theorem dieLinkFlitRetry_stays {a b : Nat} (ha : a < 4) (hb : b < 4) (ne : a ≠ b)
    (up : s.links.dieLinksLost.contains (min a b, max a b) = false) : exec (.dieLinkFlitRetry a b) s = .next s :=
  orStay_unless (dieLink_works ha hb ne up)

theorem dieLinkFailure_marks {a b : Nat} (ha : a < 4) (hb : b < 4) (ne : a ≠ b)
    (up : s.links.dieLinksLost.contains (min a b, max a b) = false) :
    ∃ t, exec (.dieLinkFailure a b) s = .next t ∧ t.links.dieLinksLost.contains (min a b, max a b) = true :=
  ⟨_, orStay_unless (dieLink_works ha hb ne up), List.elem_cons_self⟩

theorem stackUnresponsive_marks {k : Nat} (hk : k < 12) (up : s.links.stacksLost.contains k = false) :
    ∃ t, exec (.stackUnresponsive k) s = .next t ∧ t.links.stacksLost.contains k = true :=
  ⟨_, orStay_unless (not_or.2 ⟨Nat.not_le.2 hk, Bool.eq_false_iff.1 up⟩), List.elem_cons_self⟩

theorem cxlLinkFailed_downs {j : Nat} (hj : j < 4) (up : s.links.cxlFailed.contains j = false) :
    ∃ t, exec (.cxlLinkFailed j) s = .next t ∧ ∀ pa, cxlOf pa = some j → t.linkDown pa = true := by
  refine ⟨_, orStay_unless (not_or.2 ⟨Nat.not_le.2 hj, Bool.eq_false_iff.1 up⟩), fun pa behind => ?_⟩
  unfold State.linkDown
  rw [behind]
  exact List.elem_cons_self

/-! ### Refresh (R356) -/

theorem debt_setDebt (b : Nat × Nat) (n : Nat) : (s.setDebt b n).debt b = n := by
  unfold State.debt State.setDebt
  rw [find?_upsert _ (by simp)]
  rfl

variable {k b : Nat} (stack : k < 12)
include stack

theorem refresh_issued : exec (.refresh k b false) s = .next s := orStay_unless (Nat.not_le.2 stack)

theorem refresh_postponed (owed : s.debt (k, b) < 8) :
    ∃ t, exec (.refresh k b true) s = .next t ∧ t.debt (k, b) = s.debt (k, b) + 1 :=
  ⟨_, (orStay_unless (Nat.not_le.2 stack)).trans (orStay_unless (Nat.not_le.2 owed)), debt_setDebt _ _⟩

theorem alertBackOff_issues : ∃ t, exec (.alertBackOff k b) s = .next t ∧
    t.debt (k, b) = if s.debt (k, b) = 8 then 0 else s.debt (k, b) := by
  refine ⟨_, orStay_unless (Nat.not_le.2 stack), ?_⟩
  split
  · exact debt_setDebt _ _
  · rfl

end

/-! ### Snapshots (R387) -/

section
variable {s : State}

theorem snapshot_mgmt (s : State) (bit : Nat) : (s.snapshot bit).mgmt = s.mgmt := by
  unfold State.snapshot
  split <;> rfl

theorem snapshot_latches {bit : Nat} (enabled : s.sup.snapen.getLsbD bit = true) (idle : s.sup.latched = false) :
    s.snapshot bit = { s with sup := { s.sup with latched := true, snapDue := List.range snapBlocks } } := by
  unfold State.snapshot
  rw [if_pos enabled, if_neg (by simp [idle])]

theorem snapshot_counts {bit : Nat} (enabled : s.sup.snapen.getLsbD bit = true) (held : s.sup.latched = true) :
    s.snapshot bit = { s with sup := { s.sup with triggers := s.sup.triggers + 1 } } := by
  unfold State.snapshot
  rw [if_pos enabled, if_pos held]

/-! ### Attestation (R388) -/

/-- A request that the negotiation has reached is answered. -/
theorem afterNegotiation_reached {ok : Bool} {b : List Byte} {f : Mgmt → Mgmt} (h : ok = true) :
    s.afterNegotiation ok b f = .next (s.respond b f) := by
  rw [State.afterNegotiation, if_pos h]

theorem getMeasurements_answers {i : Nat} (alg : s.mgmt.spdmAlg = true) (hi : i ≤ 6) :
    ∃ b, exec (.getMeasurements i) s =
      .next (s.respond (b ++ leBytes 64 (Config.spdmSign (s.mgmt.transcript ++ b)).toNat) id) :=
  ⟨_, (if_neg (by simp [hi])).trans (afterNegotiation_reached alg)⟩

/-! ### Firmware and power (R389, R390) -/

theorem mem_upsert {α : Type} {p : α → Bool} {x : α} (l : List α) : x ∈ upsert p x l := by
  induction l with
  | nil => exact List.mem_singleton_self x
  | cons y l ih =>
    unfold upsert
    split
    · exact List.mem_cons_self
    · exact List.mem_cons_of_mem y ih

/-- Management once the boot ROM has looked at both slots (R389). -/
def Mgmt.boot (m : Mgmt) (u : Nat) (i : FirmwareSlots) : Mgmt :=
  if m.accepts u i.first then m.run u i.first
  else if m.accepts u i.second then (m.failed u).run u i.second else (m.failed u).failed u

theorem firmwareLoad_boots {u : Nat} {i : FirmwareSlots} (low : 2 ≤ u) (high : u ≤ 5) :
    exec (.firmwareLoad u i) s = .next { s with mgmt := s.mgmt.boot u i } := orStay_unless (by omega)

theorem boot_first {m : Mgmt} {u : Nat} {i : FirmwareSlots} (h : m.accepts u i.first = true) :
    (u, firmwareDigest i.first) ∈ (m.boot u i).measurements := by
  rw [Mgmt.boot, if_pos h]
  exact mem_upsert _

theorem boot_neither {m : Mgmt} {u : Nat} {i : FirmwareSlots} (first : m.accepts u i.first = false)
    (second : m.accepts u i.second = false) :
    (m.boot u i).measurements = m.measurements ∧ (m.boot u i).failures = m.failures ++ [u, u] := by
  rw [Mgmt.boot, if_neg (by simp [first]), if_neg (by simp [second])]
  exact ⟨rfl, List.append_assoc _ _ _⟩

theorem powerLimitSet_sets {w : Nat} (low : 1500 ≤ w) (high : w ≤ 3400) :
    exec (.powerLimitSet w) s = .next { s.snapshot 1 with mgmt := { s.mgmt with powerLimit := w } } := by
  refine (if_pos ⟨low, high⟩).trans ?_
  rw [snapshot_mgmt]

end

/-- Settles O60: one lemma for each event. -/
theorem moduleEvents : Obligations.ModuleEvents := by
  unfold Obligations.ModuleEvents
  intro s
  refine ⟨fun c => clusterUnresponsive_leaves, fun u ok => ⟨voteDissent_fences ok, voteReadmission_admits ok⟩,
    fun d die => ⟨walkerPair_restarts die, dispatcherPair_restarts die, cpVote_refetches die⟩, fun a b ab hb up => ?_,
    fun k => stackUnresponsive_marks, fun j => cxlLinkFailed_downs,
    fun k b stack => ⟨refresh_issued stack, refresh_postponed stack, alertBackOff_issues stack⟩, rfl, rfl,
    fun enabled idle => ?_, snapshot_counts, ⟨_, rfl⟩, fun version => ⟨_, afterNegotiation_reached version⟩,
    fun caps f => ⟨_, afterNegotiation_reached caps⟩, fun alg => ⟨⟨_, afterNegotiation_reached alg⟩,
      fun i a n => ⟨_, afterNegotiation_reached alg⟩, fun i x => ⟨_, afterNegotiation_reached alg⟩,
      fun i hi => getMeasurements_answers alg hi⟩,
    fun u i low high => ⟨_, firmwareLoad_boots low high, boot_first, boot_neither⟩,
    fun w low high => powerLimitSet_sets low high,
    fun k hk => orStay_unless (Nat.not_le.2 hk), ⟨_, rfl, rfl, rfl⟩, rfl, rfl⟩
  · have link : (min a b, max a b) = (a, b) := by rw [min_eq_left ab.le, max_eq_right ab.le]
    have back : (min b a, max b a) = (a, b) := by rw [min_comm, max_comm, link]
    have ha := ab.trans hb
    have failure := dieLinkFailure_marks ha hb ab.ne (link ▸ up)
    rw [link] at failure
    exact ⟨dieLinkFlitRetry_stays ha hb ab.ne (link ▸ up), dieLinkFlitRetry_stays hb ha ab.ne' (back ▸ up), failure⟩
  · rw [snapshot_latches enabled idle]
    exact ⟨rfl, fun n hn => List.contains_iff_mem.2 (List.mem_range.2 hn)⟩

end Sys2Proof.Machine
end

section
/-! PROOF. Events of caches, home slices, tiles and maintenance (R218, R219, R224, R229, R231, R281, R282, R303, R339 to
R341). -/

namespace Sys2Proof.Machine

/-- An event whose condition holds. -/
theorem orStay_when {s t : State} {c : Prop} [Decidable c] (h : c) : s.orStay (if c then some t else none) = .next t :=
  congrArg s.orStay (if_pos h)

/-! ### Home and cluster events (R216, R218, R219, R224, R229) -/

section
variable {s : State} {c : Nat}

theorem homeRegistration_only {r : Registration} (next : s.nextRegs c = [r]) : exec (.homeRegistration c) s =
    .next (State.homeRegister { s with registrations := s.registrations.erase r } r) := by
  change execHomeRegistration c s = _
  unfold execHomeRegistration
  rw [next]
  rfl

theorem homeRegistration_picks {r q : Registration} {l : List Registration} (next : s.nextRegs c = r :: q :: l) :
    let p := s.pick (l.length + 2)
    let x := (r :: q :: l).getD p.1 r
    exec (.homeRegistration c) s = .next (State.homeRegister { p.2 with registrations := p.2.registrations.erase x } x) := by
  change execHomeRegistration c s = _
  unfold execHomeRegistration
  rw [next]
  rfl

theorem homeReadForward_fills {w k : Nat} (own : s.ownerOf w = some k) (other : k ≠ c)
    (wanted : s.ops.any (fun o => o.cluster == c && o.fault.isNone && spanMeets o.readsAt (4 * w) 4) = true) :
    exec (.homeReadForward c w) s = .next ((s.makeRoom c (.line (lineOf (4 * w)))).fillUnit c (w / 2)) := by
  change execHomeReadForward c w s = _
  unfold execHomeReadForward
  rw [own]
  exact orStay_unless (not_or.2 ⟨other, by simp [wanted]⟩)

theorem monitorWake_fired {i u : Nat} {m : Monitor} (found : s.monitors.find? (fun m => m.idx == i) = some m)
    (team : m.team = some u) (fired : m.fired = true) : exec (.monitorWake i) s =
      s.orStay (match s.team? u with
        | none => some { s with monitors := s.monitors.filter (fun x => x.idx != i) }
        | some v => some ((State.mapThreads { s with monitors := s.monitors.filter (fun x => x.idx != i) }
            (fun x => if m.wakes u x then { x with status := .ready } else x)).setTeam v.runnable)) := by
  change execMonitorWake i s = _
  unfold execMonitorWake
  rw [found]
  dsimp only
  rw [team]
  exact orStay_unless (by simp [fired])

/-! ### Errors (R231) -/

theorem mem_mark (l : List Nat) (u : Nat) : (mark l u).contains u = true := by
  unfold mark
  split
  · assumption
  · simp

theorem reportData_cases (s : State) (pa : Nat) : s.reportData pa = s ∨ s.reportData pa = s.report := by
  unfold State.reportData
  split
  · exact .inl rfl
  · exact .inr rfl

/-- What a report leaves of the memory system: everything. -/
theorem reportData_memory (s : State) (pa : Nat) : (s.reportData pa).homePoison = s.homePoison ∧
    (s.reportData pa).poison = s.poison ∧ (s.reportData pa).registry = s.registry ∧ (s.reportData pa).clusters = s.clusters := by
  rcases reportData_cases s pa with e | e <;> rw [e] <;> exact ⟨rfl, rfl, rfl, rfl⟩

theorem poisoned_byte (s : State) (pa : Nat) : s.poisoned pa 1 = s.poisonedWord (pa / 4) := by
  simp [State.poisoned, wordsOf]

theorem dataError_marks {pa : Nat} (inside : inMap pa = true) :
    ∃ t, exec (.cacheUncorrectableError (.data pa)) s = .next t ∧ t.homePoison.contains (pa / 8) = true ∧
      (s.ownerOf (pa / 4) = none → t.poisoned pa 1 = true) := by
  obtain ⟨poison, -, registry, -⟩ := reportData_memory (s.addPoison pa) pa
  have marked : ((s.addPoison pa).reportData pa).homePoison.contains (pa / 8) = true := by
    rw [poison]
    exact mem_mark _ _
  refine ⟨_, orStay_when inside, marked, fun free => ?_⟩
  have unowned : ((s.addPoison pa).reportData pa).ownerOf (pa / 4) = none := by
    rw [State.ownerOf, registry]
    exact free
  rw [poisoned_byte, State.poisonedWord, unowned]
  dsimp only
  rw [State.homePoisoned, Nat.div_div_eq_div_mul, marked]
  rfl

theorem clusterError_marks {pa : Nat} (holds : (s.cluster c).bytes.any (fun b => b.1 / 8 == pa / 8) = true) :
    ∃ t, exec (.cacheUncorrectableError (.cluster c pa)) s = .next t ∧ (t.cluster c).poison.contains (pa / 8) = true ∧
      t.homePoison = s.homePoison ∧ t.poison = s.poison ∧ ∀ d, d ≠ c → t.cluster d = s.cluster d := by
  obtain ⟨home, memory, -, clusters⟩ := reportData_memory
    (s.setCluster { s.cluster c with poison := mark (s.cluster c).poison (pa / 8) }) pa
  have num := cluster_num s c
  refine ⟨_, orStay_when holds, ?_, home, memory, fun d other => ?_⟩
  · rw [cluster_congr clusters, cluster_setCluster (by exact num)]
    exact mem_mark _ _
  · rw [cluster_congr clusters, cluster_setCluster_other (by exact other.trans_eq num.symm)]

theorem tileError_marks {x k i : Nat} (holds : (s.cluster c).tiles.any (fun y => y.1 == .tile x k i) = true) :
    ∃ t, exec (.cacheUncorrectableError (.tile c x k i)) s = .next t ∧
      ∀ y ∈ (t.cluster c).tiles, y.1 = .tile x k i → y.2.bad = true := by
  refine ⟨_, orStay_when holds, fun y hy tag => ?_⟩
  rw [cluster_setCluster (by exact cluster_num s c)] at hy
  obtain ⟨z, -, rfl⟩ := List.mem_map.1 hy
  by_cases e : z.1 = .tile x k i
  · rw [if_pos e]
  · rw [if_neg e] at tag
    exact absurd tag e

end

/-- The bytes of a `tst` whose lines are present and sound, of a format all of whose bytes are elements, are stored. -/
theorem tstUpdate_stores {s t : State} {o : Op} {r : TileRef} {off : Nat} {m : Team} (team : s.team? o.key.team = some m)
    (present : s.linesPresent (m.uid, off, 256) (some o.id) = true) (sound : m.badIn off 256 = false) (plain : r.desc.fmt ≠ 6)
    (updated : s.tileUpdate o r false (fun _ => m.scratchBytes off 256) = (.ok (), t)) :
    s.tstUpdate o r off = some (t.joinOp o) := by
  unfold State.tstUpdate
  rw [team]
  dsimp only
  rw [if_neg (by simp [present]), if_neg (by simp [sound]), if_neg plain]
  dsimp only
  rw [updated]
  rfl

/-! ### Steps of operations (R246, R317) -/

section
variable {s t : State} {n : Nat} {o : Op}

theorem onOp_ready {body : Op → Ev} (ready : s.opReady n o = true) : s.onOp n body = s.orStay (body o) := by
  simp only [State.opReady, Bool.and_eq_true, decide_eq_true_eq, Option.isNone_iff_eq_none, Bool.not_eq_true'] at ready
  obtain ⟨⟨⟨found, sound⟩, waits⟩, resident⟩ := ready
  unfold State.onOp
  rw [found]
  exact congrArg s.orStay (if_neg (by simp [sound, waits, resident]))

theorem withWalks_steps {body : State → Op → Ev} (idle : o.walk = none) (h : body (s.walking o) o.unwalked = some t)
    (walked : t.missed = none) : s.withWalks o body = some { t with walkFor := none } := by
  unfold State.withWalks
  rw [if_neg (by simp [idle]), h]
  dsimp only
  rw [walked]

/-- An operation whose fork has been made (R246). -/
def Op.started (o : Op) : Op := { o with begun := true }

/-- The state once its fork's release has been made. -/
def State.starting (s : State) (o : Op) : State :=
  if o.begun then s else (s.releaseAt o.core o.key.team o.scope).setOp o.started

theorem withFork_starts {body : State → Op → Ev} (forked : s.forked o = true) :
    s.withFork o body = body (s.starting o) o.started := by
  unfold State.withFork State.starting
  rw [if_neg (by simp [forked])]
  by_cases begun : o.begun = true
  · have same : o.started = o := by
      unfold Op.started
      rw [← begun]
    rw [if_pos begun, if_pos begun, same]
  · rw [if_neg begun, if_neg begun]
    rfl

/-- An engine's step after its fork that asks for no walk. -/
theorem onOp_steps {body : State → Op → Ev} (ready : s.opReady n o = true) (forked : (s.walking o).forked o.unwalked = true)
    (idle : o.walk = none) (h : body ((s.walking o).starting o.unwalked) o.unwalked.started = some t)
    (walked : t.missed = none) :
    s.onOp n (fun o => s.withWalks o (fun s o => s.withFork o body)) = .next { t with walkFor := none } :=
  (onOp_ready ready).trans (congrArg s.orStay (withWalks_steps idle ((withFork_starts forked).trans h) walked))

/-! ### Maintenance (R281, R282, R339, R341) -/

variable (ready : s.opReady n o = true)
include ready

theorem cacheMaintenance_ends {f k : Nat} {sc : Scope} {va : Addr} (kind : o.kind = .cmaint f sc va k)
    (turn : k = 0 ∨ (s.earlier o).all (fun p => !p.kind.isWrite) = true)
    (pages : (s.walking o).maintPages o.unwalked f sc 65538 va k = (none, t)) (idle : o.walk = none)
    (walked : (t.finishOp o.unwalked).missed = none) :
    exec (.cacheMaintenanceComplete n) s = .next { t.finishOp o.unwalked with walkFor := none } := by
  refine (onOp_ready ready).trans ?_
  rw [kind]
  refine (orStay_unless ?_).trans (congrArg s.orStay (withWalks_steps idle ?_ walked))
  · rcases turn with empty | done
    · simp [empty]
    · simp [done]
  · rw [pages]

theorem tlbinv_ends {l : List Nat} (kind : o.kind = .tlbinv l)
    (done : s.ops.any (fun p => l.contains p.id && p.fault.isNone) = false) :
    exec (.tlbinvComplete n) s = .next (s.finishOp o) := by
  refine (onOp_ready ready).trans ?_
  rw [kind]
  exact orStay_unless (by simp only [done, Bool.false_eq_true, not_false_eq_true])

variable (forked : (s.walking o).forked o.unwalked = true) (idle : o.walk = none)
include forked idle

theorem tileInvalidation_ends {r : TileRef} {a k : Nat} (kind : o.kind = .tinval r a k) :
    let u := (s.walking o).starting o.unwalked
    let t := (u.invalTiles o.unwalked.started r a k).finishOp o.unwalked.started
    t.missed = none → exec (.tileMaintenanceComplete n) s = .next { t with walkFor := none } := by
  intro u t walked
  refine onOp_steps ready forked idle ?_ walked
  change (match o.kind with | .tclean .. => _ | .tinval .. => _ | _ => _) = _
  rw [kind]

theorem tileClean_ends {r : TileRef} {a k : Nat} (kind : o.kind = .tclean r a k)
    (settled : ((s.walking o).starting o.unwalked).updating o.unwalked.started r a k = false)
    (cleaned : ((s.walking o).starting o.unwalked).cleanTiles o.unwalked.started r a k = (none, t))
    (walked : (t.finishOp o.unwalked.started).missed = none) :
    exec (.tileMaintenanceComplete n) s = .next { t.finishOp o.unwalked.started with walkFor := none } := by
  refine onOp_steps ready forked idle ?_ walked
  change (match o.kind with | .tclean .. => _ | .tinval .. => _ | _ => _) = _
  rw [kind]
  dsimp only
  rw [if_neg (by simp [settled]), cleaned]

/-! ### Tile updates (R303) -/

theorem tileUpdate_stores {r : TileRef} {off : Nat} {m : Team} (kind : o.kind = .tst r off) (turn : s.mintTurn o = true)
    (team : ((s.walking o).starting o.unwalked).team? o.key.team = some m)
    (present : ((s.walking o).starting o.unwalked).linesPresent (m.uid, off, 256) (some o.id) = true)
    (sound : m.badIn off 256 = false) (plain : r.desc.fmt ≠ 6)
    (updated : ((s.walking o).starting o.unwalked).tileUpdate o.unwalked.started r false (fun _ => m.scratchBytes off 256) =
      (.ok (), t)) (walked : (t.joinOp o.unwalked.started).missed = none) :
    exec (.tileUpdate n) s = .next { t.joinOp o.unwalked.started with walkFor := none } := by
  refine (onOp_ready ready).trans ((orStay_unless (by simp [turn])).trans ?_)
  refine congrArg s.orStay (withWalks_steps idle ((withFork_starts forked).trans ?_) walked)
  change (match o.kind with | .tst .. => _ | .tenc .. => _ | _ => _) = _
  rw [kind]
  exact tstUpdate_stores team present sound plain updated

end

/-- R303 step 9: the push of a slot that no `spool` waits for. -/
theorem slotPush_pushes {s t : State} {i : Nat} {p : Push} (found : s.pushes.find? (fun p => p.idx == i) = some p)
    (own : p.op = none) (idle : p.wait = none) (pushed : s.pushSlot p.core p.ctx p.pool p.cls p.slot = (.ok (), t)) :
    exec (.slotPush i) s = .next { t with pushes := t.pushes.filter (fun q => q.idx != i) } := by
  have idx : p.idx = i := by simpa using List.find?_some found
  have now : s.pushNow p = some { t with pushes := t.pushes.filter (fun q => q.idx != i) } := by
    unfold State.pushNow
    rw [pushed]
    dsimp only
    rw [own, idx]
    rfl
  change execSlotPush i s = _
  unfold execSlotPush
  rw [found]
  dsimp only
  rw [own]
  exact (orStay_unless (by simp [idle])).trans (congrArg s.orStay now)

/-- Settles O55: a registration by what it leaves of owners, copies and the shared cache, every other event by one lemma. -/
theorem coherenceEvents : Obligations.CoherenceEvents := by
  unfold Obligations.CoherenceEvents
  intro s
  refine ⟨fun r => ⟨homeRegister_left, fun holds => ⟨fun plain open_ w hw line =>
      homeRegister_owns holds plain open_ hw line, fun refused => ⟨homeRegister_registry holds refused,
        fun w hw b => homeRegister_disowns holds refused hw, fun w hw a word => ?_, fun w a words word up mine => ?_⟩,
      fun w b words plain open_ own other => ?_⟩⟩,
    fun c r => homeRegistration_only, fun c r q l => homeRegistration_picks, fun c w k => homeReadForward_fills,
    fun c l full => ⟨orStay_when full, rfl⟩, fun i m u found team fired => ?_, fun pa => dataError_marks,
    fun c pa => clusterError_marks, rfl, fun w => rfl, fun l => rfl, fun c x k i => tileError_marks, fun n o ready => ?_,
    fun i p t => slotPush_pushes⟩
  · exact Bool.eq_false_iff.2 fun h => homeRegister_cleans holds refused hw word (List.contains_iff_mem.1 h)
  · exact homeRegister_sends holds refused words word up (List.contains_iff_mem.1 mine)
  · have without := homeRegister_strips holds words plain open_ own other
    refine ⟨Bool.eq_false_iff.2 fun h => without.owned (List.contains_iff_mem.1 h), fun a word =>
      ⟨Bool.eq_false_iff.2 fun h => without.dirty a word (List.contains_iff_mem.1 h),
        cellGet_absent fun x hx e => without.bytes x hx (e ▸ word), fun small up wrote => ?_⟩⟩
    have written := List.contains_iff_mem.1 wrote
    refine ⟨homeRegister_returns holds words plain open_ own other word small up written, fun clean => ?_⟩
    exact homeRegister_refreshes holds words plain open_ own other word small up written
      fun h => Bool.eq_false_iff.1 clean (List.contains_iff_mem.2 h)
  · have wake := monitorWake_fired found team fired
    refine ⟨fun gone => ?_, fun v here => ?_⟩
    · rw [gone] at wake
      exact wake
    · rw [here] at wake
      exact wake
  · intro q w u ends
    exact ⟨fun f sc va k t kind turn pages idle => cacheMaintenance_ends ready kind turn pages idle,
      fun r a k kind forked idle => tileInvalidation_ends ready forked idle kind,
      fun r a k t kind forked settled cleaned idle => tileClean_ends ready forked idle kind settled cleaned,
      fun l => tlbinv_ends ready,
      fun r off m t kind turn forked team present sound plain updated idle =>
        tileUpdate_stores ready forked idle kind turn team present sound plain updated⟩

end Sys2Proof.Machine
end

section
/-! PROOF. Atomics, reductions and the escrow words: the checks of their address, then the operation they leave with its
operands as read at issue, or the fault of their page (R267 to R269, R271 to R276). -/

namespace Sys2Proof.Machine

/-! ### Translations of an issue (R177, R269) -/

section
variable {s t : State} {va : Addr}

theorem translateAll_outer (s : State) (core ctx : Nat) (va : Addr) (ks : List Access) :
    (s.translateAll core ctx va ks).2.outer = s.outer := by
  induction ks generalizing s with
  | nil => rfl
  | cons k ks ih =>
    cases ks with
    | nil => exact translate_outer s core ctx va k
    | cons l ls =>
      have first := translate_outer s core ctx va k
      unfold State.translateAll
      split
      · next e => rwa [e] at first
      · next e =>
        rw [e] at first
        exact (ih _).trans first

theorem translateAll_th {core ctx : Nat} {ks : List Access} {x : Except XFault (Leaf × Nat)}
    (h : s.translateAll core ctx va ks = (x, t)) : t.th = s.th := by
  have kept := th_of_outer (translateAll_outer s core ctx va ks)
  rwa [h] at kept

/-- A fault of a translation other than a page not present is a trap at the word (R177). -/
theorem faultX_traps {x : XFault} (h : x.cause ≠ 0x10) :
    s.faultX x = s.trap { s.here with cause := x.cause, vaddr := x.vaddr, detail := x.detail } := if_neg h

variable (idle : s.walkBusy s.tm.core s.tm.ctx va = false)
include idle

theorem withPa_fails {k : Access} {x : XFault} (body : State → Leaf → Nat → Out)
    (h : s.translate s.tm.core s.tm.ctx va k = (.error x, t)) : s.withPa va k body = .next (t.faultX x) := by
  unfold State.withPa
  rw [if_neg (by simp [idle]), h]

theorem withRw_translated {l : Leaf} {pa : Nat} (body : State → Nat → Out)
    (h : s.translateAll s.tm.core s.tm.ctx va [.write, .read] = (.ok (l, pa), t)) : s.withRw va body = body t pa := by
  unfold State.withRw
  rw [if_neg (by simp [idle]), h]

theorem withRw_fails {x : XFault} (body : State → Nat → Out)
    (h : s.translateAll s.tm.core s.tm.ctx va [.write, .read] = (.error x, t)) :
    s.withRw va body = .next (t.faultX x) := by
  unfold State.withRw
  rw [if_neg (by simp [idle]), h]

end

/-! ### Words of majors 0x60 to 0x64 (R267, R268) -/

/-- A tracked word of class 4 on the pair `a` whose checks all pass is its body. -/
theorem class4Word_runs {s : State} {e : Bool} {a n : Nat} {reads writes : List Nat} (body : State → State → Out)
    (bare : s.bare = true) (free : s.free e = true) (run : s.canRun 4 none reads writes = true)
    (ok : s.wordOk (s.th.pair a) n = true) :
    s.memWord (infoC4 reads writes) (fun s => s.tracked e (fun s => s.wordAddr (s.th.pair a) n (body s))) = body s s :=
  (trackedMem_runs _ free run (prefixOk_bare bare)).trans (wordAddr_runs _ ok)

/-! ### Atomics and reductions (R271 to R273) -/

namespace AtomForm

theorem results_word {f : AtomForm} (d : Nat) (h : f.size = 4) : f.results d = [d] := by
  simp [results, h, blockRegs]

theorem results_pair {f : AtomForm} (d : Nat) (h : f.size = 8) : f.results d = [d, d + 1] := by
  rw [results, h, ← dataRegs_pair]
  rfl

/-- The registers an atomic (`returns`) or a reduction writes. -/
def written (f : AtomForm) (returns : Bool) (d : Nat) : List Nat := if returns then f.results d else []

end AtomForm

section
variable {s t : State} {returns e : Bool} {f : AtomForm} {d a : Nat} {c : Scope}
  (bare : s.bare = true) (free : s.free e = true)
  (run : s.canRun 4 none (pairRegs a ++ f.operands d) (f.written returns d) = true)
  (ok : s.wordOk (s.th.pair a) f.size = true) (idle : s.walkBusy s.tm.core s.tm.ctx (s.th.pair a) = false)
include bare free run ok idle

/-- The translation leaves the thread, so the operands are those read at issue. -/
theorem atomWord_issues {l : Leaf} {pa : Nat}
    (h : s.translateAll s.tm.core s.tm.ctx (s.th.pair a) [.write, .read] = (.ok (l, pa), t)) :
    s.atomWord returns f e d a c = .next (t.addOp e (f.written returns d) (some pa)
      (.atom f c (s.th.pair a) (s.th.atomOperands f d).1 (s.th.atomOperands f d).2 (if returns then some d else none))) := by
  refine (class4Word_runs _ bare free run ok).trans ((withRw_translated idle _ h).trans ?_)
  rw [translateAll_th h]
  rfl

theorem atomWord_fails {x : XFault}
    (h : s.translateAll s.tm.core s.tm.ctx (s.th.pair a) [.write, .read] = (.error x, t)) :
    s.atomWord returns f e d a c = .next (t.faultX x) :=
  (class4Word_runs _ bare free run ok).trans (withRw_fails idle _ h)

end

/-! ### Escrow additions (R274) -/

theorem baddWord_issues {s t : State} {bf e : Bool} {d a : Nat} {r : Region} {l : Leaf} {pa : Nat} (bare : s.bare = true)
    (free : s.free e = true) (run : s.canRun 4 none [a, a + 1, d] [] = true) (ok : s.wordOk (s.th.pair a) 4 = true)
    (idle : s.walkBusy s.tm.core s.tm.ctx (s.th.pair a) = false)
    (region : s.regionOf s.tm.ctx (s.th.pair a) = some r) (element : r.bf16 = bf)
    (h : s.translateAll s.tm.core s.tm.ctx (s.th.pair a) [.write, .read] = (.ok (l, pa), t)) :
    s.baddWord bf e d a = .next (t.addOp e [] (some pa) (.badd bf (s.th.pair a) (s.th.reg d) false 0)) := by
  refine (class4Word_runs _ bare free run ok).trans ?_
  rw [region]
  dsimp only
  rw [if_neg (by simp [element])]
  exact (withRw_translated idle _ h).trans (by rw [translateAll_th h])

/-! ### Escrow reads (R275) -/

/-- A tracked read of one word whose operation depends on the policy of its page: translated now where a TLB holds the page,
else by a walk (R173). -/
def State.readWord (s : State) (e : Bool) (va : Addr) (d : Nat) (k : Nat → OpKind) : Out :=
  match s.tlbHit s.tm.core s.tm.ctx va with
  | none => .next (s.addOp e [d] none (k s.hint.2))
  | some _ => s.withPa va .read (fun t l pa => .next (t.addOp e [d] (some pa) (k (effectivePolicy s.hint.2 l))))

/-- What `ldb` leaves: an escrow read inside a region, outside every region a plain load. -/
def State.ldbKind (s : State) (va : Addr) (d policy : Nat) : OpKind :=
  if (s.regionOf s.tm.ctx va).isSome then .ldb va d (s.th.reg d) else .load va 4 false d s.hint.1 policy none

section
variable {s t : State} {e : Bool} {va : Addr} {d : Nat} {k : Nat → OpKind}

theorem readWord_unknown (miss : s.tlbHit s.tm.core s.tm.ctx va = none) :
    s.readWord e va d k = .next (s.addOp e [d] none (k s.hint.2)) := by
  unfold State.readWord
  rw [miss]

theorem readWord_hit (hit : (s.tlbHit s.tm.core s.tm.ctx va).isSome = true) :
    s.readWord e va d k =
      s.withPa va .read (fun t l pa => .next (t.addOp e [d] (some pa) (k (effectivePolicy s.hint.2 l)))) := by
  obtain ⟨l, held⟩ := Option.isSome_iff_exists.1 hit
  unfold State.readWord
  rw [held]

theorem readWord_known {l : Leaf} {pa : Nat} (hit : (s.tlbHit s.tm.core s.tm.ctx va).isSome = true)
    (h : s.translate s.tm.core s.tm.ctx va .read = (.ok (l, pa), t)) :
    s.readWord e va d k = .next (t.addOp e [d] (some pa) (k (if s.hint.2 = 0 then ptePol l.entry else s.hint.2))) :=
  (readWord_hit hit).trans (withPa_translated _ (walkBusy_of_hit hit) h)

theorem readWord_fails {x : XFault} (hit : (s.tlbHit s.tm.core s.tm.ctx va).isSome = true)
    (h : s.translate s.tm.core s.tm.ctx va .read = (.error x, t)) : s.readWord e va d k = .next (t.faultX x) :=
  (readWord_hit hit).trans (withPa_fails (walkBusy_of_hit hit) _ h)

theorem execLdbF32_reads {a : Nat} (bare : s.bare = true) (free : s.free e = true)
    (run : s.canRun 4 none [a, a + 1, d] [d] = true) (ok : s.wordOk (s.th.pair a) 4 = true) :
    execLdbF32 e d a s = s.readWord e (s.th.pair a) d (s.ldbKind (s.th.pair a) d) := by
  refine (class4Word_runs _ bare free run ok).trans ?_
  unfold State.readWord State.ldbKind
  cases region : s.regionOf s.tm.ctx (s.th.pair a) with
  | none =>
    simp only [State.loadAt, dataRegs_one d (size := 4) le_rfl]
    rfl
  | some r => rfl

end

/-! ### Settling a line (R276) -/

section
variable {s t : State} {e : Bool} {a : Nat} {l : Leaf} {pa : Nat}
  (bare : s.bare = true) (free : s.free e = true) (run : s.canRun 4 none [a, a + 1] [] = true)
  (ok : s.wordOk (s.th.pair a) 1 = true) (idle : s.walkBusy s.tm.core s.tm.ctx (s.th.pair a) = false)
  (h : s.translate s.tm.core s.tm.ctx (s.th.pair a) .read = (.ok (l, pa), t))
include bare free run ok idle h

theorem execBsettle_issues (writable : l.entry.getLsbD 3 = true) :
    execBsettle e a s = .next (t.addOp e [] (some pa) (.bsettle (s.th.pair a))) := by
  refine (class4Word_runs _ bare free run ok).trans ((withPa_translated _ idle h).trans ?_)
  rw [if_neg (by rw [pteBit, writable]; decide)]

theorem execBsettle_refused (readOnly : l.entry.getLsbD 3 = false) :
    execBsettle e a s = .next (t.trap { t.here with cause := 0x11, vaddr := s.th.pair a }) := by
  refine (class4Word_runs _ bare free run ok).trans ((withPa_translated _ idle h).trans ?_)
  rw [if_pos (by rw [pteBit, readOnly]; rfl)]
  rfl

end

/-- Settles O45: an atomic and a reduction are an `atomWord` of their form, an escrow addition is a `baddWord`, an escrow
read a `readWord`; `bsettle` tests the permission to write after its translation for a read. -/
theorem atomicIssue : Obligations.AtomicIssue := by
  unfold Obligations.AtomicIssue
  intro s e d a c bare free va rmw w atom red
  have rmws {i : Instr} {f : AtomForm} {returns : Bool} {ops ds : List Nat} {x new : BitVec 64}
      (is : exec i s = s.atomWord returns f e d a c) (operands : f.operands d = ops) (written : f.written returns d = ds)
      (values : s.th.atomOperands f d = (x, new)) : rmw i f f.size ops ds x new (if returns then some d else none) := by
    subst operands written
    intro l pa t run ok idle
    refine ⟨fun h => ?_, fun x h present => ?_⟩
    · have issued := atomWord_issues (c := c) bare free run ok idle h
      rw [values] at issued
      exact is.trans issued
    · rw [is, atomWord_fails bare free run ok idle h, faultX_traps present]
  have atoms {i : Instr} {f : AtomForm} (is : exec i s = s.atomWord true f e d a c) (size : f.size = 4)
      (operands : f.operands d = [d]) (values : s.th.atomOperands f d = (w d, 0)) : atom i f := by
    have word := rmws is operands (AtomForm.results_word d size) values
    rwa [size] at word
  have reds {i : Instr} {f : AtomForm} (is : exec i s = s.atomWord false f e d a c) (size : f.size = 4)
      (operands : f.operands d = [d]) (values : s.th.atomOperands f d = (w d, 0)) : red i f := by
    have word := rmws is operands rfl values
    rwa [size] at word
  have quad : AtomForm.casB64.operands d = [d, d + 1, d + 2, d + 3] := (List.append_nil _).symm.trans (blockRegs_four d)
  refine ⟨atoms rfl rfl rfl rfl, atoms rfl rfl rfl rfl, atoms rfl rfl rfl rfl, atoms rfl rfl rfl rfl,
    atoms rfl rfl rfl rfl, atoms rfl rfl rfl rfl, atoms rfl rfl rfl rfl, atoms rfl rfl rfl rfl, atoms rfl rfl rfl rfl,
    atoms rfl rfl rfl rfl, atoms rfl rfl rfl rfl,
    rmws (f := .cas) (returns := true) rfl rfl (AtomForm.results_word d rfl) rfl,
    rmws (f := .addB64) (returns := true) rfl rfl (AtomForm.results_pair d rfl) rfl,
    rmws (f := .casB64) (returns := true) rfl quad (AtomForm.results_pair d rfl) rfl,
    reds rfl rfl rfl rfl, reds rfl rfl rfl rfl, reds rfl rfl rfl rfl, reds rfl rfl rfl rfl, reds rfl rfl rfl rfl,
    ?_, ?_, ?_⟩
  · intro r l pa t run ok region idle h
    exact ⟨fun single => baddWord_issues bare free run ok idle region single h,
      fun packed => baddWord_issues bare free run ok idle region packed h⟩
  · intro run ok k
    have reads : exec (.ldbF32 e d a) s = s.readWord e va d k := execLdbF32_reads bare free run ok
    refine ⟨fun miss => reads.trans (readWord_unknown miss), fun l pa t hit h => reads.trans (readWord_known hit h),
      fun x t hit h present => ?_⟩
    rw [reads, readWord_fails hit h, faultX_traps present]
  · intro l pa t run ok idle h
    exact ⟨execBsettle_issues bare free run ok idle h, execBsettle_refused bare free run ok idle h⟩

end Sys2Proof.Machine
end

section
/-! PROOF. The supervisor's system registers (R382). -/

namespace Sys2Proof.Machine

section
variable {s : State} {d n : Nat}

/-- The numbers from 0x80 on are the supervisor's, in a supervisor context (R382). -/
theorem sysRead_sup (sup : s.isSup = true) (h : 0x80 ≤ n) : s.sysRead n = s.supRead n := by
  have hl : n ∉ [0x00, 0x01, 0x02, 0x03, 0x04, 0x05, 0x06, 0x07, 0x10, 0x11, 0x12, 0x13] := by
    simp
    omega
  rw [sysRead_unlisted hl, if_pos sup]

theorem rdsr_sup_nat {x : Nat} (sup : s.isSup = true) (high : 0x80 ≤ n) (h : s.supRead n = some (BitVec.ofNat 64 x, false))
    (bare : s.bare = true) (run : s.canRun 0 none [] [d] = true) :
    exec (.rdsr d n) s = .next (s.after (fun t => t.setReg d (BitVec.ofNat 32 x))) :=
  rdsr_nat ((sysRead_sup sup high).trans h) bare run

theorem rdsr_sup_pair {v : BitVec 64} (sup : s.isSup = true) (high : 0x80 ≤ n) (h : s.supRead n = some (v, true))
    (bare : s.bare = true) (run : s.canRun 0 none [] [d, d + 1] = true) :
    exec (.rdsr d n) s = .next (s.after (fun t => t.setPair d v)) :=
  rdsr_pair ((sysRead_sup sup high).trans h) bare run

/-- What `wrsr` of a supervisor register makes of the answer of `supWrite`: the new state, or ILLEGAL_FIELD. -/
def State.supAnswer (s : State) : Option State → Out
  | some t => .next t.advance
  | none => s.fault 0x02

theorem wrsr_sup {wide : Bool} (own : n ≠ 0x11) (writable : s.sysWritable n = some wide) (bare : s.bare = true)
    (run : s.canRun 0 none (if wide then [d, d + 1] else [d]) [] = true) :
    exec (.wrsr d n) s =
      s.supAnswer (s.supWrite n (if wide then s.th.pair d else (s.th.reg d).setWidth 64)) := by
  show execWrsr d n s = _
  unfold execWrsr
  rw [writable]
  refine (word_runs _ run (prefixOk_bare bare)).trans ((if_neg own).trans ?_)
  unfold State.supAnswer
  rfl

theorem sysWritable_sup (sup : s.isSup = true) (own : n ≠ 0x11) : s.sysWritable n =
    if n = 0x82 ∨ n = 0x83 then some true
    else if n = 0x80 ∨ n = 0x81 ∨ n = 0x84 ∨ n = 0x86 ∨ n = 0x8A ∨ n = 0x8B then some false
    else none := by
  unfold State.sysWritable
  rw [if_neg own, sup]
  rfl

/-- The word that `supWrite` takes of a register (R382). -/
theorem setWidth_word (w : Word) : (w.setWidth 64).toNat % 2 ^ 32 = w.toNat := by
  rw [BitVec.toNat_setWidth]
  omega

theorem lo32_setWidth (w : Word) : lo32 (w.setWidth 64) = w := by
  simp [lo32]

end

/-- Settles O30: each register by its arm of `supRead` and `supWrite`; those that are read-only are not writable. -/
theorem supervisorRegisters : Obligations.SupervisorRegisters := by
  unfold Obligations.SupervisorRegisters
  intro s d bare sup v tn w bad read read2
  have word {n : Nat} (own : n ≠ 0x11) (writable : s.sysWritable n = some false) := wrsr_sup (d := d) own writable bare
  have pair {n : Nat} (own : n ≠ 0x11) (writable : s.sysWritable n = some true) := wrsr_sup (d := d) own writable bare
  have value : ((s.th.reg d).setWidth 64).toNat % 2 ^ 32 = v := setWidth_word _
  refine ⟨fun run => ?_, fun run => ?_, fun run => ⟨?_, ?_, ?_, ?_, ?_⟩, fun run => ⟨?_, ?_⟩, ?_, ?_, ?_⟩
  · have reads {n x : Nat} (high : 0x80 ≤ n) (h : s.supRead n = some (BitVec.ofNat 64 x, false)) : read n x :=
      rdsr_sup_nat sup high h bare run
    exact ⟨reads (by decide) rfl, reads (by decide) rfl, reads (by decide) rfl, reads (by decide) rfl,
      reads (by decide) rfl, reads (by decide) rfl, reads (by decide) rfl⟩
  · have reads {n : Nat} {x : BitVec 64} (high : 0x80 ≤ n) (h : s.supRead n = some (x, true)) : read2 n x :=
      rdsr_sup_pair sup high h bare run
    exact ⟨reads (by decide) rfl, reads (by decide) rfl, reads (by decide) rfl, reads (by decide) rfl⟩
  · rw [word (by decide) (sysWritable_sup sup (by decide)) run, if_neg Bool.false_ne_true]
    simp only [State.supWrite, value]
    split <;> rfl
  · rw [word (by decide) (sysWritable_sup sup (by decide)) run, if_neg Bool.false_ne_true]
    simp only [State.supWrite, value]
    split <;> rfl
  · rw [word (by decide) (sysWritable_sup sup (by decide)) run, if_neg Bool.false_ne_true]
    simp only [State.supWrite, value]
    rfl
  · rw [word (by decide) (sysWritable_sup sup (by decide)) run, if_neg Bool.false_ne_true]
    simp only [State.supWrite, lo32_setWidth]
    rfl
  · rw [word (by decide) (sysWritable_sup sup (by decide)) run, if_neg Bool.false_ne_true]
    simp only [State.supWrite, lo32_setWidth]
    rfl
  · exact pair (by decide) (sysWritable_sup sup (by decide)) run
  · exact pair (by decide) (sysWritable_sup sup (by decide)) run
  · exact wrsr_refused (sysWritable_sup sup (by decide))
  · exact wrsr_refused (sysWritable_sup sup (by decide))
  · exact wrsr_refused (sysWritable_sup sup (by decide))

end Sys2Proof.Machine
end

section
/-! PROOF. Words of tiles: the checks of a tile word, then what each leaves (R307, R308, R328, R331 to R337, R339, R340). -/

namespace Sys2Proof.Machine

/-! ### The checks of a tile word (R328) -/

section
variable {s : State} {e : Bool} {cls : Nat} {role : Option Role} {reads writes l : List Nat} {a h : Nat} {t : Desc}

/-- Every register that a word which may run reads lies in the window (R11). -/
theorem canRun_window (run : s.canRun cls role (l ++ reads) writes = true) :
    l.all (fun r => decide (r < s.th.window)) = true :=
  List.all_eq_true.2 fun r hr => decide_eq_true (canRun_inside run (by simp [hr]))

/-- A tile word whose checks all pass is its body, with its descriptor and its coordinates. -/
theorem tileWord_runs (body : State → Desc → List Nat → Out) (bare : s.bare = true) (free : s.free e = true)
    (ok : s.tileOk role reads writes a h t = true) :
    s.tileWord e role reads writes a h body = body s t (s.th.coords a t.rank) := by
  obtain ⟨⟨bound, run⟩, inside⟩ : (s.tm.descOf h = some t ∧ s.canRun 5 role (blockRegs a t.rank ++ reads) writes = true) ∧
      t.inside (s.th.coords a t.rank) = true := by
    simpa [State.tileOk] using ok
  obtain ⟨room, acq⟩ : s.flagRoom e = true ∧ s.acqPending = false := by simpa [State.free] using free
  have calm : s.awaited Op.isAcq = [] := by simpa [State.acqPending] using acq
  unfold State.tileWord
  rw [canRun_check (canRun_subset run (List.subset_append_right _ _) fun _ h => h) (prefixOk_bare bare)]
  refine (waitFor_runs _ calm).trans ((tracked_runs _ room).trans ?_)
  rw [bound]
  dsimp only
  refine (if_neg (by simp [canRun_window run])).trans ((canRun_regs run _).trans ?_)
  exact if_neg (by simp [inside])

end

/-! ### `tdesc` (R332) -/

theorem tensorField_none (h : Nat) : tensorField h 0 = BitVec.ofNat 32 (h * 65536) := by
  simp [tensorField]

section
variable {s : State} {a h : Nat} (bare : s.bare = true) (run : s.canRun 5 none [a] [] = true) (acq : s.acqPending = false)
include bare run acq

theorem tdesc_unbinds (zero : (s.th.reg a).toNat = 0) : exec (.tdesc a h) s =
    .next (State.advance { s with tm := { s.tm with handles := s.tm.handles.set h none } }) :=
  (memWord_runs _ run (prefixOk_bare bare) acq).trans (if_pos zero)

theorem tdesc_past (past : 4095 < (s.th.reg a).toNat) : exec (.tdesc a h) s =
    .next (s.trap { s.here with cause := 0x28, detail := BitVec.ofNat 64 (11 + (s.th.reg a).toNat * 2 ^ 32),
                                tensor := BitVec.ofNat 32 (h * 65536) }) := by
  rw [← tensorField_none]
  exact (memWord_runs _ run (prefixOk_bare bare) acq).trans ((if_neg (by omega)).trans (if_pos past))

theorem tdesc_binds {b : List Byte} {s' : State} {t : Desc} (low : 1 ≤ (s.th.reg a).toNat) (high : (s.th.reg a).toNat ≤ 4095)
    (written : s.written = true)
    (read : s.deviceBytes (((s.ctxOf s.tm.ctx).map Ctx.dtab).getD 0 + BitVec.ofNat 64 (64 * (s.th.reg a).toNat)) 2 =
      (.ok b, s')) (valid : Desc.of (s.th.reg a).toNat b = some t) :
    exec (.tdesc a h) s = .next (State.advance { s' with tm := { s'.tm with
      handles := s'.tm.handles.set h (some (s.th.reg a).toNat), descs := s'.tm.descs.set h (some t) } }) := by
  refine (memWord_runs _ run (prefixOk_bare bare) acq).trans ((if_neg (by omega)).trans ((if_neg (by omega)).trans ?_))
  refine (waitFor_runs _ (List.isEmpty_iff.1 written)).trans ?_
  dsimp only
  rw [read]
  dsimp only
  rw [valid]

end

/-! ### Element reads (R333, R334) -/

/-- An element read whose unit holds a whole element and starts at one of its own multiples (R333). -/
theorem tldWord_runs {s : State} {e : Bool} {d a h w : Nat} {t : Desc} (bare : s.bare = true) (free : s.free e = true)
    (ok : s.tileOk none [] [d] a h t = true) (wide : t.width ≤ w)
    (whole : (s.th.coords a t.rank).getD 0 0 % (w / t.width) = 0) :
    s.tldWord w e d a h = .next (s.addOp e [d] none
      (.tld (t.refAt h (s.th.coords a t.rank)) d w (t.elemOf (s.th.coords a t.rank)))) :=
  (tileWord_runs _ bare free ok).trans ((if_neg (not_lt.2 wide)).trans (if_neg (not_not.2 whole)))

theorem tq_runs {s : State} {e : Bool} {d a h : Nat} {t : Desc} (bare : s.bare = true) (free : s.free e = true)
    (ok : s.tileOk none [] [d, d + 1] a h t = true) :
    exec (.tq e d a h) s = .next (s.addOp e [d, d + 1] none (.tq (t.refAt h (s.th.coords a t.rank)) d)) := by
  show execTq e d a h s = _
  exact tileWord_runs _ bare free ok

/-- Settles O47: `tdesc` by its number, the element reads by `tldWord_runs`, `tq` as a tile word. -/
theorem tileReads : Obligations.TileReads := by
  unfold Obligations.TileReads
  intro s e d a h bare
  refine ⟨fun run acq => ⟨tdesc_unbinds bare run acq, tdesc_past bare run acq,
    fun b s' t low high written read valid => tdesc_binds bare run acq low high written read valid⟩, fun t free =>
    ⟨fun ok => ⟨tldWord_runs bare free ok, tldWord_runs bare free ok, tldWord_runs bare free ok⟩, tq_runs bare free⟩⟩

/-! ### Whole tiles and their ranges (R335, R337, R339) -/

theorem blockRegs_three (d : Nat) : blockRegs d 3 = [d, d + 1, d + 2] := by
  simp [blockRegs, List.range_succ, Nat.add_comm]

section
variable {s : State} {e : Bool} {d a h : Nat} {t : Desc}

/-- A scratchpad range of a tile form that passes both checks (R136, R170). -/
theorem tileRange_runs {o n align : Nat} (body : State → Out) (inside : s.tm.scratchCheck o n align = none)
    (plain : s.tm.overlapsStash o n = false) : s.tileRange o n align body = body s := by
  unfold State.tileRange
  rw [inside]
  exact if_neg (by simp [plain])

variable (bare : s.bare = true) (free : s.free e = true)
include bare free

theorem tst_runs (ok : s.tileOk none [d] [] a h t = true) (room : s.room OpKind.isMint 16 = true)
    (inside : s.tm.scratchCheck (s.th.reg d).toNat 256 256 = none)
    (plain : s.tm.overlapsStash (s.th.reg d).toNat 256 = false) :
    exec (.tst e d a h) s =
      .next (s.addOp e [] none (.tst (t.refAt h (s.th.coords a t.rank)) (s.th.reg d).toNat)) := by
  show execTst e d a h s = _
  refine (tileWord_runs _ bare free ok).trans ?_
  refine (queued_runs _ room).trans ?_
  exact tileRange_runs _ inside plain

theorem tileRun_runs {mk : TileRef → Nat → Nat → OpKind} (ok : s.tileOk none [d] [] a h t = true)
    (inside : (t.refAt h (s.th.coords a t.rank)).num + (s.th.reg d).toNat ≤ t.tiles) :
    s.tileRun e d a h mk = .next (s.addOp e [] none (mk (t.refAt h (s.th.coords a t.rank))
      (t.refAt h (s.th.coords a t.rank)).num (s.th.reg d).toNat)) :=
  (tileWord_runs _ bare free ok).trans (if_neg (not_lt.2 inside))

/-- R337: the control word of a `cpt` is in `v[d+1]`; with stored delivery the lengths and checks go to the range at
`v[d+2]`, else that register is 0. -/
theorem cpt_runs (ok : s.tileOk (some .copy) [d, d + 1, d + 2] [] a h t = true) (room : s.room OpKind.isCopy 32 = true) :
    let w := s.th.reg (d + 1)
    let off := (s.th.reg d).toNat
    let md := (s.th.reg (d + 2)).toNat
    let n := w.toNat % 512
    let dim := w.toNat / 2 ^ 24 % 4
    let r := t.refAt h (s.th.coords a t.rank)
    s.tm.cptCheck t w = none → r.coords.getD dim 0 + n ≤ t.grid dim → s.tm.scratchCheck off (256 * n) 256 = none →
    s.tm.overlapsStash off (256 * n) = false →
    (if w.getLsbD 31 then s.tm.scratchCheck md (4 * n) 8 = none ∧ s.tm.overlapsStash md (4 * n) = false else md = 0) →
    exec (.cpt e d a h) s = .next (s.addOp e [] none (.cpt r dim 0 n off md (w.getLsbD 31)
      (if w.getLsbD 30 then some (w.toNat / 2 ^ 26 % 16) else none))) := by
  intro w off md n dim r control grid inside plain stored
  show execCpt e d a h s = _
  unfold execCpt
  rw [blockRegs_three]
  refine (tileWord_runs _ bare free ok).trans ?_
  refine (queued_runs _ room).trans ?_
  dsimp only
  rw [control]
  refine (if_neg (not_lt.2 grid)).trans ?_
  refine (tileRange_runs _ inside plain).trans ?_
  by_cases delivers : w.getLsbD 31 = true
  · obtain ⟨lengths, outside⟩ := (if_pos delivers).mp stored
    exact (if_pos delivers).trans (tileRange_runs _ lengths outside)
  · exact (if_neg delivers).trans (if_neg (not_not.2 ((if_neg delivers).mp stored)))

end

/-! ### Pushes (R340) -/

theorem spool_runs {s : State} {e : Bool} {d a h : Nat} {t : Desc} (bare : s.bare = true) (free : s.free e = true)
    (run : s.canRun 5 none [a, a + 1, d] [] = true) (bound : s.tm.descOf h = some t) (low : 1 ≤ (s.th.reg d).toNat)
    (high : (s.th.reg d).toNat ≤ 6) :
    let p : Push :=
      { idx := s.nextIdx, core := s.tm.core, cluster := s.tm.core / 16, ctx := s.tm.ctx, pool := t.pool,
        cls := (s.th.reg d).toNat, slot := s.th.pair a,
        base := { s.here with engine := true, tensor := tensorField h t.num }, op := some s.nextOp, wait := none }
    exec (.spool e d a h) s =
      .next (State.addOp { s with pushes := s.pushes ++ [p], nextIdx := s.nextIdx + 1 } e [] none
        (.spool { handle := h, desc := t, coords := [] } (s.th.reg d).toNat (s.th.pair a))) := by
  intro p
  show execSpool e d a h s = _
  refine (trackedMem_runs _ free run (prefixOk_bare bare)).trans ?_
  dsimp only
  rw [bound]
  exact if_neg (by omega)

/-- Settles O48: each word as a tile word, `spool` as a tracked word of a bound handle. -/
theorem tileWords : Obligations.TileWords := by
  unfold Obligations.TileWords
  intro s e d a h t bare free u x r off
  exact ⟨fun ok => ⟨tst_runs bare free ok, fun inside => ⟨tileRun_runs bare free ok inside, tileRun_runs bare free ok inside⟩⟩,
    cpt_runs bare free, fun run bound => spool_runs bare free run bound⟩

/-! ### Appends (R307, R308, R336) -/

/-- A thread that has taken part in its group's append: its age is 0 (R22). -/
def Thread.young (t : Thread) : Thread := { t with age := 0 }

theorem seatsOf_map {f : Thread → Thread} (key : ∀ t, (f t).key = t.key) (ts : List Thread) :
    seatsOf (ts.map f) = seatsOf ts := by
  simp [seatsOf, List.foldl_map, key]

theorem setsDiffer_young (s : State) (ts : List Thread) :
    (s.issueTogether ts).setsDiffer (ts.map Thread.young) = s.setsDiffer ts := by
  cases ts with
  | nil => rfl
  | cons t ts =>
    show seatsOf (((t :: ts).map Thread.young).filter _) = seatsOf ((t :: ts).filter _)
    rw [List.filter_map, seatsOf_map (f := Thread.young) fun _ => rfl]
    rfl

/-- The element that a seat of the group appends: the low half of its `v[d]` (R307). -/
theorem appended_young (ts : List Thread) (d i : Nat) :
    (((ts.map Thread.young).find? (fun u => u.key.seat == i)).map (fun u => loHalf (u.reg d))).getD 0 =
      ((ts.find? (fun u => u.key.seat == i)).map (fun u => loHalf (u.reg d))).getD 0 := by
  rw [List.find?_map, Option.map_map]
  rfl

section
variable {s : State} {e : Bool} {d a h : Nat} {t sc : Desc} {ts : List Thread} {x : List Nat}

/-- R336: the checks that a complete group makes once, all of which hold, lead to the append. -/
theorem tencGo_issues {m : Team} {s' : State} {b : List Byte} (some_ : ts ≠ []) (same : ∀ v ∈ ts, v.coords a t.rank = x)
    (bound : m.descOf h = some t) (inside : t.inside x = true) (fmt : t.fmt = 5) (rank : 2 ≤ t.rank)
    (whole : x.getD 0 0 % 32 = 0) (scaled : t.scale ≠ 0)
    (read : s.deviceBytes (((s.ctxOf m.ctx).map Ctx.dtab).getD 0 + BitVec.ofNat 64 (64 * t.scale)) 2 = (.ok b, s'))
    (valid : Desc.of t.scale b = some sc) (suits : sc.suits t = true) :
    let y := (x.getD 0 0 / 32) :: x.drop 1
    let elem (i : Nat) : BitVec 16 := ((ts.find? (fun u => u.key.seat == i)).map (fun u => loHalf (u.reg d))).getD 0
    s.tencGo ts m e d a h t.rank = s'.tencIssue ts m e
      (.tenc (t.refAt h x) (x.getD 1 0 % 16) ((List.range 32).map elem) (sc.refAt 0xFF y) (sc.elemOf y) false) := by
  intro y elem
  obtain ⟨v, vs, rfl⟩ := List.exists_cons_of_ne_nil some_
  have first : v.coords a t.rank = x := same v (by simp)
  have agree : ¬ (v :: vs).any (fun u => u.coords a t.rank != x) = true := by
    simpa using fun (u : Thread) hu => same u hu
  unfold State.tencGo
  dsimp only
  rw [first, if_neg agree, bound]
  dsimp only
  rw [if_neg (by simp [inside]), if_neg (by omega), if_neg scaled, read]
  dsimp only
  rw [valid]
  exact if_pos suits

theorem tenc_meets (bare : s.bare = true) (free : s.free e = true) (room : s.room OpKind.isMint 16 = true)
    (written : s.written = true) (bound : s.tm.descOf h = some t)
    (run : s.canRun 5 none (d :: blockRegs a t.rank) [] = true) :
    let u : State := { s with th := { s.th with status := .xlane 0xFFFFFFFF } }
    u.complete? (u.waitingAt s.th.key s.th.pc) = some ts → u.team? s.th.key.team = some s.tm →
    exec (.tenc e d a h) s = .next ((u.issueTogether ts).meet (ts.map Thread.young) (d :: blockRegs a t.rank) []
      (fun v p => v.tencGo p s.tm e d a h t.rank)) := by
  intro u complete team
  obtain ⟨flag, acq⟩ : s.flagRoom e = true ∧ s.acqPending = false := by simpa [State.free] using free
  have calm : s.awaited Op.isAcq = [] := by simpa [State.acqPending] using acq
  show execTenc e d a h s = _
  unfold execTenc
  rw [bound]
  dsimp only [Option.map_some, Option.getD_some]
  rw [canRun_check run (prefixOk_bare bare)]
  refine (waitFor_runs _ calm).trans ((tracked_runs _ flag).trans ((queued_runs _ room).trans ?_))
  refine (waitFor_runs _ (List.isEmpty_iff.1 written)).trans ?_
  change (match u.complete? (u.waitingAt s.th.key s.th.pc), u.team? s.th.key.team with | some p, some m => _ | _, _ => _) = _
  rw [complete, team]
  rfl

end

/-- Settles O49: the arrival that completes the group executes the word once, and its checks lead to the append. -/
theorem append : Obligations.Append := by
  unfold Obligations.Append
  intro s s' e d a h t sc ts b bare free room written bound run u x y elem complete some_ team agree sound inside fmt rank
    whole scaled read valid suits
  refine (tenc_meets bare free room written bound run complete team).trans (congrArg _ ?_)
  have issued : (u.issueTogether ts).team? (u.issueTogether ts).th.key.team = some s.tm := by
    rw [issueTogether_key, issueTogether_team]
    exact team
  have same : ∀ v ∈ ts.map Thread.young, v.coords a t.rank = x := List.forall_mem_map.2 fun v hv => (sound v hv).2
  refine (meet_runs issued ((setsDiffer_young u ts).trans agree) (List.forall_mem_map.2 fun v hv =>
    Option.map_eq_none_iff.1 (sound v hv).1)).trans ?_
  refine (tencGo_issues (by simpa using some_) same bound inside fmt rank whole scaled read valid suits).trans ?_
  simp only [appended_young]
  rfl

end Sys2Proof.Machine
end

section
/-! PROOF. Translation maintenance: what `tlbinv` drops, and what it waits for (R316, R317, R341). -/

namespace Sys2Proof.Machine

/-! ### What is dropped (R341) -/

section
variable (s : State) (n : Nat) (v : Option Addr)

theorem dropTlb_cores : ∀ c ∈ (s.dropTlb n v).cores, ∀ t ∈ c.tlb, t.dropped n v = false :=
  List.forall_mem_map.2 fun _ _ _ ht => by simpa using List.of_mem_filter ht

theorem dropTlb_clusters : ∀ k ∈ (s.dropTlb n v).clusters, ∀ t ∈ k.tlb, t.dropped n v = false :=
  List.forall_mem_map.2 fun _ _ _ ht => by simpa using List.of_mem_filter ht

theorem dropTlb_tellers : ∀ t ∈ (s.dropTlb n v).tellerTlb, t.2.dropped n v = false :=
  fun _ ht => by simpa using List.of_mem_filter ht

theorem dropTlb_walks : ∀ w ∈ (s.dropTlb n v).walkCache, w.ctx ≠ n :=
  fun _ hw => by simpa using List.of_mem_filter hw

end

/-! ### The words -/

section
variable {s : State} {e : Bool} {d : Nat}

theorem tlbinvWord_tenant {reads : List Nat} {va : State → Option Addr} (tenant : s.isSup = false) :
    s.tlbinvWord e reads d va = s.fault 0x01 := if_pos (by simp [tenant])

/-- Accesses in flight are among the accesses that an arrival waits for. -/
theorem accesses_of_inFlight (o : Op) (h : o.inFlight = true) : o.accesses = true := (Bool.and_eq_true_iff.1 h).1

theorem tlbinvWord_runs {reads : List Nat} {va : State → Option Addr} (bare : s.bare = true) (sup : s.isSup = true)
    (free : s.free e = true) (settled : s.settled = true) (ctx : (s.th.reg d).toNat ≤ 63)
    (run : s.canRun 5 none (reads ++ [d]) [] = true) (ok : ∀ a, va s = some a → a.toNat < 2 ^ 57) :
    let n := (s.th.reg d).toNat
    let r := s.releaseAt s.tm.core s.tm.uid .device
    let waits := (r.ops.filter (fun o => o.ctx == n && o.fault.isNone && o.translatedAt.any (onPage (va s) true))).map Op.id
    s.tlbinvWord e reads d va =
      .next (((r.stashRetranslate n (va s)).dropTlb n (va s)).addOp e [] none (.tlbinv waits)) := by
  intro n r waits
  have address : ((va s).map (fun a => addrOk a 1)).getD true = true := by
    cases named : va s with
    | none => rfl
    | some a => simpa [addrOk, Nat.mod_one] using ok a named
  refine (if_neg (by simp [sup])).trans ((trackedMem_runs _ free run (prefixOk_bare bare)).trans ?_)
  refine (if_neg (by omega)).trans ((if_neg (by simp [address])).trans ?_)
  exact waitFor_settled _ settled accesses_of_inFlight

end

/-- Settles O50: both forms are a `tlbinvWord`, of the page at an address or of the whole context. -/
theorem translationMaintenance : Obligations.TranslationMaintenance := by
  unfold Obligations.TranslationMaintenance
  intro s e d a bare n va runs
  refine ⟨fun tenant => ⟨tlbinvWord_tenant tenant, tlbinvWord_tenant tenant⟩, fun sup free settled ctx =>
    ⟨fun run word => ?_, fun run => ?_⟩⟩
  · exact ⟨tlbinvWord_runs bare sup free settled ctx run fun x h => Option.some.inj h ▸ word, dropTlb_cores _ _ _,
      dropTlb_clusters _ _ _, dropTlb_tellers _ _ _, dropTlb_walks _ _ _⟩
  · exact ⟨tlbinvWord_runs bare sup free settled ctx run (fun _ h => nomatch h), dropTlb_cores _ _ _,
      dropTlb_clusters _ _ _, dropTlb_tellers _ _ _, dropTlb_walks _ _ _⟩

end Sys2Proof.Machine
end

section
/-! PROOF. Turns of the tellers (R363 to R369, R372, R394, R395) -/

namespace Sys2Proof.Machine

theorem Op.withQuery_gq {o : Op} {q : Query} (kind : o.kind = .gq q) (r : Query) : o.withQuery r = { o with kind := .gq r } := by
  unfold Op.withQuery
  rw [kind]

theorem Op.withQuery_att {o : Op} {q : Query} (kind : o.kind = .att q) (r : Query) : o.withQuery r = { o with kind := .att r } := by
  unfold Op.withQuery
  rw [kind]

theorem OpKind.query_of_either {k : OpKind} {q : Query} (either : k = .gq q ∨ k = .att q) : k.query? = some q := by
  rcases either with rfl | rfl <;> rfl

section
variable {s t s' : State} {n : Nat} {o : Op} {q r : Query}

/-- The event is the operation's turn once its teller may start it. -/
theorem queryStart_turns (ready : s.opReady n o = true) (kind : o.kind.query? = some q) (idle : q.running = false)
    (unsent : q.out = none) (free : q.routed = true → s.tellerFree o q = true)
    (forked : (s.walking o).forked o.unwalked = true) (noWalk : o.walk = none)
    (turn : (if !q.routed then State.tellTurn o.unwalked.started q (((s.walking o).starting o.unwalked).gqRoute o.ctx o.id q)
      else match o.kind with
        | .att _ => State.tellTurn o.unwalked.started q (((s.walking o).starting o.unwalked).attRun o.ctx q)
        | _ => State.tellTurn o.unwalked.started q (((s.walking o).starting o.unwalked).gqStart o.ctx q)) = some t)
    (walked : t.missed = none) : exec (.tellerQueryStart n) s = .next { t with walkFor := none } := by
  refine (onOp_ready ready).trans ?_
  rw [kind]
  have may : ¬ (q.running || q.out.isSome || (q.routed && !s.tellerFree o q)) = true := by
    cases routed : q.routed
    · simp [idle, unsent]
    · simp [idle, unsent, free routed]
  refine (orStay_unless may).trans (congrArg s.orStay (withWalks_steps noWalk ?_ walked))
  exact (withFork_starts forked).trans turn

theorem batchReturn_turns (ready : s.opReady n o = true) (kind : o.kind = .gq q) (running : q.running = true) (unsent : q.out = none)
    (turned : (s.walking o).gqTurn o.ctx q = (.ok r, s')) (noWalk : o.walk = none)
    (walked : (s'.setOp { o.unwalked with kind := .gq r }).missed = none) :
    exec (.batchReturn n) s = .next { s'.setOp { o.unwalked with kind := .gq r } with walkFor := none } := by
  refine (onOp_ready ready).trans ?_
  rw [kind]
  refine (orStay_unless (by simp [running, unsent])).trans (congrArg s.orStay (withWalks_steps noWalk ?_ walked))
  change State.tellTurn o.unwalked q ((s.walking o).gqTurn o.ctx q) = _
  rw [turned]
  exact congrArg (fun p => some (s'.setOp p)) (Op.withQuery_gq (o := o.unwalked) kind r)

/-- A query with no candidate left has its record to write (R366). -/
theorem gqTurn_ends {u : State} {c : Nat} (still : q.waiting = none) (spent : q.cands.find? (fun c => !c.expanded) = none) :
    u.gqTurn c q = (.ok { q with out := some (q.record 1) }, u) := by
  unfold State.gqTurn
  rw [still]
  dsimp only
  rw [spent]

/-- The length of a list of pieces of memory. -/
def placesLength (w : List (Nat × Nat)) : Nat := w.foldl (fun n p => n + p.2) 0

theorem tellerCompletion_joins {b : List Byte} {w l : List (Nat × Nat)} {c : Option Nat} (ready : s.opReady n o = true)
    (kind : o.kind.query? = some q) (out : q.out = some b) (turn : s.orderFree o q = true)
    (places : (s.walking o).tellPlaces o.ctx q b = (.ok (w, l, c), s')) (noWalk : o.walk = none)
    (joined : ((match (motive := Option Nat → State) c with
      | some pa => ((s'.tellerPut w ((List.range (placesLength w)).map (fun i => Config.workByte o.id i))).tellerPut
          l b).cwordAdd pa
      | none => (s'.tellerPut w ((List.range (placesLength w)).map (fun i => Config.workByte o.id i))).tellerPut
          l b).acquireStep o.core o.key.team o.scope).finishOp o.unwalked = t) (walked : t.missed = none) :
    exec (.tellerCompletion n) s = .next { t with walkFor := none } := by
  refine (onOp_ready ready).trans ?_
  rw [kind]
  dsimp only
  rw [out]
  refine (orStay_unless (by simp [turn])).trans (congrArg s.orStay (withWalks_steps noWalk ?_ walked))
  change (match (s.walking o).tellPlaces o.ctx q b with | (.error e, s) => _ | (.ok (w, r, c), s) => _) = _
  rw [places]
  exact congrArg some joined

theorem tellerSramError_fails (found : s.op? n = some o) (kind : o.kind.query? = some q) (sound : o.fault = none)
    (held : q.running = true ∨ q.routed = true ∨ o.waitPage.isSome = true ∨ o.walk.isSome = true) :
    exec (.tellerSramError n) s = .next ((s.dropAccesses (fun a => a.op == some o.id)).failOp
      (o.withQuery { q with running := false }) { o.base with cause := 0x38, vaddr := 0, detail := 9, engine := true }) := by
  change s.orStay (match (s.op? n).bind (fun o => o.kind.query?.map (fun q => (o, q))) with | none => _ | some (o, q) => _) = _
  rw [found]
  change s.orStay (match o.kind.query?.map (fun q => (o, q)) with | none => _ | some (o, q) => _) = _
  rw [kind]
  have open' : ¬ (o.fault.isSome || (!q.running && !q.routed && o.waitPage.isNone && o.walk.isNone)) = true := by
    rw [sound]
    rcases held with h | h | h | h <;> simp_all [Option.isSome_iff_ne_none]
  exact (orStay_unless open').trans (congrArg (fun u => s.orStay (some u)) (if_neg (by decide)))

end

/-- Settles O58: each event is its operation's turn (`withWalks`, `withFork`), and the turn's result is put back into the query. -/
theorem tellerEvents : Obligations.TellerEvents := by
  unfold Obligations.TellerEvents
  intro s n o q ready o' v p u ends
  have idleQuery {k : OpKind} (kind : o.kind = k) : k.query? = some q → o.kind.query? = some q := fun h => kind ▸ h
  refine ⟨?_, ?_, ?_, ?_, ?_, ?_, ?_, ?_⟩
  · intro kind idle unsent unrouted forked r s' routed noWalk walked
    refine queryStart_turns ready (idleQuery kind rfl) idle unsent (by simp [unrouted]) forked noWalk ?_ walked
    refine (if_pos (by simp [unrouted])).trans ?_
    rw [show ((s.walking o).starting o.unwalked).gqRoute o.ctx o.id q = (.ok r, s') from routed]
    exact congrArg (fun p => some (s'.setOp p)) (Op.withQuery_gq (o := p) kind r)
  · intro kind idle unsent routed forked free r s' started noWalk walked
    refine queryStart_turns ready (idleQuery kind rfl) idle unsent (fun _ => free) forked noWalk ?_ walked
    refine (if_neg (by simp [routed])).trans ?_
    rw [kind]
    dsimp only
    rw [show ((s.walking o).starting o.unwalked).gqStart o.ctx q = (.ok r, s') from started]
    exact congrArg (fun p => some (s'.setOp p)) (Op.withQuery_gq (o := p) kind r)
  · intro kind idle unsent routed forked free r s' started noWalk walked
    refine queryStart_turns ready (idleQuery kind rfl) idle unsent (fun _ => free) forked noWalk ?_ walked
    refine (if_neg (by simp [routed])).trans ?_
    rw [kind]
    dsimp only
    rw [show ((s.walking o).starting o.unwalked).attRun o.ctx q = (.ok r, s') from started]
    exact congrArg (fun p => some (s'.setOp p)) (Op.withQuery_att (o := p) kind r)
  · exact fun kind running unsent r s' turned noWalk walked => batchReturn_turns ready kind running unsent turned noWalk walked
  · exact fun kind running unsent still spent noWalk walked =>
      batchReturn_turns ready kind running unsent (gqTurn_ends still spent) noWalk walked
  · exact fun b w r s' kind out turn places noWalk walked =>
      tellerCompletion_joins ready (OpKind.query_of_either kind) out turn places noWalk rfl walked
  · exact fun b w r pa s' kind out turn places noWalk walked =>
      tellerCompletion_joins ready (OpKind.query_of_either kind) out turn places noWalk rfl walked
  · exact fun t x found kind sound held => tellerSramError_fails found (OpKind.query_of_either kind) sound held

end Sys2Proof.Machine
end

section
/-! PROOF. Queues, launches and the supervisor's commands (R373, R374, R381 to R383, R318) -/

namespace Sys2Proof.Machine

/-! ### What a queue error and a snapshot leave (R373, R387) -/

section
variable (s : State) (n : Nat)

theorem queueError_poisoned : (s.queueError n).poisoned = s.poisoned := by
  unfold State.queueError
  dsimp only
  split <;> rfl

theorem queueError_linkDown : (s.queueError n).linkDown = s.linkDown := by
  unfold State.queueError
  dsimp only
  split <;> rfl

theorem snapshot_tenantOf : (s.snapshot n).tenantOf = s.tenantOf := by
  unfold State.snapshot
  split <;> rfl

end

section
variable {s : State} {n : Nat} {q : Queue} {r b : List Byte}

/-! ### Doorbells and fetches (R373) -/

theorem doorbell_rings (v : Word) (there : s.queue? n = some q) : exec (.doorbell n v) s =
    if v.toNat < 2 ^ q.lg ∧ (q.tail + 2 ^ q.lg - q.head) % 2 ^ q.lg ≤ (v.toNat + 2 ^ q.lg - q.head) % 2 ^ q.lg then
      .next (s.setQueue { q with tail := v.toNat })
    else .next (s.queueError n) := by
  show execDoorbell n v s = _
  unfold execDoorbell
  rw [there]
  dsimp only
  split <;> rfl

theorem recordFetch_takes (there : s.queue? n = some q) (idle : q.fetched = none) (more : q.head ≠ q.tail)
    (link : q.host = false ∨ s.fabric.host ≠ .down) (came : s.recordAt q = (b, true)) :
    exec (.recordFetch n) s = .next (s.setQueue { q with fetched := some b }) := by
  show execRecordFetch n s = _
  unfold execRecordFetch
  rw [there]
  dsimp only
  rw [came]
  refine orStay_unless ?_
  rcases link with device | up
  · simp [idle, more, device]
  · simp [idle, more, up]

/-- R373: the completion word of a record of device memory that arrived with an error arrived clean. -/
def State.cwordClean (s : State) (q : Queue) (b : List Byte) : Bool :=
  !s.poisoned (q.base + 1024 * q.head + 0x48) 8 && !s.linkDown (q.base + 1024 * q.head) &&
    ((leAddr (slice b 0x48 8)).getLsbD 63 || !s.poisoned (q.base + 1024 * q.head) 8) && cwordOk (leAddr (slice b 0x48 8))

/-- The state after a failed fetch, before the head passes its record. -/
def State.fetchFailed (s : State) (n : Nat) (q : Queue) (b : List Byte) : State :=
  if s.cwordClean q b then (s.queueError n).putStatus n (fieldAt b 2 1) (leAddr (slice b 0x48 8)) 2 9 false else s.queueError n

theorem recordFetch_fails {p : Queue} (there : s.queue? n = some q) (idle : q.fetched = none) (more : q.head ≠ q.tail)
    (device : q.host = false) (bad : s.recordAt q = (b, false)) (still : (s.fetchFailed n q b).queue? n = some p) :
    exec (.recordFetch n) s = .next ((s.fetchFailed n q b).passHead p) := by
  have same : s.fetchFailed n q b = if ((s.queueError n).cwordClean q b) then
      (s.queueError n).putStatus n (fieldAt b 2 1) (leAddr (slice b 0x48 8)) 2 9 false else s.queueError n := by
    unfold State.fetchFailed State.cwordClean
    rw [queueError_poisoned, queueError_linkDown]
  show execRecordFetch n s = _
  unfold execRecordFetch
  rw [there]
  dsimp only
  rw [bad]
  refine (orStay_unless (by simp [idle, more, device])).trans ?_
  rw [same] at still ⊢
  simp only [device, Bool.false_eq_true, if_false]
  unfold State.cwordClean at still ⊢
  rw [still]
  rfl

theorem orStay_some (s t : State) : s.orStay (some t) = .next t := rfl

/-! ### Launches (R374) -/

theorem launch_starts {k : Checked} (fetched : s.launchRecord n = some (q, r)) (good : s.checkLaunch n r = .ok k) :
    exec (.launch n) s = .next
      (State.armWaits { s.passHead q with grids := s.grids ++ [s.gridOf n r k], nextGrid := s.nextGrid + 1 } (s.gridOf n r k)) := by
  show execLaunch n s = _
  unfold execLaunch
  rw [fetched]
  dsimp only
  rw [good]
  rfl

theorem launch_refused {k : Nat} (fetched : s.launchRecord n = some (q, r)) (bad : s.checkLaunch n r = .error k)
    (word : cwordOk (leAddr (slice r 0x48 8)) = true) :
    exec (.launch n) s = .next ((s.passHead q).putStatus n (fieldAt r 2 1) (leAddr (slice r 0x48 8)) 2 k false) := by
  show execLaunch n s = _
  unfold execLaunch
  rw [fetched]
  dsimp only
  rw [bad]
  dsimp only
  rw [if_pos word, orStay_some]

/-! ### Contexts (R383) -/

/-- R383: the record of a CREATE_CONTEXT can be taken. -/
def State.ctxFits (s : State) (r : List Byte) : Prop :=
  fieldAt r 2 1 < 64 ∧ s.ctxOf (fieldAt r 2 1) = none ∧ inMap (fieldAt r 0x10 8) = true ∧
    inMap (fieldAt r 0x10 8 + 511) = true ∧ s.poisoned (fieldAt r 0x10 8) 512 = false ∧ s.linkDown (fieldAt r 0x10 8) = false ∧
    s.ctxRecordOk (ctxRecord (fieldAt r 2 1) (s.performBytes (fieldAt r 0x10 8) 512)) (s.performBytes (fieldAt r 0x10 8) 512) = true

/-- A state with a context more. -/
def State.withCtx (s : State) (n : Nat) (c : Ctx) : State :=
  { s with ctxs := s.ctxs ++ [c], fabric := { s.fabric with lost := s.fabric.lost.filter (fun x => x != n) } }

theorem createContext_makes (fetched : s.command 0x80 = some (q, r)) (fits : s.ctxFits r) :
    exec .createContext s = .next ((s.withCtx (fieldAt r 2 1)
      (ctxRecord (fieldAt r 2 1) (s.performBytes (fieldAt r 0x10 8) 512))).commandDone q r 0) := by
  obtain ⟨small, new, first, last, sound, up, good⟩ := fits
  show execCreateContext s = _
  unfold execCreateContext
  rw [fetched]
  dsimp only
  rw [if_neg (by simp [small, new, first, last, sound, up, good])]
  rfl

theorem createContext_refuses (fetched : s.command 0x80 = some (q, r)) (fits : ¬ s.ctxFits r) :
    exec .createContext s = .next (s.commandDone q r 2) := by
  show execCreateContext s = _
  unfold execCreateContext
  rw [fetched]
  dsimp only
  have refused : 64 ≤ fieldAt r 2 1 ∨ (s.ctxOf (fieldAt r 2 1)).isSome ∨
      !(inMap (fieldAt r 0x10 8) && inMap (fieldAt r 0x10 8 + 511) && !s.poisoned (fieldAt r 0x10 8) 512 &&
        !s.linkDown (fieldAt r 0x10 8)) ∨
      !s.ctxRecordOk (ctxRecord (fieldAt r 2 1) (s.performBytes (fieldAt r 0x10 8) 512)) (s.performBytes (fieldAt r 0x10 8) 512) := by
    by_contra taken
    refine fits ?_
    simpa [State.ctxFits, and_assoc] using taken
  rw [if_pos refused]
  rfl

theorem endContext_ends (fetched : s.command 0x81 = some (q, r)) (valid : (s.ctxOf (fieldAt r 2 1)).isSome = true) :
    exec .endContext s = .next ((((s.haltCtx (fieldAt r 2 1)).endGrids (fieldAt r 2 1) 4).commandDone q r 0).removeCtx
      (fieldAt r 2 1)) := by
  show execEndContext s = _
  unfold execEndContext
  rw [fetched]
  dsimp only
  rw [if_neg (by simpa using Option.isSome_iff_ne_none.1 valid)]
  rfl

theorem endContext_refuses (fetched : s.command 0x81 = some (q, r)) (invalid : (s.ctxOf (fieldAt r 2 1)).isNone = true) :
    exec .endContext s = .next (s.commandDone q r 2) := by
  show execEndContext s = _
  unfold execEndContext
  rw [fetched]
  dsimp only
  rw [if_pos invalid]
  rfl

/-! ### Resolving fault records (R318, R383) -/

/-- The unresolved entry that a resolve command names. -/
def State.resolved (s : State) (r : List Byte) : Option FqEntry := s.fqEntry (fieldAt r 4 4) (fieldAt r 8 4)

variable (fetched : s.command 0x82 = some (q, r))
include fetched

theorem resolving_some {action : Nat → Bool} (mine : action (fieldAt r 0x0C 4) = true) :
    s.resolving action = some (q, r, fieldAt r 4 4) := by
  unfold State.resolving
  rw [fetched]
  exact if_pos mine

theorem resolveReplay_retries {e : FqEntry} {c p : Nat} {l : List Nat} (action : fieldAt r 0x0C 4 = 0)
    (entry : s.resolved r = some e) (page : e.wait = .page c p l) (waiters : s.waitersOf e ≠ []) :
    exec .resolveReplay s =
      .next (((s.waitersOf e).foldl State.retry (s.settleEntry (fieldAt r 4 4) e.index)).commandDone q r 0) := by
  show execResolveReplay s = _
  unfold execResolveReplay
  rw [resolving_some fetched (by simp [action])]
  dsimp only
  rw [show s.fqEntry (fieldAt r 4 4) (fieldAt r 8 4) = some e from entry]
  dsimp only
  rw [page]
  dsimp only
  rw [if_neg (by simp [action]), if_neg (by simpa using waiters)]
  rfl

/-- An action that is not defined, and a replay of an entry that is not there, have reason 1. -/
theorem resolveReplay_refuses (refused : 2 < fieldAt r 0x0C 4 ∨ (fieldAt r 0x0C 4 = 0 ∧ s.resolved r = none)) :
    exec .resolveReplay s = .next (s.commandDone q r 1) := by
  have mine : (fieldAt r 0x0C 4 == 0 || decide (2 < fieldAt r 0x0C 4)) = true := by
    rcases refused with high | ⟨zero, _⟩
    · simp [high]
    · simp [zero]
  show execResolveReplay s = _
  unfold execResolveReplay
  rw [resolving_some fetched mine]
  dsimp only
  split
  next e entry =>
    have high : fieldAt r 0x0C 4 ≠ 0 := by
      rcases refused with high | ⟨_, none⟩
      · omega
      · exact (Option.some_ne_none e (entry.symm.trans none)).elim
    split
    · rw [if_pos high]
      rfl
    · rfl
  · rfl

theorem resolveDeliver_delivers {e : FqEntry} (action : fieldAt r 0x0C 4 = 1) (entry : s.resolved r = some e)
    (waiters : s.waitersOf e ≠ []) : exec .resolveDeliver s =
      .next (((s.waitersOf e).foldl State.deliverPage (s.settleEntry (fieldAt r 4 4) e.index)).commandDone q r 0) := by
  show execResolveDeliver s = _
  unfold execResolveDeliver
  rw [resolving_some fetched (by simp [action])]
  dsimp only
  rw [show s.fqEntry (fieldAt r 4 4) (fieldAt r 8 4) = some e from entry]
  dsimp only
  rw [if_neg (by simpa using waiters)]
  rfl

theorem resolveDeliver_refuses (action : fieldAt r 0x0C 4 = 1) (entry : s.resolved r = none) :
    exec .resolveDeliver s = .next (s.commandDone q r 1) := by
  show execResolveDeliver s = _
  unfold execResolveDeliver
  rw [resolving_some fetched (by simp [action])]
  dsimp only
  rw [show s.fqEntry (fieldAt r 4 4) (fieldAt r 8 4) = none from entry]
  rfl

theorem resolveEndThread_stopped {e : FqEntry} {k : ThreadKey} (action : fieldAt r 0x0C 4 = 2)
    (entry : s.resolved r = some e) (stopped : e.wait = .stopped k) : exec .resolveEndThread s =
      .next (((s.settleEntry (fieldAt r 4 4) e.index).removeThread k).commandDone q r 0) := by
  show execResolveEndThread s = _
  unfold execResolveEndThread
  rw [resolving_some fetched (by simp [action])]
  dsimp only
  rw [show s.fqEntry (fieldAt r 4 4) (fieldAt r 8 4) = some e from entry]
  dsimp only
  rw [stopped]
  rfl

theorem resolveEndThread_page {e : FqEntry} {c p : Nat} {l : List Nat} {x : PageAccess} {rest : List PageAccess} {t : Thread}
    (action : fieldAt r 0x0C 4 = 2) (entry : s.resolved r = some e) (page : e.wait = .page c p l)
    (waiters : s.waitersOf e = x :: rest) (there : s.thread? x.key = some t) (parked : t.status.onPage x.num = true) :
    exec .resolveEndThread s = .next (((rest.filter (fun y => y.key != x.key)).foldl State.retry
      ((s.settleEntry (fieldAt r 4 4) e.index).removeThread x.key)).commandDone q r 0) := by
  show execResolveEndThread s = _
  unfold execResolveEndThread
  rw [resolving_some fetched (by simp [action])]
  dsimp only
  rw [show s.fqEntry (fieldAt r 4 4) (fieldAt r 8 4) = some e from entry]
  dsimp only
  rw [page]
  dsimp only
  rw [waiters]
  dsimp only
  rw [there, if_neg (by simp [parked])]
  rfl

theorem resolveEndThread_refuses (action : fieldAt r 0x0C 4 = 2) (entry : s.resolved r = none) :
    exec .resolveEndThread s = .next (s.commandDone q r 1) := by
  show execResolveEndThread s = _
  unfold execResolveEndThread
  rw [resolving_some fetched (by simp [action])]
  dsimp only
  rw [show s.fqEntry (fieldAt r 4 4) (fieldAt r 8 4) = none from entry]
  rfl

end

/-- The thread is parked on the access, or was saved so. -/
theorem Status.onPage_iff {x : Status} {n : Nat} :
    x.onPage n = true ↔ x = .parked (.page n) ∨ ∃ w, x = .saved w (some (.page n)) := by
  unfold Status.onPage
  split
  · simp
  · simp
  next elsewhere unsaved =>
    simp only [Bool.false_eq_true, false_iff, not_or, not_exists]
    exact ⟨fun h => elsewhere _ h, fun w h => unsaved w _ h⟩

/-! ### The supervisor's registers of the management window (R381, R382) -/

section
variable {s : State} {n : Nat}

theorem fqheadWrite_consumes (v : Word) (small : n < 16) (none : (s.tenantOf n).held = []) :
    exec (.fqheadWrite n v) s = .next ((s.snapshot 0).setTenant { s.tenantOf n with
      fqhead := v.toNat % 2 ^ (s.tenantOf n).lgfq,
      fq := (s.tenantOf n).fq.filter (fun e => e.wait != .none ||
        !decide ((e.index + 2 ^ (s.tenantOf n).lgfq - (s.tenantOf n).fqhead) % 2 ^ (s.tenantOf n).lgfq <
          (v.toNat % 2 ^ (s.tenantOf n).lgfq + 2 ^ (s.tenantOf n).lgfq - (s.tenantOf n).fqhead) % 2 ^ (s.tenantOf n).lgfq)) }) := by
  refine (orStay_unless (Nat.not_le.2 small)).trans ?_
  unfold State.writeFqhead
  rw [snapshot_tenantOf]
  dsimp only
  rw [none]
  rfl

theorem supervisorRegisterWrite_snapen (v : BitVec 64) : exec (.supervisorRegisterWrite 0x8A v) s =
    .next { s.snapshot 0 with sup := { (s.snapshot 0).sup with snapen := v.setWidth 32 } } := rfl

theorem supervisorRegisterWrite_lgfq {v : BitVec 64} (first : 0x200 ≤ n) (last : n < 0x210) (low : 6 ≤ v.toNat)
    (high : v.toNat ≤ 12) : exec (.supervisorRegisterWrite n v) s =
      .next ((s.snapshot 0).setTenant { (s.snapshot 0).tenantOf (n - 0x200) with lgfq := v.toNat }) := by
  refine (if_neg (by omega)).trans (congrArg _ ?_)
  have whole : v.toNat % 2 ^ 63 = v.toNat := by omega
  unfold State.setUp
  rw [whole]
  exact (if_neg (by omega)).trans ((if_pos ⟨first, last⟩).trans (if_pos ⟨low, high⟩))

end

/-- Settles O57: each event by its cases, the resolve commands by the entry that the record names. -/
theorem queueEvents_hold : Obligations.QueueEvents := by
  unfold Obligations.QueueEvents
  intro s
  refine ⟨fun n q v => doorbell_rings v, fun n q b => recordFetch_takes, ?_,
    fun n q r fetched => ⟨fun k => launch_starts fetched, fun k => launch_refused fetched⟩,
    fun q r fetched => ⟨createContext_makes fetched, createContext_refuses fetched⟩,
    fun q r fetched => ⟨endContext_ends fetched, endContext_refuses fetched⟩, ?_,
    fun n v => fqheadWrite_consumes v, ?_⟩
  · intro n q b there idle more device bad c a clean passed u
    have clean_iff : clean ↔ s.cwordClean q b = true := by
      simp [clean, c, a, State.cwordClean, and_assoc]
    have fails (t : State) (h : s.fetchFailed n q b = t) : passed t := fun p still =>
      h ▸ recordFetch_fails there idle more device bad (h.symm ▸ still)
    exact ⟨fun yes => fails _ (if_pos (clean_iff.1 yes)), fun no => fails _ (if_neg (mt clean_iff.2 no))⟩
  · intro q r fetched tn entry cleared
    refine ⟨fun action => ⟨fun e c p l => resolveReplay_retries fetched action,
        fun none => resolveReplay_refuses fetched (.inr ⟨action, none⟩)⟩,
      fun high => resolveReplay_refuses fetched (.inl high),
      fun action => ⟨fun e => resolveDeliver_delivers fetched action, resolveDeliver_refuses fetched action⟩,
      fun action => ⟨fun e k => resolveEndThread_stopped fetched action, ?_, resolveEndThread_refuses fetched action⟩⟩
    exact fun e c p l x rest t named page waiters there parked =>
      resolveEndThread_page fetched action named page waiters there (Status.onPage_iff.2 parked)
  · exact fun n v => ⟨fun number => number ▸ supervisorRegisterWrite_snapen v, supervisorRegisterWrite_lgfq⟩

end Sys2Proof.Machine
end

section
/-! PROOF. Placement, swapping, resumption and completion of teams and grids (R319 to R324, R375, R377 to R380) -/

namespace Sys2Proof.Machine

section
variable {s : State} {u : Nat} {m : Team}

/-! ### Placement (R319, R375, R377) -/

theorem teamPlacement_places {g : Grid} {c : Nat} {s₁ s₂ : State} (there : s.team? u = some m)
    (grid : s.grids.find? (fun g => g.id == m.grid) = some g) (waits : m.waiting = true) (next : s.nextToPlace m = true)
    (core : s.chooseCore m { windows := (m.launchGroups g).map (fun x => x.2.2), sgran := m.sgran } = some c)
    (slot : s.takeSlot { m with scratch := [] } c ((s.freeSlots c).headD 0) = some s₁)
    (groups : s₁.formLaunch u (m.launchGroups g) = some s₂) :
    exec (.teamPlacement u) s = .next ((if s.unplaced g then s₂.putRegions g else s₂).acquireAt c .device) := by
  show execTeamPlacement u s = _
  unfold execTeamPlacement
  rw [there]
  dsimp only
  rw [grid]
  dsimp only
  rw [if_neg (by simp [waits, next]), core]
  dsimp only
  rw [slot]
  change s.orStay (match s₁.formLaunch u (m.launchGroups g) with | none => none | some t => _) = _
  rw [groups]
  rfl

/-! ### Swap-out (R321) -/

section
variable {core slot : Nat} {x : Ctx} (there : s.team? u = some m) (resident : m.res = .resident core slot)
  (valid : s.ctxOf m.ctx = some x) (ready : s.readyToLeave m = true)
include there resident valid ready

theorem teamSwapOut_letsGo (busy : s.drained m = false) : exec (.teamSwapOut u) s = .next (s.letGo u) := by
  show execTeamSwapOut u s = _
  unfold execTeamSwapOut
  rw [there]
  dsimp only
  rw [resident, valid]
  dsimp only
  rw [if_neg (by simp [ready]), if_pos (by simp [busy])]
  rfl

theorem teamSwapOut_saves {m' : Team} {b : Nat} (drained : s.drained m = true)
    (saved : ((s.releaseAt core u .device).mapThreads m.saveThread).team? u = some m')
    (base : ((s.releaseAt core u .device).mapThreads m.saveThread).imageBase x u
      (((s.releaseAt core u .device).mapThreads m.saveThread).image m').length = some b)
    (sound : ((s.releaseAt core u .device).mapThreads m.saveThread).saveFaults b
      (((s.releaseAt core u .device).mapThreads m.saveThread).image m').length = false) :
    let v := (s.releaseAt core u .device).mapThreads m.saveThread
    let w := v.homeWrite b (v.image m')
    exec (.teamSwapOut u) s = .next { w.setTeam { m' with
      res := .swapped core slot b (v.image m').length (s.wantedAfter m) w.placeOrder, preempt := none } with
      placeOrder := w.placeOrder + 1 } := by
  intro v w
  show execTeamSwapOut u s = _
  unfold execTeamSwapOut
  rw [there]
  dsimp only
  rw [resident, valid]
  dsimp only
  rw [if_neg (by simp [ready]), if_neg (by simp [drained]), saved]
  dsimp only [Option.getD_some]
  rw [base]
  dsimp only
  rw [if_neg (by simp [sound])]
  rfl

end

theorem readyToLeave_of (stopped : if m.preempt.isSome then (s.threadsOf m.uid).all (fun t => t.status.stoppedFor) = true ∧
      (s.threadsOf m.uid ≠ [] ∨ ∃ i, i < 8 ∧ (m.till i).isSome = true)
    else s.allParked m = true ∧ s.wantedBy m = true) : s.readyToLeave m = true := by
  unfold State.readyToLeave
  split
  next preempted =>
    rw [if_pos preempted] at stopped
    obtain ⟨all, threads | ⟨i, small, till⟩⟩ := stopped
    · simp [all, threads]
    · have some : (List.range 8).any (fun i => (m.till i).isSome) = true :=
        List.any_eq_true.2 ⟨i, List.mem_range.2 small, till⟩
      simp only [all, some, Bool.or_true, Bool.and_self]
  next unasked =>
    rw [if_neg unasked] at stopped
    simp [stopped]

/-! ### Resumption (R320, R323) -/

section
variable {core slot b k r : Nat} {w : Wanted} {place : Nat × Nat} (there : s.team? u = some m)
  (swapped : m.res = .swapped core slot b k w r) (next : s.nextToResume m = true)
  (settled : s.imageUpdates.any (fun v => v.team == u) = false) (free : s.resumePlace m core slot = some place)
include there swapped next settled free

theorem teamResume_unreadable (bad : s.reload m b k = none) :
    exec (.teamResume u) s = .next (s.loseControl (2 + 256 * m.die) m.ctx) := by
  show execTeamResume u s = _
  unfold execTeamResume
  rw [there]
  dsimp only
  rw [swapped]
  dsimp only
  rw [if_neg (by simp [next, settled]), free, bad]
  rfl

theorem teamResume_comesBack {s₁ s₃ : State} {m' : Team} (image : s.reload m b k = some s₁) (back : s₁.team? u = some m')
    (taken : s₁.takePlace m' place.1 place.2 = some s₃) : exec (.teamResume u) s = .next (s₃.comeBack m' place.1 place.2) := by
  show execTeamResume u s = _
  unfold execTeamResume
  rw [there]
  dsimp only
  rw [swapped]
  dsimp only
  rw [if_neg (by simp [next, settled]), free, image]
  dsimp only
  rw [back]
  dsimp only [Option.getD_some]
  rw [taken]
  rfl

end

theorem takePlace_takes {s₂ s₃ : State} {core slot : Nat} (taken : s.takeSlot { m with groups := [] } core slot = some s₂)
    (allotted : s₂.allotGroups m.uid m.groups = some s₃) : s.takePlace m core slot = some s₃ := by
  unfold State.takePlace
  rw [taken]
  exact allotted

/-! ### Updates of images (R324) -/

section
variable {x : ImageUpd} {off : Nat} {b : List Byte}

/-- A state without one of its updates. -/
def State.withoutUpdate (s : State) (i : Nat) : State := { s with imageUpdates := s.imageUpdates.filter (fun v => v.idx != i) }

theorem imageUpdate_oldest {i : Nat} (there : s.imageUpdates.find? (fun u => u.idx == i) = some x)
    (outside : s.outside x.team = true)
    (oldest : s.imageUpdates.any (fun v => v.team == x.team && decide (v.idx < i)) = false) : exec (.imageUpdate i) s =
      .next (if s.updateDead x then s.withoutUpdate i else (s.withoutUpdate i).onImage x.team (fun t => t.imageUpdate x)) := by
  show execImageUpdate i s = _
  unfold execImageUpdate
  rw [there]
  dsimp only
  rw [if_neg (by simp only [outside, oldest, Bool.not_true, Bool.or_self, Bool.false_eq_true, not_false_eq_true])]
  rfl

theorem updateDead_scratch (what : x.what = .scratch off b) :
    s.updateDead x = true ↔ s.op? x.op = none ∨ ∃ o, s.op? x.op = some o ∧ o.fault.isSome = true := by
  unfold State.updateDead
  rw [what]
  cases s.op? x.op <;> simp

theorem imageUpdate_scratch {p : Op} (what : x.what = .scratch off b) (there : s.team? x.team = some m)
    (running : s.op? x.op = some p) :
    let v := s.setTeam (m.scratchWrite off b)
    let last := (match p.kind with | .copy ps _ => ps.isEmpty | _ => false) && !v.updatesOf p.id
    let w := v.landed p b.length last
    s.imageUpdate x = if w.lineNow x.team then w.setTeam ((w.team? x.team).getD m).runnable else w := by
  intro v last w
  unfold State.imageUpdate
  rw [there, running, what]
  rfl

end

/-! ### Grids (R377 to R380) -/

section
variable {g : Grid} {id : Nat}

theorem waitConditionMet_met {w pa : Nat} {c : WaitCond} (there : s.grids.find? (fun g => g.id == id && !g.done) = some g)
    (cond : g.waits[w]? = some c) (unmet : c.met = false)
    (due : if s.monitors.any (fun m => m.grid == some (id, w)) then
        s.monitors.any (fun m => m.grid == some (id, w) && m.fired) = true
      else c.poll ≤ s.clocks.getD (g.queue % 4) 0)
    (holds : s.waitHolds g.ctx c = some (pa, true)) : exec (.waitConditionMet id w) s =
      .next (State.setGrid { s with monitors := s.monitors.filter (fun m => m.grid != some (id, w)) }
        (g.setWait w { c with met := true })) := by
  show execWaitConditionMet id w s = _
  unfold execWaitConditionMet
  rw [there]
  dsimp only
  rw [cond]
  dsimp only
  have turn : ¬ (if s.monitors.any (fun m => m.grid == some (id, w)) then
      !s.monitors.any (fun m => m.grid == some (id, w) && m.fired) else decide (s.clocks.getD (g.queue % 4) 0 < c.poll)) = true := by
    split at due
    next watched => simp only [watched, due, if_true, Bool.not_true, Bool.false_eq_true, not_false_eq_true]
    next watched => simp only [watched, if_false, decide_eq_true_eq, Nat.not_lt, due, Bool.false_eq_true]
  rw [if_neg (by simp [unmet]), if_neg turn, holds]
  rfl

theorem teamHandout_hands {die : Nat} (small : die < 4) (chosen : s.chooseGrid die = some g) (room : s.canTake die g = true) :
    exec (.teamHandout die) s = .next { s.setGrid { g with next := g.next + 1 } with
      teams := s.teams ++ [s.newTeam g], nextTeam := ((s.newTeam g).uid + 1) % 65536, cpRobin := g.queue % 4 } := by
  show execTeamHandout die s = _
  unfold execTeamHandout
  rw [if_neg (Nat.not_le.2 small), chosen]
  dsimp only
  rw [if_neg (by simp [room])]
  rfl

theorem deadlineExpiry_hits (there : s.grids.find? (fun g => g.id == id && !g.done) = some g) (set : g.deadline ≠ 0)
    (past : g.deadline ≤ s.clocks.getD (g.queue % 4) 0) (first : g.deadlineHit = false) :
    exec (.deadlineExpiry id) s = .next (s.setGrid { g with deadlineHit := true, urgent := g.urgent || s.urgentNow g }) := by
  show execDeadlineExpiry id s = _
  unfold execDeadlineExpiry
  rw [there]
  dsimp only
  rw [if_neg (not_or.2 ⟨set, Nat.not_lt.2 past⟩), if_neg (by simp [first])]
  rfl

theorem quantumExpiry_preempts {n : Nat} (small : n < 16) (set : (s.tenantOf n).quantum ≠ 0)
    (past : (s.tenantOf n).quantum < (s.tenantOf n).slotTime) (victim : s.quantumVictim n = some m) :
    exec (.quantumExpiry n) s = .next (s.preemptTeam m) := by
  show execQuantumExpiry n s = _
  unfold execQuantumExpiry
  dsimp only
  rw [if_neg (by omega), victim]
  rfl

/-- The releases and the removal of a completed grid's teams, and its status (R380). -/
def State.completed (s : State) (g : Grid) (id : Nat) : State :=
  let v := (s.allTeams.filter (fun m => m.grid == id)).foldl (fun s m => s.releaseAt m.core m.uid .system) s
  let w : State := { v with teams := v.teams.filter (fun m => m.grid != id), grids := v.grids.filter (fun x => x.id != id) }
  w.putStatus g.queue g.ctx g.cword 1 0 (g.deadline != 0 && decide (g.deadline < w.clocks.getD (g.queue % 4) 0))

theorem gridComplete_completes (there : s.grids.find? (fun g => g.id == id && !g.done) = some g) (out : g.next = g.teams)
    (freed : (s.allTeams.filter (fun m => m.grid == id)).all (fun m => match m.res with | .freed _ => true | _ => false) = true) :
    exec (.gridComplete id) s = .next (if !g.irq then s.completed g id
      else if g.queue < 16 then (s.completed g id).raise g.queue 0
      else { s.completed g id with sup := { (s.completed g id).sup with irqs := (s.completed g id).sup.irqs ++ [0] } }) := by
  show execGridComplete id s = _
  unfold execGridComplete
  rw [there]
  refine congrArg s.orStay (if_neg (not_or.2 ⟨not_not.2 out, fun unfreed => ?_⟩))
  exact Bool.false_ne_true ((Bool.not_eq_true' _ ▸ unfreed).symm.trans freed)

end
end

/-- Settles O56: each event's conditions select one branch of its definition. -/
theorem dispatchEvents : Obligations.DispatchEvents := by
  unfold Obligations.DispatchEvents
  intro s
  refine ⟨fun u m g c s₁ s₂ => teamPlacement_places, ?_,
    fun u m core slot x => teamSwapOut_letsGo, ?_, ?_, fun id w g c pa => waitConditionMet_met,
    fun die g => teamHandout_hands, fun id g => deadlineExpiry_hits, fun n small m => quantumExpiry_preempts small, ?_⟩
  · exact fun u m core slot x there resident valid drained stopped m' b saved base sound =>
      teamSwapOut_saves there resident valid (readyToLeave_of stopped) drained saved base sound
  · intro u m core slot b k w r place there swapped next settled free
    refine ⟨teamResume_unreadable there swapped next settled free, ?_⟩
    exact fun s₁ m' s₂ s₃ image back taken allotted =>
      teamResume_comesBack there swapped next settled free image back (takePlace_takes taken allotted)
  · intro i x off b there outside oldest what gone
    have event := imageUpdate_oldest there outside oldest
    refine ⟨fun dead => event.trans (congrArg _ (if_pos ((updateDead_scratch what).2 dead))), fun o running sound => ⟨?_, ?_⟩⟩
    · refine event.trans (congrArg _ (if_neg fun dead => ?_))
      obtain none | ⟨p, same, faulted⟩ := (updateDead_scratch what).1 dead
      · exact absurd (none.symm.trans running) nofun
      · obtain rfl := Option.some.inj (running.symm.trans same)
        simp [sound] at faulted
    · exact fun t m p there running => imageUpdate_scratch what there running
  · intro id g there out freed v w x
    have event := gridComplete_completes there out freed
    exact ⟨fun quiet => event.trans (congrArg _ (if_pos (by simp [quiet]))),
      fun asked tenant => event.trans (congrArg _ ((if_neg (by simp [asked])).trans (if_pos tenant)))⟩

end Sys2Proof.Machine
end

section
/-! PROOF. What caches and stash lines change: the memory's own fields (`State.outer`), and for a stash line the teams besides, so
that threads, operations and the fabric stay as they were. One lemma for each operation, in the order of the model's files. -/

namespace Sys2Proof.Machine

/-! ### Cluster caches and L1 (R142 to R145, R214, R215, R218, R219) -/

section
variable (s : State)

theorem pick_outer (n : Nat) : (s.pick n).2.outer = s.outer := rfl

theorem evictLine_outer (c l : Nat) : (s.evictLine c l).outer = s.outer := by
  have sent := writeBack_outer s c l 256
  unfold State.evictLine
  generalize s.writeBack c l 256 = t at sent
  exact (settleFrom_outer _ _ _).trans sent

theorem evictTag_outer (c : Nat) (t : Tag) : (s.evictTag c t).outer = s.outer := by
  cases t with
  | line a => exact (evictLine_outer _ _ _).trans (flushRegs_outer _ _ _ _)
  | tile a b c => rfl

theorem makeRoom_outer (c : Nat) (t : Tag) : (s.makeRoom c t).outer = s.outer := by
  unfold State.makeRoom
  split
  · rfl
  · exact (evictTag_outer _ _ _).trans (pick_outer s ((s.cluster c).crowd t).length)

theorem wholeUnit_outer (c u : Nat) : (s.wholeUnit c u).outer = s.outer := by
  have sent := flushRegs_outer s c (8 * u) 8
  unfold State.wholeUnit
  dsimp only
  split
  · exact sent
  · exact (takeUnit_outer _ _ _ _).trans ((viewUnit_outer _ _ _).trans sent)

theorem fillUnit_outer (c u : Nat) : (s.fillUnit c u).outer = s.outer := by
  unfold State.fillUnit
  split
  · rfl
  · exact wholeUnit_outer s c u

theorem fillLine_outer (c l : Nat) : (s.fillLine c l).outer = s.outer :=
  (foldl_outer _ (fun s i => fillUnit_outer s c (l / 8 + i)) _).trans (makeRoom_outer s c (.line l))

theorem fetch_outer (c : Nat) (xs : List (Nat × Nat)) : (s.fetch c xs).outer = s.outer :=
  foldl_outer xs (fun s x => by split; exacts [rfl, wholeUnit_outer s c (x.1 / 8)]) s

theorem register_outer (c : Nat) (escrow : Bool) (x : Nat × Nat) : (s.register c escrow x).outer = s.outer := by
  unfold State.register
  dsimp only
  split
  · rfl
  · split
    · rfl
    · exact (homeRegister_outer _ _).trans (flushRegs_outer _ _ _ _)

theorem clusterStore_outer (core pa : Nat) (b : List Byte) (escrow : Bool) :
    (s.clusterStore core pa b escrow).outer = s.outer := by
  unfold State.clusterStore
  dsimp only
  split
  · exact (homeWriteAs_outer _ _ _ _).trans (leaveLine_outer _ _ _)
  · have room : ((s.markView none pa b.length).makeRoom (clusterOf core) (.line (lineOf pa))).outer = s.outer :=
      makeRoom_outer _ _ _
    refine (l1Take_outer _ _ _ _).trans ((foldl_outer _ (fun s x => register_outer s _ escrow x) _).trans ?_)
    split
    · exact (foldl_outer _ (fun s u => fillUnit_outer s (clusterOf core) u) _).trans room
    · exact room

theorem l1Mend_outer (core u : Nat) : (s.l1Mend core u).outer = s.outer := by
  have whole := (wholeUnit_outer _ (clusterOf core) u).trans (makeRoom_outer s (clusterOf core) (.line (lineOf (8 * u))))
  unfold State.l1Mend
  dsimp only
  generalize (s.makeRoom (clusterOf core) (.line (lineOf (8 * u)))).wholeUnit (clusterOf core) u = t at whole
  split
  · exact whole
  · exact whole

theorem l1Put_outer (core : Nat) (l : L1Line) : (s.l1Put core l).outer = s.outer := by
  unfold State.l1Put
  split <;> rfl

theorem lookUp_outer (core line : Nat) (xs : List (Nat × Nat)) (fill : Bool) : (s.lookUp core line xs fill).2.outer = s.outer := by
  unfold State.lookUp
  dsimp only
  split
  · exact (settleLine_outer _ _).trans (leaveLine_outer _ _ _)
  · split
    next l _ =>
      have mended := foldl_outer (xs.filter (fun x => !wholeIn l.patches x)) (fun s x => l1Mend_outer s core (x.1 / 8)) s
      split
      · exact mended
      · exact (fetch_outer _ _ _).trans mended
    · split
      · split
        · rfl
        · split
          · rfl
          · split
            · dsimp only
              exact (fillLine_outer _ _ _).trans (pick_outer s 2)
            · rfl
      · exact (fetch_outer _ _ _).trans (fillLine_outer _ _ _)

theorem coreRead_outer (core line : Nat) (xs : List (Nat × Nat)) (count policy issue : Nat) :
    (s.coreRead core line xs count policy issue).2.outer = s.outer := by
  have found := lookUp_outer s core line xs (policy != 3 && count != 1)
  unfold State.coreRead
  dsimp only
  split <;> rename_i e <;> rw [e] at found
  · exact found
  · exact found
  · exact found
  · exact (l1Put_outer _ _ _).trans found

theorem flushCluster_outer (c : Nat) : (s.flushCluster c).outer = s.outer :=
  foldl_outer _ homeRegister_outer _

theorem deviceBytes_outer (va : Addr) (n : Nat) : (s.deviceBytes va n).2.outer = s.outer := by
  induction n with
  | zero => rfl
  | succ n ih =>
    unfold State.deviceBytes
    split <;> rename_i read <;> rw [read] at ih
    · exact ih
    next b t =>
      have walked := translate_outer t t.tm.core t.tm.ctx (va + BitVec.ofNat 64 (32 * n)) .read
      dsimp only
      split <;> rename_i leaf <;> rw [leaf] at walked
      · exact walked.trans ih
      · split
        · exact walked.trans ih
        · exact (homeAt_outer _ _ _ _ _).trans (walked.trans ih)

end

/-! ### Stash lines (R141, R234) -/

/-- The state without what reads and writes of memory and of stash lines may change. -/
def State.unteamed (s : State) : State := { s.outer with tm := Team.inert, teams := [] }

theorem unteamed_of_outer {s t : State} (h : t.outer = s.outer) : t.unteamed = s.unteamed :=
  congrArg (fun u : State => { u with tm := Team.inert, teams := [] }) h

theorem th_of_unteamed {s t : State} (h : t.unteamed = s.unteamed) : t.th = s.th :=
  (congrArg State.th h : t.unteamed.th = s.unteamed.th)

theorem fabric_of_unteamed {s t : State} (h : t.unteamed = s.unteamed) : t.fabric = s.fabric :=
  (congrArg State.fabric h : t.unteamed.fabric = s.unteamed.fabric)

theorem foldl_unteamed {α : Type} {f : State → α → State} (l : List α) (hf : ∀ s a, (f s a).unteamed = s.unteamed) (s : State) :
    (l.foldl f s).unteamed = s.unteamed :=
  List.foldlRecOn l f (motive := fun t => t.unteamed = s.unteamed) rfl (fun t ht a _ => (hf t a).trans ht)

section
variable (s : State)

theorem setTeam_unteamed (m : Team) : (s.setTeam m).unteamed = s.unteamed := by
  unfold State.setTeam
  split <;> rfl

theorem stashUnitBack_outer (m : Team) (w l : Nat) (d : BitVec 256) (v : Nat) : (s.stashUnitBack m w l d v).outer = s.outer :=
  foldl_outer _ (fun s _ => clusterStore_outer s _ _ _ _) s

theorem stashLineBack_unteamed (u w l : Nat) : (s.stashLineBack u w l).unteamed = s.unteamed := by
  unfold State.stashLineBack
  split
  · rfl
  next m _ =>
    split
    next d _ =>
      exact (setTeam_unteamed _ _).trans
        (unteamed_of_outer (foldl_outer (List.range 32) (fun s v => stashUnitBack_outer s m w l d v) s))
    · rfl

theorem stashMend_outer {m m' : Team} {w l v : Nat} {d : BitVec 256} {t : State}
    (mended : s.stashMend m w l d v = .ok (m', t)) : t.outer = s.outer := by
  unfold State.stashMend at mended
  dsimp only at mended
  split at mended
  · cases mended
  · obtain ⟨-, rfl⟩ := Prod.mk.inj (Except.ok.inj mended)
    exact (coreRead_outer _ _ _ _ _ _ _).trans (stashUnitBack_outer s m w l d v)

theorem stashBack_unteamed (u w : Nat) : (s.stashBack u w).unteamed = s.unteamed := by
  unfold State.stashBack
  split
  · rfl
  · split
    · exact foldl_unteamed _ (fun s l => stashLineBack_unteamed s u w l) s
    · rfl

theorem stashBackAll_unteamed (u : Nat) : (s.stashBackAll u).unteamed = s.unteamed :=
  foldl_unteamed _ (fun s w => stashBack_unteamed s u w) s

/-- What a release does at its scope (R237) leaves all but memory and stash lines. -/
theorem releaseAt_unteamed (core u : Nat) (sc : Scope) : (s.releaseAt core u sc).unteamed = s.unteamed := by
  cases sc with
  | team => rfl
  | cluster => exact stashBackAll_unteamed s u
  | device => exact (unteamed_of_outer (flushCluster_outer _ _)).trans (stashBackAll_unteamed s u)
  | system => exact (unteamed_of_outer (flushCluster_outer _ _)).trans (stashBackAll_unteamed s u)

/-! ### Records (R199, R392) -/

/-- A state reached, or an error, of a walk through the units of a line. -/
def keepsUnteamed : Except XFault State → Prop
  | .ok t => t.unteamed = s.unteamed
  | .error _ => True

/-- One unit of a line becomes whole on the way through them. -/
def mendUnit (w l : Nat) (x : Except XFault State) (v : Nat) : Except XFault State :=
  match x with
  | .error e => .error e
  | .ok s =>
    match (s.tm.window w).line l with
    | .filled d => (s.stashMend s.tm w l d v).map (fun y => { y.2 with tm := y.1 })
    | _ => .ok s

theorem mendUnit_keeps (w l : Nat) {x : Except XFault State} (v : Nat) (h : keepsUnteamed s x) :
    keepsUnteamed s (mendUnit w l x v) := by
  cases x with
  | error e => exact trivial
  | ok t =>
    unfold mendUnit
    dsimp only
    split
    next d _ =>
      cases mended : t.stashMend t.tm w l d v with
      | error e => exact trivial
      | ok y => exact (unteamed_of_outer (stashMend_outer t mended) : y.2.unteamed = t.unteamed).trans h
    · exact h

theorem windowBytes_unteamed (w l off : Nat) (d : BitVec 256) : (s.windowBytes w l off d).2.unteamed = s.unteamed := by
  have walked : keepsUnteamed s ((mixedUnits d off 32).foldl (mendUnit w l) (.ok s)) :=
    List.foldlRecOn _ _ (motive := keepsUnteamed s) rfl (fun _ hx v _ => mendUnit_keeps s w l v hx)
  unfold State.windowBytes
  change (match (motive := _ → Except XFault (List Byte) × State) (mixedUnits d off 32).foldl (mendUnit w l) (.ok s) with
    | .error e => (.error e, s)
    | .ok s => if s.tm.badIn off 32 then (.error ⟨0x30, 0, BitVec.ofNat 64 off⟩, s)
      else (.ok (s.tm.scratchBytes off 32), s)).2.unteamed = _
  split
  · rfl
  next t end_ =>
    rw [end_] at walked
    split
    · exact walked
    · exact walked

/-- The read of a record leaves all but memory and stash lines. -/
theorem recordBytes_unteamed (va : Addr) (n : Nat) : (s.recordBytes va n).2.unteamed = s.unteamed := by
  induction n with
  | zero => rfl
  | succ n ih =>
    unfold State.recordBytes
    split <;> rename_i read <;> rw [read] at ih
    · exact ih
    · extract_lets a
      split
      rename_i r t part
      have taken : t.unteamed = s.unteamed := by
        refine (congrArg (fun x => x.2.unteamed) part).symm.trans (Eq.trans ?_ ih)
        split
        · split
          · exact windowBytes_unteamed _ _ _ _ _
          · exact unteamed_of_outer (deviceBytes_outer _ _ _)
        · exact unteamed_of_outer (deviceBytes_outer _ _ _)
      split <;> exact taken

end

end Sys2Proof.Machine
end

section
/-! PROOF. `gq`, `att` and `tstat` (R392, R393, R398) -/

namespace Sys2Proof.Machine

/-- The line that a record is touched at is not filled (R171). -/
theorem recordLine_unfilled {m : Team} {va : Addr} {n w l off : Nat} (h : m.recordLine va n = some (w, l, off)) :
    (m.window w).line l = .unfilled ∨ (m.window w).line l = .filling := by
  obtain ⟨i, -, part⟩ := List.exists_of_findSome?_eq_some h
  dsimp only at part
  split at part
  · split at part
    · cases part
    next unfilled =>
      obtain ⟨rfl, rfl, -⟩ : _ = w ∧ _ = l ∧ _ = off := by simpa using part
      cases line : (m.window _).line _ with
      | unfilled => exact .inl rfl
      | filling => exact .inr rfl
      | filled d => exact absurd line (unfilled d)
  · cases part

section
variable {s : State} {w l off : Nat} {store flagged : Bool} (body : State → BitVec 256 → Out)

theorem stashTouch_unfilled (line : (s.tm.window w).line l = .unfilled) : s.stashTouch w l off store flagged body =
    .next (({ s with tm := s.tm.setWindow w ((s.tm.window w).setLine l .filling) } : State).park (.stash w l off flagged)) := by
  unfold State.stashTouch
  dsimp only
  rw [line]

theorem stashTouch_filling (line : (s.tm.window w).line l = .filling) :
    s.stashTouch w l off store flagged body = .next (s.park (.stash w l off flagged)) := by
  unfold State.stashTouch
  dsimp only
  rw [line]

end

section
variable {s : State} {e : Bool} {d a : Nat}

/-- A query of a packet, not yet running (R392, R393). -/
def Query.fresh (home : Nat) (addr : Addr) (packet : List Byte) (routed : Bool) : Query :=
  { teller := home, routed := routed, addr := addr, packet := packet, running := false, graph := [], vec := [], parts := [],
    visited := [], cands := [], expansions := 0, waiting := none, out := none }

section
variable (bare : s.bare = true) (acq : s.acqPending = false) (run : s.canRun 6 none [a, a + 1] [] = true)
  (address : addrOk (s.th.pair a) 64 = true) (written : s.written = true)
include bare acq run address written

theorem tellerWord_touches {att : Bool} {w l off : Nat} (line : s.tm.recordLine (s.th.pair a) 8 = some (w, l, off)) :
    s.tellerWord e att a = s.stashTouch w l off false false (fun s _ => .next s.stall) := by
  refine ((memWord_runs _ run (prefixOk_bare bare) acq).trans (withAddr_runs _ address)).trans ?_
  refine (waitFor_runs _ (List.isEmpty_iff.1 written)).trans ?_
  unfold State.withRecord
  rw [line]

theorem tellerWord_leaves (att : Bool) {b : List Byte} {s' : State} (whole : s.tm.recordLine (s.th.pair a) 8 = none)
    (read : s.recordBytes (s.th.pair a) 8 = (.ok b, s')) (room : s'.flagRoom e = true) :
    s.tellerWord e att a = .next (s'.addOp e [] none
      (if att then .att (.fresh (Config.homeTeller s'.nextOp % 48) (s.th.pair a) b att)
       else .gq (.fresh (Config.homeTeller s'.nextOp % 48) (s.th.pair a) b att))) := by
  have th : s'.th = s.th := by
    have same := th_of_unteamed (recordBytes_unteamed s (s.th.pair a) 8)
    rw [read] at same
    exact same
  refine ((memWord_runs _ run (prefixOk_bare bare) acq).trans (withAddr_runs _ address)).trans ?_
  refine ((waitFor_runs _ (List.isEmpty_iff.1 written)).trans (withRecord_runs _ whole)).trans ?_
  rw [read]
  refine (tracked_runs _ room).trans ?_
  rw [th]
  rfl

end

theorem tstat_reads (bare : s.bare = true) (acq : s.acqPending = false) (run : s.canRun 6 none [a] [d] = true)
    (room : s.flagRoom e = true) : exec (.tstat e d a) s =
      if (s.th.reg a).toNat ≤ 47 then .next (s.addOp e [d] none (.tstat d (s.th.reg a).toNat))
      else .next (s.trap { s.here with cause := 0x02, detail := 32 }) := by
  refine ((memWord_runs _ run (prefixOk_bare bare) acq).trans (tracked_runs _ room)).trans ?_
  by_cases small : (s.th.reg a).toNat ≤ 47
  · exact (if_neg (Nat.not_lt.2 small)).trans (if_pos small).symm
  · exact (if_pos (Nat.not_le.1 small)).trans (if_neg small).symm

end

/-- Settles O51: the line a packet is touched at is not filled, and the read of a packet leaves its thread. -/
theorem tellerWords : Obligations.TellerWords := by
  unfold Obligations.TellerWords
  intro s e d a bare acq
  refine ⟨?_, ?_, tstat_reads bare acq⟩
  · intro w l off run address written line x
    refine ⟨recordLine_unfilled line, fun i word => ?_⟩
    have touches : exec i s = s.stashTouch w l off false false (fun s _ => .next s.stall) := by
      obtain rfl | rfl : i = .gq e a ∨ i = .att e a := by simpa using word
      · exact tellerWord_touches bare acq run address written line
      · exact tellerWord_touches bare acq run address written line
    exact ⟨fun unfilled => touches.trans (stashTouch_unfilled _ unfilled), fun filling => touches.trans (stashTouch_filling _ filling)⟩
  · intro b s' run address written whole read room q
    exact ⟨tellerWord_leaves bare acq run address written false whole read room,
      tellerWord_leaves bare acq run address written true whole read room⟩

end Sys2Proof.Machine
end

section
/-! PROOF. Remote copies, signals and adds (R410, R411, R413, R414, R419) -/

namespace Sys2Proof.Machine

/-! ### What leaves the module's number and its ports (R408, R409) -/

theorem cannotSend_of_unteamed {s t : State} (h : t.unteamed = s.unteamed) : t.cannotSend = s.cannotSend := by
  unfold State.cannotSend State.moduleNum
  rw [fabric_of_unteamed h]

theorem countCopy_cannotSend (s : State) : s.countCopy.2.cannotSend = s.cannotSend := by
  unfold State.countCopy
  dsimp only
  split <;> rfl

theorem countCopy_th (s : State) : s.countCopy.2.th = s.th := by
  unfold State.countCopy
  dsimp only
  split <;> rfl

theorem blockAddr_runs {s : State} {va : Addr} {n : Nat} (body : State → Out) (h : addrOk va n = true) :
    s.blockAddr va n body = body s := if_pos h

/-- The registers of a remote copy's block (R411). -/
theorem blockRegs_copy (a : Nat) : blockRegs a 8 = [a, a + 1, a + 2, a + 3, a + 4, a + 5, a + 6, a + 7] := by
  simp [blockRegs, List.range_succ, Nat.add_comm]

section
variable {s : State} {e : Bool} {d a : Nat}

/-! ### Issue (R409, R418) -/

section
variable {regs : List Nat} {r : RemoteOp} {go : State → Op → State} (sends : s.cannotSend = none)
include sends

theorem issueRemote_goes {o : Op} (issued : (s.addOp e regs none (.remote r)).op? s.nextOp = some o) :
    s.issueRemote e regs r go = .next (go (s.addOp e regs none (.remote r)) o) := by
  unfold State.issueRemote
  dsimp only
  rw [issued, show (s.addOp e regs none (.remote r)).cannotSend = none from sends]

/-- An operation that has nothing to do at its issue is one more operation. -/
theorem issueRemote_waits : s.issueRemote e regs r (fun t _ => t) = .next (s.addOp e regs none (.remote r)) := by
  cases issued : (s.addOp e regs none (.remote r)).op? s.nextOp with
  | some o => exact issueRemote_goes sends issued
  | none =>
    unfold State.issueRemote
    dsimp only
    rw [issued]

end

/-! ### The words -/

section
variable (bare : s.bare = true) (free : s.free e = true) (sends : s.cannotSend = none)
  (target : (s.th.reg a).toNat < 512)
include bare free target

theorem remoteWord_runs {role : Option Role} {n : Nat} {own : List Nat} (body : State → Nat → Out)
    (run : s.canRun 6 role (blockRegs a n ++ own) own = true) :
    s.remoteWord e role n a own body = body s (s.th.reg a).toNat :=
  (trackedMem_runs _ free run (prefixOk_bare bare)).trans (if_neg (Nat.not_le.2 target))

include sends

theorem remoteCopy_leaves {to_ : Option Nat} {rec_ : Bool}
    (run : s.canRun 6 (some .copy) (blockRegs a 8 ++ (to_.map pairRegs).getD []) ((to_.map pairRegs).getD []) = true)
    (room : s.room OpKind.isCopy 32 = true) (dst : addrOk (s.th.pair (a + 1)) 16 = true)
    (src : addrOk (s.th.pair (a + 3)) 16 = true) (long : 1 ≤ (s.th.reg (a + 5)).toNat) (short : (s.th.reg (a + 5)).toNat ≤ 65536)
    (arr : addrOk (s.th.pair (a + 6)) (if rec_ then 16 else 4) = true) (record : rec_ = true → s.th.pair (a + 6) ≠ 0) :
    s.remoteCopy e to_ rec_ a = .next (s.countCopy.2.addOp e ((to_.map pairRegs).getD []) none (.remote
      { target := (s.th.reg a).toNat,
        body := .copy (s.th.pair (a + 1)) [] (s.th.pair (a + 6))
          (to_.map (fun _ => (to_.map (fun d => s.th.reg (d + 1))).getD 0)) (if rec_ then some 0 else none),
        d := to_, srcVa := s.th.pair (a + 3), srcLeft := 16 * (s.th.reg (a + 5)).toNat, sent := false, sentAt := 0,
        sum := (to_.map (fun d => s.th.reg d)).getD 0, flip := s.countCopy.1 })) := by
  unfold State.remoteCopy
  refine (remoteWord_runs bare free target _ run).trans ((queued_runs _ room).trans ?_)
  refine (blockAddr_runs _ dst).trans ((blockAddr_runs _ src).trans ?_)
  refine (if_neg (by omega)).trans ((if_neg fun h => record h.1 h.2).trans ((blockAddr_runs _ arr).trans ?_))
  have still := (countCopy_cannotSend s).trans sends
  dsimp only
  rw [countCopy_th]
  exact issueRemote_waits still

theorem rsig_sends {o : Op} (run : s.canRun 6 none [a, a + 1, a + 2] [] = true) (word : addrOk (s.th.pair (a + 1)) 4 = true)
    (settled : s.awaited (fun o => o.accesses || o.isRemote) = [])
    (unfaulted : (∀ p ∈ s.ops, p.key = s.th.key → p.fault.isSome = true → p.isRemote = false) ∨ s.th.trapActive = true) :
    let r := remoteNow (s.th.reg a).toNat (.signal (s.th.pair (a + 1))) none
    let u := s.systemFork.addOp e [] none (.remote r)
    u.op? s.systemFork.nextOp = some o → exec (.rsig e a) s = .next (u.sendRemote o r (.signal (s.th.pair (a + 1)))) := by
  intro r u issued
  have forked := cannotSend_of_unteamed (releaseAt_unteamed s s.tm.core s.th.key.team .system)
  have go : s.systemFork.issueRemote e [] r (fun s o => s.sendRemote o r r.body) = .next (u.sendRemote o r r.body) :=
    issueRemote_goes (forked.trans sends) issued
  show execRsig e a s = _
  unfold execRsig
  refine (remoteWord_runs bare free target (n := 3) (own := []) _ (by rwa [blockRegs_three])).trans ?_
  refine (blockAddr_runs _ word).trans ((waitFor_runs _ settled).trans ?_)
  split
  next p found =>
    have there := List.mem_of_find?_eq_some found
    have is := List.find?_some found
    simp only [Bool.and_eq_true, beq_iff_eq] at is
    obtain ⟨⟨key, remote⟩, faulted⟩ := is
    rcases unfaulted with none | handler
    · exact absurd (none p there key faulted) (by simp [remote])
    · exact (if_pos handler).trans go
  · exact go

theorem ratomAdd_sends {o : Op} (run : s.canRun 6 none [a, a + 1, a + 2, d] [d] = true)
    (word : addrOk (s.th.pair (a + 1)) 4 = true) (settled : s.settled = true) :
    let r := remoteNow (s.th.reg a).toNat (.add (s.th.pair (a + 1)) (s.th.reg d)) (some d)
    let u := s.systemFork.addOp e [d] none (.remote r)
    u.op? s.systemFork.nextOp = some o → exec (.ratomAdd e d a) s = .next (u.sendRemote o r r.body) := by
  intro r u issued
  have forked := cannotSend_of_unteamed (releaseAt_unteamed s s.tm.core s.th.key.team .system)
  show execRatomAdd e d a s = _
  unfold execRatomAdd
  refine (remoteWord_runs bare free target (n := 3) (own := [d]) _ (by rwa [blockRegs_three])).trans ?_
  refine (blockAddr_runs _ word).trans ((waitFor_settled _ settled fun _ h => h).trans ?_)
  exact issueRemote_goes (forked.trans sends) issued

end

/-- A signal takes the fault of an earlier remote operation of its thread (R414). -/
theorem rsig_delivers {p : Op} (bare : s.bare = true) (free : s.free e = true) (run : s.canRun 6 none [a, a + 1, a + 2] [] = true)
    (target : (s.th.reg a).toNat < 512) (word : addrOk (s.th.pair (a + 1)) 4 = true) (outside : s.th.trapActive = false)
    (settled : s.awaited (fun o => o.accesses || o.isRemote) = [])
    (found : s.ops.find? (fun p => p.key == s.th.key && p.isRemote && p.fault.isSome) = some p) :
    exec (.rsig e a) s = .next { s.deliver s.th s.tm p (p.fault.getD s.here) (s.header, s.wordIdx) with pfx := none } := by
  show execRsig e a s = _
  unfold execRsig
  refine (remoteWord_runs bare free target (n := 3) (own := []) _ (by rwa [blockRegs_three])).trans ?_
  refine (blockAddr_runs _ word).trans ((waitFor_runs _ settled).trans ?_)
  rw [found]
  exact if_neg (by simp [outside])

end

/-- Settles O52: the copies by `remoteCopy_leaves`, the signal and the add through their system-scope fork, which leaves the
module's number and ports. -/
theorem remoteWords : Obligations.RemoteWords := by
  unfold Obligations.RemoteWords
  intro s e d a bare free sends target dst src len arr block copy
  refine ⟨?_, ?_, ?_, ?_, ?_, ?_⟩
  · exact fun run room small dstOk srcOk long short arrOk record =>
      remoteCopy_leaves (to_ := none) bare free sends small (by rwa [blockRegs_copy]) room dstOk srcOk long short arrOk record
  · exact fun run room small dstOk srcOk long short arrOk record =>
      remoteCopy_leaves (to_ := some d) bare free sends small (by rwa [blockRegs_copy]) room dstOk srcOk long short arrOk record
  · exact fun run room small dstOk srcOk long short arrOk record =>
      remoteCopy_leaves (to_ := some d) bare free sends small (by rwa [blockRegs_copy]) room dstOk srcOk long short arrOk record
  · exact fun o run small word settled unfaulted => rsig_sends bare free sends small run word settled unfaulted
  · exact fun p run small word outside settled found => rsig_delivers bare free run small word outside settled found
  · exact fun o run small word settled => ratomAdd_sends bare free sends small run word settled

end Sys2Proof.Machine
end

section
/-! PROOF. A fault leaves the fabric's registers, ports and queues as they are (R28, R31, R186, R418) -/

namespace Sys2Proof.Machine

theorem fabric_of_outer {s t : State} (h : t.outer = s.outer) : t.fabric = s.fabric :=
  (congrArg State.fabric h : t.outer.fabric = s.outer.fabric)

theorem foldl_fabric {α : Type} {f : State → α → State} (l : List α) (hf : ∀ s a, (f s a).fabric = s.fabric) (s : State) :
    (l.foldl f s).fabric = s.fabric :=
  List.foldlRecOn l f (motive := fun t => t.fabric = s.fabric) rfl (fun t ht a _ => (hf t a).trans ht)

section
variable (s : State)

@[simp] theorem snapOnCause_fabric (c : Nat) : (s.snapOnCause c).fabric = s.fabric := by
  rw [snapOnCause_sup]

@[simp] theorem pushEntry_fabric (n : Nat) (e : FqEntry) : (s.pushEntry n e).fabric = s.fabric := by
  rw [pushEntry_tenants]

@[simp] theorem markLane_fabric (k : ThreadKey) (pa : Option Nat) : (s.markLane k pa).fabric = s.fabric := by
  unfold State.markLane
  split <;> rfl

theorem stopThread_fabric (t : Thread) (r : FaultRec) : (s.stopThread t r).fabric = s.fabric := by
  unfold State.stopThread
  dsimp only
  split <;> simp only [markLane_fabric, pushEntry_fabric, State.setThread_fabric]

theorem trapThread_fabric (t : Thread) (m : Team) (r : FaultRec) (fpc : Addr) (resume : Addr × Nat) (count : Nat)
    (replay : Option Nat) : (s.trapThread t m r fpc resume count replay).fabric = s.fabric := by
  have place := fabric_of_outer (translate_outer (s.snapOnCause r.cause) m.core m.ctx (frecOf m t.key) .write)
  unfold State.trapThread
  dsimp only
  split
  · rw [stopThread_fabric, snapOnCause_fabric]
  · split <;> rename_i found <;> rw [State.recPlace] at found <;> rw [found, snapOnCause_fabric] at place
    · rw [stopThread_fabric]
      exact place
    next f pa u =>
      have written : (u.deviceWrite m.core pa r.toBytes).fabric = s.fabric :=
        (fabric_of_outer (deviceWrite_outer u m.core pa r.toBytes)).trans place
      rw [State.setThread_fabric]
      split
      · exact (markLane_fabric _ _ _).trans written
      · exact written

theorem failOp1_fabric (o : Op) (r : FaultRec) : (s.failOp1 o r).fabric = s.fabric := by
  unfold State.failOp1
  split
  · rfl
  · split
    · dsimp only
      have kept (r : FaultRec) : (if o.kind.replays = true then s.setOp { o with fault := some r, waitPage := none }
          else s.dropOp o.id).fabric = s.fabric := by
        split <;> rfl
      split
      · exact kept _
      · exact (trapThread_fabric _ _ _ _ _ _ _ _).trans (kept _)
    · split
      · dsimp only
        split
        · rfl
        · exact trapThread_fabric _ _ _ _ _ _ _ _
      · rfl

theorem failOp_fabric (o : Op) (r : FaultRec) : (s.failOp o r).fabric = s.fabric := by
  unfold State.failOp
  dsimp only
  refine (foldl_fabric _ (fun s p => failOp1_fabric s _ _) _).trans ((failOp1_fabric _ _ _).trans ?_)
  split
  · split
    · exact State.setTeam_fabric _ _
    · rfl
  · rfl

theorem remoteFail_fabric (o : Op) (cause : Nat) (va detail : BitVec 64) : (s.remoteFail o cause va detail).fabric = s.fabric := by
  unfold State.remoteFail
  dsimp only
  refine (failOp_fabric _ _ _).trans ?_
  split
  · exact State.setThread_fabric _ _
  · rfl

end

end Sys2Proof.Machine
end

section
/-! PROOF. Fabric registers, remote operations and RoCE (R407 to R409, R413 to R420) -/

namespace Sys2Proof.Machine

/-! ### Registers and ports (R407 to R409, R417, R419) -/

section
variable (s : State)

/-- The bits of a context's fabric register that are kept are those it is read by. -/
theorem fabBits_masked (v : BitVec 64) : (v &&& 0xFFFF0001).getLsbD 0 = v.getLsbD 0 ∧
    ((v &&& 0xFFFF0001) >>> 16).setWidth 16 = (v >>> 16).setWidth 16 := by
  have kept : ∀ i < 16, (0xFFFF0001 : BitVec 64).getLsbD (16 + i) = true := by decide
  refine ⟨?_, BitVec.eq_of_getLsbD_eq fun i small => ?_⟩
  · rw [BitVec.getLsbD_and, show (0xFFFF0001 : BitVec 64).getLsbD 0 = true from by decide, Bool.and_true]
  · simp only [BitVec.getLsbD_setWidth, BitVec.getLsbD_ushiftRight, BitVec.getLsbD_and, kept i small, Bool.and_true]

theorem fabContextWrite_sets {c : Nat} (v : BitVec 64) (small : c < 64) : ∃ t, exec (.fabContextWrite c v) s = .next t ∧
    t.fabOf c = (v.getLsbD 0, (v >>> 16).setWidth 16) ∧ ∀ d, d ≠ c → t.fabOf d = s.fabOf d := by
  obtain ⟨enable, key⟩ := fabBits_masked v
  refine ⟨_, orStay_unless (Nat.not_le.2 small), ?_, fun d other => ?_⟩
  · unfold State.fabOf
    dsimp only [Option.getD_some]
    rw [find?_upsert _ (by simp)]
    simp only [Option.map_some, Option.getD_some, enable, key]
  · unfold State.fabOf
    dsimp only [Option.getD_some]
    rw [find?_upsert_other _ (by simpa using Ne.symm other) (fun y mine => ?_)]
    rw [beq_iff_eq.1 mine]
    simpa using Ne.symm other

theorem injectArm_arms (a : InjectArg) : ∃ t, exec (.injectArm a) s = .next t ∧
    (t.fabric.inject.armed = true ↔ a.arm = true ∧ 1 ≤ a.nth ∧ a.nth ≤ 65535 ∧ a.bit < 8) ∧
    t.fabric.inject.nth = a.nth ∧ t.fabric.inject.left = a.nth ∧ t.fabric.inject.ctx = a.ctx := by
  refine ⟨_, rfl, ?_, rfl, rfl, rfl⟩
  simp only [Bool.and_eq_true, decide_eq_true_eq, and_assoc]

theorem portTrained_works {p : Nat} (small : p < 32) (down : s.fabric.ports.getLsbD p = false) :
    exec (.portTrained p) s = .next { s with fabric := { s.fabric with ports := s.fabric.ports ||| (1#32 <<< p) } } :=
  orStay_unless (not_or.2 ⟨Nat.not_le.2 small, by rw [down]; exact Bool.false_ne_true⟩)

/-- What becomes of one operation with the module's last port (R418). -/
def State.reachLost (s : State) (o : Op) : State :=
  match o.kind with
  | .remote r => if o.fault.isNone && !s.answered o then s.remoteFail o 0x31 (remoteAddr r.body) 3 else s
  | _ => s

theorem reachLost_fabric (o : Op) : (s.reachLost o).fabric = s.fabric := by
  unfold State.reachLost
  split
  · split
    · exact remoteFail_fabric _ _ _ _ _
    · rfl
  · rfl

section
variable {p : Nat} (small : p < 32) (up : s.fabric.ports.getLsbD p = true)
include small up

theorem waconFlitRetry_counts :
    exec (.waconFlitRetry p) s = .next { s with fabric := { s.fabric with retries := s.fabric.retries + 1 } } :=
  orStay_unless (by simp [up, small])

theorem portFailure_loses : ∃ t, exec (.portFailure p) s = .next t ∧ t.fabric.ports = s.fabric.ports &&& ~~~(1#32 <<< p) := by
  have event : exec (.portFailure p) s = s.orStay
      (if (s.fabric.ports &&& ~~~(1#32 <<< p)) ≠ 0 then some (s.setPorts (s.fabric.ports &&& ~~~(1#32 <<< p)))
       else some (s.ops.foldl State.reachLost (s.setPorts (s.fabric.ports &&& ~~~(1#32 <<< p))).dropLoop)) :=
    orStay_unless (by simp [up, small])
  by_cases left : (s.fabric.ports &&& ~~~(1#32 <<< p)) ≠ 0
  · exact ⟨_, event.trans (congrArg s.orStay (if_pos left)), rfl⟩
  · exact ⟨_, event.trans (congrArg s.orStay (if_neg left)), congrArg Fabric.ports (foldl_fabric s.ops reachLost_fabric _)⟩

end

theorem hostLinkTraining_trains {lanes rate : Nat} (width : lanes ∈ [4, 8, 16])
    (speed : rate ∈ [2500, 5000, 8000, 16000, 32000, 64000]) (other : s.fabric.host ≠ .up lanes rate) :
    exec (.hostLinkTraining (.up lanes rate)) s = .next { s with fabric := { s.fabric with host := .up lanes rate } } :=
  have trains : ([4, 8, 16].contains lanes && [2500, 5000, 8000, 16000, 32000, 64000].contains rate) = true :=
    Bool.and_eq_true_iff.2 ⟨List.contains_iff_mem.2 width, List.contains_iff_mem.2 speed⟩
  orStay_unless (by
    dsimp only
    rw [trains]
    simp [other])

/-! ### At the target (R409, R413, R418) -/

theorem remoteOpArrival_performs (q : RemoteReq) (module : s.moduleNum.isSome = true) (ports : s.fabric.ports ≠ 0) :
    let u := s.takeOut q
    let no : Nat := if (s.ctxOf q.ctx).isNone && s.fabric.lost.contains q.ctx then 4 else 1
    let r := if u.accepts q then u.performRemote q else (.remoteFault no 0 (remoteAddr q.body), u)
    exec (.remoteOpArrival q) s =
      .next { r.2 with fabric := { r.2.fabric with replies := r.2.fabric.replies ++ [⟨q.source, q.tag, r.1⟩] } } :=
  orStay_unless (by simpa [Option.isSome_iff_ne_none.1 module] using ports)

end

/-! ### Back at the issuer (R413, R415, R418) -/

section
variable {s : State} {n : Nat} {o : Op} {r : RemoteOp} (ready : s.opReady n o = true) (kind : o.kind = .remote r)
  (sent : r.sent = true)
include ready kind sent

theorem remoteAck_done {v : Word} {d : Nat} (away : r.target ≠ s.moduleNum.getD 0) (reg : r.d = some d) :
    exec (.remoteAck n (.done v)) s =
      .next (((s.writeRegs o.key d (r.results v)).acquireStep o.core o.key.team .device).finishOp o) := by
  refine (onOp_ready ready).trans ?_
  rw [kind]
  refine (orStay_unless (by simp [sent])).trans ((orStay_unless fun h => away h.1).trans ?_)
  rw [if_neg away, reg]
  rfl

theorem remoteAck_fails {va : Addr} {d : Nat} (away : r.target ≠ s.moduleNum.getD 0) :
    exec (.remoteAck n (.linkFailed d va)) s = .next (s.remoteFail o 0x31 va (BitVec.ofNat 64 d)) := by
  refine (onOp_ready ready).trans ?_
  rw [kind]
  refine (orStay_unless (by simp [sent])).trans ((orStay_unless fun h => away h.1).trans ?_)
  rw [if_neg away]
  rfl

theorem remoteTimeout_fails (late : r.sentAt + 2 ^ 24 ≤ s.clocks.getD 4 0) :
    exec (.remoteTimeout n) s = .next (s.remoteFail o 0x32 (remoteAddr r.body) 3) := by
  refine (onOp_ready ready).trans ?_
  rw [kind]
  exact orStay_when (by rw [sent, decide_eq_true late]; rfl)

end

/-! ### RoCE (R420) -/

theorem setQp_roce (s : State) (q : RoceQp) : ∀ x ∈ (s.setQp q).roce, x.num = q.num → x = q := by
  intro x hx mine
  obtain ⟨y, -, rfl⟩ := List.mem_map.1 hx
  split
  · rfl
  next other =>
    rw [if_neg other] at mine
    exact absurd mine other

/-- What a completion has written before its queue pair moves on (R420). -/
def State.roceCompleted (s : State) (q : RoceQp) (w k : List Byte) : State :=
  let (put, va, len) := Config.roceEntry w
  let s := if put = 0 then s else (s.remotePut q.ctx (len + 1) va ((List.range len).map (Config.roceData w))).2
  s.completeQp q (leNat k) (Config.roceCompletionEntry w)

section
variable {s : State} {n : Nat} {q : RoceQp} (there : s.roce.find? (fun q => q.num == n) = some q)
include there

/-- The state without the monitors of a queue pair. -/
def State.unwatched (s : State) (n : Nat) : State := { s with monitors := s.monitors.filter (fun m => m.qp != some n) }

section
variable {p : List Byte} {pa : Nat} (unwatched : s.monitors.any (fun m => m.qp == some n && !m.fired) = false)
  (producer : (s.unwatched n).readVa q.ctx q.producer 4 .read = .ok p)
  (place : (s.unwatched n).xlate q.ctx q.producer .read = .ok pa)
include unwatched producer place

theorem roceWorkFetch_takes {b : List Byte}
    (entry : (s.unwatched n).readVa q.ctx (q.workBase + BitVec.ofNat 64 (64 * (q.fetched % q.slots))) 64 .read = .ok b)
    (moved : leNat p ≠ q.fetched % 2 ^ 32) :
    exec (.roceWorkFetch n) s = .next ((s.unwatched n).setQp { q with fetched := q.fetched + 1, entries := q.entries ++ [b] }) := by
  show execRoceWorkFetch n s = _
  unfold execRoceWorkFetch
  rw [there]
  refine (orStay_unless (by rw [unwatched]; exact Bool.false_ne_true)).trans ?_
  change s.orStay (match (s.unwatched n).readVa q.ctx q.producer 4 .read, (s.unwatched n).xlate q.ctx q.producer .read with
    | .ok p, .ok pa => _ | _, _ => _) = _
  rw [producer, place]
  dsimp only
  rw [if_neg moved]
  change s.orStay (match (s.unwatched n).readVa q.ctx (q.workBase + BitVec.ofNat 64 (64 * (q.fetched % q.slots))) 64 .read with
    | .ok b => _ | .error _ => _) = _
  rw [entry]
  rfl

theorem roceWorkFetch_watches (still : leNat p = q.fetched % 2 ^ 32)
    (room : ((s.unwatched n).monitors.filter (fun m => sliceOf m.word == sliceOf pa)).length < 256) :
    ∃ t, exec (.roceWorkFetch n) s = .next t ∧
      ∃ m ∈ t.monitors, m.qp = some n ∧ m.word = pa ∧ m.cmp = 1 ∧ m.value = BitVec.ofNat 32 q.fetched ∧ m.fired = false := by
  have mine : q.num = n := by simpa using List.find?_some there
  obtain ⟨u, watched, m, new, is⟩ : ∃ u, (s.unwatched n).watchProducer q pa = some u ∧ ∃ m ∈ u.monitors,
      m.qp = some n ∧ m.word = pa ∧ m.cmp = 1 ∧ m.value = BitVec.ofNat 32 q.fetched ∧ m.fired = false := by
    refine ⟨_, if_neg (Nat.not_le.2 room), _, List.mem_append_right _ (List.mem_singleton_self _), ?_⟩
    exact ⟨congrArg some mine, rfl, rfl, rfl, rfl⟩
  refine ⟨u, ?_, m, new, is⟩
  show execRoceWorkFetch n s = _
  unfold execRoceWorkFetch
  rw [there]
  refine (orStay_unless (by rw [unwatched]; exact Bool.false_ne_true)).trans ?_
  change s.orStay (match (s.unwatched n).readVa q.ctx q.producer 4 .read, (s.unwatched n).xlate q.ctx q.producer .read with
    | .ok p, .ok pa => _ | _, _ => _) = _
  rw [producer, place]
  dsimp only
  rw [if_pos still]
  change s.orStay (match (s.unwatched n).watchProducer q pa with | some s => some s | none => none) = _
  rw [watched]
  rfl

end

theorem roceCompletion_completes {w : List Byte} {rest : List (List Byte)} {k : List Byte} (entries : q.entries = w :: rest)
    (count : s.readVa q.ctx q.countWord 4 .read = .ok k) :
    ∃ t, exec (.roceCompletion n) s = .next t ∧ (∀ x ∈ t.roce, x.num = n → x = { q with entries := rest }) := by
  have mine : q.num = n := by simpa using List.find?_some there
  have event : exec (.roceCompletion n) s = .next ((s.roceCompleted q w k).setQp { q with entries := rest }) := by
    show execRoceCompletion n s = _
    unfold execRoceCompletion
    rw [there]
    dsimp only
    rw [entries, count]
    rfl
  exact ⟨_, event, fun x hx num => setQp_roce _ _ x hx (num.trans mine.symm)⟩

section
variable {x : RdmaKind} {va : Addr} {b : List Byte}

theorem rdmaInbound_write (kind : x = .write) :
    exec (.rdmaInbound n ⟨x, va⟩ b) s = .next (s.remotePut q.ctx (b.length + 1) va b).2 := by
  show execRdmaInbound n ⟨x, va⟩ b s = _
  unfold execRdmaInbound
  rw [there]
  dsimp only
  rw [if_pos kind]
  rfl

theorem rdmaInbound_completes {k : List Byte} (kind : x ≠ .write)
    (count : (s.remotePut q.ctx (b.length + 1) va b).2.readVa q.ctx q.countWord 4 .read = .ok k) :
    exec (.rdmaInbound n ⟨x, va⟩ b) s =
      .next ((s.remotePut q.ctx (b.length + 1) va b).2.completeQp q (leNat k) (Config.roceCompletionEntry b)) := by
  show execRdmaInbound n ⟨x, va⟩ b s = _
  unfold execRdmaInbound
  rw [there]
  dsimp only
  rw [if_neg kind, count]
  rfl

end

theorem rdmaReadRequest_answers (va : Addr) (k : Nat) : exec (.rdmaReadRequest n va k) s =
    .next ((s.remoteGet q.ctx (k + 1) va k).2.setQp
      { q with answers := q.answers ++ [(s.remoteGet q.ctx (k + 1) va k).1.toOption] }) := by
  show execRdmaReadRequest n va k s = _
  unfold execRdmaReadRequest
  rw [there]
  rfl

theorem cnpReceived_slows : exec (.cnpReceived n) s = .next (s.setQp { q with rate := Config.roceRate q.rate }) := by
  show execCnpReceived n s = _
  unfold execCnpReceived
  rw [there]
  rfl

end

/-- Settles O59: the registers by their masks, the ports through faults that leave the fabric, the rest by the branch that the
event's conditions select. -/
theorem fabricEvents : Obligations.FabricEvents := by
  unfold Obligations.FabricEvents
  intro s
  refine ⟨fun v => rfl, fun c v => fabContextWrite_sets s v, injectArm_arms s, fun p => portTrained_works s,
    fun p small up => ⟨waconFlitRetry_counts s small up, portFailure_loses s small up⟩,
    fun lanes rate => hostLinkTraining_trains s, remoteOpArrival_performs s, ?_, ?_⟩
  · exact fun n o r ready kind sent => ⟨fun v d => remoteAck_done ready kind sent, fun d va => remoteAck_fails ready kind sent,
      remoteTimeout_fails ready kind sent⟩
  · intro n q there
    refine ⟨?_, fun w rest k => roceCompletion_completes there, fun x va b => ⟨rdmaInbound_write there, fun kind k =>
      rdmaInbound_completes there kind⟩, rdmaReadRequest_answers there, cnpReceived_slows there⟩
    exact fun p pa unwatched producer place => ⟨fun b => roceWorkFetch_takes there unwatched producer place,
      roceWorkFetch_watches there unwatched producer place⟩

end Sys2Proof.Machine
end
